-- ==== Sys2Proof/Word.lean ====
section
/-! DEFINITION. The word types of the ZS9 (R7: bit 0 is the least significant bit, multi-byte
structures are little-endian) and the shape of a sparse table: a list of (key, value) pairs. -/
namespace Sys2Proof

/-- One byte. -/
abbrev Byte := BitVec 8
/-- A register word (R9). -/
abbrev W32 := BitVec 32
/-- A 64-bit word. -/
abbrev W64 := BitVec 64
/-- A sparse table keyed by a number, in the canonical form of `Machine/Store.lean`. -/
abbrev SMap (α : Type) := List (Nat × α)

end Sys2Proof
end

