-- ==== Sys2Proof/Types.lean ====
section
/-! DEFINITION. The plain data that commands carry and that the block holds: messages, packets, descriptors,
the decoded image. Layouts follow the chapters of the spec named beside each. -/
namespace Sys2Proof.Machine
open Sys2Proof

/-- A 128-bit fault or event message (R487). -/
structure FltMsg where
  /-- R487 [11:0], reporting unit -/
  source : Nat := 0
  /-- R487 [19:12], what happened -/
  kind : Nat := 0
  /-- R487 [31:20], the source's message count modulo 4,096 -/
  seq : Nat := 0
  /-- R487 [63:32], bits [31:0] of the tick of the event -/
  tick : Nat := 0
  /-- R487 [111:64], ADDRESS -/
  addr : Nat := 0
  /-- R487 [127:112], AUX -/
  aux : Nat := 0
  deriving DecidableEq, Repr

/-- A pass descriptor (R85). -/
structure Desc where
  /-- R86 32, control word -/
  ctrl : Nat := 0
  /-- R85 16, beats -/
  m : Nat := 0
  /-- R85 16, signed anchor exponent, as its 16 bits -/
  anchor : Nat := 0
  /-- R85 32, activation row 0 -/
  actAddr : Nat := 0
  /-- R85 32, bytes between activation rows -/
  actStride : Nat := 0
  /-- R85 32, weight set -/
  wgtAddr : Nat := 0
  /-- R85 32, activation scale rows -/
  scaleAddr : Nat := 0
  /-- R85 16, first accumulator row -/
  tileRow : Nat := 0
  /-- R85 16, output row stride in units of 64 bytes -/
  outStride : Nat := 0
  /-- R85 32, output row 0 -/
  outAddr : Nat := 0
  /-- R85 32, mask -/
  maskAddr : Nat := 0
  /-- R85 32, sequence number -/
  seq : Nat := 0
  /-- R85 32, JOB_ID, written by the ZS9 -/
  job : Nat := 0
  /-- R85 8, PRIO byte, bits [2:0] written by the ZS9 -/
  prio : Nat := 0
  /-- R85 8, THREAD, written by the ZS9 -/
  thread : Nat := 0
  /-- R85 16, reserved, must be 0 -/
  rsv : Nat := 0
  /-- R85 64, RADIO_ACT_SRC -/
  radAct : Nat := 0
  /-- R85 64, RADIO_WGT_SRC -/
  radWgt : Nat := 0
  deriving DecidableEq, Repr

/-- A stage-memory transfer at a bank's arbiter (R187). -/
structure Transfer where
  /-- R188 4, arbiter input 0 to 15 -/
  input : Nat := 0
  /-- R187, first line of the bank, in 64-byte lines -/
  line : Nat := 0
  /-- R187 1 to 64, beats of the transfer -/
  beats : Nat := 1
  /-- R187 1, a write -/
  write : Bool := false
  /-- R187, bytes of a write -/
  data : List Byte := []
  /-- R489 12, source number of the requesting unit -/
  master : Nat := 0
  /-- R381, core, thread and local offset of an `xfer` -/
  xfer : Option (Nat × Nat × Nat) := none
  /-- R147 32, the job that the thread of an `xfer` is bound to -/
  job : Nat := 0
  /-- R188 1, of a radio master, or of a unit in its radio lease -/
  radio : Bool := false
  /-- R208, bytes of the first line that a write leaves -/
  skip : Nat := 0
  /-- R187, data mover and number of the transfer it waits for: channel c of array n is mover 16 n + c, bulk mover m is 1,024 + m -/
  mv : Option (Nat × Nat) := none
  /-- R185, thread engine and thread of a thread's access -/
  te : Option (Nat × Nat) := none
  deriving DecidableEq, Repr

/-- Who submits a bulk descriptor (R205): the radio program; a COPY or FILL command, by its window and position (R470); the serving
engine, for the zero fill of a run of pool units (R239), for a piece of a context's archive copy or reload (R252), or for the zero fill
of freed archive units. -/
inductive BulkSub where
  | radio | cmd (w pos : Nat) | zero (u : Nat) | copy (n : Nat) | reload (n : Nat) | arch
  deriving DecidableEq, Repr

/-- A bulk-mover descriptor (R206). -/
structure BulkDesc where
  /-- R206 32, OP, SRC_FIXED, DST_FIXED, CPL -/
  ctrl : Nat := 0
  /-- R206 32, bytes -/
  len : Nat := 0
  /-- R206 64, global source address -/
  src : Nat := 0
  /-- R206 64, global destination address -/
  dst : Nat := 0
  /-- R206 32, returned in the completion -/
  seq : Nat := 0
  /-- R206 16, submitter's tenant, written by the ZS9 -/
  tenant : Nat := 0
  /-- R206 16, reserved, 0 -/
  rsv : Nat := 0
  /-- R205, its submitter -/
  sub : BulkSub := .radio
  /-- R483, time base at that command's fetch point -/
  ns : Nat := 0
  deriving DecidableEq, Repr

/-- An array DMA descriptor (R201). -/
structure DmaDesc where
  /-- R201 32, CTRL -/
  ctrl : Nat := 0
  /-- R201 24, row length in bytes -/
  len : Nat := 0
  /-- R201 64, SRC -/
  src : Nat := 0
  /-- R201 64, DST -/
  dst : Nat := 0
  /-- R201 16, innermost loop count -/
  n0 : Nat := 0
  /-- R201 16, middle loop count -/
  n1 : Nat := 0
  /-- R201 16, outer loop count -/
  n2 : Nat := 0
  /-- R201 3 × 32, source steps -/
  ss : List Int := []
  /-- R201 3 × 32, destination steps -/
  ds : List Int := []
  /-- R201 32, returned in the completion -/
  seq : Nat := 0
  /-- R201 1, a reserved bit is not 0 -/
  rsv : Bool := false
  deriving DecidableEq, Repr

/-- One side of what a data mover moves: an address of this chip, of another chip, of a host aperture, or zeros. -/
inductive MEnd where
  | loc (a : Nat) | far (chip a : Nat) | host (a : Nat) | zero
  deriving DecidableEq, Repr

/-- What a data mover waits for: a request to another chip (a read or a write, its tag, the bytes to skip and to take), a transfer of a
stage-memory bank (a read or a write, its number, the bytes to skip and to take), or the host's answer. -/
inductive MWait where
  | none | far (read : Bool) (tag skip n : Nat) | bank (read : Bool) (id skip n : Nat) | host (n : Nat)
  deriving DecidableEq, Repr

/-- Why a row or descriptor of a mover ends with an error: an uncorrectable error or arbiter timeout at its source, or at its
destination; an access of this chip with error status; a request to another chip with error status, or whose bound expired. -/
inductive MErr where
  | srcBad | dstBad | srcGone | dstGone | srcFar | dstFar (dead : Bool)
  deriving DecidableEq, Repr

/-- How far a data mover is in the row or descriptor that it moves (R203, R207). -/
structure Move where
  /-- R207, bytes written -/
  wr : Nat := 0
  /-- R203 4 KiB, bytes read and not yet written -/
  buf : List Byte := []
  /-- R187, R338, what it waits for -/
  wait : MWait := .none
  /-- R204, R207, why it ended -/
  err : Option MErr := none
  deriving DecidableEq, Repr

/-- A partition as the PARTITIONS section gives it (R24). -/
structure PartCfg where
  /-- R24 4, partition number 0 to 15 -/
  id : Nat := 0
  /-- R24, logical arrays -/
  arrays : List Nat := []
  /-- R24, stage-memory banks -/
  banks : List Nat := []
  /-- R24, LPDDR ranges, base and bytes -/
  ranges : List (Nat × Nat) := []
  /-- R24, fabric queues: port × 8 + queue -/
  queues : List Nat := []
  /-- R199, logical signal cores given to the partition -/
  sigCores : List Nat := []
  /-- R239 28, first 4 KiB unit of its pool, counted from `SRV_KV_BASE` -/
  kvBase : Nat := 0
  /-- R239 28, units of its pool -/
  kvUnits : Nat := 0
  /-- R262 48, `SPC_TREE_BASE_n` -/
  treeBase : Nat := 0
  /-- R523 1, the partition is audited -/
  audited : Bool := false
  deriving DecidableEq, Repr

/-- A member of a composition (R275). -/
structure Member where
  /-- R275 12, chip -/
  chip : Nat := 0
  /-- R275 4, partition -/
  part : Nat := 0
  /-- R273 2, 0 PROMPT, 1 GEN, 2 CACHE, 3 MIXED -/
  role : Nat := 0
  /-- R275 1, DRAIN -/
  drain : Bool := false
  deriving DecidableEq, Repr

/-- A composition descriptor (R275). -/
structure CompCfg where
  /-- R275 8, COMP_ID -/
  id : Nat := 0
  /-- R275 16, EPOCH -/
  epoch : Nat := 0
  /-- R275 32, MODEL -/
  model : Nat := 0
  /-- R275 64, ARCH_ADDR -/
  archAddr : Nat := 0
  /-- R275 32, ARCH_UNITS -/
  archUnits : Nat := 0
  /-- R275 255, MEMBER entries, in order -/
  members : List Member := []
  deriving DecidableEq, Repr

/-- A piece of radio work that the radio plan attributes to cells: a pass of an array, a job of an accelerator, or the task of a
radio-bound thread of a signal core. Of one array or engine they stand in the order of issue (R57). -/
structure RadioWork where
  /-- R57, resource that does it -/
  res : Nat := 0
  /-- R57 3, thread of a signal core -/
  thr : Nat := 0
  /-- R57, cells whose data it carries -/
  cells : List Nat := []
  deriving DecidableEq, Repr

/-- A downlink message that the radio program hands to fronthaul (R395, R424). -/
structure FhMsg where
  /-- R422 16, eAxC ID; the cell index of a SUN-FSK lane -/
  eaxc : Nat := 0
  /-- R424 64, air time of its symbol in the time base, ns -/
  air : Nat := 0
  /-- R422 8, section type of a C-plane message; none for U-plane -/
  sec : Option Nat := none
  /-- R422, PRBs that it announces or carries -/
  prbs : Nat := 0
  /-- R422, bytes of the section extensions of a C-plane message -/
  ext : Nat := 0
  /-- R424 48, place of its samples in the cell's radio buffers -/
  addr : Nat := 0
  deriving DecidableEq, Repr

/-- What the time hardware, the telemetry and the radio plan supply at a shutter (R41). -/
structure ShutterIn where
  /-- R46, source time minus device time base, ns -/
  srcOffset : Int := 0
  /-- R67, measured offset of the shutter edge from its grid point, ns -/
  edgeOffset : Int := 0
  /-- R57, the radio work of this exposure -/
  radioWork : List RadioWork := []
  /-- R395, uplink slots whose radio work lay in the exposure that ends: cell, SFN, slot, and whether it was the slot's last -/
  uplink : List (Nat × Nat × Nat × Bool) := []
  /-- R425, cells with a downlink slot prepared in the exposure that ends, and whether its C-plane messages have been sent -/
  downlink : List (Nat × Bool) := []
  /-- R395, R424, messages of downlink slots whose output is complete, which fronthaul must begin to send -/
  send : List FhMsg := []
  /-- R415, combining decodes of the exposure that ends whose buffer had not arrived: cell and HANDLE -/
  harqMiss : List (Nat × Nat) := []
  /-- R588, sensor readings, °C -/
  temps : List Nat := []
  /-- R584, VCORE readback, mV -/
  mv : Nat := 0
  /-- R584, VCORE current, A -/
  amps : Nat := 0
  deriving DecidableEq, Repr

/-- A packet of the fabric, decoded (R307, R335, R336). -/
structure Pkt where
  /-- R307 [11:0], destination chip -/
  dst : Nat := 0
  /-- R307 [23:12], source chip -/
  src : Nat := 0
  /-- R307 [25:24], 0 ordered request, 1 relaxed request, 2 response -/
  cls : Nat := 0
  /-- R307 [27:26], links crossed before this one -/
  hops : Nat := 0
  /-- R307 [28], RESENT -/
  resent : Bool := false
  /-- R335 [52:37], TAG -/
  tag : Nat := 0
  /-- R335 [57:53], operation (R336) -/
  op : Nat := 0
  /-- R335 [61:58], response status (R337) -/
  status : Nat := 0
  /-- R335 [62], OWN_CHECK -/
  own : Bool := false
  /-- R336 48, address, or object number -/
  addr : Nat := 0
  /-- R336, bytes of a LOAD or STORE -/
  count : Nat := 0
  /-- R336 16, ownership epoch of a STORE with OWN_CHECK; base SEPOCH of an EPOCH_QUERY -/
  epoch : Nat := 0
  /-- R343 32, ATAG -/
  atag : Nat := 0
  /-- R343 16, SEPOCH -/
  sepoch : Nat := 0
  /-- R336 3, AOP or SOP -/
  aop : Nat := 0
  /-- R336 1, an 8-byte atomic -/
  wide : Bool := false
  /-- R336 1, signed minimum or maximum -/
  sgn : Bool := false
  /-- R336 64, operand -/
  operand : Nat := 0
  /-- R336 64, compare value -/
  compare : Nat := 0
  /-- R336, data of a STORE or a response -/
  data : List Byte := []
  /-- R336 1, MET of a WAIT_GE response -/
  met : Bool := false
  /-- R336, body of a serving message, in the layout internal to the serving engine -/
  srv : List Nat := []
  /-- R320, a bulk-mover request of this chip -/
  bulk : Bool := false
  /-- R342, time base in ns at which a request came to this chip's route stage -/
  ts : Nat := 0
  deriving DecidableEq, Repr

/-- A time beacon; times in units of 2^-16 ns (R321). -/
structure Beacon where
  /-- R321 12, root chip -/
  origin : Nat := 0
  /-- R321 16, sequence number -/
  seq : Nat := 0
  /-- R321 8, links crossed before this one -/
  depth : Nat := 0
  /-- R321 96, ORIGIN_TS as units of 2^-16 ns -/
  ts : Nat := 0
  /-- R321 64, CORRECTION -/
  corr : Int := 0
  deriving DecidableEq, Repr

/-- TYPE of a flit (R306). -/
inductive FlitType where
  | data
  | idle
  | beacon
  | pdelayReq
  | pdelayResp
  | capability
  | safe
  | reserved
  deriving DecidableEq, Repr

/-- A flit as received or sent. A packet travels with the flit that holds its last unit (R305). -/
structure Flit where
  /-- R306 4, TYPE -/
  typ : FlitType := .idle
  /-- R305 12, FSEQ -/
  fseq : Nat := 0
  /-- R305 12, ACK -/
  ack : Nat := 0
  /-- R305 1, NAK -/
  nak : Bool := false
  /-- R305 3, VC that credits are returned to -/
  credVc : Nat := 0
  /-- R305 13, credits returned, in 16-byte units -/
  credits : Nat := 0
  /-- R307, packets whose last unit lies in the flit -/
  pkts : List Pkt := []
  /-- R307, in a flit that this chip sends, the packet whose first units it carries -/
  head : Option Pkt := none
  /-- R310 1, the CRC holds -/
  crcOk : Bool := true
  deriving DecidableEq, Repr

/-- PTP messages that the block tells apart (R433, R435). -/
inductive PtpTyp where
  | sync
  | followUp
  | delayReq
  | delayResp
  | pdelayReq
  | pdelayResp
  | announce
  | other
  deriving DecidableEq, Repr

/-- A PTP message, decoded; times in units of 2^-16 ns (R434). -/
structure PtpMsg where
  /-- R435, message -/
  typ : PtpTyp := .other
  /-- R433 8, domain number -/
  domain : Nat := 0
  /-- R434 16, sequence number -/
  seq : Nat := 0
  /-- R435 64, correctionField -/
  corr : Int := 0
  /-- R434 96, its timestamp: origin, precise origin or receive time, since the epoch -/
  ts : Nat := 0
  /-- R434 1, a Follow_Up carries the origin time -/
  twoStep : Bool := false
  /-- R436 8, grandmasterClockClass of an Announce -/
  clockClass : Nat := 255
  /-- R434 1, a Delay_Resp that answers the ZS9's Delay_Req -/
  mine : Bool := false
  deriving DecidableEq, Repr

/-- A PRB as U-plane data carries it (R423). -/
structure UPrb where
  /-- R423 4, exponent, 0 when uncompressed -/
  exp : Nat := 0
  /-- R423 24 × 16, I and Q of 12 subcarriers, in order -/
  mant : List Int := []
  deriving DecidableEq, Repr

/-- An eCPRI message, decoded (R422). -/
structure EcpriMsg where
  /-- R422 1, what the model does not decode of it uses nothing outside the table of R422 -/
  ok : Bool := true
  /-- R422 4, revision -/
  rev : Nat := 1
  /-- R422 1, concatenation bit -/
  conc : Bool := false
  /-- R422 8, message type -/
  typ : Nat := 0
  /-- R422 16, eAxC ID; PC_ID of a SUN-FSK lane -/
  eaxc : Nat := 0
  /-- R422 8, sequence number -/
  seq : Nat := 0
  /-- R422 1, E bit -/
  ebit : Bool := true
  /-- R422 7, subsequence -/
  subseq : Nat := 0
  /-- R422 8, section type of a C-plane message -/
  sec : Nat := 0
  /-- R422, PRBs that a C-plane section covers; 0 for all of the slot -/
  cover : Nat := 0
  /-- R422 4, iqWidth of its compression; 16 where it is uncompressed -/
  iqWidth : Nat := 16
  /-- R422 1, block floating point -/
  bfp : Bool := false
  /-- R424 64, air time of the symbol in the time base, ns -/
  air : Nat := 0
  /-- R423, samples -/
  prbs : List UPrb := []
  /-- R424 48, place of its samples in the cell's radio buffers, as the image gives it -/
  addr : Nat := 0
  deriving DecidableEq, Repr

/-- What a fronthaul frame carries (R421, R422, R428): a PAUSE or PFC frame, ESMC, PTP, eCPRI, or another payload. -/
inductive EthLoad where
  | pause | esmc | other
  | ptp (m : PtpMsg)
  | ecpri (m : EcpriMsg)
  deriving DecidableEq, Repr

/-- A fronthaul frame, decoded (R421). -/
structure EthFrame where
  /-- R427 48, destination MAC -/
  dst : Nat := 0
  /-- R427 12, VLAN ID, or untagged -/
  vlan : Option Nat := none
  /-- R421, number of 802.1Q tags -/
  tags : Nat := 0
  /-- R442, bytes from the destination address through the FCS -/
  len : Nat := 64
  /-- R421 1, the FCS holds -/
  fcsOk : Bool := true
  /-- R422, what it carries -/
  load : EthLoad := .other
  /-- R427, the frame's bytes -/
  body : List Byte := []
  /-- R435, ingress stamp on the residence counter, 2^-16 ns; the block writes it when it receives the frame -/
  ingress : Int := 0
  /-- R431, ingress stamp on the time base as the sub-port takes it, 2^-16 ns -/
  stamp : Nat := 0
  deriving DecidableEq, Repr

/-- What an egress queue holds (R320, R440). -/
inductive TmLoad where
  | pkt (p : Pkt)
  | frame (f : EthFrame)
  | delayReq (dom seq : Nat)
  | ctl (b : Option Beacon)
  deriving DecidableEq, Repr

/-- A frame or packet at an egress (R441). -/
structure TmItem where
  /-- R440, the frame -/
  load : TmLoad := .ctl none
  /-- R442, length for fair queueing -/
  len : Nat := 0
  /-- R424 64, it enters its queue no earlier than this time of the time base, ns -/
  notBefore : Nat := 0
  /-- R441 48, start tag -/
  start : Nat := 0
  /-- R441 48, finish tag -/
  finish : Nat := 0
  /-- R446, time base at its enqueue, ns -/
  enq : Nat := 0
  deriving DecidableEq, Repr

/-- Kinds of FAPI PDU that the block tells apart (R408, R411, R413); `dlData` is a downlink PDU with transport blocks. -/
inductive PduKind where
  | prach
  | pusch
  | pucch
  | srs
  | dl
  | dlData
  | dci
  | tx
  | sunTx
  | sunRx
  deriving DecidableEq, Repr

/-- A PDU of a FAPI request (R408). -/
structure Pdu where
  /-- R408, its kind -/
  kind : PduKind := .dl
  /-- R411 32, its HANDLE -/
  handle : Nat := 0
  deriving DecidableEq, Repr

/-- A FAPI message as the host answers the read of it (R408). -/
structure FapiMsg where
  /-- R468 1, the read failed -/
  err : Bool := false
  /-- R408 1, a PDU is malformed or of an unsupported kind -/
  bad : Bool := false
  /-- R408, its PDUs -/
  pdus : List Pdu := []
  deriving DecidableEq, Repr

/-- A cell as the CELLS section gives it (R390). -/
structure CellCfg where
  /-- R390 11, cell index -/
  cell : Nat := 0
  /-- R419 2, 0 NR, 1 LTE, 2 SUN-FSK -/
  rat : Nat := 0
  /-- R391, FRAME_OFFSET -/
  offset : Nat := 0
  /-- R391, exposures in a slot -/
  slotExpo : Nat := 4
  /-- R411, slots of a frame that carry downlink -/
  dlSlots : List Nat := []
  /-- R414 384, SHA-384 digest of the cell's section -/
  digest : Nat := 0
  deriving DecidableEq, Repr

/-- FAPI errors the block reports (R392, R408, R411). -/
inductive FapiErr where
  | msgInvalidState | msgInvalidConfig | msgSlotErr
  deriving DecidableEq, Repr

/-- What a report of a UE gives (R406, R412): its HANDLE, SINR in units of 0.002 dB and EVM in units of 0.01 %. -/
structure UeQual where
  handle : Nat := 0
  sinr : Int := -32768
  evm : Nat := 65535
  /-- R412 1, tag 0xA004: its decode ran without its HARQ buffer -/
  noHarq : Bool := false
  deriving DecidableEq, Repr

/-- Tag 0xA003 of a received SUN-FSK frame (R407, R412): its HANDLE, LQ and RSSI in 0.1 dBFS. -/
structure SunQual where
  handle : Nat := 0
  lq : Nat := 0
  rssi : Int := 0
  deriving DecidableEq, Repr

/-- An indication to Layer 2 (R408), decoded: the slot it is for, the handles and the figures of its PDUs, and tag 0xA002 where the
results are lost (R413). The other contents of a report are not laid out by the spec. -/
inductive FapiInd where
  /-- SLOT.indication; the target chip and the SFN of a switch in tag 0xA005. -/
  | slot (sfn sl : Nat) (mig : Option (Nat × Nat))
  | error (e : FapiErr) (sfn sl : Nat)
  | rxData (sfn sl : Nat) (handles : List Nat) (sun : List SunQual) (lost : Bool)
  | crc (sfn sl : Nat) (ues : List UeQual) (lost : Bool)
  | uci (sfn sl : Nat) (ues : List UeQual) (lost : Bool)
  | srs (sfn sl : Nat) (handles : List Nat) (lost : Bool)
  | rach (sfn sl : Nat) (lost : Bool)
  deriving DecidableEq, Repr

/-- How many PDUs an indication holds, where it may be split (R410). -/
def FapiInd.parts : FapiInd → Nat
  | .rxData _ _ l _ _ => l.length
  | .crc _ _ l _ => l.length
  | .uci _ _ l _ => l.length
  | .srs _ _ l _ => l.length
  | _ => 1

/-- The part of an indication that holds its PDUs from i on, n of them at most (R410). -/
def FapiInd.slice (i n : Nat) : FapiInd → FapiInd
  | .rxData f l h sun lost => let g := (h.drop i).take n; .rxData f l g (sun.filter (fun x => g.contains x.handle)) lost
  | .crc f l u lost => .crc f l ((u.drop i).take n) lost
  | .uci f l u lost => .uci f l ((u.drop i).take n) lost
  | .srs f l h lost => .srs f l ((h.drop i).take n) lost
  | x => x

/-- What the SPDM responder answers (R544, R545). Signatures and certificate bytes are free values. -/
inductive SpdmResp where
  /-- VERSION: 1.3. -/
  | version
  /-- CAPABILITIES: CTExponent, the three supported capabilities, the message size. -/
  | capabilities (ctExp msgSize : Nat) (cert chal meas : Bool)
  /-- ALGORITHMS: ECDSA P-384 with SHA-384, measurement hash SHA-384. -/
  | algorithms (ecdsaP384 sha384 measSha384 : Bool)
  /-- DIGESTS: slot mask and the digest of slot 0. -/
  | digests (mask : Nat) (digest : List Byte)
  /-- CERTIFICATE: slot and portion of the chain. -/
  | certificate (slot : Nat) (portion : List Byte)
  /-- CHALLENGE_AUTH: nonce and signature. -/
  | challengeAuth (nonce : Nat) (sig : List Byte)
  /-- MEASUREMENTS: blocks asked for, index and value type with each; nonce and signature where it was asked for. -/
  | measurements (blocks : List (Nat × Nat × List Byte)) (nonce : Nat) (sig : List Byte)
  /-- ERROR InvalidRequest: a certificate slot or a measurement index that does not exist (PRESUMED, SPDM 1.3). -/
  | invalid
  /-- ERROR UnsupportedRequest. -/
  | unsupported
  deriving DecidableEq, Repr
/-- What leaves the block, in the order in which it leaves (the model's own record, Assumption 5). -/
inductive Out where
  /-- R9: data that a register read returns. -/
  | regData (req off : Nat) (val : BitVec 32)
  /-- R10: an Unsupported Request completion. -/
  | unsupported (req off : Nat)
  /-- R458: data of a BAR4 read. -/
  | barData (req off : Nat) (data : List Byte)
  /-- R478: an MSI-X message: function, address, data. -/
  | msix (port addr data : Nat)
  /-- R467, R476, R479: a write to host memory: port, PASID, address, data. -/
  | hostWrite (port pasid addr : Nat) (data : List Byte)
  /-- R467: a read of host memory: port, PASID, address, bytes. -/
  | hostRead (port pasid addr len : Nat)
  /-- R305: a flit sent on a port. -/
  | flit (port : Nat) (f : Flit)
  /-- R321: a beacon sent on a port. -/
  | beacon (port : Nat) (b : Beacon)
  /-- R324: PDELAY_REQ, or PDELAY_RESP with its stamps t2 and t3. -/
  | pdelay (port : Nat) (resp : Option (Nat × Nat))
  /-- R427, R424: a fronthaul frame sent on a sub-port. -/
  | frame (sub : Nat) (f : EthFrame)
  /-- R433: a Delay_Req of a domain on a sub-port. -/
  | delayReq (dom sub seq : Nat)
  /-- R410: a FAPI indication to Layer 2: window, cell, the buffer's address, the bytes written. -/
  | fapi (win cell : Nat) (ind : FapiInd) (addr len : Nat)
  /-- R544: an SPDM response. -/
  | spdm (r : SpdmResp)
  /-- R584: an AVSBus command: rail code and millivolts, none for a read. -/
  | avs (mv : Option Nat)
  /-- R543: audit blocks mirrored to the manager: block sequence. -/
  | mirror (seq : Nat)
  deriving DecidableEq, Repr

/-- What host memory answers to a fetch of one window (R467). -/
structure WinRead where
  /-- R459, global window number; 128 is the admin ring -/
  win : Nat := 0
  /-- R467 1, the fetch of the point before has not completed -/
  late : Bool := false
  /-- R460 1, host read error of the control block -/
  rcbErr : Bool := false
  /-- R466 32, SQ_PI -/
  sqPi : Nat := 0
  /-- R466 32, CQ_CI -/
  cqCi : Nat := 0
  /-- R467, entries read, from SQ_CI on -/
  entries : List (List Byte) := []
  /-- R460 1, host read error after those entries -/
  err : Bool := false
  /-- R535, prompts in host memory that an audited window's entries name, in order; none a failed read -/
  prompts : List (Option (List Byte)) := []
  deriving DecidableEq, Repr

/-- A window as the TENANT_WINDOWS section gives it (R465). -/
structure WinCfg where
  /-- R459, global window number -/
  win : Nat := 0
  /-- R465 8, accounting slot -/
  slot : Nat := 0
  /-- R485 16, tenant -/
  tenant : Nat := 0
  /-- R409 1, a radio window -/
  radio : Bool := false
  /-- R409, cells it serves -/
  cells : List Nat := []
  /-- R536 1, an audited window -/
  audited : Bool := false
  deriving DecidableEq, Repr

/-- A forwarding entry of the FRONTHAUL section (R427). -/
structure FwdEnt where
  /-- R427 48, destination MAC -/
  mac : Nat := 0
  /-- R427 12, VLAN ID, or untagged -/
  vlan : Option Nat := none
  /-- R427 32, egress sub-ports -/
  ports : List Nat := []
  /-- R440 3, egress queue, 4 to 7 -/
  queue : Nat := 4
  deriving DecidableEq, Repr

/-- An eAxC of the FRONTHAUL section (R422). -/
structure EaxcCfg where
  /-- R422 16, eAxC ID -/
  id : Nat := 0
  /-- R422 11, its cell -/
  cell : Nat := 0
  /-- R424, Ta4_min, ns after the air time -/
  ta4Min : Nat := 0
  /-- R424, Ta4_max, ns after the air time -/
  ta4Max : Nat := 0
  /-- R424 5, sub-port of its radio unit -/
  sub : Nat := 0
  /-- R424 48, MAC of its radio unit -/
  mac : Nat := 0
  /-- R424 12, VLAN ID of its radio unit, or untagged -/
  vlan : Option Nat := none
  /-- R424, T1a_max for C-plane, ns before the air time -/
  t1aC : Nat := 0
  /-- R424, T1a_max for U-plane, ns before the air time -/
  t1aU : Nat := 0
  /-- R422 4, iqWidth of its downlink -/
  iqWidth : Nat := 16
  /-- R422 1, its downlink uses block floating point -/
  bfp : Bool := false
  deriving DecidableEq, Repr

/-- A PTP domain of the TIME section (R436). -/
structure DomCfg where
  /-- R433 8, domain number -/
  number : Nat := 24
  /-- R436 5, slave sub-port -/
  port : Nat := 0
  /-- R436 5, backup sub-port -/
  backup : Option Nat := none
  deriving DecidableEq, Repr

/-- A queue of the TRAFFIC section (R440). -/
structure TmCfg where
  /-- R440, sub-port e, or port e - 32 -/
  egress : Nat := 0
  /-- R440 3, queue -/
  queue : Nat := 0
  /-- R441 8, w_i -/
  weight : Nat := 1
  /-- R455 2, 0 none, 1 credit, 2 calendar -/
  shaper : Nat := 0
  /-- R455 16, byte limit in KiB -/
  limit : Nat := 0
  /-- R443, idle slope, Mb/s -/
  idle : Nat := 0
  /-- R443, port rate of the send slope, Mb/s -/
  port : Nat := 1
  /-- R444, calendar rate, Mb/s -/
  rate : Nat := 1
  /-- R444, burst, ns -/
  burst : Nat := 0
  deriving DecidableEq, Repr

/-- An entry of an image's TABLE, with the header of the section that it names (R565). -/
structure SecEnt where
  /-- R565 8, TYPE -/
  typ : Nat := 0
  /-- R565 24, OFFSET in units of 64 bytes -/
  off : Nat := 8
  /-- R565 32, LENGTH in bytes -/
  len : Nat := 16
  /-- R565 8, TYPE of the section header -/
  secTyp : Nat := 0
  /-- R565 8, VERSION of the section header -/
  version : Nat := 1
  /-- R565 32, ENTRIES -/
  entries : Nat := 0
  /-- R565 32, ENTRY_SIZE -/
  entrySize : Nat := 0
  deriving DecidableEq, Repr

/-- A Voshal image or delta, decoded (R564). -/
structure Image where
  /-- R564 8, 1 full image, 2 delta -/
  typ : Nat := 1
  /-- R564 32, security version -/
  secVersion : Nat := 0
  /-- R566, PARTITIONS: the partitions -/
  parts : List PartCfg := []
  /-- R160, stage banks that the image assigns to radio -/
  radioBanks : List Nat := []
  /-- R25, LEASES: logical arrays that are radio-capable -/
  radioArrays : List Nat := []
  /-- R199, logical signal cores that the image gives to radio -/
  radioCores : List Nat := []
  /-- R332, accounting slots and the tenant of each -/
  slots : List (Nat × Nat) := []
  /-- R367, logical core and the radio program's entry for it -/
  radioEntry : List (Nat × Nat) := []
  /-- R188, ARBITER_MAP: master's source number, whether radio, bank, input -/
  arb : List (Nat × Bool × Nat × Nat) := []
  /-- R390, CELLS -/
  cells : List CellCfg := []
  /-- R465, TENANT_WINDOWS -/
  wins : List WinCfg := []
  /-- R462 1, manager port -/
  mgrPort : Nat := 0
  /-- R275 16, composition slots and their descriptors -/
  comps : List (Nat × CompCfg) := []
  /-- R420 8 × 3, mode of each fronthaul port -/
  fhMode : List Nat := []
  /-- R420, sub-ports at 25 Gb/s that use FEC -/
  fhFec : List Nat := []
  /-- R428, own MAC of each sub-port: sub-port, MAC -/
  macs : List (Nat × Nat) := []
  /-- R427 4,096, the forwarding table -/
  fwd : List FwdEnt := []
  /-- R422, the eAxC map -/
  eaxcs : List EaxcCfg := []
  /-- R45 2, 1 fronthaul PTP, 2 Asivipin beacons -/
  timeSource : Nat := 0
  /-- R436 2, PTP domains 0 and 1 -/
  doms : List DomCfg := []
  /-- R436 1, preferred domain -/
  preferred : Nat := 0
  /-- R433, delayAsymmetry of a sub-port, 2^-16 ns -/
  asym : List (Nat × Int) := []
  /-- R440, TRAFFIC: the egress queues -/
  traffic : List TmCfg := []
  /-- R491, FAULT_POLICY: kind, event action, severe action, COUNTED -/
  kindPol : List (Nat × Nat × Nat × Bool) := []
  /-- R491, FAULT_POLICY: source, threshold N, window W -/
  srcPol : List (Nat × Nat × Nat) := []
  /-- R564 32, MAGIC -/
  magic : Nat := 0x4C485356
  /-- R564 16, VERSION -/
  version : Nat := 1
  /-- R564 32, total bytes -/
  length : Nat := 512
  /-- R564 1, DIGEST holds -/
  digestOk : Bool := true
  /-- R563 1, SIG verifies under the owner key that KEY_ID names in the owner record -/
  sigOk : Bool := true
  /-- R564 32, PART_MASK -/
  partMask : Nat := 0x103
  /-- R565, TABLE: its SECTIONS entries, in order -/
  table : List SecEnt := []
  /-- R564 32, STRUCT_EPOCH -/
  structEpoch : Nat := 0
  /-- R564 32, BASE_EPOCH -/
  baseEpoch : Nat := 0
  /-- R545 384, SHA-384 of the image or delta -/
  hash : List Byte := []
  /-- R567, section with an entry that breaks a rule that no other code names -/
  otherBad : Option Nat := none
  /-- R227 48, PARTITIONS: context table -/
  ctxBase : Nat := 0
  /-- R239 48, PARTITIONS: `SRV_KV_BASE` -/
  kvBase : Nat := 0
  /-- R281 48, PARTITIONS: ownership records -/
  ownBase : Nat := 0
  /-- R294 48, PARTITIONS: snapshot area -/
  acctBase : Nat := 0
  /-- R473 48, PARTITIONS: prompt table -/
  promptBase : Nat := 0
  /-- R251 2, PARTITIONS: archive tiers, base and 4 KiB units -/
  arch : List (Nat × Nat) := []
  /-- R229 16, PARTITIONS: stage banks of the context cache -/
  cacheBanks : List Nat := []
  /-- R53 7, LEASES: re-run margin, percent -/
  margin : Nat := 60
  /-- R51 12, LEASES: shutter guard, cycles -/
  guard : Nat := 1024
  /-- R106, LEASES: array, RADIO_ROWS, RADIO_STORE -/
  accSplit : List (Nat × Nat × Nat) := []
  /-- R181, LEASES: array, radio-bound thread, entry of its radio program -/
  teRadio : List (Nat × Nat × Nat) := []
  /-- R365, LEASES: logical core, mask of its radio-bound threads -/
  sigMask : List (Nat × Nat) := []
  /-- R380, LEASES: logical core, RADIO_16K -/
  sigSplit : List (Nat × Nat) := []
  /-- R54 4 × 7, LEASES: re-run core of each base die, 127 none -/
  rerun : List Nat := [127, 127, 127, 127]
  /-- R39 12, ROUTES: chip ID -/
  chip : Nat := 0
  /-- R315, ROUTES: destination, route word -/
  routes : List (Nat × Nat) := []
  /-- R315, ROUTES: port, neighbour chip, neighbour port -/
  nbrs : List (Nat × Nat × Nat) := []
  /-- R345 48, ROUTES: dedupe table -/
  dedup : Nat := 0
  /-- R49 3, OPERATING_POINTS: frequency floor -/
  floorOp : Nat := 0
  /-- R220 2, OPERATING_POINTS: data rate code -/
  lpSpeed : Nat := 1
  /-- R197 2, OPERATING_POINTS: refresh budget, log2 of the multiple of the base rate -/
  refBudget : Nat := 0
  /-- R196, FAULT_POLICY: channels to map out -/
  mapOut : List Nat := []
  /-- R64 3, TIME: code of the shutter period -/
  period : Nat := 1
  /-- R325 5, TIME: primary parent port -/
  bcnPrimary : Option Nat := none
  /-- R325 5, TIME: backup parent port -/
  bcnBackup : Option Nat := none
  /-- R327 4, TIME: PER_EXP_M1 -/
  bcnPer : Nat := 0
  /-- R327 1, TIME: the chip is the root of the beacon tree -/
  bcnRoot : Bool := false
  /-- R327 24, TIME: ports that beacons leave by -/
  bcnPorts : List Nat := []
  /-- R138 16, COMPAT: ZS7-compatible partitions -/
  zs7Parts : List Nat := []
  /-- R147 3, COMPAT: ZS7 operating point -/
  zs7Op : Nat := 0
  deriving DecidableEq, Repr

/-- A firmware package, decoded (R563). -/
structure Firmware where
  /-- R562 32, security version -/
  sec : Nat := 0
  /-- R545 384, SHA-384 of the package -/
  hash : List Byte := []
  /-- R563 1, its signature verifies -/
  sigOk : Bool := true
  deriving DecidableEq, Repr

end Sys2Proof.Machine
end

