-- ==== Sys2Proof/Syntax.lean ====
section
/-! DEFINITION. The commands of the block: one constructor for each row of the opcode table, with what the row's
rules let the outside choose. Engines and timers of the block act through the rows that report their events; an
operand that a rule leaves to the outside (a measured value, an arriving message) comes with the command. -/
namespace Sys2Proof
open Sys2Proof.Machine

/-- A command of the block (opcode_table.json). -/
inductive Instr where
  /-- REGISTER_WRITE: R12 A write to a register that has no row of its own sets RW fields and is ignored for RO fields, as the access code states. -/
  | registerWrite (req : Nat) (off : BitVec 28) (val : BitVec 32)
  /-- UNSUPPORTED_REQUEST: R10 A BAR0 access that is not an aligned 32-bit access completes with Unsupported Request, with no side effect. -/
  | unsupportedRequest (req : Nat) (off : BitVec 28) (size : Nat) (write : Bool)
  /-- LOW_WORD_READ: R9 A read of the low word of a 64-bit pair latches the high word in the requester's latch. -/
  | lowWordRead (req : Nat) (bar2 : Bool) (off : BitVec 28)
  /-- BAR4_ACCESS: R458 A host access through BAR4 reads or writes stage memory at the given offset. -/
  | bar4Access (req : Fin 4) (off : BitVec 28) (write : Bool) (data : List Byte) (len : Nat)
  /-- SHUTTER: R41 The pod-wide tick starts an exposure: the tick number advances and per-shutter checks, deadlines and reports run. -/
  | shutter (i : ShutterIn)
  /-- TIME_SOURCE_VALID: R45 The time source becomes valid, and the time state moves from FREE or HOLDOVER to ACQUIRE. -/
  | timeSourceValid
  /-- TIME_SOURCE_LOST: R45 The time source is lost in ACQUIRE or LOCKED, and the time state moves to HOLDOVER with the holdover timer started. -/
  | timeSourceLost
  /-- TIME_LOCK: R45 After 16 consecutive exposures within ±50 ns, the time state moves from ACQUIRE to LOCKED. -/
  | timeLock
  /-- HOLD_EXPIRED: R47 The holdover timer reaches HOLD_LIMIT_MS, HOLD_EXPIRED is set and TIME_HOLDOVER is raised. -/
  | holdExpired
  /-- PPS_PULSE: R439 A pulse on PPS_IN aligns the start of the second while the time state is FREE. -/
  | ppsPulse
  /-- GUARD_END: R51 The shutter guard expires, and the radio lease begins on a radio-capable resource. -/
  | guardEnd (r : Nat)
  /-- OPEN_LEASE_START: R51 The resource's last radio work completes, and its open lease begins, resuming parked threads. -/
  | openLeaseStart (r : Nat) (endCycle : Nat)
  /-- PIPE_REBASE: R62 A write of REBASE rebases the serving pipeline so that lag becomes 0 at the next step start. -/
  | pipeRebase (p : Fin 16)
  /-- PIPE_PERIOD_WRITE: R62 A write of PERIOD takes effect at the next step start and rebases the pipeline. -/
  | pipePeriodWrite (p : Fin 16) (v : BitVec 8)
  /-- RADIO_HWM_CLEAR: R70 A write of CLEAR sets MAX_FINISH of CLK_RADIO_HWM to 0. -/
  | radioHwmClear
  /-- PISSUE: R163 A thread issues a pass descriptor to the open or radio queue of its array. -/
  | pissue (n : Fin 64) (t : Fin 64) (w : BitVec 64)
  /-- ISSUE_TIMEOUT: R96 A pass issue held on a full queue for ISSUE_TMO exposures completes with code 0xB and the descriptor is discarded. -/
  | issueTimeout (n : Fin 64) (t : Fin 64)
  /-- PASS_START: R83 The queue reaches a descriptor, checks it, and starts the pass when feed, weight load and convert-out conditions hold. -/
  | passStart (n : Fin 64) (radio : Bool)
  /-- WEIGHT_LOAD_COMPLETE: R82 A weight set finishes loading into the inactive slot. -/
  | weightLoadComplete (n : Fin 64)
  /-- BEAT_WRITE: R120 A beat's column sums pass the residue stage and are written or added into the accumulator tile. -/
  | beatWrite (n : Fin 64) (bad : Option (Fin 512))
  /-- PASS_END: R84 A pass without convert-out makes its last accumulator write and returns any completion. -/
  | passEnd (n : Fin 64)
  /-- CHAIN_END: R93 The last convert-out write ends the chain, and the LAST or ONLY completion reaches the thread. -/
  | chainEnd (n : Fin 64)
  /-- ARRAY_HALT: R104 A write of ARR_CTRL.HALT stops open-queue issue at the next chain end. -/
  | arrayHalt (n : Fin 64) (v : Bool)
  /-- ARR_SUBST_GO: R111 The manager requests substitution of a logical array, which goes SWAP_PENDING, OFFLINE or is refused. -/
  | arrSubstGo (v : BitVec 32)
  /-- SUBST_COPY_START: R101 Once the running pass, radio work and any spill have ended, the copy to the spare begins. -/
  | substCopyStart (n : Fin 64)
  /-- SUBST_COPY_COMPLETE: R101 The copy of store and accumulator rows to the spare completes and waits for the next shutter. -/
  | substCopyComplete (n : Fin 64)
  /-- ARRAY_SWAP_DATA: R101 An uncorrectable error reading the copy source zeroes the lines and poisons or stops the work holding them. -/
  | arraySwapData (n : Fin 64) (addr : BitVec 48)
  /-- ARRAY_SWAP_TIMEOUT: R101 A substitution not done within ARR_SUBST.TMO exposures sends the logical array OFFLINE. -/
  | arraySwapTimeout (n : Fin 64)
  /-- TE_CONTROL_FLOW: R155 A thread executes nop, a branch, jmp, call or ret. -/
  | teControlFlow (n : Fin 64) (t : Fin 64) (w : BitVec 64)
  /-- TE_HALT: R151 A thread executes halt, goes IDLE and reports its end to the job scheduler. -/
  | teHalt (n : Fin 64) (t : Fin 64) (w : BitVec 64)
  /-- TE_FENCE: R161 A thread waits until its earlier accesses of the selected reach have completed. -/
  | teFence (n : Fin 64) (t : Fin 64) (w : BitVec 64)
  /-- TE_CSRR: R153 A thread reads a control register. -/
  | teCsrr (n : Fin 64) (t : Fin 64) (w : BitVec 64) (cyc : BitVec 64)
  /-- TE_CSRW: R153 A thread writes a control register. -/
  | teCsrw (n : Fin 64) (t : Fin 64) (w : BitVec 64)
  /-- TE_SCALAR_OP: R156 A thread executes a scalar-class operation. -/
  | teScalarOp (n : Fin 64) (t : Fin 64) (w : BitVec 64)
  /-- TE_VECTOR_FP_OP: R135 A thread executes a vector floating-point operation under IEEE 754 rules. -/
  | teVectorFpOp (n : Fin 64) (t : Fin 64) (w : BitVec 64)
  /-- TE_VECTOR_INT_OP: R156 A thread executes a vector integer operation. -/
  | teVectorIntOp (n : Fin 64) (t : Fin 64) (w : BitVec 64)
  /-- TE_CONVERT: R127 A thread converts between formats and sets its sticky flags. -/
  | teConvert (n : Fin 64) (t : Fin 64) (w : BitVec 64)
  /-- TE_REDUCTION: R158 A thread executes redsum, redmax, redmin or scan in the fixed order. -/
  | teReduction (n : Fin 64) (t : Fin 64) (w : BitVec 64)
  /-- ARGMAX: R169 A thread returns the lowest index of the largest element of an FP32 vector. -/
  | argmax (n : Fin 64) (t : Fin 64) (w : BitVec 64)
  /-- SAMPLE: R169 A thread samples an index from an FP32 vector with a given uniform. -/
  | sample (n : Fin 64) (t : Fin 64) (w : BitVec 64)
  /-- APADD: R175 A thread adds AP128 values exactly. -/
  | apadd (n : Fin 64) (t : Fin 64) (w : BitVec 64)
  /-- APRESCALE: R175 A thread raises the anchor of AP128 values with rounding. -/
  | aprescale (n : Fin 64) (t : Fin 64) (w : BitVec 64)
  /-- APCVT: R175 A thread converts AP128 or AP80 values to a given format. -/
  | apcvt (n : Fin 64) (t : Fin 64) (w : BitVec 64)
  /-- S64SPLIT: R173 A thread splits FP64 elements into seven balanced INT8 digits. -/
  | s64split (n : Fin 64) (t : Fin 64) (w : BitVec 64)
  /-- S64COMB: R174 A thread recombines seven AP128 diagonal sums into FP64 results with one rounding. -/
  | s64comb (n : Fin 64) (t : Fin 64) (w : BitVec 64)
  /-- TE_LOAD: R159 A thread loads from its array store, accumulator store, stage memory or LPDDR. -/
  | teLoad (n : Fin 64) (t : Fin 64) (w : BitVec 64)
  /-- TE_STORE: R159 A thread stores to its array store, stage memory or LPDDR. -/
  | teStore (n : Fin 64) (t : Fin 64) (w : BitVec 64)
  /-- TE_ATOMIC: R159 A thread performs a local atomic at the address's atomic unit. -/
  | teAtomic (n : Fin 64) (t : Fin 64) (w : BitVec 64)
  /-- TE_REMOTE_ACCESS: R162 A thread issues a reach-checked remote load, store or atomic to a global address. -/
  | teRemoteAccess (n : Fin 64) (t : Fin 64) (w : BitVec 64)
  /-- PWAIT: R165 A thread takes its oldest completion, waiting for one if none is present. -/
  | pwait (n : Fin 64) (t : Fin 64) (w : BitVec 64)
  /-- PPOLL: R165 A thread takes its oldest completion without waiting. -/
  | ppoll (n : Fin 64) (t : Fin 64) (w : BitVec 64)
  /-- MSEND: R166 A thread sends a word to a message queue, waiting while it is full. -/
  | msend (n : Fin 64) (t : Fin 64) (w : BitVec 64)
  /-- MRECV: R166 A thread takes the oldest word of its own engine's queue without waiting. -/
  | mrecv (n : Fin 64) (t : Fin 64) (w : BitVec 64)
  /-- MWAIT: R166 A thread takes the oldest word of a queue, waiting for one. -/
  | mwait (n : Fin 64) (t : Fin 64) (w : BitVec 64)
  /-- SYNC_OP_ISSUE: R350 A thread issues a sync-object operation through the message-queue class. -/
  | syncOpIssue (n : Fin 64) (t : Fin 64) (w : BitVec 64) (cyc : BitVec 21)
  /-- TWALK: R171 A thread advances 32 decision trees by up to 16 levels. -/
  | twalk (n : Fin 64) (t : Fin 64) (w : BitVec 64) (tmo : Option (Fin 16 × BitVec 32))
  /-- TWLEAF: R171 A thread reads the leaf values of 32 tree nodes. -/
  | twleaf (n : Fin 64) (t : Fin 64) (w : BitVec 64)
  /-- PSCAN: R172 A thread computes an exponent bound or an anchor over array-store elements. -/
  | pscan (n : Fin 64) (t : Fin 64) (w : BitVec 64)
  /-- RNG_S: R168 A thread draws one 128-bit random value into a scalar pair. -/
  | rngS (n : Fin 64) (t : Fin 64) (w : BitVec 64)
  /-- RNG_V: R168 A thread draws one random call per lane into four vectors. -/
  | rngV (n : Fin 64) (t : Fin 64) (w : BitVec 64)
  /-- RNG_U24: R168 A thread draws FP32 uniforms per lane. -/
  | rngU24 (n : Fin 64) (t : Fin 64) (w : BitVec 64)
  /-- RNG_U53: R168 A thread draws one FP64 uniform per lane. -/
  | rngU53 (n : Fin 64) (t : Fin 64) (w : BitVec 64)
  /-- TE_WAIT_TIMEOUT: R176 A thread-engine wait reaches WAIT_TMO and ends with its timeout result. -/
  | teWaitTimeout (n : Fin 64) (t : Fin 64)
  /-- STAGE_TRANSFER_REQUEST: R189 A transfer arrives at a stage-memory bank and is granted, revoking a lower holder, or parked. -/
  | stageTransferRequest (b : Fin 512) (x : Transfer) (moved : Fin 65)
  /-- STAGE_BANK_GRANT: R190 A bank falls free and grants the highest, oldest pending transfer. -/
  | stageBankGrant (b : Fin 512)
  /-- STAGE_ARB_TMO: R191 A transfer that finds no pending-queue entry within QFULL_TMO completes with error status. -/
  | stageArbTmo (b : Fin 512)
  /-- REFRESH_RATE_READ: R197 Every 1 ms the refresh-rate indication of each package is read. -/
  | refreshRateRead (rates : List (Fin 24 × Fin 3))
  /-- LPDDR_REFRESH: R197 The controller issues a per-bank refresh command. -/
  | lpddrRefresh (c : Fin 24) (postponed : Bool)
  /-- REFRESH_FORCED: R197 At a postponement limit the refresh is issued regardless and REF_FORCED is set. -/
  | refreshForced (c : Fin 24)
  /-- PATROL_SCRUB: R198 Patrol scrub reads a populated line and corrects it. -/
  | patrolScrub
  /-- DMA_DESCRIPTOR_GO: R200 A write that sets GO in a ring slot's CTRL starts an array DMA descriptor. -/
  | dmaDescriptorGo (n : Fin 64) (c : Fin 16) (slot : Fin 16) (ctrl : BitVec 32)
  /-- DMA_DESCRIPTOR_END: R204 An array DMA descriptor ends, writing STATUS and an optional message, or stops at a failing row. -/
  | dmaDescriptorEnd (n : Fin 64) (c : Fin 16) (ns : Nat)
  /-- BULK_SUBMIT: R205 A descriptor enters a bulk mover's submission queue. -/
  | bulkSubmit (m : Fin 8) (q : Fin 4) (d : BulkDesc) (tenant : BitVec 16)
  /-- BULK_COMPLETE: R207 All writes of a bulk descriptor are acknowledged and its completion is written. -/
  | bulkComplete (m : Fin 8) (data : List Byte) (ok : Bool) (ns : Nat)
  /-- SPILL_REGION_SAVED: R215 A region of a pre-empted job is saved, and the incoming job may use it; the header is written last. -/
  | spillRegionSaved (n : Fin 64)
  /-- RELOAD_START: R482 A spilled job becomes eligible and its reload begins. -/
  | reloadStart (n : Fin 64) (job : BitVec 32)
  /-- RELOAD_COMPLETE: R216 Every saved region returns, and the victim's threads become READY, or FAULTED if poisoned. -/
  | reloadComplete (n : Fin 64)
  /-- STEP_PLAN: R242 At a step boundary the planner retires the last step, applies commands and expiries, runs the ladder and builds the batch. -/
  | stepPlan (p : Fin 16) (trees : List (Nat × Option (List Byte)))
  /-- STEP_START: R240 A planned step starts once every page it uses has completed its zero fill, reload, copy or acquisition. -/
  | stepStart (p : Fin 16)
  /-- STEP_HOLD_TIMEOUT: R240 A step hold that lasts HOLD_TMO exposures ends the step as a step fault. -/
  | stepHoldTimeout (p : Fin 16)
  /-- STREAM_TIMEOUT: R248 A retirement waiting on a full step stream for TMO exposures halts the partition and raises SRV_STREAM_STALL. -/
  | streamTimeout (p : Fin 16)
  /-- PART_HALT: R256 A write of HALT stops a partition's planning at the next boundary. -/
  | partHalt (p : Fin 16) (v : Bool)
  /-- PART_RESUME: R256 A write of RESUME restarts a halted partition's planning once its halting condition no longer holds. -/
  | partResume (p : Fin 16)
  /-- CONTEXT_EXPIRY: R253 At a shutter, PAUSED or auto-resuming contexts whose EXPIRY has passed become EXPIRED. -/
  | contextExpiry
  /-- PAGE_ZERO_FILL_COMPLETE: R239 The zero fill of a released unit completes and the unit may be handed out again. -/
  | pageZeroFillComplete (u : BitVec 28)
  /-- ARCHIVE_COPY_COMPLETE: R252 A pause's archive copy completes, and the context goes PAUSED, or EXPIRED on error. -/
  | archiveCopyComplete (n : BitVec 18) (ns : Nat)
  /-- ARCHIVE_RELOAD_COMPLETE: R240 A resumed context's archive reload completes and frees its step hold. -/
  | archiveReloadComplete (n : BitVec 18) (ns : Nat)
  /-- HANDOVER_RELEASE: R284 After the per-destination fence, the owner issues RELEASE and sends the hand-over notice. -/
  | handoverRelease (n : BitVec 18)
  /-- OWN_RELEASE: R283 Home applies a RELEASE compare-and-swap, moving the record to RELEASING. -/
  | ownRelease (src : BitVec 12)
  /-- OWN_ACQUIRE: R283 Home applies an ACQUIRE from the target, moving the record to OWNED. -/
  | ownAcquire (src : BitVec 12)
  /-- OWN_REDIRECT: R283 Home applies a REDIRECT naming a new target and raises the epoch. -/
  | ownRedirect (src : BitVec 12)
  /-- OWN_CLOSE: R283 Home applies a CLOSE, frees the context's units and sends page releases. -/
  | ownClose (src : BitVec 12)
  /-- HANDOVER_NOTICE: R285 A target accepts or refuses a hand-over notice and places it among its candidates. -/
  | handoverNotice (src : BitVec 12)
  /-- NOTICE_ACK: R277 A sender receives the acknowledgement of a notice, which ends its in-flight count. -/
  | noticeAck (src : BitVec 12)
  /-- STALE_ROUTE_NACK: R279 A sender receives a stale-route NACK or COMP_DOWN and re-routes the notice by redirect. -/
  | staleRouteNack (src : BitVec 12)
  /-- RETIREMENT_UPDATE: R286 Home applies or refuses an owner's retirement update under the epoch test. -/
  | retirementUpdate (src : BitVec 12)
  /-- KV_APPEND: R286 Home applies or refuses a non-home owner's write into a page under the epoch test. -/
  | kvAppend (src : BitVec 12)
  /-- PAGE_RELEASE: R283 A chip receives a page release for a closed context and frees the page. -/
  | pageRelease (src : BitVec 12)
  /-- HANDOVER_TIMEOUT: R288 A RELEASING record past its timeout becomes ORPHANED and CMP_ORPHAN is raised. -/
  | handoverTimeout (n : BitVec 18)
  /-- REASSIGN_GO: R289 The runtime reassigns an ORPHANED context, applied, no-op or refused by RSEQ. -/
  | reassignGo (v : BitVec 32)
  /-- OVERLAP_EXPIRY: R278 After OVERLAP exposures, new notices of the old composition epoch are refused. -/
  | overlapExpiry (k : Fin 16)
  /-- EPOCH_MAP_RETIRE: R278 At the first shutter with no old-epoch notices in flight, the old map is retired and the composition returns to ACTIVE. -/
  | epochMapRetire (k : Fin 16)
  /-- PART_DRAIN: R291 A write of DRAIN starts a partition's drain. -/
  | partDrain (p : Fin 16)
  /-- DRAIN_COMPLETE: R291 A draining partition that owns no running context becomes DRAINED. -/
  | drainComplete (p : Fin 16)
  /-- DRAIN_TIMEOUT: R291 A drain that lasts TMO exposures pauses every running context. -/
  | drainTimeout (p : Fin 16)
  /-- ACCT_SNAPSHOT: R294 At every tick that is a multiple of 1,024, every accounting counter is sampled into a buffer. -/
  | acctSnapshot
  /-- LINK_TRAINING_COMPLETE: R313 Port training ends, and the port comes UP, degraded or MISWIRED. -/
  | linkTrainingComplete (p : Fin 24) (good : BitVec 9) (chip : BitVec 12) (port : BitVec 5)
  /-- LINK_TRAIN_TIMEOUT: R313 Training exceeds TRAIN_TMO_MS, and the port goes DOWN. -/
  | linkTrainTimeout (p : Fin 24)
  /-- LINK_RETRAIN: R313 A retry limit, loss of signal or alignment, or lane errors over LANE_THR move an UP port to RETRAIN. -/
  | linkRetrain (p : Fin 24) (loss : Bool)
  /-- RETRAIN_COMPLETE: R313 Retraining ends in time and the port returns to UP, resending from the last ACK. -/
  | retrainComplete (p : Fin 24) (good : BitVec 9)
  /-- RETRAIN_TIMEOUT: R313 Retraining exceeds RETRAIN_TMO_US, and the port goes DOWN and resubmits its packets. -/
  | retrainTimeout (p : Fin 24)
  /-- SAFE_FLIT_RECEIVED: R313 A SAFE flit from the neighbour sends the port DOWN with reason PEER_SAFE. -/
  | safeFlitReceived (p : Fin 24)
  /-- PORT_RETRAIN_CMD: R329 A write of AVL_PORT_CTL.RETRAIN starts training from DOWN or MISWIRED. -/
  | portRetrainCmd (p : Fin 24)
  /-- UNQUARANTINE: R313 A write of UNQUARANTINE starts training from QUARANTINED. -/
  | unquarantine (p : Fin 24)
  /-- PORT_DISABLE: R313 A write of DISABLE moves the port to DISABLED and resubmits its packets. -/
  | portDisable (p : Fin 24) (v : Bool)
  /-- FLIT_RECEIVE: R310 A flit is received, CRC-checked and accepted or discarded, and packets are delivered or forwarded. -/
  | flitReceive (p : Fin 24) (f : Flit) (corr : Nat) (uncorr : Nat) (lanes : List Nat)
  /-- NAK_RECEIVED: R311 On a NAK the sender resends its unacknowledged DATA flits in order. -/
  | nakReceived (p : Fin 24) (ack : BitVec 12)
  /-- ACK_TIMEOUT: R311 No ACK advance for ACK_TMO_US makes the sender resend its unacknowledged flits. -/
  | ackTimeout (p : Fin 24)
  /-- ORDERED_REROUTE: R318 Once the old path drains, ordered requests for a destination switch alternative. -/
  | orderedReroute (dst : BitVec 12)
  /-- BEACON_SEND: R322 A LOCKED root sends a time beacon on its marked ports. -/
  | beaconSend (ts : Nat)
  /-- BEACON_RECEIVE: R323 A beacon from the active parent feeds the time servo and is resent with updated correction. -/
  | beaconReceive (p : Fin 24) (b : Beacon) (ingress : Nat) (residence : List Nat)
  /-- BEACON_LOSS: R325 No beacon from the active parent for LOSS_EXP exposures switches to the backup or loses the source. -/
  | beaconLoss
  /-- PDELAY_MEASURE: R324 An UP port sends PDELAY_REQ on entering UP and every 8,192 exposures. -/
  | pdelayMeasure (p : Fin 24) (t1 : Nat)
  /-- PDELAY_REQ_RECEIVE: R324 A PDELAY_REQ is stamped and answered with PDELAY_RESP. -/
  | pdelayReqReceive (p : Fin 24) (t2 : Nat) (t3 : Nat)
  /-- PDELAY_RESP_RECEIVE: R324 A PDELAY_RESP completes a link-delay measurement. -/
  | pdelayRespReceive (p : Fin 24) (t2 : Nat) (t3 : Nat) (t4 : Nat)
  /-- REMOTE_LOAD: R336 A target applies a LOAD request and responds with the data. -/
  | remoteLoad (src : BitVec 12)
  /-- REMOTE_STORE: R336 A target applies a STORE request, with the epoch test when asked. -/
  | remoteStore (src : BitVec 12)
  /-- REMOTE_ATOMIC: R343 A target applies a tagged ATOMIC at most once under the dedupe rules. -/
  | remoteAtomic (src : BitVec 12)
  /-- SYNC_SIGNAL: R349 The sync unit adds an operand to an object's VALUE. -/
  | syncSignal (src : BitVec 12)
  /-- SYNC_SET: R349 The sync unit sets a counter object's VALUE. -/
  | syncSet (src : BitVec 12)
  /-- SYNC_ARRIVE: R351 The sync unit records an arrival at a barrier and completes a generation when ARRIVED reaches EXPECT. -/
  | syncArrive (src : BitVec 12) (cyc : BitVec 21)
  /-- SYNC_READ: R349 The sync unit returns an object's VALUE. -/
  | syncRead (src : BitVec 12)
  /-- SYNC_WAIT_GE: R350 The sync unit holds a wait until VALUE reaches the operand. -/
  | syncWaitGe (src : BitVec 12)
  /-- REMOTE_WAIT_EXPIRY: R350 A remote WAIT_GE held for RWAIT_US is answered with MET 0. -/
  | remoteWaitExpiry (src : BitVec 12) (tag : BitVec 16)
  /-- EPOCH_QUERY: R344 A target answers a source's SEPOCH query with its current per-source state. -/
  | epochQuery (src : BitVec 12)
  /-- REMOTE_RESPONSE: R338 A response reaches its requester and completes the request in stream order. -/
  | remoteResponse (src : BitVec 12) (tag : BitVec 16)
  /-- DEAD_TARGET_TIMEOUT: R341 A request unanswered after DEAD_US completes as REMOTE_DEAD or OUTCOME_UNKNOWN. -/
  | deadTargetTimeout (tag : BitVec 16)
  /-- ATOMIC_RESEND: R343 A tagged update without response is resent unchanged every RETRY_US. -/
  | atomicResend (tag : BitVec 16)
  /-- REQUEST_AGED: R342 A request that has waited longer than DEAD_US in a chip is discarded. -/
  | requestAged (q : Option (Fin 24 × Fin 8)) (now : Nat)
  /-- RECOVERY_DONE: R347 At the first shutter at which its conditions clear, the chip leaves RECOVERING. -/
  | recoveryDone
  /-- SYN_OBJ_SIGNAL: R349 A host write to SYN_OBJ_SIGNAL performs SIGNAL on the object. -/
  | synObjSignal (o : Fin 8192) (v : BitVec 32)
  /-- SYN_OBJ_CONFIG: R353 A write to an object's configuration clears its arrivals and keeps VALUE. -/
  | synObjConfig (o : Fin 8192) (v : BitVec 32)
  /-- SIG_BUNDLE: R371 A signal core issues a bundle with its load, store, complex and scalar slots. -/
  | sigBundle (c : Fin 96) (t : Fin 8) (w : BitVec 128)
  /-- JSUB: R382 A thread submits a job descriptor to a radio accelerator of its die. -/
  | jsub (c : Fin 96) (t : Fin 8) (w : BitVec 128)
  /-- JWAIT: R382 A thread takes an accelerator completion, waiting for one. -/
  | jwait (c : Fin 96) (t : Fin 8) (w : BitVec 128)
  /-- JPOLL: R382 A thread takes an accelerator completion without waiting. -/
  | jpoll (c : Fin 96) (t : Fin 8) (w : BitVec 128)
  /-- XFER: R381 A thread moves beats between local memory and stage memory. -/
  | xfer (c : Fin 96) (t : Fin 8) (w : BitVec 128) (moved : Fin 65)
  /-- XWAIT: R381 A thread waits until it has no transfers outstanding. -/
  | xwait (c : Fin 96) (t : Fin 8) (w : BitVec 128)
  /-- SIG_HALT: R367 A signal-core thread halts, ending tenant work or counting toward the end of radio work. -/
  | sigHalt (c : Fin 96) (t : Fin 8) (w : BitVec 128)
  /-- SIG_WAIT_TIMEOUT: R385 A signal-core wait reaches WAIT_TMO and ends with its timeout result. -/
  | sigWaitTimeout (c : Fin 96) (t : Fin 8)
  /-- SIG_RERUN: R383 A re-run request ends the re-run core's open lease and runs the failed core's radio task. -/
  | sigRerun (c : Fin 96)
  /-- ACCEL_JOB_COMPLETE: R382 A radio accelerator job ends and returns its completion. -/
  | accelJobComplete (kind : Fin 6) (die : Fin 4) (e : Fin 8) (radio : Bool) (hw : Fin 3) (cyc : BitVec 32)
  /-- FAPI_START: R392 START.request moves a STOPPED cell to RUNNING at the next frame boundary when LOCKED. -/
  | fapiStart (w : Fin 128) (err : Bool)
  /-- FAPI_STOP: R392 STOP.request moves a RUNNING cell to STOPPED. -/
  | fapiStop (w : Fin 128) (err : Bool)
  /-- DL_TTI_REQUEST: R408 Layer 2 sends the downlink configuration of a slot. -/
  | dlTtiRequest (w : Fin 128) (m : FapiMsg)
  /-- UL_TTI_REQUEST: R408 Layer 2 sends the uplink configuration of a slot. -/
  | ulTtiRequest (w : Fin 128) (m : FapiMsg)
  /-- UL_DCI_REQUEST: R408 Layer 2 sends uplink DCI for a slot. -/
  | ulDciRequest (w : Fin 128) (m : FapiMsg)
  /-- TX_DATA_REQUEST: R408 Layer 2 sends transport-block data for a slot. -/
  | txDataRequest (w : Fin 128) (m : FapiMsg)
  /-- FAPI_UNSUPPORTED: R408 An unsupported or malformed FAPI message is answered with ERROR.indication MSG_INVALID_CONFIG. -/
  | fapiUnsupported (w : Fin 128) (err : Bool)
  /-- IND_BUF: R410 A radio window posts a buffer for indications. -/
  | indBuf (w : Fin 128)
  /-- RAD_MIG_GO: R415 The manager starts a cell migration, and an offer is sent to the target. -/
  | radMigGo (v : BitVec 32)
  /-- MIGRATION_OFFER: R415 The target accepts or refuses a migration offer. -/
  | migrationOffer (src : BitVec 12)
  /-- MIG_PHASE1_COMPLETE: R415 The copy of UE contexts and HARQ buffers to the target completes. -/
  | migPhase1Complete (n : BitVec 11)
  /-- MIG_SWITCH: R415 At the switch boundary the cell moves to the target, or the migration is abandoned. -/
  | migSwitch (n : BitVec 11)
  /-- MIG_PHASE2_COMPLETE: R415 The copy of later HARQ buffers ends, and RESULT becomes DONE. -/
  | migPhase2Complete (n : BitVec 11)
  /-- FH_FRAME_RECEIVE: R421 A fronthaul frame is received whole and discarded, terminated or switched. -/
  | fhFrameReceive (sub : Fin 32) (f : EthFrame)
  /-- UPLANE_RECEIVE: R424 An uplink U-plane message in its window is written to radio buffers, or discarded as late. -/
  | uplaneReceive
  /-- PTP_SYNC_RECEIVE: R434 A Sync of a domain updates the offset that may drive the servo. -/
  | ptpSyncReceive
  /-- PTP_FOLLOW_UP_RECEIVE: R434 A Follow_Up supplies t1 and correction for a two-step Sync. -/
  | ptpFollowUpReceive
  /-- PTP_DELAY_RESP_RECEIVE: R434 A Delay_Resp updates the mean path delay. -/
  | ptpDelayRespReceive
  /-- PTP_ANNOUNCE_RECEIVE: R436 An Announce keeps a domain's validity and clock class. -/
  | ptpAnnounceReceive
  /-- DELAY_REQ_SEND: R433 The slave sends Delay_Req on the domain's port in use. -/
  | delayReqSend (d : Fin 2) (seq : BitVec 16) (ns : Nat)
  /-- PTP_DOMAIN_TIMEOUT: R436 An Announce or Sync timeout makes a domain stop being VALID or move to its backup port. -/
  | ptpDomainTimeout (d : Fin 2)
  /-- PTP_REVERT: R437 After REVERT_S seconds of validity, the preferred domain or slave port becomes active again. -/
  | ptpRevert
  /-- TM_ENQUEUE: R441 A frame or packet enters an egress queue and receives its fair-queueing tags, or is dropped. -/
  | tmEnqueue (e : Fin 56) (i : Fin 8)
  /-- TM_SELECT: R441 The egress takes the eligible head frame with the smallest finish tag. -/
  | tmSelect (e : Fin 56) (egress : Nat)
  /-- TM_SAMPLE: R446 A radio-class queue's depth and head delay are sampled 16 times per exposure. -/
  | tmSample
  /-- TM_Q_CLEAR: R447 A write of CLEAR resets both high-water marks of the selected queue. -/
  | tmQClear
  /-- FH_MRX_READ: R429 A manager read of FH_MRX_W0 takes the next word of the receive FIFO. -/
  | fhMrxRead (req : Fin 4)
  /-- PTP_SNAP: R452 A write of SNAP captures the time base into the time registers. -/
  | ptpSnap
  /-- FH_LINK_DOWN: R448 A fronthaul sub-port loses link. -/
  | fhLinkDown (sub : Fin 32)
  /-- PERST_RELEASE: R457 PERST_L is released, the bifurcation straps are sampled and the link trains. -/
  | perstRelease (port : Fin 2) (x8 : Bool)
  /-- FUNCTION_LEVEL_RESET: R461 An FLR aborts and resets every window of the link. -/
  | functionLevelReset (l : Fin 4)
  /-- PCIE_LINK_DOWN: R461 A hot reset, link-down or surprise-down moves every enabled window of the link to ERROR. -/
  | pcieLinkDown (l : Fin 4)
  /-- HOST_READ_ERROR: R460 A host read that times out or completes with UR or CA is a host read error. -/
  | hostReadError (w : Fin 128)
  /-- MGR_HEARTBEAT: R463 The manager writes HST_MGR_HB. -/
  | mgrHeartbeat (via : Fin 2)
  /-- HB_LAPSE: R463 The heartbeat interval lapses, HB_LAPSE is set and HST_MGR_LAPSE is raised. -/
  | hbLapse
  /-- MGR_CLAIM: R463 A peer claim after a lapse swaps the manager role at the next shutter. -/
  | mgrClaim (via : Fin 2)
  /-- COMMAND_FETCH: R467 At a fetch point, due windows are read in order and their new entries take the arrival tick. -/
  | commandFetch (k : Fin 8) (rs : List WinRead)
  /-- WINDOW_ENABLE: R465 ENABLE moves a correctly set-up DISABLED window to ACTIVE. -/
  | windowEnable (w : Fin 128) (rcb : Option (BitVec 32 × BitVec 32 × BitVec 32))
  /-- WINDOW_STOP_ADMIT: R479 STOP_ADMIT moves an ACTIVE window to STOPPED. -/
  | windowStopAdmit (w : Fin 128)
  /-- WINDOW_DRAIN: R479 DRAIN moves a STOPPED window to DRAINING. -/
  | windowDrain (w : Fin 128)
  /-- WINDOW_ABORT: R479 ABORT discards unstarted commands, stops jobs and closes live contexts. -/
  | windowAbort (w : Fin 128)
  /-- WINDOW_RESET: R479 RESET returns a QUIESCED window to DISABLED, keeping its set-up. -/
  | windowReset (w : Fin 128)
  /-- WINDOW_REMOVE: R479 REMOVE returns a window to DISABLED and zeroes its set-up. -/
  | windowRemove (w : Fin 128)
  /-- WINDOW_QUIESCE: R479 A draining or aborting window with no work left becomes QUIESCED. -/
  | windowQuiesce (w : Fin 128)
  /-- WINDOW_DRAIN_TIMEOUT: R479 A drain that lasts TMO exposures moves the window to ABORTING. -/
  | windowDrainTimeout (w : Fin 128)
  /-- WINDOW_ABORT_TIMEOUT: R479 An abort that lasts TMO exposures forces the window QUIESCED. -/
  | windowAbortTimeout (w : Fin 128)
  /-- NOP: R470 A NOP command completes at fetch. -/
  | nop (w : Fin 129)
  /-- JOB_START: R471 A JOB_START command is checked and its job becomes pending. -/
  | jobStart (w : Fin 129)
  /-- JOB_STOP: R470 A JOB_STOP command stops a job's threads at the next instruction boundary. -/
  | jobStop (w : Fin 129)
  /-- JOB_PRIO: R470 A JOB_PRIO command changes a job's priority at the next scheduling evaluation. -/
  | jobPrio (w : Fin 129)
  /-- COPY: R470 A COPY command runs a bulk copy on queue 2. -/
  | copy (w : Fin 129) (m : Fin 8)
  /-- FILL: R470 A FILL command runs a bulk zero fill on queue 2. -/
  | fill (w : Fin 129) (m : Fin 8)
  /-- CTX_OPEN: R472 A CTX_OPEN command opens a context at the next eligible planning. -/
  | ctxOpen (w : Fin 128)
  /-- CTX_PREFILL: R470 A CTX_PREFILL command resubmits an EXPIRED context's history. -/
  | ctxPrefill (w : Fin 128)
  /-- CTX_PAUSE: R470 A CTX_PAUSE command pauses a running context. -/
  | ctxPause (w : Fin 128)
  /-- CTX_RESUME: R470 A CTX_RESUME command queues a PAUSED context for resume. -/
  | ctxResume (w : Fin 128)
  /-- CTX_CLOSE: R470 A CTX_CLOSE command closes a context. -/
  | ctxClose (w : Fin 128)
  /-- CTX_TREE: R470 A CTX_TREE command writes HOST_TREE of a context at once. -/
  | ctxTree (w : Fin 128)
  /-- CTX_DIGEST: R531 A CTX_DIGEST command writes the context's digest report to DEST. -/
  | ctxDigest (w : Fin 128)
  /-- MODEL_LOAD: R234 A MODEL_LOAD command loads a model descriptor into a slot and returns its handle. -/
  | modelLoad (w : Fin 129) (data : Option (List Byte))
  /-- MODEL_UNLOAD: R234 A MODEL_UNLOAD command unloads a model no live context names. -/
  | modelUnload (w : Fin 129)
  /-- PART_MODEL: R470 A PART_MODEL command sets a partition's model and starts its serving job. -/
  | partModel (w : Fin 129)
  /-- CQ_FULL_TIMEOUT: R477 A completion ring full for TMO exposures moves the window to ERROR with CQ_FULL. -/
  | cqFullTimeout (w : Fin 128)
  /-- COALESCE_TIMER: R478 The coalescing time after the first uncommitted entry expires and the completion vector fires. -/
  | coalesceTimer (w : Fin 128)
  /-- JOB_LAUNCH: R480 The scheduler starts a pending job whose threads, channels and regions are free. -/
  | jobLaunch (job : BitVec 32)
  /-- JOB_START_TIMEOUT: R480 A job pending for START_TMO × 1,024 exposures completes with START_TMO. -/
  | jobStartTimeout (job : BitVec 32)
  /-- JOB_END: R482 A job's threads all end, its resources are freed and a JOB_END entry is written. -/
  | jobEnd (job : BitVec 32)
  /-- FAULT_MESSAGE: R492 The collector counts, logs and acts on a fault or event message. -/
  | faultMessage
  /-- COLLECTOR_SELF_FAULT: R499 A collector self-check fails, entering safelight or merging as SECONDARY by phase. -/
  | collectorSelfFault
  /-- SAFELIGHT_ENTRY: R501 The device enters the safelight state in the stated cycle sequence. -/
  | safelightEntry
  /-- FLT_SAFELIGHT: R500 A write of FLT_CTL.SAFELIGHT logs FLT_MANUAL and enters the safelight state. -/
  | fltSafelight
  /-- FLT_TEST: R498 A write of FLT_CTL.TEST requests entry to or exit from the TEST phase. -/
  | fltTest (v : Bool)
  /-- CNT_CLEAR: R504 A write of CNT_CLEAR sets every set-count to 0. -/
  | cntClear
  /-- FLT_INJECT: R515 In TEST, a write of GO injects a message with a given source and kind. -/
  | fltInject (src : BitVec 12) (kind : BitVec 8)
  /-- VERDICT: R510 A VERDICT command writes the peer table's DEAD bit for a chip. -/
  | verdict (arg : BitVec 32) (rseq : BitVec 16)
  /-- REPLAY: R510 A REPLAY command starts a replay of a held partition. -/
  | replay (arg : BitVec 32) (rseq : BitVec 16)
  /-- SRC_CLEAR: R510 A SRC_CLEAR command zeroes a source's count and ends SEVERE. -/
  | srcClear (arg : BitVec 32) (rseq : BitVec 16)
  /-- VERDICT_APPLIED: R512 At the next shutter a verdict takes effect, completing requests, discarding traffic and orphaning records. -/
  | verdictApplied
  /-- REPLAY_START: R507 At the first shutter with the job's chains ended, the faulted step's plan is replayed. -/
  | replayStart (p : Fin 16)
  /-- REPLAY_WAIT_TIMEOUT: R507 A partition in STEP_FAULT for WAIT_EXP exposures is halted and SRV_REPLAY_TMO is raised. -/
  | replayWaitTimeout (p : Fin 16)
  /-- FLT_QUEUE_READ: R517 A read of FLT_Q_W0 takes the next fault message and latches its other words. -/
  | fltQueueRead (req : Fin 4)
  /-- REPLAY_ENABLE: R525 Setting a partition's REPLAY bit puts it into replay mode. -/
  | replayEnable (p : Fin 16) (v : Bool)
  /-- REPLAY_HORIZON_TIMEOUT: R527 A replay horizon below the cut for TMO exposures halts planning and raises SRV_REPLAY_TMO. -/
  | replayHorizonTimeout (p : Fin 16)
  /-- AUDIT_BLOCK_CLOSE: R540 An audit block closes when full, after CLOSE_MS, or after the safelight record, and is signed. -/
  | auditBlockClose
  /-- AUDIT_BLOCK_COMMIT: R542 A signed block is written and committed in each flash, and mirrored. -/
  | auditBlockCommit (failA failB : Bool)
  /-- MIRROR_ACK: R543 The manager acknowledges mirrored blocks by writing AUD_MIRROR_CI. -/
  | mirrorAck (ci : BitVec 32)
  /-- GET_VERSION: R544 The SPDM responder answers GET_VERSION. -/
  | getVersion
  /-- GET_CAPABILITIES: R544 The SPDM responder answers GET_CAPABILITIES. -/
  | getCapabilities
  /-- NEGOTIATE_ALGORITHMS: R544 The SPDM responder answers NEGOTIATE_ALGORITHMS. -/
  | negotiateAlgorithms
  /-- GET_DIGESTS: R544 The SPDM responder answers GET_DIGESTS. -/
  | getDigests
  /-- GET_CERTIFICATE: R544 The SPDM responder returns the slot 0 certificate chain. -/
  | getCertificate (slot : Fin 8) (off len : BitVec 16)
  /-- CHALLENGE: R544 The SPDM responder answers a CHALLENGE with a signature. -/
  | challenge (slot : Fin 8) (nonce : BitVec 256)
  /-- GET_MEASUREMENTS: R545 The SPDM responder returns the signed measurement blocks. -/
  | getMeasurements (index : BitVec 8) (sign : Bool) (nonce : BitVec 256)
  /-- SPDM_UNSUPPORTED: R544 Any other SPDM request receives ERROR with UnsupportedRequest. -/
  | spdmUnsupported
  /-- COLD_RESET: R550 An always-on supply rises above 1.62 V with none present before, resetting the whole device. -/
  | coldReset (a b : Bool)
  /-- CHIP_RESET: R550 RESET_L asserted resets the device except the always-on domain. -/
  | chipReset
  /-- WATCHDOG_EXPIRY: R551 The management watchdog expires after 2,000 ms and starts a CHIP reset. -/
  | watchdogExpiry
  /-- BOOT_RESET: R552 A write of KEY 0x5A17 with GO starts a CHIP reset 1 ms later. -/
  | bootReset (key : BitVec 16)
  /-- IDENTITY_DERIVE: R560 The PUF is read and the identity and flash keys are derived. -/
  | identityDerive (ok : Bool)
  /-- FW_VERIFY: R558 The ROM chooses and verifies a firmware slot, or enters HALT. -/
  | fwVerify (authA authB : Bool)
  /-- LP_TRAIN: R553 LPDDR6 training completes and ID_MEMORY is written. -/
  | lpTrain (dens : Fin 3) (bad : List (Fin 96))
  /-- SELF_TEST: R556 Built-in self-test runs and isolates failing units. -/
  | selfTest (arrays : List (Fin 72)) (cores : List (Fin 104))
  /-- IMG_VERIFY: R558 The firmware chooses and checks an image slot, or enters WAIT_IMAGE. -/
  | imgVerify
  /-- IMAGE_APPLY: R48 At a shutter the verified image is applied whole, and VALID becomes 1. -/
  | imageApply (src : Option Int)
  /-- BOOT_RECOVER: R561 In HALT, GO verifies a firmware package in stage memory, writes both slots and resets. -/
  | bootRecover (f : Firmware)
  /-- FLOOR_RAISE: R562 GO raises the rollback floor in both flash counters, or is refused. -/
  | floorRaise (okA okB : Bool)
  /-- IMG_DELTA: R568 IMG_CMD OP 1 verifies a recomposition delta. -/
  | imgDelta (g : Image)
  /-- IMG_WRITE: R570 IMG_CMD OP 2 writes an image to flash slots. -/
  | imgWrite (g : Image)
  /-- FW_WRITE: R570 IMG_CMD OP 3 writes a firmware package to flash slots. -/
  | fwWrite (f : Firmware)
  /-- DELTA_APPLY: R568 At the first shutter at or after APPLY, a verified delta takes effect. -/
  | deltaApply
  /-- IMG_WRITE_COMPLETE: R570 A flash write of an image or firmware completes and WRITTEN is set. -/
  | imgWriteComplete (fail : Bool)
  /-- XTAL_WINDOW: R574 A crystal count window ends, and the crystal may become qualified. -/
  | xtalWindow (count : BitVec 16)
  /-- XTAL_QUAL_TIMEOUT: R575 A crystal not qualified by 20 ms raises CLK_XTAL_FAIL. -/
  | xtalQualTimeout
  /-- TIMEREF_WINDOW: R578 A TIMEREF measurement window ends, and TIMEREF may become valid. -/
  | timerefWindow (ppm : BitVec 16)
  /-- TIMEREF_LOST: R579 TIMEREF stops being valid and the PLLs move to the crystal. -/
  | timerefLost
  /-- XTAL_LOST: R579 The crystal is lost and the always-on domains move to the trimmed oscillator. -/
  | xtalLost
  /-- REFERENCE_LOSS: R580 With no PLL reference left, outputs are forced to reset and safelight holds until the crystal requalifies. -/
  | referenceLoss
  /-- PWR_OP_REQUEST: R583 A write of PWR_OP.REQ changes the target point and starts the sequencer. -/
  | pwrOpRequest (v : Fin 8)
  /-- OP_CHANGE: R582 At a shutter the idle PLL takes over at the new operating point. -/
  | opChange (mv : BitVec 10) (locked : Bool)
  /-- RAISE_SETTLE_TIMEOUT: R583 A raise not ready SETTLE_US after its voltage write is given up. -/
  | raiseSettleTimeout
  /-- AVS_TRANSACTION: R584 An AVSBus transaction completes, and is retried once on failure. -/
  | avsTransaction (ok : Bool)
  /-- AON_SUPPLY_SWITCH: R585 The active always-on supply falls below 1.62 V and the domain switches to the other. -/
  | aonSupplySwitch (a b : Bool)
  /-- AON_RETURN: R585 After VAON_A has stayed above 1.71 V for 10 ms, the domain returns to it. -/
  | aonReturn
  /-- PIN_FILTER_WRITE: R609 A write of PWR_PIN_FILT.UNITS sets an input's filter time and restarts any count. -/
  | pinFilterWrite (v : BitVec 6)
  /-- FH_LINK_UP: R436 A fronthaul sub-port gains link, setting its UP bit and letting a PTP domain's slave or backup port count as up again. -/
  | fhLinkUp (sub : Fin 32)
  /-- RESET_RELEASE: R614 The board releases RESET_L, and start-up proceeds from stage FW_VERIFY. -/
  | resetRelease
  /-- POWER_ON_RESET: R585 Both always-on supplies fall below 1.62 V, and the device enters power-on reset with every pin in its reset state. -/
  | powerOnReset
  /-- PCIE_LINK_UP: R457 A PCIe link finishes training and comes up at its negotiated rate and width. -/
  | pcieLinkUp (l : Fin 4) (rate : Fin 6) (width : Fin 5)
  /-- VECTOR_UNMASK: R478 A host unmasks an MSI-X vector whose pending bit is set, and the held message is sent. -/
  | vectorUnmask (l : Fin 4) (v : Fin 256)
  deriving DecidableEq, Repr

end Sys2Proof
end

