-- ==== Sys2Proof/Decode.lean ====
section
/-! DEFINITION. The decoder over the opcode table's bits. The table of this block gives no row any bits: its rows are events and
accesses, and what they carry is an operand of the command. No word spells a command. -/
namespace Sys2Proof

/-- The command that a word spells by the bits the opcode table gives its rows: none, since no row has bits. -/
def decodeTableWord (_nbits _w : Nat) : Option Instr := none

end Sys2Proof
end

