-- ==== Sys2Proof/Machine/Store.lean ====
section
/-! DEFINITION. Sparse tables in ONE canonical form: keys strictly rising, no entry equal to what an
unlisted key reads as, so that equal tables are equal data. Also the bit-field and little-endian helpers. -/
namespace Sys2Proof.Machine

/-- The value at a key; an unlisted key reads as `d`. -/
def sget {α : Type} (d : α) : SMap α → Nat → α
  | [], _ => d
  | (k, v) :: m, j => if j = k then v else sget d m j

/-- Remove a key. -/
def sdel {α : Type} : SMap α → Nat → SMap α
  | [], _ => []
  | (k, v) :: m, j => if j = k then sdel m j else (k, v) :: sdel m j

/-- Put an entry in front of the first larger key. -/
def sins {α : Type} (j : Nat) (x : α) : SMap α → SMap α
  | [] => [(j, x)]
  | (k, v) :: m => if j < k then (j, x) :: (k, v) :: m else (k, v) :: sins j x m

/-- Set a key; setting the value an unlisted key reads as removes the entry. -/
def sset {α : Type} [DecidableEq α] (d : α) (m : SMap α) (j : Nat) (x : α) : SMap α :=
  if x = d then sdel m j else sins j x (sdel m j)

/-- Change the value at a key. -/
def smod {α : Type} [DecidableEq α] (d : α) (m : SMap α) (j : Nat) (f : α → α) : SMap α :=
  sset d m j (f (sget d m j))

/-- Change the value at every listed key. -/
def smapv {α : Type} [DecidableEq α] (d : α) (m : SMap α) (f : α → α) : SMap α :=
  (m.map (·.1)).foldl (fun a k => sset d a k (f (sget d m k))) m

/-- The canonical form of a sparse table: keys strictly rising, no default listed. -/
def swf {α : Type} [DecidableEq α] (d : α) : SMap α → Bool
  | [] => true
  | (k, v) :: m => decide (v ≠ d) && (m.all (fun e => decide (k < e.1))) && swf d m

/-- Bits [hi:lo] of a number (R7). -/
def bits (x hi lo : Nat) : Nat := x / 2 ^ lo % 2 ^ (hi + 1 - lo)

/-- Bit i of a number. -/
def bitAt (x i : Nat) : Bool := bits x i i == 1

/-- Replace bits [hi:lo] of a number by v. -/
def setBits (x hi lo v : Nat) : Nat :=
  x - bits x hi lo * 2 ^ lo + (v % 2 ^ (hi + 1 - lo)) * 2 ^ lo

/-- The number as two's complement of the given width. -/
def toSigned (w x : Nat) : Int :=
  let y := x % 2 ^ w
  if y ≥ 2 ^ (w - 1) then (y : Int) - (2 ^ w : Nat) else y

/-- An integer as an unsigned number of the given width, modulo 2^w. -/
def ofSigned (w : Nat) (x : Int) : Nat := (x % ((2 ^ w : Nat) : Int)).toNat

/-- Saturating counter increment by n at a width. -/
def satAdd (w x n : Nat) : Nat := min (x + n) (2 ^ w - 1)

/-- Signed saturation to a width. -/
def satSigned (w : Nat) (x : Int) : Int :=
  let m : Int := (2 ^ (w - 1) : Nat)
  if x ≥ m then m - 1 else if x < -m then -m else x

/-- A little-endian number from its bytes (R7). -/
def leNat : List Byte → Nat
  | [] => 0
  | b :: bs => b.toNat + 256 * leNat bs

/-- The n little-endian bytes of a number (R7). -/
def leBytes : Nat → Nat → List Byte
  | 0, _ => []
  | n + 1, x => BitVec.ofNat 8 x :: leBytes n (x / 256)

/-- The first n bytes of a list, zeros past its end. -/
def padTo (n : Nat) (bs : List Byte) : List Byte := (List.range n).map (fun i => bs.getD i 0)

/-- A number of bits set among bits 0 to n − 1. -/
def popCount : Nat → Nat → Nat
  | 0, _ => 0
  | n + 1, x => x % 2 + popCount n (x / 2)

/-- The positions of the bits set among bits 0 to n − 1. -/
def bitList (n x : Nat) : List Nat := (List.range n).filter (fun i => bitAt x i)

/-- Ceiling division. -/
def ceilDiv (a b : Nat) : Nat := if b = 0 then 0 else (a + b - 1) / b

/-- Replace element i of a list; a position past the end changes nothing. -/
def lset {α : Type} (l : List α) (i : Nat) (x : α) : List α := l.set i x

end Sys2Proof.Machine
end

