-- ==== Sys2Proof/Machine/Fp.lean ====
section
/-! DEFINITION. Floating-point formats and IEEE 754-2019 arithmetic with one rounding, ties to even
(R113, R114, R127, R135 to R137, R619). A value is exact: a sign, a magnitude m × 2^e. -/
namespace Sys2Proof.Machine

/-- A decoded floating-point datum. -/
inductive Fv where
  | nan (signalling : Bool)
  | inf (neg : Bool)
  | fin (neg : Bool) (m : Nat) (e : Int)
  deriving DecidableEq, Repr

/-- A format: exponent bits, mantissa bits, whether the top exponent holds infinities and NaNs, and whether the one
all-ones code is its NaN (FP8 E4M3). -/
structure Fmt where
  eb : Nat
  mb : Nat
  ieee : Bool
  nanOnes : Bool
  deriving DecidableEq, Repr

/-- R114, R156: the floating-point formats by the conversion class's codes; INT32 (6) and INT8 (7) are not in it. -/
def fmtOf : Nat → Fmt
  | 0 => ⟨11, 52, true, false⟩
  | 1 => ⟨8, 23, true, false⟩
  | 2 => ⟨8, 7, true, false⟩
  | 3 => ⟨5, 10, true, false⟩
  | 4 => ⟨4, 3, false, true⟩
  | 5 => ⟨5, 2, true, false⟩
  | 8 => ⟨2, 3, false, false⟩
  | 9 => ⟨3, 2, false, false⟩
  | _ => ⟨2, 1, false, false⟩

/-- R156: width in bits of a datum of a conversion code. -/
def codeWidth : Nat → Nat
  | 0 => 64 | 1 => 32 | 2 => 16 | 3 => 16 | 4 => 8 | 5 => 8 | 6 => 32 | 7 => 8 | 8 => 6 | 9 => 6 | _ => 4

def Fmt.bias (f : Fmt) : Int := 2 ^ (f.eb - 1) - 1
def Fmt.emin (f : Fmt) : Int := 1 - f.bias
def Fmt.width (f : Fmt) : Nat := 1 + f.eb + f.mb

/-- Largest finite magnitude as m × 2^e (R114). -/
def Fmt.maxFin (f : Fmt) : Nat × Int :=
  if f.ieee then (2 ^ (f.mb + 1) - 1, f.bias - f.mb)
  else if f.nanOnes then (2 ^ (f.mb + 1) - 2, (2 ^ f.eb - 1 : Int) - f.bias - f.mb)
  else (2 ^ (f.mb + 1) - 1, (2 ^ f.eb - 1 : Int) - f.bias - f.mb)

/-- Decode a datum (R114). A NaN is signalling when its top mantissa bit is 0; in E5M2 that is S.11111.01 (DESIGN CHOICE 90: no source
says which E5M2 codes signal). -/
def Fmt.decode (f : Fmt) (x : Nat) : Fv :=
  let neg := bitAt x (f.eb + f.mb)
  let ex := bits x (f.eb + f.mb - 1) f.mb
  let mn := x % 2 ^ f.mb
  if f.ieee && ex == 2 ^ f.eb - 1 then
    if mn = 0 then .inf neg else .nan (!(bitAt mn (f.mb - 1)))
  else if f.nanOnes && ex == 2 ^ f.eb - 1 && mn == 2 ^ f.mb - 1 then .nan false
  else if ex = 0 then .fin neg mn (f.emin - f.mb)
  else .fin neg (2 ^ f.mb + mn) ((ex : Int) - f.bias - f.mb)

/-- The canonical quiet NaN of a format (R136), and the NaN codes of the table under R127. -/
def Fmt.qnan (f : Fmt) : Nat :=
  if f.nanOnes then 2 ^ (f.eb + f.mb) - 1
  else if f.eb = 5 ∧ f.mb = 2 then 0x7F
  else (2 ^ f.eb - 1) * 2 ^ f.mb + 2 ^ (f.mb - 1)

def Fmt.signed (f : Fmt) (neg : Bool) (x : Nat) : Nat := if neg then 2 ^ (f.eb + f.mb) + x else x

/-- The infinity of a format. -/
def Fmt.infBits (f : Fmt) (neg : Bool) : Nat := f.signed neg ((2 ^ f.eb - 1) * 2 ^ f.mb)

/-- Shift a number by a signed count. -/
def shiftBy (m : Nat) (k : Int) : Nat := if k ≥ 0 then m * 2 ^ k.toNat else m / 2 ^ (-k).toNat

/-- R113: divide by 2^k to the nearest integer, ties to even; the second part says whether bits were lost. -/
def rnePow (m k : Nat) : Nat × Bool :=
  let q := m / 2 ^ k
  let r := m % 2 ^ k
  if r = 0 then (q, false)
  else if 2 * r > 2 ^ k then (q + 1, true)
  else if 2 * r < 2 ^ k then (q, true)
  else (q + q % 2, true)

/-- R113: a rational to the nearest integer, ties to even. -/
def rneDiv (n d : Nat) : Nat :=
  let q := n / d
  let r := n % d
  if 2 * r > d then q + 1 else if 2 * r < d then q else q + q % 2

/-- Round m × 2^e to mb + 1 significant bits with least exponent emin; `sticky` says the value lies strictly above
m × 2^e and below (m + 1) × 2^e. The answer r × 2^q, and whether it is inexact. -/
def roundMag (mb : Nat) (emin : Int) (m : Nat) (e : Int) (sticky : Bool) : Nat × Int × Bool :=
  let m2 := 2 * m + (if sticky then 1 else 0)
  let e2 := e - 1
  if m2 = 0 then (0, emin - mb, false)
  else
    let q := max ((Nat.log2 m2 : Int) + e2 - mb) (emin - mb)
    if q ≤ e2 then (m2 * 2 ^ (e2 - q).toNat, q, false)
    else
      let (r, ix) := rnePow m2 (q - e2).toNat
      (r, q, ix)

/-- Whether a × 2^x exceeds b × 2^y. -/
def magGt (a : Nat) (x : Int) (b : Nat) (y : Int) : Bool :=
  let l := min x y
  decide (a * 2 ^ (x - l).toNat > b * 2 ^ (y - l).toNat)

def flInvalid : Nat := 1
def flDivZero : Nat := 2
def flOverflow : Nat := 4
def flUnderflow : Nat := 8
def flInexact : Nat := 16

/-- Encode a rounded magnitude r × 2^q that fits the format. -/
def Fmt.pack (f : Fmt) (neg : Bool) (r : Nat) (q : Int) : Nat :=
  let (r, q) := if r = 2 ^ (f.mb + 1) then (2 ^ f.mb, q + 1) else (r, q)
  if r < 2 ^ f.mb then f.signed neg r
  else f.signed neg ((q + f.mb + f.bias).toNat * 2 ^ f.mb + (r - 2 ^ f.mb))

/-- R127, R135, R619: round an exact finite magnitude to a floating-point format; the datum and the flags it sets. -/
def Fmt.round (f : Fmt) (neg : Bool) (m : Nat) (e : Int) (sticky : Bool) : Nat × Nat :=
  let (r, q, ix) := roundMag f.mb f.emin m e sticky
  let (mm, me) := f.maxFin
  if magGt r q mm me then
    ((if f.ieee then f.infBits neg else f.pack neg mm me), flOverflow + flInexact)
  else
    let (ru, qu, _) := roundMag f.mb (f.emin - 4096) m e sticky
    let tiny := decide (r ≠ 0 ∨ m ≠ 0 ∨ sticky = true) && magGt 1 f.emin ru qu
    (f.pack neg r q, if ix then flInexact + (if tiny then flUnderflow else 0) else 0)

/-- R127, R619: convert a datum to the destination of a code; the result and the flags. `satur` marks an AP SAT
source, which counts as a NaN that sets invalid. A value that rounds to −128 is in the range of INT8 and sets no invalid (DESIGN CHOICE
90: R114 gives 127 as the largest finite magnitude and R127 judges by magnitude). -/
def convertTo (code : Nat) (v : Fv) (satur : Bool) : Nat × Nat :=
  if code = 6 then
    match v with
    | .nan _ => (0x80000000, flInvalid)
    | .inf neg => (ofSigned 32 (if neg then -(2 ^ 31 - 1) else 2 ^ 31 - 1), flInvalid)
    | .fin neg m e =>
      let (r, ix) := if e ≥ 0 then (m * 2 ^ e.toNat, false) else rnePow m (-e).toNat
      if r > 2 ^ 31 - 1 then (ofSigned 32 (if neg then -(2 ^ 31 - 1) else 2 ^ 31 - 1), flInvalid)
      else (ofSigned 32 (if neg then -(r : Int) else r), if ix then flInexact else 0)
  else if code = 7 then
    match v with
    | .nan _ => (0, flInvalid)
    | .inf neg => (ofSigned 8 (if neg then -128 else 127), flInvalid)
    | .fin neg m e =>
      let (r, ix) := if e ≥ 0 then (m * 2 ^ e.toNat, false) else rnePow m (-e).toNat
      if r > (if neg then 128 else 127) then (ofSigned 8 (if neg then -128 else 127), flInvalid)
      else (ofSigned 8 (if neg then -(r : Int) else r), if ix then flInexact else 0)
  else
    let f := fmtOf code
    match v with
    | .nan sg =>
      if f.ieee || f.nanOnes then (f.qnan, if sg || satur then flInvalid else 0) else (0, flInvalid)
    | .inf neg =>
      if f.ieee then (f.infBits neg, 0) else (f.pack neg f.maxFin.1 f.maxFin.2, flInvalid)
    | .fin neg m e => f.round neg m e false

/-- Decode a datum of a conversion code (R156): integers are exact values. -/
def decodeCode (code x : Nat) : Fv :=
  if code = 6 then let v := toSigned 32 x; .fin (decide (v < 0)) v.natAbs 0
  else if code = 7 then let v := toSigned 8 x; .fin (decide (v < 0)) v.natAbs 0
  else (fmtOf code).decode x

/-! Arithmetic (R135, R136). The flag numbers are those of FPFLAGS (R153). -/

def Fv.isSnan : Fv → Bool
  | .nan s => s
  | _ => false

def Fv.isNan : Fv → Bool
  | .nan _ => true
  | _ => false

/-- Exact sum of two finite data, as sign, magnitude and exponent; an exact zero keeps a common sign, else +0. -/
def finAdd (n1 : Bool) (m1 : Nat) (e1 : Int) (n2 : Bool) (m2 : Nat) (e2 : Int) : Bool × Nat × Int :=
  let e := min e1 e2
  let a : Int := (m1 * 2 ^ (e1 - e).toNat : Nat)
  let b : Int := (m2 * 2 ^ (e2 - e).toNat : Nat)
  let x := (if n1 then -a else a) + (if n2 then -b else b)
  if x = 0 then ((if m1 = 0 ∧ m2 = 0 then n1 && n2 else false), 0, e)
  else (decide (x < 0), x.natAbs, e)

def Fmt.nanOut (f : Fmt) (inv : Bool) : Nat × Nat := (f.qnan, if inv then flInvalid else 0)

/-- Addition, rounded once. -/
def Fmt.fadd (f : Fmt) (a b : Fv) : Nat × Nat :=
  match a, b with
  | .nan x, y => f.nanOut (x || y.isSnan)
  | x, .nan y => f.nanOut (y || x.isSnan)
  | .inf x, .inf y => if x = y then (f.infBits x, 0) else f.nanOut true
  | .inf x, _ => (f.infBits x, 0)
  | _, .inf y => (f.infBits y, 0)
  | .fin n1 m1 e1, .fin n2 m2 e2 =>
    let (n, m, e) := finAdd n1 m1 e1 n2 m2 e2
    f.round n m e false

def Fv.negate : Fv → Fv
  | .nan s => .nan s
  | .inf n => .inf (!n)
  | .fin n m e => .fin (!n) m e

/-- Exact product; `none` where it is the invalid product 0 × ∞. -/
def fmulExact : Fv → Fv → Option Fv
  | .nan x, y => some (.nan (x || y.isSnan))
  | x, .nan y => some (.nan (y || x.isSnan))
  | .inf x, .inf y => some (.inf (x != y))
  | .inf x, .fin n m _ => if m = 0 then none else some (.inf (x != n))
  | .fin n m _, .inf y => if m = 0 then none else some (.inf (n != y))
  | .fin n1 m1 e1, .fin n2 m2 e2 => some (.fin (n1 != n2) (m1 * m2) (e1 + e2))

/-- Round an exact datum to a format. -/
def Fmt.out (f : Fmt) (v : Fv) : Nat × Nat :=
  match v with
  | .nan s => f.nanOut s
  | .inf n => (f.infBits n, 0)
  | .fin n m e => f.round n m e false

/-- Multiplication, rounded once. -/
def Fmt.fmul (f : Fmt) (a b : Fv) : Nat × Nat :=
  match fmulExact a b with
  | none => f.nanOut true
  | some v => f.out v

/-- Fused multiply-add a × b + c, rounded once. 0 × ∞ with a quiet NaN as addend sets invalid (DESIGN CHOICE 90: IEEE 754-2019 leaves
it to the implementation). -/
def Fmt.ffma (f : Fmt) (a b c : Fv) : Nat × Nat :=
  match fmulExact a b with
  | none => f.nanOut true
  | some v => f.fadd v c

/-- Extra quotient bits, more than any format needs before the rounding. -/
def quoBits : Nat := 160

/-- Division, correctly rounded. -/
def Fmt.fdiv (f : Fmt) (a b : Fv) : Nat × Nat :=
  match a, b with
  | .nan x, y => f.nanOut (x || y.isSnan)
  | x, .nan y => f.nanOut (y || x.isSnan)
  | .inf _, .inf _ => f.nanOut true
  | .inf x, .fin n _ _ => (f.infBits (x != n), 0)
  | .fin n _ _, .inf y => (f.signed (n != y) 0, 0)
  | .fin n1 m1 e1, .fin n2 m2 e2 =>
    if m2 = 0 then (if m1 = 0 then f.nanOut true else (f.infBits (n1 != n2), flDivZero))
    else
      let k := quoBits + Nat.log2 m2
      let num := m1 * 2 ^ k
      f.round (n1 != n2) (num / m2) (e1 - e2 - k) (decide (num % m2 ≠ 0))

/-- Integer square root, one result bit for each unit of fuel. -/
def isqrtGo : Nat → Nat → Nat → Nat
  | 0, _, r => r
  | k + 1, x, r =>
    let t := r + 2 ^ k
    isqrtGo k x (if t * t ≤ x then t else r)

/-- Largest r with r² ≤ x. -/
def isqrt (x : Nat) : Nat := isqrtGo (Nat.log2 x / 2 + 1) x 0

/-- Square root, correctly rounded. -/
def Fmt.fsqrt (f : Fmt) (a : Fv) : Nat × Nat :=
  match a with
  | .nan x => f.nanOut x
  | .inf n => if n then f.nanOut true else (f.infBits false, 0)
  | .fin n m e =>
    if m = 0 then (f.signed n 0, 0)
    else if n then f.nanOut true
    else
      let (m, e) := if e % 2 = 0 then (m, e) else (2 * m, e - 1)
      let x := m * 2 ^ (2 * quoBits)
      let r := isqrt x
      f.round false r (e / 2 - quoBits) (decide (r * r ≠ x))

/-- Reciprocal square root, correctly rounded. -/
def Fmt.frsqrt (f : Fmt) (a : Fv) : Nat × Nat :=
  match a with
  | .nan x => f.nanOut x
  | .inf n => if n then f.nanOut true else (f.signed false 0, 0)
  | .fin n m e =>
    if m = 0 then (f.infBits n, flDivZero)
    else if n then f.nanOut true
    else
      let (m, e) := if e % 2 = 0 then (m, e) else (2 * m, e - 1)
      let k := quoBits + Nat.log2 m
      let r := isqrt (2 ^ (2 * k) / m)
      f.round false r (-(e / 2) - k) (decide (r * r * m ≠ 2 ^ (2 * k)))

/-- Fraction bits that exp2 and log2 carry before the one rounding. -/
def fracBits : Nat := 480

/-- The product of 2^(2^-i) over the bits set of a fraction of n bits, in fixed point; t is 2^(2^-i). -/
def exp2Go : Nat → Nat → Nat → Nat → Nat
  | 0, _, _, acc => acc
  | n + 1, fr, t, acc =>
    let t := isqrt (t * 2 ^ fracBits)
    exp2Go n (fr % 2 ^ n) t (if fr / 2 ^ n % 2 = 1 then acc * t / 2 ^ fracBits else acc)

/-- 2^x, correctly rounded. A magnitude below 2^-200 leaves a result beside 1; one above 2^12 leaves every range. -/
def Fmt.fexp2 (f : Fmt) (a : Fv) : Nat × Nat :=
  match a with
  | .nan x => f.nanOut x
  | .inf n => if n then (f.signed false 0, 0) else (f.infBits false, 0)
  | .fin n m e =>
    if m = 0 then f.round false 1 0 false
    else if magGt m e 1 12 then
      (if n then f.round false 1 (-8192) false else (f.infBits false, flOverflow + flInexact))
    else if magGt 1 (-200) m e then
      (if n then f.round false (2 ^ 200 - 1) (-200) true else f.round false (2 ^ 200) (-200) true)
    else
      -- x = i + fr × 2^-300 with the fraction exact, since e is above -300 here
      let sh := e + 300
      let v : Int := (shiftBy m sh : Nat)
      let v := if n then -v else v
      let i := v / (2 ^ 300 : Int)
      let fr := (v % (2 ^ 300 : Int)).toNat
      if fr = 0 then f.round false 1 i false
      else f.round false (exp2Go 300 fr (2 * 2 ^ fracBits) (2 ^ fracBits)) (i - fracBits) true

/-- Binary digits of log2 of a mantissa in [1, 2) in fixed point, by repeated squaring. -/
def log2Go : Nat → Nat → Nat → Nat
  | 0, _, acc => acc
  | n + 1, y, acc =>
    let z := y * y / 2 ^ fracBits
    if z ≥ 2 * 2 ^ fracBits then log2Go n (z / 2) (2 * acc + 1) else log2Go n z (2 * acc)

/-- log2 x, correctly rounded. -/
def Fmt.flog2 (f : Fmt) (a : Fv) : Nat × Nat :=
  match a with
  | .nan x => f.nanOut x
  | .inf n => if n then f.nanOut true else (f.infBits false, 0)
  | .fin n m e =>
    if m = 0 then (f.infBits true, flDivZero)
    else if n then f.nanOut true
    else
      let l := Nat.log2 m
      let i : Int := e + l
      let y := m * 2 ^ fracBits / 2 ^ l
      if m = 2 ^ l then
        f.round (decide (i < 0)) i.natAbs 0 false
      else
        let fr : Int := (log2Go 240 y 0 : Nat)
        let v := i * (2 ^ 240 : Int) + fr
        if v ≥ 0 then f.round false v.toNat (-240) true
        else f.round true ((-v).toNat - 1) (-240) true

/-- Numeric order of two data that are not NaN: −1, 0 or 1; −0 below +0 only where `signedZero`. -/
def fcmp (signedZero : Bool) : Fv → Fv → Int
  | .inf x, .inf y => if x = y then 0 else if x then -1 else 1
  | .inf x, _ => if x then -1 else 1
  | _, .inf y => if y then 1 else -1
  | .fin n1 m1 e1, .fin n2 m2 e2 =>
    if m1 = 0 ∧ m2 = 0 then
      (if signedZero then (if n1 = n2 then 0 else if n1 then -1 else 1) else 0)
    else
      let (n, m, _) := finAdd n1 m1 e1 (!n2) m2 e2
      if m = 0 then 0 else if n then -1 else 1
  | _, _ => 0

/-- IEEE 754-2019 minimum (true) or maximum (false) of two data, encoded. -/
def Fmt.fminmax (f : Fmt) (isMin : Bool) (a b : Fv) : Nat × Nat :=
  if a.isNan || b.isNan then f.nanOut (a.isSnan || b.isSnan)
  else
    let c := fcmp true a b
    if isMin then f.out (if c ≤ 0 then a else b) else f.out (if c ≥ 0 then a else b)

/-- A comparison: 0 less, 1 less or equal, 2 equal. Less and less or equal signal invalid on any NaN, equal on a
signalling one (Assumption 8). -/
def fcompare (op : Nat) (a b : Fv) : Bool × Nat :=
  if a.isNan || b.isNan then (false, if op ≠ 2 || a.isSnan || b.isSnan then flInvalid else 0)
  else
    let c := fcmp false a b
    (match op with
     | 0 => decide (c < 0)
     | 1 => decide (c ≤ 0)
     | _ => decide (c = 0), 0)

end Sys2Proof.Machine
end

