-- ==== Sys2Proof/Config.lean ====
section
/-! DEFINITION. The free values: what the spec leaves open after an operation that goes on. Each is an opaque
constant with no body, read at the state's counter `free`, so that no proof can rest on a value of it. -/
namespace Sys2Proof

/-- Assumption 1: a value of 64 bits that the spec leaves open, at a count. -/
opaque Config.freeWord : Nat → BitVec 64
/-- Assumption 1: a byte that the spec leaves open, at a count. -/
opaque Config.freeByte : Nat → BitVec 8

/-- Assumption 36: byte i of the device identity public key, drawn from the PUF of the device (R560). -/
opaque Config.idKey : Nat → BitVec 8

/-- Assumption 36: byte i of the certificate chain of slot 0 (R544). -/
opaque Config.certByte : Nat → BitVec 8
/-- Assumption 36: length of the certificate chain of slot 0, less one: a chain is not empty (R544). -/
opaque Config.certLen : Nat
/-- Assumption 36: byte i of the hash of the management ROM (R545). -/
opaque Config.romHash : Nat → BitVec 8

/-- Assumption 65: the CRC-64 of a flit's first 248 bytes, whose polynomial R305 does not give. -/
opaque Config.crc64 : List (BitVec 8) → BitVec 64

end Sys2Proof
end

