-- ==== Sys2Proof/Machine/RegMap.lean ====
section
/-! DEFINITION. The register map: every register of BAR0 that the spec lays out (R35 and the register
tables of the chapters), with its offset, stride and count, its fields, their access codes (R12), reset values and
the range outside which a write leaves a field unchanged. One `r_NAME` per register gives its offset and one
`f_NAME_FIELD` per field names the field. -/
namespace Sys2Proof.Machine

/-- An access code of the table under R12. -/
inductive Access where
  | rw | ro | wo | w1c | w1s | rwl
  deriving DecidableEq, Repr

/-- Half of a 64-bit pair (R9). -/
inductive PairHalf where
  | none | low | high
  deriving DecidableEq, Repr

/-- A field of a register: bits [hi:lo], access, reset value, and the range a write must lie in. -/
structure RegField where
  hi : Nat
  lo : Nat
  acc : Access
  rst : Nat
  rng : Option (Nat × Nat)
  deriving DecidableEq, Repr

/-- A row of the register map: the register lies at base + i × stride for i below count. A view register
reports state that is held elsewhere. -/
structure RegRow where
  base : Nat
  stride : Nat
  count : Nat
  pair : PairHalf
  view : Bool
  fields : List RegField
  deriving DecidableEq, Repr

/-- A field in place: the register's offset and bits [hi:lo]. -/
structure FRef where
  off : Nat
  hi : Nat
  lo : Nat
  deriving DecidableEq, Repr

/-- `ID_DEVICE` (R4). -/
def r_ID_DEVICE : Nat := 0x0
def f_ID_DEVICE_FAMILY : FRef := ⟨r_ID_DEVICE, 31, 24⟩
def f_ID_DEVICE_PART : FRef := ⟨r_ID_DEVICE, 23, 16⟩
def f_ID_DEVICE_GRADE : FRef := ⟨r_ID_DEVICE, 15, 8⟩
def f_ID_DEVICE_STEP_MAJOR : FRef := ⟨r_ID_DEVICE, 7, 4⟩
def f_ID_DEVICE_STEP_MINOR : FRef := ⟨r_ID_DEVICE, 3, 0⟩
/-- `ID_UNITS` (R37). -/
def r_ID_UNITS : Nat := 0x4
def f_ID_UNITS_ARRAYS : FRef := ⟨r_ID_UNITS, 7, 0⟩
def f_ID_UNITS_SIGCORES : FRef := ⟨r_ID_UNITS, 15, 8⟩
def f_ID_UNITS_SPARES : FRef := ⟨r_ID_UNITS, 19, 16⟩
def f_ID_UNITS_PARTITIONS : FRef := ⟨r_ID_UNITS, 23, 20⟩
/-- `ID_MEMORY` (R38). -/
def r_ID_MEMORY : Nat := 0x8
def f_ID_MEMORY_CAP_GIB : FRef := ⟨r_ID_MEMORY, 15, 0⟩
def f_ID_MEMORY_CHANNELS : FRef := ⟨r_ID_MEMORY, 22, 16⟩
def f_ID_MEMORY_PKG_DENSITY : FRef := ⟨r_ID_MEMORY, 24, 23⟩
def f_ID_MEMORY_TRAINED : FRef := ⟨r_ID_MEMORY, 31, 31⟩
/-- `ID_CHIP` (R39). -/
def r_ID_CHIP : Nat := 0xC
def f_ID_CHIP_CHIP_ID : FRef := ⟨r_ID_CHIP, 11, 0⟩
def f_ID_CHIP_BASE_DIE_BOOT : FRef := ⟨r_ID_CHIP, 15, 12⟩
def f_ID_CHIP_VALID : FRef := ⟨r_ID_CHIP, 31, 31⟩
/-- `CLK_SHT_CFG` (R64). -/
def r_CLK_SHT_CFG : Nat := 0x100400
def f_CLK_SHT_CFG_PERIOD : FRef := ⟨r_CLK_SHT_CFG, 2, 0⟩
def f_CLK_SHT_CFG_RADIO : FRef := ⟨r_CLK_SHT_CFG, 3, 3⟩
def f_CLK_SHT_CFG_MARGIN_PCT : FRef := ⟨r_CLK_SHT_CFG, 10, 4⟩
def f_CLK_SHT_CFG_GUARD : FRef := ⟨r_CLK_SHT_CFG, 23, 12⟩
def f_CLK_SHT_CFG_FLOOR_OP : FRef := ⟨r_CLK_SHT_CFG, 26, 24⟩
def f_CLK_SHT_CFG_APPLIED : FRef := ⟨r_CLK_SHT_CFG, 27, 27⟩
/-- `CLK_SHT_BUDGET` (R65). -/
def r_CLK_SHT_BUDGET : Nat := 0x100404
def f_CLK_SHT_BUDGET_BUDGET : FRef := ⟨r_CLK_SHT_BUDGET, 20, 0⟩
def f_CLK_SHT_BUDGET_CUR_OP : FRef := ⟨r_CLK_SHT_BUDGET, 23, 21⟩
/-- `CLK_TICK_LO` (R66). -/
def r_CLK_TICK_LO : Nat := 0x100408
def f_CLK_TICK_LO_TICK_LO : FRef := ⟨r_CLK_TICK_LO, 31, 0⟩
/-- `CLK_TICK_HI` (R66). -/
def r_CLK_TICK_HI : Nat := 0x10040C
def f_CLK_TICK_HI_TICK_HI : FRef := ⟨r_CLK_TICK_HI, 31, 0⟩
/-- `CLK_TIME_STATE` (R67). -/
def r_CLK_TIME_STATE : Nat := 0x100410
def f_CLK_TIME_STATE_STATE : FRef := ⟨r_CLK_TIME_STATE, 1, 0⟩
def f_CLK_TIME_STATE_SOURCE : FRef := ⟨r_CLK_TIME_STATE, 3, 2⟩
def f_CLK_TIME_STATE_OFFSET : FRef := ⟨r_CLK_TIME_STATE, 31, 16⟩
/-- `CLK_HOLD_CFG` (R68). -/
def r_CLK_HOLD_CFG : Nat := 0x100414
def f_CLK_HOLD_CFG_HOLD_LIMIT_MS : FRef := ⟨r_CLK_HOLD_CFG, 15, 0⟩
/-- `CLK_SHT_STATUS` (R69). -/
def r_CLK_SHT_STATUS : Nat := 0x100418
def f_CLK_SHT_STATUS_RADIO_OVERRUN : FRef := ⟨r_CLK_SHT_STATUS, 0, 0⟩
def f_CLK_SHT_STATUS_RERUN : FRef := ⟨r_CLK_SHT_STATUS, 1, 1⟩
def f_CLK_SHT_STATUS_HEADROOM : FRef := ⟨r_CLK_SHT_STATUS, 2, 2⟩
def f_CLK_SHT_STATUS_HOLDOVER : FRef := ⟨r_CLK_SHT_STATUS, 3, 3⟩
def f_CLK_SHT_STATUS_HOLD_EXPIRED : FRef := ⟨r_CLK_SHT_STATUS, 4, 4⟩
def f_CLK_SHT_STATUS_TIME_STEP : FRef := ⟨r_CLK_SHT_STATUS, 5, 5⟩
def f_CLK_SHT_STATUS_LOCKED : FRef := ⟨r_CLK_SHT_STATUS, 6, 6⟩
def f_CLK_SHT_STATUS_STEP_REFUSED : FRef := ⟨r_CLK_SHT_STATUS, 7, 7⟩
/-- `CLK_SHT_STATUS_CNT` (R69). -/
def r_CLK_SHT_STATUS_CNT : Nat := 0x10041C
def f_CLK_SHT_STATUS_CNT_COUNT : FRef := ⟨r_CLK_SHT_STATUS_CNT, 15, 0⟩
/-- `CLK_RADIO_HWM` (R70). -/
def r_CLK_RADIO_HWM : Nat := 0x100420
def f_CLK_RADIO_HWM_MAX_FINISH : FRef := ⟨r_CLK_RADIO_HWM, 20, 0⟩
def f_CLK_RADIO_HWM_CLEAR : FRef := ⟨r_CLK_RADIO_HWM, 31, 31⟩
/-- `CLK_RERUN_CNT` (R71). -/
def r_CLK_RERUN_CNT : Nat := 0x100424
def f_CLK_RERUN_CNT_COUNT : FRef := ⟨r_CLK_RERUN_CNT, 31, 0⟩
/-- `CLK_ABANDON_CNT` (R71). -/
def r_CLK_ABANDON_CNT : Nat := 0x100428
def f_CLK_ABANDON_CNT_COUNT : FRef := ⟨r_CLK_ABANDON_CNT, 31, 0⟩
/-- `SRV_PIPE_CFG` (R72). -/
def r_SRV_PIPE_CFG (i : Nat) : Nat := 0x80F000 + i * 0x10
def f_SRV_PIPE_CFG_PERIOD (i : Nat) : FRef := ⟨r_SRV_PIPE_CFG i, 7, 0⟩
def f_SRV_PIPE_CFG_PULL_LIMIT (i : Nat) : FRef := ⟨r_SRV_PIPE_CFG i, 15, 8⟩
def f_SRV_PIPE_CFG_REBASE (i : Nat) : FRef := ⟨r_SRV_PIPE_CFG i, 31, 31⟩
/-- `SRV_PIPE_LAG` (R73). -/
def r_SRV_PIPE_LAG (i : Nat) : Nat := 0x80F004 + i * 0x10
def f_SRV_PIPE_LAG_LAG (i : Nat) : FRef := ⟨r_SRV_PIPE_LAG i, 15, 0⟩
def f_SRV_PIPE_LAG_MAX_LAG (i : Nat) : FRef := ⟨r_SRV_PIPE_LAG i, 31, 16⟩
/-- `SRV_PIPE_STATUS` (R73). -/
def r_SRV_PIPE_STATUS (i : Nat) : Nat := 0x80F008 + i * 0x10
def f_SRV_PIPE_STATUS_STEP_LATE (i : Nat) : FRef := ⟨r_SRV_PIPE_STATUS i, 0, 0⟩
def f_SRV_PIPE_STATUS_PULL (i : Nat) : FRef := ⟨r_SRV_PIPE_STATUS i, 1, 1⟩
/-- `SRV_PIPE_STATUS_CNT` (R73). -/
def r_SRV_PIPE_STATUS_CNT (i : Nat) : Nat := 0x80F00C + i * 0x10
def f_SRV_PIPE_STATUS_CNT_COUNT (i : Nat) : FRef := ⟨r_SRV_PIPE_STATUS_CNT i, 15, 0⟩
/-- `ARR_CTRL` (R104). -/
def r_ARR_CTRL (i : Nat) : Nat := 0x1000000 + i * 0x40000
def f_ARR_CTRL_HALT (i : Nat) : FRef := ⟨r_ARR_CTRL i, 0, 0⟩
def f_ARR_CTRL_HALTED (i : Nat) : FRef := ⟨r_ARR_CTRL i, 1, 1⟩
def f_ARR_CTRL_ISSUE_TMO (i : Nat) : FRef := ⟨r_ARR_CTRL i, 15, 8⟩
/-- `ARR_STATUS` (R105). -/
def r_ARR_STATUS (i : Nat) : Nat := 0x1000004 + i * 0x40000
def f_ARR_STATUS_RESIDUE (i : Nat) : FRef := ⟨r_ARR_STATUS i, 0, 0⟩
def f_ARR_STATUS_DESC_ERR (i : Nat) : FRef := ⟨r_ARR_STATUS i, 1, 1⟩
def f_ARR_STATUS_OVERFLOW (i : Nat) : FRef := ⟨r_ARR_STATUS i, 2, 2⟩
def f_ARR_STATUS_SUBST (i : Nat) : FRef := ⟨r_ARR_STATUS i, 3, 3⟩
def f_ARR_STATUS_OFFLINE (i : Nat) : FRef := ⟨r_ARR_STATUS i, 4, 4⟩
/-- `ARR_STATUS_CNT` (R105). -/
def r_ARR_STATUS_CNT (i : Nat) : Nat := 0x1000008 + i * 0x40000
def f_ARR_STATUS_CNT_COUNT (i : Nat) : FRef := ⟨r_ARR_STATUS_CNT i, 15, 0⟩
/-- `ARR_ACC_SPLIT` (R106). -/
def r_ARR_ACC_SPLIT (i : Nat) : Nat := 0x100000C + i * 0x40000
def f_ARR_ACC_SPLIT_RADIO_ROWS (i : Nat) : FRef := ⟨r_ARR_ACC_SPLIT i, 9, 0⟩
def f_ARR_ACC_SPLIT_RADIO_STORE (i : Nat) : FRef := ⟨r_ARR_ACC_SPLIT i, 21, 16⟩
/-- `ARR_QUEUE` (R107). -/
def r_ARR_QUEUE (i : Nat) : Nat := 0x1000010 + i * 0x40000
def f_ARR_QUEUE_OPEN_DEPTH (i : Nat) : FRef := ⟨r_ARR_QUEUE i, 8, 0⟩
def f_ARR_QUEUE_RADIO_DEPTH (i : Nat) : FRef := ⟨r_ARR_QUEUE i, 22, 16⟩
def f_ARR_QUEUE_CUR_PRIO (i : Nat) : FRef := ⟨r_ARR_QUEUE i, 26, 24⟩
def f_ARR_QUEUE_CHAIN_OPEN (i : Nat) : FRef := ⟨r_ARR_QUEUE i, 27, 27⟩
def f_ARR_QUEUE_IN_RADIO (i : Nat) : FRef := ⟨r_ARR_QUEUE i, 28, 28⟩
/-- `ARR_PASS_CNT_LO` (R108). -/
def r_ARR_PASS_CNT_LO (i : Nat) : Nat := 0x1000018 + i * 0x40000
def f_ARR_PASS_CNT_LO_COUNT_LO (i : Nat) : FRef := ⟨r_ARR_PASS_CNT_LO i, 31, 0⟩
/-- `ARR_PASS_CNT_HI` (R108). -/
def r_ARR_PASS_CNT_HI (i : Nat) : Nat := 0x100001C + i * 0x40000
def f_ARR_PASS_CNT_HI_COUNT_HI (i : Nat) : FRef := ⟨r_ARR_PASS_CNT_HI i, 31, 0⟩
/-- `ARR_RES_CNT` (R108). -/
def r_ARR_RES_CNT (i : Nat) : Nat := 0x1000020 + i * 0x40000
def f_ARR_RES_CNT_COUNT (i : Nat) : FRef := ⟨r_ARR_RES_CNT i, 31, 0⟩
/-- `ARR_DESC_ERR` (R109). -/
def r_ARR_DESC_ERR (i : Nat) : Nat := 0x1000024 + i * 0x40000
def f_ARR_DESC_ERR_CODE (i : Nat) : FRef := ⟨r_ARR_DESC_ERR i, 3, 0⟩
def f_ARR_DESC_ERR_SEQ (i : Nat) : FRef := ⟨r_ARR_DESC_ERR i, 31, 16⟩
/-- `ARR_MAP` (R109). -/
def r_ARR_MAP (i : Nat) : Nat := 0x1000028 + i * 0x40000
def f_ARR_MAP_PHYS (i : Nat) : FRef := ⟨r_ARR_MAP i, 6, 0⟩
def f_ARR_MAP_ON_SPARE (i : Nat) : FRef := ⟨r_ARR_MAP i, 7, 7⟩
def f_ARR_MAP_STATE (i : Nat) : FRef := ⟨r_ARR_MAP i, 10, 8⟩
/-- `ARR_BUBBLE_CNT` (R108). -/
def r_ARR_BUBBLE_CNT (i : Nat) : Nat := 0x100002C + i * 0x40000
def f_ARR_BUBBLE_CNT_COUNT (i : Nat) : FRef := ⟨r_ARR_BUBBLE_CNT i, 31, 0⟩
/-- `ARR_WHIT_CNT` (R108). -/
def r_ARR_WHIT_CNT (i : Nat) : Nat := 0x1000030 + i * 0x40000
def f_ARR_WHIT_CNT_COUNT (i : Nat) : FRef := ⟨r_ARR_WHIT_CNT i, 31, 0⟩
/-- `ARR_DIE` (R110). -/
def r_ARR_DIE (i : Nat) : Nat := 0x103F000 + i * 0x4
def f_ARR_DIE_SPARE_POS (i : Nat) : FRef := ⟨r_ARR_DIE i, 3, 0⟩
def f_ARR_DIE_DISABLED_POS (i : Nat) : FRef := ⟨r_ARR_DIE i, 7, 4⟩
def f_ARR_DIE_SPARE_BUSY (i : Nat) : FRef := ⟨r_ARR_DIE i, 8, 8⟩
def f_ARR_DIE_SPARE_FOR (i : Nat) : FRef := ⟨r_ARR_DIE i, 15, 9⟩
def f_ARR_DIE_RERUN_ACTIVE (i : Nat) : FRef := ⟨r_ARR_DIE i, 16, 16⟩
/-- `ARR_SUBST` (R111). -/
def r_ARR_SUBST : Nat := 0x103F020
def f_ARR_SUBST_LOGICAL : FRef := ⟨r_ARR_SUBST, 5, 0⟩
def f_ARR_SUBST_GO : FRef := ⟨r_ARR_SUBST, 7, 7⟩
def f_ARR_SUBST_TMO : FRef := ⟨r_ARR_SUBST, 14, 8⟩
def f_ARR_SUBST_PENDING : FRef := ⟨r_ARR_SUBST, 16, 16⟩
/-- `ARR_MAP_STATUS` (R111). -/
def r_ARR_MAP_STATUS : Nat := 0x103F024
def f_ARR_MAP_STATUS_SUBST_DONE : FRef := ⟨r_ARR_MAP_STATUS, 0, 0⟩
def f_ARR_MAP_STATUS_SUBST_REFUSED : FRef := ⟨r_ARR_MAP_STATUS, 1, 1⟩
def f_ARR_MAP_STATUS_NO_SPARE : FRef := ⟨r_ARR_MAP_STATUS, 2, 2⟩
/-- `ARR_MAP_STATUS_CNT` (R111). -/
def r_ARR_MAP_STATUS_CNT : Nat := 0x103F028
def f_ARR_MAP_STATUS_CNT_COUNT : FRef := ⟨r_ARR_MAP_STATUS_CNT, 15, 0⟩
/-- `ARR_PHYS_SEL` (R112). -/
def r_ARR_PHYS_SEL : Nat := 0x103F02C
def f_ARR_PHYS_SEL_SEL : FRef := ⟨r_ARR_PHYS_SEL, 6, 0⟩
/-- `ARR_PHYS_VIEW` (R112). -/
def r_ARR_PHYS_VIEW : Nat := 0x103F030
def f_ARR_PHYS_VIEW_STATE : FRef := ⟨r_ARR_PHYS_VIEW, 1, 0⟩
def f_ARR_PHYS_VIEW_LOGICAL : FRef := ⟨r_ARR_PHYS_VIEW, 8, 2⟩
def f_ARR_PHYS_VIEW_RES_CNT : FRef := ⟨r_ARR_PHYS_VIEW, 31, 16⟩
/-- `ARR_NUM_STATUS` (R143). -/
def r_ARR_NUM_STATUS (i : Nat) : Nat := 0x1000040 + i * 0x40000
def f_ARR_NUM_STATUS_SAT_RANGE (i : Nat) : FRef := ⟨r_ARR_NUM_STATUS i, 0, 0⟩
def f_ARR_NUM_STATUS_SAT_NONFIN (i : Nat) : FRef := ⟨r_ARR_NUM_STATUS i, 1, 1⟩
def f_ARR_NUM_STATUS_CVT_CLAMP (i : Nat) : FRef := ⟨r_ARR_NUM_STATUS i, 2, 2⟩
/-- `ARR_NUM_STATUS_CNT` (R143). -/
def r_ARR_NUM_STATUS_CNT (i : Nat) : Nat := 0x1000044 + i * 0x40000
def f_ARR_NUM_STATUS_CNT_COUNT (i : Nat) : FRef := ⟨r_ARR_NUM_STATUS_CNT i, 15, 0⟩
/-- `ARR_SAT_INFO` (R144). -/
def r_ARR_SAT_INFO (i : Nat) : Nat := 0x1000048 + i * 0x40000
def f_ARR_SAT_INFO_ROW (i : Nat) : FRef := ⟨r_ARR_SAT_INFO i, 8, 0⟩
def f_ARR_SAT_INFO_CAUSE (i : Nat) : FRef := ⟨r_ARR_SAT_INFO i, 9, 9⟩
def f_ARR_SAT_INFO_SEQ (i : Nat) : FRef := ⟨r_ARR_SAT_INFO i, 31, 16⟩
/-- `ARR_SAT_CNT` (R145). -/
def r_ARR_SAT_CNT (i : Nat) : Nat := 0x100004C + i * 0x40000
def f_ARR_SAT_CNT_COUNT (i : Nat) : FRef := ⟨r_ARR_SAT_CNT i, 31, 0⟩
/-- `ARR_SAT_ROWS_0` (R146). -/
def r_ARR_SAT_ROWS_0 (i : Nat) : Nat := 0x1000080 + i * 0x40000
def f_ARR_SAT_ROWS_0_ROWS (i : Nat) : FRef := ⟨r_ARR_SAT_ROWS_0 i, 31, 0⟩
/-- `ARR_SAT_ROWS_1` (R146). -/
def r_ARR_SAT_ROWS_1 (i : Nat) : Nat := 0x1000084 + i * 0x40000
def f_ARR_SAT_ROWS_1_ROWS (i : Nat) : FRef := ⟨r_ARR_SAT_ROWS_1 i, 31, 0⟩
/-- `ARR_SAT_ROWS_2` (R146). -/
def r_ARR_SAT_ROWS_2 (i : Nat) : Nat := 0x1000088 + i * 0x40000
def f_ARR_SAT_ROWS_2_ROWS (i : Nat) : FRef := ⟨r_ARR_SAT_ROWS_2 i, 31, 0⟩
/-- `ARR_SAT_ROWS_3` (R146). -/
def r_ARR_SAT_ROWS_3 (i : Nat) : Nat := 0x100008C + i * 0x40000
def f_ARR_SAT_ROWS_3_ROWS (i : Nat) : FRef := ⟨r_ARR_SAT_ROWS_3 i, 31, 0⟩
/-- `ARR_SAT_ROWS_4` (R146). -/
def r_ARR_SAT_ROWS_4 (i : Nat) : Nat := 0x1000090 + i * 0x40000
def f_ARR_SAT_ROWS_4_ROWS (i : Nat) : FRef := ⟨r_ARR_SAT_ROWS_4 i, 31, 0⟩
/-- `ARR_SAT_ROWS_5` (R146). -/
def r_ARR_SAT_ROWS_5 (i : Nat) : Nat := 0x1000094 + i * 0x40000
def f_ARR_SAT_ROWS_5_ROWS (i : Nat) : FRef := ⟨r_ARR_SAT_ROWS_5 i, 31, 0⟩
/-- `ARR_SAT_ROWS_6` (R146). -/
def r_ARR_SAT_ROWS_6 (i : Nat) : Nat := 0x1000098 + i * 0x40000
def f_ARR_SAT_ROWS_6_ROWS (i : Nat) : FRef := ⟨r_ARR_SAT_ROWS_6 i, 31, 0⟩
/-- `ARR_SAT_ROWS_7` (R146). -/
def r_ARR_SAT_ROWS_7 (i : Nat) : Nat := 0x100009C + i * 0x40000
def f_ARR_SAT_ROWS_7_ROWS (i : Nat) : FRef := ⟨r_ARR_SAT_ROWS_7 i, 31, 0⟩
/-- `ARR_SAT_ROWS_8` (R146). -/
def r_ARR_SAT_ROWS_8 (i : Nat) : Nat := 0x10000A0 + i * 0x40000
def f_ARR_SAT_ROWS_8_ROWS (i : Nat) : FRef := ⟨r_ARR_SAT_ROWS_8 i, 31, 0⟩
/-- `ARR_SAT_ROWS_9` (R146). -/
def r_ARR_SAT_ROWS_9 (i : Nat) : Nat := 0x10000A4 + i * 0x40000
def f_ARR_SAT_ROWS_9_ROWS (i : Nat) : FRef := ⟨r_ARR_SAT_ROWS_9 i, 31, 0⟩
/-- `ARR_SAT_ROWS_10` (R146). -/
def r_ARR_SAT_ROWS_10 (i : Nat) : Nat := 0x10000A8 + i * 0x40000
def f_ARR_SAT_ROWS_10_ROWS (i : Nat) : FRef := ⟨r_ARR_SAT_ROWS_10 i, 31, 0⟩
/-- `ARR_SAT_ROWS_11` (R146). -/
def r_ARR_SAT_ROWS_11 (i : Nat) : Nat := 0x10000AC + i * 0x40000
def f_ARR_SAT_ROWS_11_ROWS (i : Nat) : FRef := ⟨r_ARR_SAT_ROWS_11 i, 31, 0⟩
/-- `ARR_SAT_ROWS_12` (R146). -/
def r_ARR_SAT_ROWS_12 (i : Nat) : Nat := 0x10000B0 + i * 0x40000
def f_ARR_SAT_ROWS_12_ROWS (i : Nat) : FRef := ⟨r_ARR_SAT_ROWS_12 i, 31, 0⟩
/-- `ARR_SAT_ROWS_13` (R146). -/
def r_ARR_SAT_ROWS_13 (i : Nat) : Nat := 0x10000B4 + i * 0x40000
def f_ARR_SAT_ROWS_13_ROWS (i : Nat) : FRef := ⟨r_ARR_SAT_ROWS_13 i, 31, 0⟩
/-- `ARR_SAT_ROWS_14` (R146). -/
def r_ARR_SAT_ROWS_14 (i : Nat) : Nat := 0x10000B8 + i * 0x40000
def f_ARR_SAT_ROWS_14_ROWS (i : Nat) : FRef := ⟨r_ARR_SAT_ROWS_14 i, 31, 0⟩
/-- `ARR_SAT_ROWS_15` (R146). -/
def r_ARR_SAT_ROWS_15 (i : Nat) : Nat := 0x10000BC + i * 0x40000
def f_ARR_SAT_ROWS_15_ROWS (i : Nat) : FRef := ⟨r_ARR_SAT_ROWS_15 i, 31, 0⟩
/-- `ARR_COMPAT` (R147). -/
def r_ARR_COMPAT : Nat := 0x103F040
def f_ARR_COMPAT_ZS7_PART : FRef := ⟨r_ARR_COMPAT, 15, 0⟩
def f_ARR_COMPAT_ZS7_OP : FRef := ⟨r_ARR_COMPAT, 18, 16⟩
def f_ARR_COMPAT_GROUP_LOG2 : FRef := ⟨r_ARR_COMPAT, 22, 19⟩
/-- `TE_CTRL` (R179). -/
def r_TE_CTRL (i : Nat) : Nat := 0x1001000 + i * 0x40000
def f_TE_CTRL_WAIT_TMO (i : Nat) : FRef := ⟨r_TE_CTRL i, 15, 0⟩
/-- `TE_STATUS` (R180). -/
def r_TE_STATUS (i : Nat) : Nat := 0x1001004 + i * 0x40000
def f_TE_STATUS_FAULT (i : Nat) : FRef := ⟨r_TE_STATUS i, 0, 0⟩
def f_TE_STATUS_WAIT_TMO (i : Nat) : FRef := ⟨r_TE_STATUS i, 1, 1⟩
def f_TE_STATUS_REG_CORR (i : Nat) : FRef := ⟨r_TE_STATUS i, 2, 2⟩
def f_TE_STATUS_REMOTE_ERR (i : Nat) : FRef := ⟨r_TE_STATUS i, 3, 3⟩
/-- `TE_STATUS_CNT` (R180). -/
def r_TE_STATUS_CNT (i : Nat) : Nat := 0x1001008 + i * 0x40000
def f_TE_STATUS_CNT_COUNT (i : Nat) : FRef := ⟨r_TE_STATUS_CNT i, 15, 0⟩
/-- `TE_RADIO_MASK_LO` (R181). -/
def r_TE_RADIO_MASK_LO (i : Nat) : Nat := 0x100100C + i * 0x40000
def f_TE_RADIO_MASK_LO_MASK_LO (i : Nat) : FRef := ⟨r_TE_RADIO_MASK_LO i, 31, 0⟩
/-- `TE_RADIO_MASK_HI` (R181). -/
def r_TE_RADIO_MASK_HI (i : Nat) : Nat := 0x1001010 + i * 0x40000
def f_TE_RADIO_MASK_HI_MASK_HI (i : Nat) : FRef := ⟨r_TE_RADIO_MASK_HI i, 31, 0⟩
/-- `TE_THREAD_SEL` (R182). -/
def r_TE_THREAD_SEL (i : Nat) : Nat := 0x1001014 + i * 0x40000
def f_TE_THREAD_SEL_THREAD (i : Nat) : FRef := ⟨r_TE_THREAD_SEL i, 5, 0⟩
/-- `TE_THREAD_VIEW` (R182). -/
def r_TE_THREAD_VIEW (i : Nat) : Nat := 0x1001018 + i * 0x40000
def f_TE_THREAD_VIEW_STATE (i : Nat) : FRef := ⟨r_TE_THREAD_VIEW i, 2, 0⟩
def f_TE_THREAD_VIEW_PRIO (i : Nat) : FRef := ⟨r_TE_THREAD_VIEW i, 5, 3⟩
def f_TE_THREAD_VIEW_RADIO (i : Nat) : FRef := ⟨r_TE_THREAD_VIEW i, 6, 6⟩
def f_TE_THREAD_VIEW_FAULT_KIND (i : Nat) : FRef := ⟨r_TE_THREAD_VIEW i, 15, 8⟩
def f_TE_THREAD_VIEW_PARTITION (i : Nat) : FRef := ⟨r_TE_THREAD_VIEW i, 19, 16⟩
/-- `TE_THREAD_PC_LO` (R182). -/
def r_TE_THREAD_PC_LO (i : Nat) : Nat := 0x100101C + i * 0x40000
def f_TE_THREAD_PC_LO_PC_LO (i : Nat) : FRef := ⟨r_TE_THREAD_PC_LO i, 31, 0⟩
/-- `TE_THREAD_PC_HI` (R182). -/
def r_TE_THREAD_PC_HI (i : Nat) : Nat := 0x1001020 + i * 0x40000
def f_TE_THREAD_PC_HI_PC_HI (i : Nat) : FRef := ⟨r_TE_THREAD_PC_HI i, 15, 0⟩
/-- `TE_THREAD_JOB` (R182). -/
def r_TE_THREAD_JOB (i : Nat) : Nat := 0x1001024 + i * 0x40000
def f_TE_THREAD_JOB_JOB_ID (i : Nat) : FRef := ⟨r_TE_THREAD_JOB i, 31, 0⟩
/-- `TE_THREAD_TENANT` (R182). -/
def r_TE_THREAD_TENANT (i : Nat) : Nat := 0x1001028 + i * 0x40000
def f_TE_THREAD_TENANT_TENANT (i : Nat) : FRef := ⟨r_TE_THREAD_TENANT i, 15, 0⟩
/-- `TE_ISSUE_CNT_LO` (R183). -/
def r_TE_ISSUE_CNT_LO (i : Nat) : Nat := 0x1001030 + i * 0x40000
def f_TE_ISSUE_CNT_LO_COUNT_LO (i : Nat) : FRef := ⟨r_TE_ISSUE_CNT_LO i, 31, 0⟩
/-- `TE_ISSUE_CNT_HI` (R183). -/
def r_TE_ISSUE_CNT_HI (i : Nat) : Nat := 0x1001034 + i * 0x40000
def f_TE_ISSUE_CNT_HI_COUNT_HI (i : Nat) : FRef := ⟨r_TE_ISSUE_CNT_HI i, 31, 0⟩
/-- `TE_STALL_CNT` (R183). -/
def r_TE_STALL_CNT (i : Nat) : Nat := 0x1001038 + i * 0x40000
def f_TE_STALL_CNT_COUNT (i : Nat) : FRef := ⟨r_TE_STALL_CNT i, 31, 0⟩
/-- `TE_TMO_CNT` (R183). -/
def r_TE_TMO_CNT (i : Nat) : Nat := 0x100103C + i * 0x40000
def f_TE_TMO_CNT_COUNT (i : Nat) : FRef := ⟨r_TE_TMO_CNT i, 31, 0⟩
/-- `MEM_STATUS` (R219). -/
def r_MEM_STATUS : Nat := 0x3C00000
def f_MEM_STATUS_CORR : FRef := ⟨r_MEM_STATUS, 0, 0⟩
def f_MEM_STATUS_UNCORR : FRef := ⟨r_MEM_STATUS, 1, 1⟩
def f_MEM_STATUS_ARB_TMO : FRef := ⟨r_MEM_STATUS, 2, 2⟩
def f_MEM_STATUS_REF_OVER : FRef := ⟨r_MEM_STATUS, 3, 3⟩
def f_MEM_STATUS_REF_FORCED : FRef := ⟨r_MEM_STATUS, 4, 4⟩
def f_MEM_STATUS_FIFO_DROP : FRef := ⟨r_MEM_STATUS, 5, 5⟩
def f_MEM_STATUS_SAVE_POISON : FRef := ⟨r_MEM_STATUS, 6, 6⟩
def f_MEM_STATUS_TRAIN_FAIL : FRef := ⟨r_MEM_STATUS, 7, 7⟩
/-- `MEM_STATUS_CNT` (R219). -/
def r_MEM_STATUS_CNT : Nat := 0x3C00004
def f_MEM_STATUS_CNT_COUNT : FRef := ⟨r_MEM_STATUS_CNT, 15, 0⟩
/-- `MEM_LP_CFG` (R220). -/
def r_MEM_LP_CFG : Nat := 0x3C00008
def f_MEM_LP_CFG_SPEED : FRef := ⟨r_MEM_LP_CFG, 1, 0⟩
def f_MEM_LP_CFG_REF_BUDGET : FRef := ⟨r_MEM_LP_CFG, 3, 2⟩
def f_MEM_LP_CFG_APPLIED : FRef := ⟨r_MEM_LP_CFG, 4, 4⟩
/-- `MEM_LP_MAP0` (R221). -/
def r_MEM_LP_MAP0 : Nat := 0x3C0000C
def f_MEM_LP_MAP0_MAP : FRef := ⟨r_MEM_LP_MAP0, 31, 0⟩
/-- `MEM_LP_MAP1` (R221). -/
def r_MEM_LP_MAP1 : Nat := 0x3C00010
def f_MEM_LP_MAP1_MAP : FRef := ⟨r_MEM_LP_MAP1, 31, 0⟩
/-- `MEM_LP_MAP2` (R221). -/
def r_MEM_LP_MAP2 : Nat := 0x3C00014
def f_MEM_LP_MAP2_MAP : FRef := ⟨r_MEM_LP_MAP2, 31, 0⟩
/-- `MEM_ARB_CFG` (R222). -/
def r_MEM_ARB_CFG : Nat := 0x3C00020
def f_MEM_ARB_CFG_QFULL_TMO : FRef := ⟨r_MEM_ARB_CFG, 15, 0⟩
/-- `MEM_SCRUB_CFG` (R222). -/
def r_MEM_SCRUB_CFG : Nat := 0x3C00024
def f_MEM_SCRUB_CFG_PERIOD_H : FRef := ⟨r_MEM_SCRUB_CFG, 7, 0⟩
def f_MEM_SCRUB_CFG_ENABLE : FRef := ⟨r_MEM_SCRUB_CFG, 8, 8⟩
/-- `MEM_CORR_CNT` (R223). -/
def r_MEM_CORR_CNT : Nat := 0x3C00028
def f_MEM_CORR_CNT_COUNT : FRef := ⟨r_MEM_CORR_CNT, 31, 0⟩
/-- `MEM_UNCORR_CNT` (R223). -/
def r_MEM_UNCORR_CNT : Nat := 0x3C0002C
def f_MEM_UNCORR_CNT_COUNT : FRef := ⟨r_MEM_UNCORR_CNT, 31, 0⟩
/-- `MEM_ERR_ADDR_LO` (R223). -/
def r_MEM_ERR_ADDR_LO : Nat := 0x3C00030
def f_MEM_ERR_ADDR_LO_ADDR_LO : FRef := ⟨r_MEM_ERR_ADDR_LO, 31, 0⟩
/-- `MEM_ERR_ADDR_HI` (R223). -/
def r_MEM_ERR_ADDR_HI : Nat := 0x3C00034
def f_MEM_ERR_ADDR_HI_ADDR_HI : FRef := ⟨r_MEM_ERR_ADDR_HI, 15, 0⟩
/-- `MEM_ARB_REVOKE` (R224). -/
def r_MEM_ARB_REVOKE (i : Nat) : Nat := 0x3C00100 + i * 0x4
def f_MEM_ARB_REVOKE_COUNT (i : Nat) : FRef := ⟨r_MEM_ARB_REVOKE i, 31, 0⟩
/-- `MEM_BM_STATE` (R225). -/
def r_MEM_BM_STATE (i : Nat) : Nat := 0x3C00200 + i * 0x4
def f_MEM_BM_STATE_OUTSTANDING (i : Nat) : FRef := ⟨r_MEM_BM_STATE i, 11, 0⟩
def f_MEM_BM_STATE_QUEUES (i : Nat) : FRef := ⟨r_MEM_BM_STATE i, 19, 16⟩
def f_MEM_BM_STATE_BUSY (i : Nat) : FRef := ⟨r_MEM_BM_STATE i, 31, 31⟩
/-- `ARR_DMA_STATE` (R226). -/
def r_ARR_DMA_STATE (i : Nat) : Nat := 0x1002000 + i * 0x40000
def f_ARR_DMA_STATE_ACTIVE (i : Nat) : FRef := ⟨r_ARR_DMA_STATE i, 15, 0⟩
def f_ARR_DMA_STATE_BOUND (i : Nat) : FRef := ⟨r_ARR_DMA_STATE i, 31, 16⟩
/-- `ARR_DMA_ERR` (R226). -/
def r_ARR_DMA_ERR (i : Nat) : Nat := 0x1002004 + i * 0x40000
def f_ARR_DMA_ERR_CODE (i : Nat) : FRef := ⟨r_ARR_DMA_ERR i, 3, 0⟩
def f_ARR_DMA_ERR_CHANNEL (i : Nat) : FRef := ⟨r_ARR_DMA_ERR i, 7, 4⟩
def f_ARR_DMA_ERR_SEQ (i : Nat) : FRef := ⟨r_ARR_DMA_ERR i, 31, 16⟩
/-- `SRV_STATUS` (R254). -/
def r_SRV_STATUS : Nat := 0x800000
def f_SRV_STATUS_EXHAUST : FRef := ⟨r_SRV_STATUS, 0, 0⟩
def f_SRV_STATUS_PAUSE_MEM : FRef := ⟨r_SRV_STATUS, 1, 1⟩
def f_SRV_STATUS_EXPIRED : FRef := ⟨r_SRV_STATUS, 2, 2⟩
def f_SRV_STATUS_ARCH_FULL : FRef := ⟨r_SRV_STATUS, 3, 3⟩
def f_SRV_STATUS_STREAM_TMO : FRef := ⟨r_SRV_STATUS, 4, 4⟩
def f_SRV_STATUS_CACHE_FULL : FRef := ⟨r_SRV_STATUS, 5, 5⟩
def f_SRV_STATUS_CTX_ECC : FRef := ⟨r_SRV_STATUS, 6, 6⟩
/-- `SRV_STATUS_CNT` (R254). -/
def r_SRV_STATUS_CNT : Nat := 0x800004
def f_SRV_STATUS_CNT_COUNT : FRef := ⟨r_SRV_STATUS_CNT, 15, 0⟩
/-- `SRV_CTX_BASE_LO` (R254). -/
def r_SRV_CTX_BASE_LO : Nat := 0x800008
def f_SRV_CTX_BASE_LO_BASE_LO : FRef := ⟨r_SRV_CTX_BASE_LO, 31, 0⟩
/-- `SRV_CTX_BASE_HI` (R254). -/
def r_SRV_CTX_BASE_HI : Nat := 0x80000C
def f_SRV_CTX_BASE_HI_BASE_HI : FRef := ⟨r_SRV_CTX_BASE_HI, 15, 0⟩
/-- `SRV_KV_BASE_LO` (R254). -/
def r_SRV_KV_BASE_LO : Nat := 0x800010
def f_SRV_KV_BASE_LO_BASE_LO : FRef := ⟨r_SRV_KV_BASE_LO, 31, 0⟩
/-- `SRV_KV_BASE_HI` (R254). -/
def r_SRV_KV_BASE_HI : Nat := 0x800014
def f_SRV_KV_BASE_HI_BASE_HI : FRef := ⟨r_SRV_KV_BASE_HI, 15, 0⟩
/-- `SRV_STREAM_CFG` (R254). -/
def r_SRV_STREAM_CFG : Nat := 0x800018
def f_SRV_STREAM_CFG_TMO : FRef := ⟨r_SRV_STREAM_CFG, 7, 0⟩
def f_SRV_STREAM_CFG_HOLD_TMO : FRef := ⟨r_SRV_STREAM_CFG, 15, 8⟩
/-- `SRV_TTL_DEFAULT` (R254). -/
def r_SRV_TTL_DEFAULT : Nat := 0x80001C
def f_SRV_TTL_DEFAULT_TTL : FRef := ⟨r_SRV_TTL_DEFAULT, 31, 0⟩
/-- `SRV_CACHE_HIT` (R254). -/
def r_SRV_CACHE_HIT : Nat := 0x800020
def f_SRV_CACHE_HIT_COUNT : FRef := ⟨r_SRV_CACHE_HIT, 31, 0⟩
/-- `SRV_CACHE_MISS` (R254). -/
def r_SRV_CACHE_MISS : Nat := 0x800024
def f_SRV_CACHE_MISS_COUNT : FRef := ⟨r_SRV_CACHE_MISS, 31, 0⟩
/-- `SRV_CTX_SEL` (R254). -/
def r_SRV_CTX_SEL : Nat := 0x800028
def f_SRV_CTX_SEL_CTX : FRef := ⟨r_SRV_CTX_SEL, 17, 0⟩
/-- `SRV_CTX_VIEW` (R254). -/
def r_SRV_CTX_VIEW : Nat := 0x80002C
def f_SRV_CTX_VIEW_STATE : FRef := ⟨r_SRV_CTX_VIEW, 3, 0⟩
def f_SRV_CTX_VIEW_PARTITION : FRef := ⟨r_SRV_CTX_VIEW, 7, 4⟩
def f_SRV_CTX_VIEW_PRIO : FRef := ⟨r_SRV_CTX_VIEW, 15, 8⟩
def f_SRV_CTX_VIEW_REASON : FRef := ⟨r_SRV_CTX_VIEW, 23, 16⟩
/-- `SRV_CTX_POS` (R254). -/
def r_SRV_CTX_POS : Nat := 0x800030
def f_SRV_CTX_POS_POS : FRef := ⟨r_SRV_CTX_POS, 31, 0⟩
/-- `SRV_ARCH_LO` (R255). -/
def r_SRV_ARCH_LO (i : Nat) : Nat := 0x800100 + i * 0x10
def f_SRV_ARCH_LO_BASE_LO (i : Nat) : FRef := ⟨r_SRV_ARCH_LO i, 31, 0⟩
/-- `SRV_ARCH_HI` (R255). -/
def r_SRV_ARCH_HI (i : Nat) : Nat := 0x800104 + i * 0x10
def f_SRV_ARCH_HI_BASE_HI (i : Nat) : FRef := ⟨r_SRV_ARCH_HI i, 31, 0⟩
/-- `SRV_ARCH_UNITS` (R255). -/
def r_SRV_ARCH_UNITS (i : Nat) : Nat := 0x800108 + i * 0x10
def f_SRV_ARCH_UNITS_UNITS (i : Nat) : FRef := ⟨r_SRV_ARCH_UNITS i, 31, 0⟩
/-- `SRV_ARCH_FREE` (R255). -/
def r_SRV_ARCH_FREE (i : Nat) : Nat := 0x80010C + i * 0x10
def f_SRV_ARCH_FREE_FREE (i : Nat) : FRef := ⟨r_SRV_ARCH_FREE i, 31, 0⟩
/-- `SRV_PART_CFG` (R256). -/
def r_SRV_PART_CFG (i : Nat) : Nat := 0x80E000 + i * 0x40
def f_SRV_PART_CFG_MODEL (i : Nat) : FRef := ⟨r_SRV_PART_CFG i, 5, 0⟩
/-- `SRV_PART_QUOTA` (R256). -/
def r_SRV_PART_QUOTA (i : Nat) : Nat := 0x80E004 + i * 0x40
def f_SRV_PART_QUOTA_QUOTA (i : Nat) : FRef := ⟨r_SRV_PART_QUOTA i, 27, 0⟩
/-- `SRV_PART_FREE` (R256). -/
def r_SRV_PART_FREE (i : Nat) : Nat := 0x80E008 + i * 0x40
def f_SRV_PART_FREE_FREE (i : Nat) : FRef := ⟨r_SRV_PART_FREE i, 27, 0⟩
/-- `SRV_PART_ZERO` (R256). -/
def r_SRV_PART_ZERO (i : Nat) : Nat := 0x80E00C + i * 0x40
def f_SRV_PART_ZERO_ZEROING (i : Nat) : FRef := ⟨r_SRV_PART_ZERO i, 27, 0⟩
/-- `SRV_PART_CTX` (R256). -/
def r_SRV_PART_CTX (i : Nat) : Nat := 0x80E010 + i * 0x40
def f_SRV_PART_CTX_RUNNING (i : Nat) : FRef := ⟨r_SRV_PART_CTX i, 9, 0⟩
/-- `SRV_PART_QUEUED` (R256). -/
def r_SRV_PART_QUEUED (i : Nat) : Nat := 0x80E014 + i * 0x40
def f_SRV_PART_QUEUED_QUEUED (i : Nat) : FRef := ⟨r_SRV_PART_QUEUED i, 17, 0⟩
/-- `SRV_PART_LADDER` (R256). -/
def r_SRV_PART_LADDER (i : Nat) : Nat := 0x80E018 + i * 0x40
def f_SRV_PART_LADDER_RUNG (i : Nat) : FRef := ⟨r_SRV_PART_LADDER i, 1, 0⟩
/-- `SRV_PART_LATENT_CANCEL` (R256). -/
def r_SRV_PART_LATENT_CANCEL (i : Nat) : Nat := 0x80E01C + i * 0x40
def f_SRV_PART_LATENT_CANCEL_LATENT_CANCEL (i : Nat) : FRef := ⟨r_SRV_PART_LATENT_CANCEL i, 31, 0⟩
/-- `SRV_PART_CHUNK_SHRINK` (R256). -/
def r_SRV_PART_CHUNK_SHRINK (i : Nat) : Nat := 0x80E020 + i * 0x40
def f_SRV_PART_CHUNK_SHRINK_CHUNK_SHRINK (i : Nat) : FRef := ⟨r_SRV_PART_CHUNK_SHRINK i, 31, 0⟩
/-- `SRV_PART_PAUSE_MEM` (R256). -/
def r_SRV_PART_PAUSE_MEM (i : Nat) : Nat := 0x80E024 + i * 0x40
def f_SRV_PART_PAUSE_MEM_PAUSE_MEM (i : Nat) : FRef := ⟨r_SRV_PART_PAUSE_MEM i, 31, 0⟩
/-- `SRV_PART_STEP_LO` (R256). -/
def r_SRV_PART_STEP_LO (i : Nat) : Nat := 0x80E028 + i * 0x40
def f_SRV_PART_STEP_LO_STEP_LO (i : Nat) : FRef := ⟨r_SRV_PART_STEP_LO i, 31, 0⟩
/-- `SRV_PART_STEP_HI` (R256). -/
def r_SRV_PART_STEP_HI (i : Nat) : Nat := 0x80E02C + i * 0x40
def f_SRV_PART_STEP_HI_STEP_HI (i : Nat) : FRef := ⟨r_SRV_PART_STEP_HI i, 31, 0⟩
/-- `SRV_PART_CTL` (R256). -/
def r_SRV_PART_CTL (i : Nat) : Nat := 0x80E030 + i * 0x40
def f_SRV_PART_CTL_HALT (i : Nat) : FRef := ⟨r_SRV_PART_CTL i, 0, 0⟩
def f_SRV_PART_CTL_HALTED (i : Nat) : FRef := ⟨r_SRV_PART_CTL i, 1, 1⟩
def f_SRV_PART_CTL_RESUME (i : Nat) : FRef := ⟨r_SRV_PART_CTL i, 2, 2⟩
/-- `SRV_PART_STREAM` (R256). -/
def r_SRV_PART_STREAM (i : Nat) : Nat := 0x80E034 + i * 0x40
def f_SRV_PART_STREAM_DEPTH (i : Nat) : FRef := ⟨r_SRV_PART_STREAM i, 13, 0⟩
/-- `SPC_CFG` (R271). -/
def r_SPC_CFG : Nat := 0x802000
def f_SPC_CFG_ZERO_LIMIT : FRef := ⟨r_SPC_CFG, 7, 0⟩
def f_SPC_CFG_BACKOFF : FRef := ⟨r_SPC_CFG, 15, 8⟩
def f_SPC_CFG_ENABLE : FRef := ⟨r_SPC_CFG, 16, 16⟩
/-- `SPC_STATUS` (R271). -/
def r_SPC_STATUS : Nat := 0x802004
def f_SPC_STATUS_VERDICT : FRef := ⟨r_SPC_STATUS, 0, 0⟩
def f_SPC_STATUS_HOST_TREE : FRef := ⟨r_SPC_STATUS, 1, 1⟩
def f_SPC_STATUS_PRUNED : FRef := ⟨r_SPC_STATUS, 2, 2⟩
def f_SPC_STATUS_BACKOFF : FRef := ⟨r_SPC_STATUS, 3, 3⟩
/-- `SPC_STATUS_CNT` (R271). -/
def r_SPC_STATUS_CNT : Nat := 0x802008
def f_SPC_STATUS_CNT_COUNT : FRef := ⟨r_SPC_STATUS_CNT, 15, 0⟩
/-- `SPC_TREE_BASE_LO` (R272). -/
def r_SPC_TREE_BASE_LO (i : Nat) : Nat := 0x802100 + i * 0x20
def f_SPC_TREE_BASE_LO_TREE_BASE_LO (i : Nat) : FRef := ⟨r_SPC_TREE_BASE_LO i, 31, 0⟩
/-- `SPC_TREE_BASE_HI` (R272). -/
def r_SPC_TREE_BASE_HI (i : Nat) : Nat := 0x802104 + i * 0x20
def f_SPC_TREE_BASE_HI_TREE_BASE_HI (i : Nat) : FRef := ⟨r_SPC_TREE_BASE_HI i, 15, 0⟩
/-- `SPC_TREES` (R272). -/
def r_SPC_TREES (i : Nat) : Nat := 0x802108 + i * 0x20
def f_SPC_TREES_TREES (i : Nat) : FRef := ⟨r_SPC_TREES i, 31, 0⟩
/-- `SPC_PROPOSED` (R272). -/
def r_SPC_PROPOSED (i : Nat) : Nat := 0x80210C + i * 0x20
def f_SPC_PROPOSED_PROPOSED (i : Nat) : FRef := ⟨r_SPC_PROPOSED i, 31, 0⟩
/-- `SPC_ACCEPTED` (R272). -/
def r_SPC_ACCEPTED (i : Nat) : Nat := 0x802110 + i * 0x20
def f_SPC_ACCEPTED_ACCEPTED (i : Nat) : FRef := ⟨r_SPC_ACCEPTED i, 31, 0⟩
/-- `SPC_DROPPED` (R272). -/
def r_SPC_DROPPED (i : Nat) : Nat := 0x802114 + i * 0x20
def f_SPC_DROPPED_DROPPED (i : Nat) : FRef := ⟨r_SPC_DROPPED i, 31, 0⟩
/-- `SPC_BACKOFFS` (R272). -/
def r_SPC_BACKOFFS (i : Nat) : Nat := 0x802118 + i * 0x20
def f_SPC_BACKOFFS_BACKOFFS (i : Nat) : FRef := ⟨r_SPC_BACKOFFS i, 31, 0⟩
/-- `SPC_HOST_MISS` (R272). -/
def r_SPC_HOST_MISS (i : Nat) : Nat := 0x80211C + i * 0x20
def f_SPC_HOST_MISS_HOST_MISS (i : Nat) : FRef := ⟨r_SPC_HOST_MISS i, 31, 0⟩
/-- `CMP_STATUS` (R295). -/
def r_CMP_STATUS : Nat := 0xC00000
def f_CMP_STATUS_ORPHAN : FRef := ⟨r_CMP_STATUS, 0, 0⟩
def f_CMP_STATUS_STALE_APPEND : FRef := ⟨r_CMP_STATUS, 1, 1⟩
def f_CMP_STATUS_STALE_ROUTE : FRef := ⟨r_CMP_STATUS, 2, 2⟩
def f_CMP_STATUS_ACQ_FAIL : FRef := ⟨r_CMP_STATUS, 3, 3⟩
def f_CMP_STATUS_HOME_LOST : FRef := ⟨r_CMP_STATUS, 4, 4⟩
def f_CMP_STATUS_COMP_DOWN : FRef := ⟨r_CMP_STATUS, 5, 5⟩
def f_CMP_STATUS_DRAIN_TMO : FRef := ⟨r_CMP_STATUS, 6, 6⟩
def f_CMP_STATUS_NO_ROUTE : FRef := ⟨r_CMP_STATUS, 7, 7⟩
/-- `CMP_STATUS_CNT` (R295). -/
def r_CMP_STATUS_CNT : Nat := 0xC00004
def f_CMP_STATUS_CNT_COUNT : FRef := ⟨r_CMP_STATUS_CNT, 15, 0⟩
/-- `CMP_OWN_BASE_LO` (R296). -/
def r_CMP_OWN_BASE_LO : Nat := 0xC00008
def f_CMP_OWN_BASE_LO_BASE_LO : FRef := ⟨r_CMP_OWN_BASE_LO, 31, 0⟩
/-- `CMP_OWN_BASE_HI` (R296). -/
def r_CMP_OWN_BASE_HI : Nat := 0xC0000C
def f_CMP_OWN_BASE_HI_BASE_HI : FRef := ⟨r_CMP_OWN_BASE_HI, 15, 0⟩
/-- `CMP_HANDOVER_CFG` (R296). -/
def r_CMP_HANDOVER_CFG : Nat := 0xC00010
def f_CMP_HANDOVER_CFG_TMO_US : FRef := ⟨r_CMP_HANDOVER_CFG, 19, 0⟩
/-- `CMP_EPOCH_CFG` (R296). -/
def r_CMP_EPOCH_CFG : Nat := 0xC00014
def f_CMP_EPOCH_CFG_OVERLAP : FRef := ⟨r_CMP_EPOCH_CFG, 15, 0⟩
/-- `CMP_DRAIN_CFG` (R296). -/
def r_CMP_DRAIN_CFG : Nat := 0xC00018
def f_CMP_DRAIN_CFG_TMO : FRef := ⟨r_CMP_DRAIN_CFG, 15, 0⟩
/-- `CMP_REASSIGN` (R297). -/
def r_CMP_REASSIGN : Nat := 0xC00020
def f_CMP_REASSIGN_TARGET_CHIP : FRef := ⟨r_CMP_REASSIGN, 11, 0⟩
def f_CMP_REASSIGN_TARGET_PART : FRef := ⟨r_CMP_REASSIGN, 15, 12⟩
def f_CMP_REASSIGN_RSEQ : FRef := ⟨r_CMP_REASSIGN, 31, 16⟩
/-- `CMP_REASSIGN_GO` (R297). -/
def r_CMP_REASSIGN_GO : Nat := 0xC00024
def f_CMP_REASSIGN_GO_CTX : FRef := ⟨r_CMP_REASSIGN_GO, 17, 0⟩
def f_CMP_REASSIGN_GO_GO : FRef := ⟨r_CMP_REASSIGN_GO, 31, 31⟩
/-- `CMP_REASSIGN_RES` (R297). -/
def r_CMP_REASSIGN_RES : Nat := 0xC00028
def f_CMP_REASSIGN_RES_RESULT : FRef := ⟨r_CMP_REASSIGN_RES, 1, 0⟩
def f_CMP_REASSIGN_RES_BUSY : FRef := ⟨r_CMP_REASSIGN_RES, 2, 2⟩
def f_CMP_REASSIGN_RES_RSEQ : FRef := ⟨r_CMP_REASSIGN_RES, 31, 16⟩
/-- `CMP_HANDOVERS` (R298). -/
def r_CMP_HANDOVERS : Nat := 0xC00030
def f_CMP_HANDOVERS_COUNT : FRef := ⟨r_CMP_HANDOVERS, 31, 0⟩
/-- `CMP_ORPHANS` (R298). -/
def r_CMP_ORPHANS : Nat := 0xC00034
def f_CMP_ORPHANS_COUNT : FRef := ⟨r_CMP_ORPHANS, 31, 0⟩
/-- `CMP_STALE_APPENDS` (R298). -/
def r_CMP_STALE_APPENDS : Nat := 0xC00038
def f_CMP_STALE_APPENDS_COUNT : FRef := ⟨r_CMP_STALE_APPENDS, 31, 0⟩
/-- `CMP_STALE_ROUTES` (R298). -/
def r_CMP_STALE_ROUTES : Nat := 0xC0003C
def f_CMP_STALE_ROUTES_COUNT : FRef := ⟨r_CMP_STALE_ROUTES, 31, 0⟩
/-- `CMP_ACQ_FAILS` (R298). -/
def r_CMP_ACQ_FAILS : Nat := 0xC00040
def f_CMP_ACQ_FAILS_COUNT : FRef := ⟨r_CMP_ACQ_FAILS, 31, 0⟩
/-- `CMP_COMP_SEL` (R299). -/
def r_CMP_COMP_SEL : Nat := 0xC00080
def f_CMP_COMP_SEL_SLOT : FRef := ⟨r_CMP_COMP_SEL, 3, 0⟩
/-- `CMP_COMP_VIEW` (R299). -/
def r_CMP_COMP_VIEW : Nat := 0xC00084
def f_CMP_COMP_VIEW_COMP_ID : FRef := ⟨r_CMP_COMP_VIEW, 7, 0⟩
def f_CMP_COMP_VIEW_STATE : FRef := ⟨r_CMP_COMP_VIEW, 9, 8⟩
def f_CMP_COMP_VIEW_EPOCH : FRef := ⟨r_CMP_COMP_VIEW, 31, 16⟩
/-- `CMP_COMP_INFLIGHT` (R299). -/
def r_CMP_COMP_INFLIGHT : Nat := 0xC00088
def f_CMP_COMP_INFLIGHT_CUR : FRef := ⟨r_CMP_COMP_INFLIGHT, 15, 0⟩
def f_CMP_COMP_INFLIGHT_OLD : FRef := ⟨r_CMP_COMP_INFLIGHT, 31, 16⟩
/-- `CMP_COMP_OVERLAP` (R299). -/
def r_CMP_COMP_OVERLAP : Nat := 0xC0008C
def f_CMP_COMP_OVERLAP_ELAPSED : FRef := ⟨r_CMP_COMP_OVERLAP, 15, 0⟩
/-- `CMP_PART_CFG` (R300). -/
def r_CMP_PART_CFG (i : Nat) : Nat := 0xC00100 + i * 0x10
def f_CMP_PART_CFG_ROLE (i : Nat) : FRef := ⟨r_CMP_PART_CFG i, 1, 0⟩
def f_CMP_PART_CFG_MEMBER (i : Nat) : FRef := ⟨r_CMP_PART_CFG i, 2, 2⟩
def f_CMP_PART_CFG_COMP_SLOT (i : Nat) : FRef := ⟨r_CMP_PART_CFG i, 11, 8⟩
/-- `CMP_PART_CTL` (R300). -/
def r_CMP_PART_CTL (i : Nat) : Nat := 0xC00104 + i * 0x10
def f_CMP_PART_CTL_DRAIN (i : Nat) : FRef := ⟨r_CMP_PART_CTL i, 0, 0⟩
def f_CMP_PART_CTL_DSTATE (i : Nat) : FRef := ⟨r_CMP_PART_CTL i, 2, 1⟩
/-- `CMP_PART_OWNED` (R300). -/
def r_CMP_PART_OWNED (i : Nat) : Nat := 0xC00108 + i * 0x10
def f_CMP_PART_OWNED_OWNED (i : Nat) : FRef := ⟨r_CMP_PART_OWNED i, 17, 0⟩
/-- `CMP_PART_DRAIN` (R300). -/
def r_CMP_PART_DRAIN (i : Nat) : Nat := 0xC0010C + i * 0x10
def f_CMP_PART_DRAIN_ELAPSED (i : Nat) : FRef := ⟨r_CMP_PART_DRAIN i, 15, 0⟩
/-- `CMP_ACCT_BASE_LO` (R301). -/
def r_CMP_ACCT_BASE_LO : Nat := 0xC00200
def f_CMP_ACCT_BASE_LO_BASE_LO : FRef := ⟨r_CMP_ACCT_BASE_LO, 31, 0⟩
/-- `CMP_ACCT_BASE_HI` (R301). -/
def r_CMP_ACCT_BASE_HI : Nat := 0xC00204
def f_CMP_ACCT_BASE_HI_BASE_HI : FRef := ⟨r_CMP_ACCT_BASE_HI, 15, 0⟩
/-- `CMP_ACCT_SEQ` (R301). -/
def r_CMP_ACCT_SEQ : Nat := 0xC00208
def f_CMP_ACCT_SEQ_COUNT : FRef := ⟨r_CMP_ACCT_SEQ, 31, 0⟩
/-- `AVL_STATUS` (R326). -/
def r_AVL_STATUS : Nat := 0x3000000
def f_AVL_STATUS_PORT_DOWN : FRef := ⟨r_AVL_STATUS, 0, 0⟩
def f_AVL_STATUS_DEGRADED : FRef := ⟨r_AVL_STATUS, 1, 1⟩
def f_AVL_STATUS_MISWIRE : FRef := ⟨r_AVL_STATUS, 2, 2⟩
def f_AVL_STATUS_HOP_LIMIT : FRef := ⟨r_AVL_STATUS, 3, 3⟩
def f_AVL_STATUS_NO_ROUTE : FRef := ⟨r_AVL_STATUS, 4, 4⟩
def f_AVL_STATUS_REROUTE : FRef := ⟨r_AVL_STATUS, 5, 5⟩
def f_AVL_STATUS_BEACON_LOSS : FRef := ⟨r_AVL_STATUS, 6, 6⟩
def f_AVL_STATUS_PEER_SAFE : FRef := ⟨r_AVL_STATUS, 7, 7⟩
/-- `AVL_STATUS_CNT` (R326). -/
def r_AVL_STATUS_CNT : Nat := 0x3000004
def f_AVL_STATUS_CNT_COUNT : FRef := ⟨r_AVL_STATUS_CNT, 15, 0⟩
/-- `AVL_BCN_CFG` (R327). -/
def r_AVL_BCN_CFG : Nat := 0x3000008
def f_AVL_BCN_CFG_PRIMARY : FRef := ⟨r_AVL_BCN_CFG, 4, 0⟩
def f_AVL_BCN_CFG_PRIMARY_VALID : FRef := ⟨r_AVL_BCN_CFG, 5, 5⟩
def f_AVL_BCN_CFG_BACKUP : FRef := ⟨r_AVL_BCN_CFG, 10, 6⟩
def f_AVL_BCN_CFG_BACKUP_VALID : FRef := ⟨r_AVL_BCN_CFG, 11, 11⟩
def f_AVL_BCN_CFG_PER_EXP_M1 : FRef := ⟨r_AVL_BCN_CFG, 15, 12⟩
def f_AVL_BCN_CFG_LOSS_EXP : FRef := ⟨r_AVL_BCN_CFG, 23, 16⟩
def f_AVL_BCN_CFG_ROOT : FRef := ⟨r_AVL_BCN_CFG, 24, 24⟩
def f_AVL_BCN_CFG_ON_BACKUP : FRef := ⟨r_AVL_BCN_CFG, 25, 25⟩
/-- `AVL_BCN_FWD` (R327). -/
def r_AVL_BCN_FWD : Nat := 0x300000C
def f_AVL_BCN_FWD_PORTS : FRef := ⟨r_AVL_BCN_FWD, 23, 0⟩
/-- `AVL_RR_CNT` (R327). -/
def r_AVL_RR_CNT : Nat := 0x3000010
def f_AVL_RR_CNT_COUNT : FRef := ⟨r_AVL_RR_CNT, 31, 0⟩
/-- `AVL_ROUTE` (R328). -/
def r_AVL_ROUTE (i : Nat) : Nat := 0x3010000 + i * 0x4
def f_AVL_ROUTE_ROUTE (i : Nat) : FRef := ⟨r_AVL_ROUTE i, 31, 0⟩
/-- `AVL_PORT_CFG` (R329). -/
def r_AVL_PORT_CFG (i : Nat) : Nat := 0x3100000 + i * 0x100
def f_AVL_PORT_CFG_TRAIN_TMO_MS (i : Nat) : FRef := ⟨r_AVL_PORT_CFG i, 7, 0⟩
def f_AVL_PORT_CFG_RETRY_LIMIT (i : Nat) : FRef := ⟨r_AVL_PORT_CFG i, 13, 8⟩
def f_AVL_PORT_CFG_ACK_TMO_US (i : Nat) : FRef := ⟨r_AVL_PORT_CFG i, 23, 16⟩
/-- `AVL_PORT_CTL` (R329). -/
def r_AVL_PORT_CTL (i : Nat) : Nat := 0x3100004 + i * 0x100
def f_AVL_PORT_CTL_DISABLE (i : Nat) : FRef := ⟨r_AVL_PORT_CTL i, 0, 0⟩
def f_AVL_PORT_CTL_RETRAIN (i : Nat) : FRef := ⟨r_AVL_PORT_CTL i, 1, 1⟩
def f_AVL_PORT_CTL_UNQUARANTINE (i : Nat) : FRef := ⟨r_AVL_PORT_CTL i, 2, 2⟩
/-- `AVL_PORT_STATE` (R329). -/
def r_AVL_PORT_STATE (i : Nat) : Nat := 0x3100008 + i * 0x100
def f_AVL_PORT_STATE_STATE (i : Nat) : FRef := ⟨r_AVL_PORT_STATE i, 2, 0⟩
def f_AVL_PORT_STATE_LANES (i : Nat) : FRef := ⟨r_AVL_PORT_STATE i, 6, 3⟩
def f_AVL_PORT_STATE_SPARE_FOR (i : Nat) : FRef := ⟨r_AVL_PORT_STATE i, 10, 7⟩
def f_AVL_PORT_STATE_NBR_CHIP (i : Nat) : FRef := ⟨r_AVL_PORT_STATE i, 22, 11⟩
def f_AVL_PORT_STATE_NBR_PORT (i : Nat) : FRef := ⟨r_AVL_PORT_STATE i, 27, 23⟩
def f_AVL_PORT_STATE_DOWN_WHY (i : Nat) : FRef := ⟨r_AVL_PORT_STATE i, 29, 28⟩
/-- `AVL_PORT_STATUS` (R329). -/
def r_AVL_PORT_STATUS (i : Nat) : Nat := 0x310000C + i * 0x100
def f_AVL_PORT_STATUS_RETRY (i : Nat) : FRef := ⟨r_AVL_PORT_STATUS i, 0, 0⟩
def f_AVL_PORT_STATUS_RETRAIN (i : Nat) : FRef := ⟨r_AVL_PORT_STATUS i, 1, 1⟩
def f_AVL_PORT_STATUS_DOWN (i : Nat) : FRef := ⟨r_AVL_PORT_STATUS i, 2, 2⟩
def f_AVL_PORT_STATUS_LANE_SWAP (i : Nat) : FRef := ⟨r_AVL_PORT_STATUS i, 3, 3⟩
def f_AVL_PORT_STATUS_DEGRADED (i : Nat) : FRef := ⟨r_AVL_PORT_STATUS i, 4, 4⟩
def f_AVL_PORT_STATUS_MISWIRE (i : Nat) : FRef := ⟨r_AVL_PORT_STATUS i, 5, 5⟩
def f_AVL_PORT_STATUS_PEER_SAFE (i : Nat) : FRef := ⟨r_AVL_PORT_STATUS i, 6, 6⟩
def f_AVL_PORT_STATUS_QUARANTINE (i : Nat) : FRef := ⟨r_AVL_PORT_STATUS i, 7, 7⟩
/-- `AVL_PORT_STATUS_CNT` (R329). -/
def r_AVL_PORT_STATUS_CNT (i : Nat) : Nat := 0x3100010 + i * 0x100
def f_AVL_PORT_STATUS_CNT_COUNT (i : Nat) : FRef := ⟨r_AVL_PORT_STATUS_CNT i, 15, 0⟩
/-- `AVL_PORT_DELAY` (R329). -/
def r_AVL_PORT_DELAY (i : Nat) : Nat := 0x3100038 + i * 0x100
def f_AVL_PORT_DELAY_DELAY (i : Nat) : FRef := ⟨r_AVL_PORT_DELAY i, 23, 0⟩
/-- `AVL_PORT_CFG2` (R329). -/
def r_AVL_PORT_CFG2 (i : Nat) : Nat := 0x310003C + i * 0x100
def f_AVL_PORT_CFG2_RETRAIN_TMO_US (i : Nat) : FRef := ⟨r_AVL_PORT_CFG2 i, 13, 0⟩
def f_AVL_PORT_CFG2_LANE_THR (i : Nat) : FRef := ⟨r_AVL_PORT_CFG2 i, 31, 16⟩
/-- `AVL_FEC_CORR` (R330). -/
def r_AVL_FEC_CORR (i : Nat) : Nat := 0x3100014 + i * 0x100
def f_AVL_FEC_CORR_COUNT (i : Nat) : FRef := ⟨r_AVL_FEC_CORR i, 31, 0⟩
/-- `AVL_FEC_UNCORR` (R330). -/
def r_AVL_FEC_UNCORR (i : Nat) : Nat := 0x3100018 + i * 0x100
def f_AVL_FEC_UNCORR_COUNT (i : Nat) : FRef := ⟨r_AVL_FEC_UNCORR i, 31, 0⟩
/-- `AVL_CRC_ERR` (R330). -/
def r_AVL_CRC_ERR (i : Nat) : Nat := 0x310001C + i * 0x100
def f_AVL_CRC_ERR_COUNT (i : Nat) : FRef := ⟨r_AVL_CRC_ERR i, 31, 0⟩
/-- `AVL_REPLAYS` (R330). -/
def r_AVL_REPLAYS (i : Nat) : Nat := 0x3100020 + i * 0x100
def f_AVL_REPLAYS_COUNT (i : Nat) : FRef := ⟨r_AVL_REPLAYS i, 31, 0⟩
/-- `AVL_RETRAINS` (R330). -/
def r_AVL_RETRAINS (i : Nat) : Nat := 0x3100024 + i * 0x100
def f_AVL_RETRAINS_COUNT (i : Nat) : FRef := ⟨r_AVL_RETRAINS i, 31, 0⟩
/-- `AVL_TX_FLITS_LO` (R330). -/
def r_AVL_TX_FLITS_LO (i : Nat) : Nat := 0x3100028 + i * 0x100
def f_AVL_TX_FLITS_LO_COUNT (i : Nat) : FRef := ⟨r_AVL_TX_FLITS_LO i, 31, 0⟩
/-- `AVL_TX_FLITS_HI` (R330). -/
def r_AVL_TX_FLITS_HI (i : Nat) : Nat := 0x310002C + i * 0x100
def f_AVL_TX_FLITS_HI_COUNT (i : Nat) : FRef := ⟨r_AVL_TX_FLITS_HI i, 31, 0⟩
/-- `AVL_RX_FLITS_LO` (R330). -/
def r_AVL_RX_FLITS_LO (i : Nat) : Nat := 0x3100030 + i * 0x100
def f_AVL_RX_FLITS_LO_COUNT (i : Nat) : FRef := ⟨r_AVL_RX_FLITS_LO i, 31, 0⟩
/-- `AVL_RX_FLITS_HI` (R330). -/
def r_AVL_RX_FLITS_HI (i : Nat) : Nat := 0x3100034 + i * 0x100
def f_AVL_RX_FLITS_HI_COUNT (i : Nat) : FRef := ⟨r_AVL_RX_FLITS_HI i, 31, 0⟩
/-- `AVL_LANE_ERR_0` (R330). -/
def r_AVL_LANE_ERR_0 (i : Nat) : Nat := 0x3100040 + i * 0x100
def f_AVL_LANE_ERR_0_COUNT (i : Nat) : FRef := ⟨r_AVL_LANE_ERR_0 i, 31, 0⟩
/-- `AVL_LANE_ERR_1` (R330). -/
def r_AVL_LANE_ERR_1 (i : Nat) : Nat := 0x3100044 + i * 0x100
def f_AVL_LANE_ERR_1_COUNT (i : Nat) : FRef := ⟨r_AVL_LANE_ERR_1 i, 31, 0⟩
/-- `AVL_LANE_ERR_2` (R330). -/
def r_AVL_LANE_ERR_2 (i : Nat) : Nat := 0x3100048 + i * 0x100
def f_AVL_LANE_ERR_2_COUNT (i : Nat) : FRef := ⟨r_AVL_LANE_ERR_2 i, 31, 0⟩
/-- `AVL_LANE_ERR_3` (R330). -/
def r_AVL_LANE_ERR_3 (i : Nat) : Nat := 0x310004C + i * 0x100
def f_AVL_LANE_ERR_3_COUNT (i : Nat) : FRef := ⟨r_AVL_LANE_ERR_3 i, 31, 0⟩
/-- `AVL_LANE_ERR_4` (R330). -/
def r_AVL_LANE_ERR_4 (i : Nat) : Nat := 0x3100050 + i * 0x100
def f_AVL_LANE_ERR_4_COUNT (i : Nat) : FRef := ⟨r_AVL_LANE_ERR_4 i, 31, 0⟩
/-- `AVL_LANE_ERR_5` (R330). -/
def r_AVL_LANE_ERR_5 (i : Nat) : Nat := 0x3100054 + i * 0x100
def f_AVL_LANE_ERR_5_COUNT (i : Nat) : FRef := ⟨r_AVL_LANE_ERR_5 i, 31, 0⟩
/-- `AVL_LANE_ERR_6` (R330). -/
def r_AVL_LANE_ERR_6 (i : Nat) : Nat := 0x3100058 + i * 0x100
def f_AVL_LANE_ERR_6_COUNT (i : Nat) : FRef := ⟨r_AVL_LANE_ERR_6 i, 31, 0⟩
/-- `AVL_LANE_ERR_7` (R330). -/
def r_AVL_LANE_ERR_7 (i : Nat) : Nat := 0x310005C + i * 0x100
def f_AVL_LANE_ERR_7_COUNT (i : Nat) : FRef := ⟨r_AVL_LANE_ERR_7 i, 31, 0⟩
/-- `AVL_LANE_ERR_8` (R330). -/
def r_AVL_LANE_ERR_8 (i : Nat) : Nat := 0x3100060 + i * 0x100
def f_AVL_LANE_ERR_8_COUNT (i : Nat) : FRef := ⟨r_AVL_LANE_ERR_8 i, 31, 0⟩
/-- `AVL_RMT_CFG` (R354). -/
def r_AVL_RMT_CFG : Nat := 0x3200000
def f_AVL_RMT_CFG_DEAD_US : FRef := ⟨r_AVL_RMT_CFG, 13, 0⟩
def f_AVL_RMT_CFG_RETRY_US : FRef := ⟨r_AVL_RMT_CFG, 23, 14⟩
/-- `AVL_RMT_STATUS` (R355). -/
def r_AVL_RMT_STATUS : Nat := 0x3200004
def f_AVL_RMT_STATUS_REMOTE_DEAD : FRef := ⟨r_AVL_RMT_STATUS, 0, 0⟩
def f_AVL_RMT_STATUS_OUTCOME_UNKNOWN : FRef := ⟨r_AVL_RMT_STATUS, 1, 1⟩
def f_AVL_RMT_STATUS_REACH_DENY : FRef := ⟨r_AVL_RMT_STATUS, 2, 2⟩
def f_AVL_RMT_STATUS_AGED : FRef := ⟨r_AVL_RMT_STATUS, 3, 3⟩
def f_AVL_RMT_STATUS_RECOVERY : FRef := ⟨r_AVL_RMT_STATUS, 4, 4⟩
def f_AVL_RMT_STATUS_RECOVERY_DONE : FRef := ⟨r_AVL_RMT_STATUS, 5, 5⟩
/-- `AVL_RMT_STATUS_CNT` (R355). -/
def r_AVL_RMT_STATUS_CNT : Nat := 0x3200008
def f_AVL_RMT_STATUS_CNT_COUNT : FRef := ⟨r_AVL_RMT_STATUS_CNT, 15, 0⟩
/-- `AVL_RMT_STATE` (R356). -/
def r_AVL_RMT_STATE : Nat := 0x320000C
def f_AVL_RMT_STATE_RECOVERING : FRef := ⟨r_AVL_RMT_STATE, 0, 0⟩
def f_AVL_RMT_STATE_SEPOCH : FRef := ⟨r_AVL_RMT_STATE, 31, 16⟩
/-- `AVL_DEDUP_BASE_LO` (R356). -/
def r_AVL_DEDUP_BASE_LO : Nat := 0x3200010
def f_AVL_DEDUP_BASE_LO_BASE_LO : FRef := ⟨r_AVL_DEDUP_BASE_LO, 31, 0⟩
/-- `AVL_DEDUP_BASE_HI` (R356). -/
def r_AVL_DEDUP_BASE_HI : Nat := 0x3200014
def f_AVL_DEDUP_BASE_HI_BASE_HI : FRef := ⟨r_AVL_DEDUP_BASE_HI, 15, 0⟩
/-- `AVL_RMT_DEAD_CNT` (R357). -/
def r_AVL_RMT_DEAD_CNT : Nat := 0x3200018
def f_AVL_RMT_DEAD_CNT_COUNT : FRef := ⟨r_AVL_RMT_DEAD_CNT, 31, 0⟩
/-- `AVL_RMT_UNKNOWN_CNT` (R357). -/
def r_AVL_RMT_UNKNOWN_CNT : Nat := 0x320001C
def f_AVL_RMT_UNKNOWN_CNT_COUNT : FRef := ⟨r_AVL_RMT_UNKNOWN_CNT, 31, 0⟩
/-- `AVL_DEDUP_HIT_CNT` (R357). -/
def r_AVL_DEDUP_HIT_CNT : Nat := 0x3200020
def f_AVL_DEDUP_HIT_CNT_COUNT : FRef := ⟨r_AVL_DEDUP_HIT_CNT, 31, 0⟩
/-- `AVL_REACH_DENY_CNT` (R357). -/
def r_AVL_REACH_DENY_CNT : Nat := 0x3200024
def f_AVL_REACH_DENY_CNT_COUNT : FRef := ⟨r_AVL_REACH_DENY_CNT, 31, 0⟩
/-- `AVL_DUP_LATE_CNT` (R357). -/
def r_AVL_DUP_LATE_CNT : Nat := 0x3200028
def f_AVL_DUP_LATE_CNT_COUNT : FRef := ⟨r_AVL_DUP_LATE_CNT, 31, 0⟩
/-- `AVL_AGED_CNT` (R357). -/
def r_AVL_AGED_CNT : Nat := 0x320002C
def f_AVL_AGED_CNT_COUNT : FRef := ⟨r_AVL_AGED_CNT, 31, 0⟩
/-- `AVL_RMT_ENG` (R357). -/
def r_AVL_RMT_ENG (i : Nat) : Nat := 0x3200100 + i * 0x4
def f_AVL_RMT_ENG_OUT (i : Nat) : FRef := ⟨r_AVL_RMT_ENG i, 9, 0⟩
/-- `AVL_REACH` (R358). -/
def r_AVL_REACH (i : Nat) : Nat := 0x3300000 + i * 0x4
def f_AVL_REACH_WORD (i : Nat) : FRef := ⟨r_AVL_REACH i, 31, 0⟩
/-- `SYN_STATUS` (R359). -/
def r_SYN_STATUS : Nat := 0x3800000
def f_SYN_STATUS_FOG : FRef := ⟨r_SYN_STATUS, 0, 0⟩
def f_SYN_STATUS_UNFOG : FRef := ⟨r_SYN_STATUS, 1, 1⟩
def f_SYN_STATUS_BAD_OP : FRef := ⟨r_SYN_STATUS, 2, 2⟩
def f_SYN_STATUS_RWAIT_FULL : FRef := ⟨r_SYN_STATUS, 3, 3⟩
/-- `SYN_STATUS_CNT` (R359). -/
def r_SYN_STATUS_CNT : Nat := 0x3800004
def f_SYN_STATUS_CNT_COUNT : FRef := ⟨r_SYN_STATUS_CNT, 15, 0⟩
/-- `SYN_CFG` (R360). -/
def r_SYN_CFG : Nat := 0x3800008
def f_SYN_CFG_RWAIT_US : FRef := ⟨r_SYN_CFG, 9, 0⟩
def f_SYN_CFG_FOG_N : FRef := ⟨r_SYN_CFG, 15, 10⟩
def f_SYN_CFG_LATE_US : FRef := ⟨r_SYN_CFG, 25, 16⟩
/-- `SYN_SEL` (R360). -/
def r_SYN_SEL : Nat := 0x380000C
def f_SYN_SEL_OBJECT : FRef := ⟨r_SYN_SEL, 12, 0⟩
/-- `SYN_VIEW_ARR` (R360). -/
def r_SYN_VIEW_ARR : Nat := 0x3800010
def f_SYN_VIEW_ARR_ARRIVED : FRef := ⟨r_SYN_VIEW_ARR, 19, 0⟩
def f_SYN_VIEW_ARR_LAST_CHIP : FRef := ⟨r_SYN_VIEW_ARR, 31, 20⟩
/-- `SYN_VIEW_TICK` (R360). -/
def r_SYN_VIEW_TICK : Nat := 0x3800014
def f_SYN_VIEW_TICK_LAST_TICK : FRef := ⟨r_SYN_VIEW_TICK, 31, 0⟩
/-- `SYN_VIEW_CYC` (R360). -/
def r_SYN_VIEW_CYC : Nat := 0x3800018
def f_SYN_VIEW_CYC_LAST_CYCLE : FRef := ⟨r_SYN_VIEW_CYC, 20, 0⟩
/-- `SYN_FOG_MAP` (R361). -/
def r_SYN_FOG_MAP (i : Nat) : Nat := 0x3800100 + i * 0x4
def f_SYN_FOG_MAP_FOG (i : Nat) : FRef := ⟨r_SYN_FOG_MAP i, 31, 0⟩
/-- `SYN_OBJ_VALUE_LO` (R362). -/
def r_SYN_OBJ_VALUE_LO (i : Nat) : Nat := 0x3810000 + i * 0x10
def f_SYN_OBJ_VALUE_LO_VALUE_LO (i : Nat) : FRef := ⟨r_SYN_OBJ_VALUE_LO i, 31, 0⟩
/-- `SYN_OBJ_VALUE_HI` (R362). -/
def r_SYN_OBJ_VALUE_HI (i : Nat) : Nat := 0x3810004 + i * 0x10
def f_SYN_OBJ_VALUE_HI_VALUE_HI (i : Nat) : FRef := ⟨r_SYN_OBJ_VALUE_HI i, 31, 0⟩
/-- `SYN_OBJ_CFG` (R362). -/
def r_SYN_OBJ_CFG (i : Nat) : Nat := 0x3810008 + i * 0x10
def f_SYN_OBJ_CFG_ENABLE (i : Nat) : FRef := ⟨r_SYN_OBJ_CFG i, 0, 0⟩
def f_SYN_OBJ_CFG_BARRIER (i : Nat) : FRef := ⟨r_SYN_OBJ_CFG i, 1, 1⟩
def f_SYN_OBJ_CFG_EXPECT (i : Nat) : FRef := ⟨r_SYN_OBJ_CFG i, 21, 2⟩
/-- `SYN_OBJ_SIGNAL` (R362). -/
def r_SYN_OBJ_SIGNAL (i : Nat) : Nat := 0x381000C + i * 0x10
def f_SYN_OBJ_SIGNAL_ADD (i : Nat) : FRef := ⟨r_SYN_OBJ_SIGNAL i, 31, 0⟩
/-- `SIG_STATUS` (R386). -/
def r_SIG_STATUS : Nat := 0x2000000
def f_SIG_STATUS_FAULT : FRef := ⟨r_SIG_STATUS, 0, 0⟩
def f_SIG_STATUS_SAT : FRef := ⟨r_SIG_STATUS, 1, 1⟩
def f_SIG_STATUS_ACC_OVF : FRef := ⟨r_SIG_STATUS, 2, 2⟩
def f_SIG_STATUS_WAIT_TMO : FRef := ⟨r_SIG_STATUS, 3, 3⟩
def f_SIG_STATUS_REG_CORR : FRef := ⟨r_SIG_STATUS, 4, 4⟩
def f_SIG_STATUS_WRAP : FRef := ⟨r_SIG_STATUS, 5, 5⟩
def f_SIG_STATUS_RERUN : FRef := ⟨r_SIG_STATUS, 6, 6⟩
/-- `SIG_STATUS_CNT` (R386). -/
def r_SIG_STATUS_CNT : Nat := 0x2000004
def f_SIG_STATUS_CNT_COUNT : FRef := ⟨r_SIG_STATUS_CNT, 15, 0⟩
/-- `SIG_CTRL` (R386). -/
def r_SIG_CTRL : Nat := 0x2000008
def f_SIG_CTRL_WAIT_TMO : FRef := ⟨r_SIG_CTRL, 15, 0⟩
/-- `SIG_RERUN` (R386). -/
def r_SIG_RERUN : Nat := 0x200000C
def f_SIG_RERUN_CORE_0 : FRef := ⟨r_SIG_RERUN, 6, 0⟩
def f_SIG_RERUN_CORE_1 : FRef := ⟨r_SIG_RERUN, 14, 8⟩
def f_SIG_RERUN_CORE_2 : FRef := ⟨r_SIG_RERUN, 22, 16⟩
def f_SIG_RERUN_CORE_3 : FRef := ⟨r_SIG_RERUN, 30, 24⟩
/-- `SIG_DIE` (R386). -/
def r_SIG_DIE (i : Nat) : Nat := 0x2000010 + i * 0x4
def f_SIG_DIE_DISABLED (i : Nat) : FRef := ⟨r_SIG_DIE i, 25, 0⟩
/-- `SIG_CORE` (R387). -/
def r_SIG_CORE (i : Nat) : Nat := 0x2010000 + i * 0x1000
def f_SIG_CORE_PHYS (i : Nat) : FRef := ⟨r_SIG_CORE i, 6, 0⟩
def f_SIG_CORE_ISOLATED (i : Nat) : FRef := ⟨r_SIG_CORE i, 7, 7⟩
def f_SIG_CORE_RADIO_MASK (i : Nat) : FRef := ⟨r_SIG_CORE i, 15, 8⟩
def f_SIG_CORE_PARTITION (i : Nat) : FRef := ⟨r_SIG_CORE i, 19, 16⟩
def f_SIG_CORE_PART_VALID (i : Nat) : FRef := ⟨r_SIG_CORE i, 20, 20⟩
def f_SIG_CORE_RERUN_CORE (i : Nat) : FRef := ⟨r_SIG_CORE i, 21, 21⟩
def f_SIG_CORE_IN_RADIO (i : Nat) : FRef := ⟨r_SIG_CORE i, 22, 22⟩
/-- `SIG_MEM_SPLIT` (R387). -/
def r_SIG_MEM_SPLIT (i : Nat) : Nat := 0x2010004 + i * 0x1000
def f_SIG_MEM_SPLIT_RADIO_16K (i : Nat) : FRef := ⟨r_SIG_MEM_SPLIT i, 5, 0⟩
/-- `SIG_THREAD_SEL` (R387). -/
def r_SIG_THREAD_SEL (i : Nat) : Nat := 0x2010008 + i * 0x1000
def f_SIG_THREAD_SEL_THREAD (i : Nat) : FRef := ⟨r_SIG_THREAD_SEL i, 2, 0⟩
/-- `SIG_THREAD_VIEW` (R387). -/
def r_SIG_THREAD_VIEW (i : Nat) : Nat := 0x201000C + i * 0x1000
def f_SIG_THREAD_VIEW_STATE (i : Nat) : FRef := ⟨r_SIG_THREAD_VIEW i, 2, 0⟩
def f_SIG_THREAD_VIEW_RADIO (i : Nat) : FRef := ⟨r_SIG_THREAD_VIEW i, 3, 3⟩
def f_SIG_THREAD_VIEW_PRIO (i : Nat) : FRef := ⟨r_SIG_THREAD_VIEW i, 6, 4⟩
def f_SIG_THREAD_VIEW_FAULT_KIND (i : Nat) : FRef := ⟨r_SIG_THREAD_VIEW i, 15, 8⟩
def f_SIG_THREAD_VIEW_TENANT (i : Nat) : FRef := ⟨r_SIG_THREAD_VIEW i, 31, 16⟩
/-- `SIG_THREAD_PC_LO` (R387). -/
def r_SIG_THREAD_PC_LO (i : Nat) : Nat := 0x2010010 + i * 0x1000
def f_SIG_THREAD_PC_LO_PC_LO (i : Nat) : FRef := ⟨r_SIG_THREAD_PC_LO i, 31, 0⟩
/-- `SIG_THREAD_PC_HI` (R387). -/
def r_SIG_THREAD_PC_HI (i : Nat) : Nat := 0x2010014 + i * 0x1000
def f_SIG_THREAD_PC_HI_PC_HI (i : Nat) : FRef := ⟨r_SIG_THREAD_PC_HI i, 15, 0⟩
/-- `SIG_BUNDLE_CNT_LO` (R387). -/
def r_SIG_BUNDLE_CNT_LO (i : Nat) : Nat := 0x2010018 + i * 0x1000
def f_SIG_BUNDLE_CNT_LO_COUNT_LO (i : Nat) : FRef := ⟨r_SIG_BUNDLE_CNT_LO i, 31, 0⟩
/-- `SIG_BUNDLE_CNT_HI` (R387). -/
def r_SIG_BUNDLE_CNT_HI (i : Nat) : Nat := 0x201001C + i * 0x1000
def f_SIG_BUNDLE_CNT_HI_COUNT_HI (i : Nat) : FRef := ⟨r_SIG_BUNDLE_CNT_HI i, 31, 0⟩
/-- `SIG_IDLE_CNT` (R387). -/
def r_SIG_IDLE_CNT (i : Nat) : Nat := 0x2010020 + i * 0x1000
def f_SIG_IDLE_CNT_COUNT (i : Nat) : FRef := ⟨r_SIG_IDLE_CNT i, 31, 0⟩
/-- `SIG_JOB_CNT` (R387). -/
def r_SIG_JOB_CNT (i : Nat) : Nat := 0x2010024 + i * 0x1000
def f_SIG_JOB_CNT_COUNT (i : Nat) : FRef := ⟨r_SIG_JOB_CNT i, 31, 0⟩
/-- `RAD_STATUS` (R416). -/
def r_RAD_STATUS : Nat := 0x2400000
def f_RAD_STATUS_LATE_REQ : FRef := ⟨r_RAD_STATUS, 0, 0⟩
def f_RAD_STATUS_UL_LOST : FRef := ⟨r_RAD_STATUS, 1, 1⟩
def f_RAD_STATUS_IND_NOBUF : FRef := ⟨r_RAD_STATUS, 2, 2⟩
def f_RAD_STATUS_MIG_DONE : FRef := ⟨r_RAD_STATUS, 3, 3⟩
def f_RAD_STATUS_MIG_FAIL : FRef := ⟨r_RAD_STATUS, 4, 4⟩
def f_RAD_STATUS_HARQ_MISS : FRef := ⟨r_RAD_STATUS, 5, 5⟩
def f_RAD_STATUS_REISSUE : FRef := ⟨r_RAD_STATUS, 6, 6⟩
def f_RAD_STATUS_BAD_REQ : FRef := ⟨r_RAD_STATUS, 7, 7⟩
/-- `RAD_STATUS_CNT` (R416). -/
def r_RAD_STATUS_CNT : Nat := 0x2400004
def f_RAD_STATUS_CNT_COUNT : FRef := ⟨r_RAD_STATUS_CNT, 15, 0⟩
/-- `RAD_CFG` (R417). -/
def r_RAD_CFG : Nat := 0x2400008
def f_RAD_CFG_REQ_LEAD : FRef := ⟨r_RAD_CFG, 6, 0⟩
def f_RAD_CFG_SLOT_IND : FRef := ⟨r_RAD_CFG, 7, 7⟩
def f_RAD_CFG_MIG_LEAD : FRef := ⟨r_RAD_CFG, 14, 8⟩
/-- `RAD_MIG` (R417). -/
def r_RAD_MIG : Nat := 0x240000C
def f_RAD_MIG_CELL : FRef := ⟨r_RAD_MIG, 10, 0⟩
def f_RAD_MIG_TARGET : FRef := ⟨r_RAD_MIG, 23, 12⟩
def f_RAD_MIG_GO : FRef := ⟨r_RAD_MIG, 31, 31⟩
/-- `RAD_MIG_RES` (R417). -/
def r_RAD_MIG_RES : Nat := 0x2400010
def f_RAD_MIG_RES_RESULT : FRef := ⟨r_RAD_MIG_RES, 1, 0⟩
def f_RAD_MIG_RES_BUSY : FRef := ⟨r_RAD_MIG_RES, 2, 2⟩
def f_RAD_MIG_RES_SFN : FRef := ⟨r_RAD_MIG_RES, 25, 16⟩
/-- `RAD_LATE_CNT` (R418). -/
def r_RAD_LATE_CNT : Nat := 0x2400014
def f_RAD_LATE_CNT_COUNT : FRef := ⟨r_RAD_LATE_CNT, 31, 0⟩
/-- `RAD_LOST_CNT` (R418). -/
def r_RAD_LOST_CNT : Nat := 0x2400018
def f_RAD_LOST_CNT_COUNT : FRef := ⟨r_RAD_LOST_CNT, 31, 0⟩
/-- `RAD_NOBUF_CNT` (R418). -/
def r_RAD_NOBUF_CNT : Nat := 0x240001C
def f_RAD_NOBUF_CNT_COUNT : FRef := ⟨r_RAD_NOBUF_CNT, 31, 0⟩
/-- `RAD_REISSUE_CNT` (R418). -/
def r_RAD_REISSUE_CNT : Nat := 0x2400020
def f_RAD_REISSUE_CNT_COUNT : FRef := ⟨r_RAD_REISSUE_CNT, 31, 0⟩
/-- `RAD_CELL_SEL` (R419). -/
def r_RAD_CELL_SEL : Nat := 0x2400030
def f_RAD_CELL_SEL_CELL : FRef := ⟨r_RAD_CELL_SEL, 10, 0⟩
/-- `RAD_CELL_VIEW` (R419). -/
def r_RAD_CELL_VIEW : Nat := 0x2400034
def f_RAD_CELL_VIEW_STATE : FRef := ⟨r_RAD_CELL_VIEW, 2, 0⟩
def f_RAD_CELL_VIEW_RAT : FRef := ⟨r_RAD_CELL_VIEW, 4, 3⟩
def f_RAD_CELL_VIEW_SFN : FRef := ⟨r_RAD_CELL_VIEW, 17, 8⟩
def f_RAD_CELL_VIEW_SLOT : FRef := ⟨r_RAD_CELL_VIEW, 24, 18⟩
/-- `RAD_CELL_PEER` (R419). -/
def r_RAD_CELL_PEER : Nat := 0x2400038
def f_RAD_CELL_PEER_CHIP : FRef := ⟨r_RAD_CELL_PEER, 11, 0⟩
/-- `RAD_ENG_SEL` (R419). -/
def r_RAD_ENG_SEL : Nat := 0x2400040
def f_RAD_ENG_SEL_KIND : FRef := ⟨r_RAD_ENG_SEL, 2, 0⟩
def f_RAD_ENG_SEL_DIE : FRef := ⟨r_RAD_ENG_SEL, 4, 3⟩
def f_RAD_ENG_SEL_ENGINE : FRef := ⟨r_RAD_ENG_SEL, 7, 5⟩
/-- `RAD_ENG_VIEW` (R419). -/
def r_RAD_ENG_VIEW : Nat := 0x2400044
def f_RAD_ENG_VIEW_RADIO_DEPTH : FRef := ⟨r_RAD_ENG_VIEW, 5, 0⟩
def f_RAD_ENG_VIEW_OPEN_DEPTH : FRef := ⟨r_RAD_ENG_VIEW, 12, 6⟩
def f_RAD_ENG_VIEW_IN_RADIO : FRef := ⟨r_RAD_ENG_VIEW, 13, 13⟩
def f_RAD_ENG_VIEW_ISOLATED : FRef := ⟨r_RAD_ENG_VIEW, 14, 14⟩
/-- `RAD_ENG_JOBS` (R419). -/
def r_RAD_ENG_JOBS : Nat := 0x2400048
def f_RAD_ENG_JOBS_COUNT : FRef := ⟨r_RAD_ENG_JOBS, 31, 0⟩
/-- `RAD_ENG_BUSY` (R419). -/
def r_RAD_ENG_BUSY : Nat := 0x240004C
def f_RAD_ENG_BUSY_COUNT : FRef := ⟨r_RAD_ENG_BUSY, 31, 0⟩
/-- `FH_STATUS` (R448). -/
def r_FH_STATUS : Nat := 0x2800000
def f_FH_STATUS_LINK_DOWN : FRef := ⟨r_FH_STATUS, 0, 0⟩
def f_FH_STATUS_EMPTY_SLOT : FRef := ⟨r_FH_STATUS, 1, 1⟩
def f_FH_STATUS_RX_LATE : FRef := ⟨r_FH_STATUS, 2, 2⟩
def f_FH_STATUS_UNKNOWN : FRef := ⟨r_FH_STATUS, 3, 3⟩
def f_FH_STATUS_COMP : FRef := ⟨r_FH_STATUS, 4, 4⟩
def f_FH_STATUS_MGR_RX : FRef := ⟨r_FH_STATUS, 5, 5⟩
/-- `FH_STATUS_CNT` (R448). -/
def r_FH_STATUS_CNT : Nat := 0x2800004
def f_FH_STATUS_CNT_COUNT : FRef := ⟨r_FH_STATUS_CNT, 15, 0⟩
/-- `FH_PORT` (R449). -/
def r_FH_PORT (i : Nat) : Nat := 0x2800100 + i * 0x4
def f_FH_PORT_MODE (i : Nat) : FRef := ⟨r_FH_PORT i, 2, 0⟩
def f_FH_PORT_UP (i : Nat) : FRef := ⟨r_FH_PORT i, 7, 4⟩
def f_FH_PORT_FEC_ON (i : Nat) : FRef := ⟨r_FH_PORT i, 11, 8⟩
/-- `FH_MRX_W0` (R429). -/
def r_FH_MRX_W0 : Nat := 0x2800040
def f_FH_MRX_W0_WORD_LO : FRef := ⟨r_FH_MRX_W0, 31, 0⟩
/-- `FH_MRX_W1` (R429). -/
def r_FH_MRX_W1 : Nat := 0x2800044
def f_FH_MRX_W1_WORD_HI : FRef := ⟨r_FH_MRX_W1, 31, 0⟩
/-- `FH_MRX_TAG` (R429). -/
def r_FH_MRX_TAG : Nat := 0x2800048
def f_FH_MRX_TAG_VALID : FRef := ⟨r_FH_MRX_TAG, 0, 0⟩
def f_FH_MRX_TAG_FIRST : FRef := ⟨r_FH_MRX_TAG, 1, 1⟩
def f_FH_MRX_TAG_CORR : FRef := ⟨r_FH_MRX_TAG, 2, 2⟩
def f_FH_MRX_TAG_UNCORR : FRef := ⟨r_FH_MRX_TAG, 3, 3⟩
/-- `FH_MRX_DEPTH` (R429). -/
def r_FH_MRX_DEPTH : Nat := 0x280004C
def f_FH_MRX_DEPTH_WORDS : FRef := ⟨r_FH_MRX_DEPTH, 12, 0⟩
/-- `FH_MRX_DROP_CNT` (R429). -/
def r_FH_MRX_DROP_CNT : Nat := 0x2800050
def f_FH_MRX_DROP_CNT_COUNT : FRef := ⟨r_FH_MRX_DROP_CNT, 31, 0⟩
/-- `FH_EMPTY_CNT` (R450). -/
def r_FH_EMPTY_CNT : Nat := 0x2800010
def f_FH_EMPTY_CNT_COUNT : FRef := ⟨r_FH_EMPTY_CNT, 31, 0⟩
/-- `FH_LATE_CNT` (R450). -/
def r_FH_LATE_CNT : Nat := 0x2800014
def f_FH_LATE_CNT_COUNT : FRef := ⟨r_FH_LATE_CNT, 31, 0⟩
/-- `FH_UNK_CNT` (R450). -/
def r_FH_UNK_CNT : Nat := 0x2800018
def f_FH_UNK_CNT_COUNT : FRef := ⟨r_FH_UNK_CNT, 31, 0⟩
/-- `FH_COMP_CNT` (R450). -/
def r_FH_COMP_CNT : Nat := 0x280001C
def f_FH_COMP_CNT_COUNT : FRef := ⟨r_FH_COMP_CNT, 31, 0⟩
/-- `FH_SEQ_CNT` (R450). -/
def r_FH_SEQ_CNT : Nat := 0x2800020
def f_FH_SEQ_CNT_COUNT : FRef := ⟨r_FH_SEQ_CNT, 31, 0⟩
/-- `FH_FCS_CNT` (R450). -/
def r_FH_FCS_CNT : Nat := 0x2800024
def f_FH_FCS_CNT_COUNT : FRef := ⟨r_FH_FCS_CNT, 31, 0⟩
/-- `PTP_STATUS` (R451). -/
def r_PTP_STATUS : Nat := 0x2900000
def f_PTP_STATUS_DOM_SWITCH : FRef := ⟨r_PTP_STATUS, 0, 0⟩
def f_PTP_STATUS_DOM0_LOST : FRef := ⟨r_PTP_STATUS, 1, 1⟩
def f_PTP_STATUS_DOM1_LOST : FRef := ⟨r_PTP_STATUS, 2, 2⟩
def f_PTP_STATUS_TC_OVF : FRef := ⟨r_PTP_STATUS, 3, 3⟩
def f_PTP_STATUS_PORT_BACKUP : FRef := ⟨r_PTP_STATUS, 4, 4⟩
/-- `PTP_STATUS_CNT` (R451). -/
def r_PTP_STATUS_CNT : Nat := 0x2900004
def f_PTP_STATUS_CNT_COUNT : FRef := ⟨r_PTP_STATUS_CNT, 15, 0⟩
/-- `PTP_SNAP` (R452). -/
def r_PTP_SNAP : Nat := 0x2900008
def f_PTP_SNAP_SNAP : FRef := ⟨r_PTP_SNAP, 0, 0⟩
/-- `PTP_TIME_SEC_LO` (R452). -/
def r_PTP_TIME_SEC_LO : Nat := 0x290000C
def f_PTP_TIME_SEC_LO_SEC_LO : FRef := ⟨r_PTP_TIME_SEC_LO, 31, 0⟩
/-- `PTP_TIME_SEC_HI` (R452). -/
def r_PTP_TIME_SEC_HI : Nat := 0x2900010
def f_PTP_TIME_SEC_HI_SEC_HI : FRef := ⟨r_PTP_TIME_SEC_HI, 15, 0⟩
/-- `PTP_TIME_NS` (R452). -/
def r_PTP_TIME_NS : Nat := 0x2900014
def f_PTP_TIME_NS_NS : FRef := ⟨r_PTP_TIME_NS, 31, 0⟩
/-- `PTP_TIME_FRAC` (R452). -/
def r_PTP_TIME_FRAC : Nat := 0x2900018
def f_PTP_TIME_FRAC_FRAC : FRef := ⟨r_PTP_TIME_FRAC, 15, 0⟩
/-- `PTP_SWITCH_CNT` (R452). -/
def r_PTP_SWITCH_CNT : Nat := 0x290001C
def f_PTP_SWITCH_CNT_COUNT : FRef := ⟨r_PTP_SWITCH_CNT, 31, 0⟩
/-- `PTP_DOM_CFG` (R453). -/
def r_PTP_DOM_CFG : Nat := 0x2900020
def f_PTP_DOM_CFG_ACTIVE : FRef := ⟨r_PTP_DOM_CFG, 0, 0⟩
def f_PTP_DOM_CFG_MANUAL : FRef := ⟨r_PTP_DOM_CFG, 1, 1⟩
def f_PTP_DOM_CFG_SELECT : FRef := ⟨r_PTP_DOM_CFG, 2, 2⟩
def f_PTP_DOM_CFG_PREFERRED : FRef := ⟨r_PTP_DOM_CFG, 3, 3⟩
def f_PTP_DOM_CFG_REVERT_S : FRef := ⟨r_PTP_DOM_CFG, 15, 8⟩
def f_PTP_DOM_CFG_SYNC_TMO : FRef := ⟨r_PTP_DOM_CFG, 23, 16⟩
def f_PTP_DOM_CFG_CLASS_MAX : FRef := ⟨r_PTP_DOM_CFG, 31, 24⟩
/-- `PTP_DOM` (R454). -/
def r_PTP_DOM (i : Nat) : Nat := 0x2900040 + i * 0x10
def f_PTP_DOM_NUMBER (i : Nat) : FRef := ⟨r_PTP_DOM i, 7, 0⟩
def f_PTP_DOM_PORT (i : Nat) : FRef := ⟨r_PTP_DOM i, 12, 8⟩
def f_PTP_DOM_BACKUP (i : Nat) : FRef := ⟨r_PTP_DOM i, 20, 16⟩
def f_PTP_DOM_BACKUP_VALID (i : Nat) : FRef := ⟨r_PTP_DOM i, 21, 21⟩
def f_PTP_DOM_ON_BACKUP (i : Nat) : FRef := ⟨r_PTP_DOM i, 22, 22⟩
def f_PTP_DOM_VALID (i : Nat) : FRef := ⟨r_PTP_DOM i, 23, 23⟩
def f_PTP_DOM_CLOCK_CLASS (i : Nat) : FRef := ⟨r_PTP_DOM i, 31, 24⟩
/-- `PTP_DOM_OFFSET` (R454). -/
def r_PTP_DOM_OFFSET (i : Nat) : Nat := 0x2900044 + i * 0x10
def f_PTP_DOM_OFFSET_OFFSET (i : Nat) : FRef := ⟨r_PTP_DOM_OFFSET i, 31, 0⟩
/-- `PTP_DOM_MPD` (R454). -/
def r_PTP_DOM_MPD (i : Nat) : Nat := 0x2900048 + i * 0x10
def f_PTP_DOM_MPD_MPD (i : Nat) : FRef := ⟨r_PTP_DOM_MPD i, 23, 0⟩
/-- `PTP_PORT_LAT` (R454). -/
def r_PTP_PORT_LAT (i : Nat) : Nat := 0x2900100 + i * 0x4
def f_PTP_PORT_LAT_INGRESS (i : Nat) : FRef := ⟨r_PTP_PORT_LAT i, 15, 0⟩
def f_PTP_PORT_LAT_EGRESS (i : Nat) : FRef := ⟨r_PTP_PORT_LAT i, 31, 16⟩
/-- `TM_SEL` (R455). -/
def r_TM_SEL : Nat := 0x2A00000
def f_TM_SEL_FABRIC : FRef := ⟨r_TM_SEL, 0, 0⟩
def f_TM_SEL_PORT : FRef := ⟨r_TM_SEL, 5, 1⟩
def f_TM_SEL_QUEUE : FRef := ⟨r_TM_SEL, 10, 8⟩
/-- `TM_Q_CFG` (R455). -/
def r_TM_Q_CFG : Nat := 0x2A00004
def f_TM_Q_CFG_WEIGHT : FRef := ⟨r_TM_Q_CFG, 7, 0⟩
def f_TM_Q_CFG_SHAPER : FRef := ⟨r_TM_Q_CFG, 9, 8⟩
def f_TM_Q_CFG_RADIO : FRef := ⟨r_TM_Q_CFG, 10, 10⟩
def f_TM_Q_CFG_LIMIT_KIB : FRef := ⟨r_TM_Q_CFG, 31, 16⟩
/-- `TM_Q_DEPTH` (R455). -/
def r_TM_Q_DEPTH : Nat := 0x2A00008
def f_TM_Q_DEPTH_BYTES : FRef := ⟨r_TM_Q_DEPTH, 23, 0⟩
/-- `TM_Q_HWM_DEPTH` (R455). -/
def r_TM_Q_HWM_DEPTH : Nat := 0x2A0000C
def f_TM_Q_HWM_DEPTH_BYTES : FRef := ⟨r_TM_Q_HWM_DEPTH, 23, 0⟩
/-- `TM_Q_HWM_DELAY` (R455). -/
def r_TM_Q_HWM_DELAY : Nat := 0x2A00010
def f_TM_Q_HWM_DELAY_NS : FRef := ⟨r_TM_Q_HWM_DELAY, 31, 0⟩
/-- `TM_Q_CLEAR` (R455). -/
def r_TM_Q_CLEAR : Nat := 0x2A00014
def f_TM_Q_CLEAR_CLEAR : FRef := ⟨r_TM_Q_CLEAR, 0, 0⟩
/-- `TM_Q_DROP` (R455). -/
def r_TM_Q_DROP : Nat := 0x2A00018
def f_TM_Q_DROP_COUNT : FRef := ⟨r_TM_Q_DROP, 31, 0⟩
/-- `TM_Q_SAMP_TICK` (R455). -/
def r_TM_Q_SAMP_TICK : Nat := 0x2A000C0
def f_TM_Q_SAMP_TICK_TICK : FRef := ⟨r_TM_Q_SAMP_TICK, 31, 0⟩
/-- `TM_Q_SAMP_DEPTH` (R455). -/
def r_TM_Q_SAMP_DEPTH (i : Nat) : Nat := 0x2A00040 + i * 0x8
def f_TM_Q_SAMP_DEPTH_DEPTH (i : Nat) : FRef := ⟨r_TM_Q_SAMP_DEPTH i, 23, 0⟩
/-- `TM_Q_SAMP_DELAY` (R455). -/
def r_TM_Q_SAMP_DELAY (i : Nat) : Nat := 0x2A00044 + i * 0x8
def f_TM_Q_SAMP_DELAY_DELAY (i : Nat) : FRef := ⟨r_TM_Q_SAMP_DELAY i, 31, 0⟩
/-- `TM_STATUS` (R456). -/
def r_TM_STATUS : Nat := 0x2A00100
def f_TM_STATUS_DROP : FRef := ⟨r_TM_STATUS, 0, 0⟩
/-- `TM_STATUS_CNT` (R456). -/
def r_TM_STATUS_CNT : Nat := 0x2A00104
def f_TM_STATUS_CNT_COUNT : FRef := ⟨r_TM_STATUS_CNT, 15, 0⟩
/-- `HST_STATUS` (R484). -/
def r_HST_STATUS : Nat := 0x400000
def f_HST_STATUS_RESET_REFUSED : FRef := ⟨r_HST_STATUS, 0, 0⟩
def f_HST_STATUS_WIN_ERROR : FRef := ⟨r_HST_STATUS, 1, 1⟩
def f_HST_STATUS_QUIESCE_TMO : FRef := ⟨r_HST_STATUS, 2, 2⟩
def f_HST_STATUS_FAILOVER : FRef := ⟨r_HST_STATUS, 3, 3⟩
def f_HST_STATUS_HB_LAPSE : FRef := ⟨r_HST_STATUS, 4, 4⟩
def f_HST_STATUS_START_TMO : FRef := ⟨r_HST_STATUS, 5, 5⟩
/-- `HST_STATUS_CNT` (R484). -/
def r_HST_STATUS_CNT : Nat := 0x400004
def f_HST_STATUS_CNT_COUNT : FRef := ⟨r_HST_STATUS_CNT, 15, 0⟩
/-- `HST_ROLE` (R484). -/
def r_HST_ROLE : Nat := 0x400008
def f_HST_ROLE_VIA : FRef := ⟨r_HST_ROLE, 0, 0⟩
def f_HST_ROLE_MGR_PORT : FRef := ⟨r_HST_ROLE, 1, 1⟩
def f_HST_ROLE_PA_X8 : FRef := ⟨r_HST_ROLE, 2, 2⟩
def f_HST_ROLE_PB_X8 : FRef := ⟨r_HST_ROLE, 3, 3⟩
/-- `HST_MGR_HB` (R484). -/
def r_HST_MGR_HB : Nat := 0x40000C
def f_HST_MGR_HB_BEAT : FRef := ⟨r_HST_MGR_HB, 31, 0⟩
/-- `HST_MGR_CFG` (R484). -/
def r_HST_MGR_CFG : Nat := 0x400010
def f_HST_MGR_CFG_HB_TMO_MS : FRef := ⟨r_HST_MGR_CFG, 15, 0⟩
/-- `HST_MGR_CLAIM` (R484). -/
def r_HST_MGR_CLAIM : Nat := 0x400014
def f_HST_MGR_CLAIM_CLAIM : FRef := ⟨r_HST_MGR_CLAIM, 0, 0⟩
/-- `HST_ADM_CFG` (R484). -/
def r_HST_ADM_CFG : Nat := 0x400038
def f_HST_ADM_CFG_SQ_LOG2 : FRef := ⟨r_HST_ADM_CFG, 3, 0⟩
def f_HST_ADM_CFG_CQ_LOG2 : FRef := ⟨r_HST_ADM_CFG, 7, 4⟩
def f_HST_ADM_CFG_ENABLE : FRef := ⟨r_HST_ADM_CFG, 8, 8⟩
/-- `HST_SCHED_CFG` (R484). -/
def r_HST_SCHED_CFG : Nat := 0x400040
def f_HST_SCHED_CFG_START_TMO : FRef := ⟨r_HST_SCHED_CFG, 7, 0⟩
def f_HST_SCHED_CFG_MIN_RUN : FRef := ⟨r_HST_SCHED_CFG, 15, 8⟩
/-- `HST_PROMPT_BASE_LO` (R484). -/
def r_HST_PROMPT_BASE_LO : Nat := 0x400048
def f_HST_PROMPT_BASE_LO_BASE_LO : FRef := ⟨r_HST_PROMPT_BASE_LO, 31, 0⟩
/-- `HST_PROMPT_BASE_HI` (R484). -/
def r_HST_PROMPT_BASE_HI : Nat := 0x40004C
def f_HST_PROMPT_BASE_HI_BASE_HI : FRef := ⟨r_HST_PROMPT_BASE_HI, 15, 0⟩
/-- `HST_ADM_RCB_LO` (R484). -/
def r_HST_ADM_RCB_LO : Nat := 0x400020
def f_HST_ADM_RCB_LO_ADDR : FRef := ⟨r_HST_ADM_RCB_LO, 31, 0⟩
/-- `HST_ADM_RCB_HI` (R484). -/
def r_HST_ADM_RCB_HI : Nat := 0x400024
def f_HST_ADM_RCB_HI_ADDR : FRef := ⟨r_HST_ADM_RCB_HI, 31, 0⟩
/-- `HST_ADM_SQ_LO` (R484). -/
def r_HST_ADM_SQ_LO : Nat := 0x400028
def f_HST_ADM_SQ_LO_ADDR : FRef := ⟨r_HST_ADM_SQ_LO, 31, 0⟩
/-- `HST_ADM_SQ_HI` (R484). -/
def r_HST_ADM_SQ_HI : Nat := 0x40002C
def f_HST_ADM_SQ_HI_ADDR : FRef := ⟨r_HST_ADM_SQ_HI, 31, 0⟩
/-- `HST_ADM_CQ_LO` (R484). -/
def r_HST_ADM_CQ_LO : Nat := 0x400030
def f_HST_ADM_CQ_LO_ADDR : FRef := ⟨r_HST_ADM_CQ_LO, 31, 0⟩
/-- `HST_ADM_CQ_HI` (R484). -/
def r_HST_ADM_CQ_HI : Nat := 0x400034
def f_HST_ADM_CQ_HI_ADDR : FRef := ⟨r_HST_ADM_CQ_HI, 31, 0⟩
/-- `TWN_CFG` (R485). -/
def r_TWN_CFG (i : Nat) : Nat := 0x410000 + i * 0x80
def f_TWN_CFG_FAST (i : Nat) : FRef := ⟨r_TWN_CFG i, 0, 0⟩
def f_TWN_CFG_RADIO (i : Nat) : FRef := ⟨r_TWN_CFG i, 1, 1⟩
def f_TWN_CFG_EXISTS (i : Nat) : FRef := ⟨r_TWN_CFG i, 2, 2⟩
def f_TWN_CFG_FETCH_MAX (i : Nat) : FRef := ⟨r_TWN_CFG i, 15, 8⟩
def f_TWN_CFG_SQ_LOG2 (i : Nat) : FRef := ⟨r_TWN_CFG i, 19, 16⟩
def f_TWN_CFG_CQ_LOG2 (i : Nat) : FRef := ⟨r_TWN_CFG i, 23, 20⟩
/-- `TWN_TENANT` (R485). -/
def r_TWN_TENANT (i : Nat) : Nat := 0x410004 + i * 0x80
def f_TWN_TENANT_SLOT (i : Nat) : FRef := ⟨r_TWN_TENANT i, 7, 0⟩
def f_TWN_TENANT_TENANT (i : Nat) : FRef := ⟨r_TWN_TENANT i, 31, 16⟩
/-- `TWN_PASID` (R485). -/
def r_TWN_PASID (i : Nat) : Nat := 0x410008 + i * 0x80
def f_TWN_PASID_PASID (i : Nat) : FRef := ⟨r_TWN_PASID i, 19, 0⟩
/-- `TWN_VEC` (R485). -/
def r_TWN_VEC (i : Nat) : Nat := 0x410024 + i * 0x80
def f_TWN_VEC_BASE (i : Nat) : FRef := ⟨r_TWN_VEC i, 7, 0⟩
def f_TWN_VEC_COUNT (i : Nat) : FRef := ⟨r_TWN_VEC i, 9, 8⟩
/-- `TWN_COAL` (R485). -/
def r_TWN_COAL (i : Nat) : Nat := 0x410028 + i * 0x80
def f_TWN_COAL_COUNT (i : Nat) : FRef := ⟨r_TWN_COAL i, 7, 0⟩
def f_TWN_COAL_US (i : Nat) : FRef := ⟨r_TWN_COAL i, 17, 8⟩
/-- `TWN_CTX` (R485). -/
def r_TWN_CTX (i : Nat) : Nat := 0x41002C + i * 0x80
def f_TWN_CTX_CTX_BASE (i : Nat) : FRef := ⟨r_TWN_CTX i, 17, 0⟩
/-- `TWN_CTX_COUNT` (R485). -/
def r_TWN_CTX_COUNT (i : Nat) : Nat := 0x410030 + i * 0x80
def f_TWN_CTX_COUNT_CTX_COUNT (i : Nat) : FRef := ⟨r_TWN_CTX_COUNT i, 18, 0⟩
/-- `TWN_PARTS` (R485). -/
def r_TWN_PARTS (i : Nat) : Nat := 0x410034 + i * 0x80
def f_TWN_PARTS_PARTS (i : Nat) : FRef := ⟨r_TWN_PARTS i, 15, 0⟩
/-- `TWN_APT` (R485). -/
def r_TWN_APT (i : Nat) : Nat := 0x410040 + i * 0x80
def f_TWN_APT_LIMIT_GIB (i : Nat) : FRef := ⟨r_TWN_APT i, 7, 0⟩
/-- `TWN_CTL` (R485). -/
def r_TWN_CTL (i : Nat) : Nat := 0x410044 + i * 0x80
def f_TWN_CTL_ENABLE (i : Nat) : FRef := ⟨r_TWN_CTL i, 0, 0⟩
def f_TWN_CTL_STOP_ADMIT (i : Nat) : FRef := ⟨r_TWN_CTL i, 1, 1⟩
def f_TWN_CTL_DRAIN (i : Nat) : FRef := ⟨r_TWN_CTL i, 2, 2⟩
def f_TWN_CTL_ABORT (i : Nat) : FRef := ⟨r_TWN_CTL i, 3, 3⟩
def f_TWN_CTL_RESET (i : Nat) : FRef := ⟨r_TWN_CTL i, 4, 4⟩
def f_TWN_CTL_REMOVE (i : Nat) : FRef := ⟨r_TWN_CTL i, 5, 5⟩
/-- `TWN_STATE` (R485). -/
def r_TWN_STATE (i : Nat) : Nat := 0x410048 + i * 0x80
def f_TWN_STATE_STATE (i : Nat) : FRef := ⟨r_TWN_STATE i, 2, 0⟩
def f_TWN_STATE_FORCED (i : Nat) : FRef := ⟨r_TWN_STATE i, 3, 3⟩
def f_TWN_STATE_ERR (i : Nat) : FRef := ⟨r_TWN_STATE i, 15, 8⟩
/-- `TWN_QTMO` (R485). -/
def r_TWN_QTMO (i : Nat) : Nat := 0x41004C + i * 0x80
def f_TWN_QTMO_TMO (i : Nat) : FRef := ⟨r_TWN_QTMO i, 15, 0⟩
/-- `TWN_FETCH_CNT` (R485). -/
def r_TWN_FETCH_CNT (i : Nat) : Nat := 0x410050 + i * 0x80
def f_TWN_FETCH_CNT_COUNT (i : Nat) : FRef := ⟨r_TWN_FETCH_CNT i, 31, 0⟩
/-- `TWN_CPL_DROP` (R485). -/
def r_TWN_CPL_DROP (i : Nat) : Nat := 0x410054 + i * 0x80
def f_TWN_CPL_DROP_COUNT (i : Nat) : FRef := ⟨r_TWN_CPL_DROP i, 31, 0⟩
/-- `TWN_SKIP_CNT` (R485). -/
def r_TWN_SKIP_CNT (i : Nat) : Nat := 0x410058 + i * 0x80
def f_TWN_SKIP_CNT_COUNT (i : Nat) : FRef := ⟨r_TWN_SKIP_CNT i, 31, 0⟩
/-- `TWN_RCB_LO` (R485). -/
def r_TWN_RCB_LO (i : Nat) : Nat := 0x41000C + i * 0x80
def f_TWN_RCB_LO_ADDR (i : Nat) : FRef := ⟨r_TWN_RCB_LO i, 31, 0⟩
/-- `TWN_RCB_HI` (R485). -/
def r_TWN_RCB_HI (i : Nat) : Nat := 0x410010 + i * 0x80
def f_TWN_RCB_HI_ADDR (i : Nat) : FRef := ⟨r_TWN_RCB_HI i, 31, 0⟩
/-- `TWN_SQ_LO` (R485). -/
def r_TWN_SQ_LO (i : Nat) : Nat := 0x410014 + i * 0x80
def f_TWN_SQ_LO_ADDR (i : Nat) : FRef := ⟨r_TWN_SQ_LO i, 31, 0⟩
/-- `TWN_SQ_HI` (R485). -/
def r_TWN_SQ_HI (i : Nat) : Nat := 0x410018 + i * 0x80
def f_TWN_SQ_HI_ADDR (i : Nat) : FRef := ⟨r_TWN_SQ_HI i, 31, 0⟩
/-- `TWN_CQ_LO` (R485). -/
def r_TWN_CQ_LO (i : Nat) : Nat := 0x41001C + i * 0x80
def f_TWN_CQ_LO_ADDR (i : Nat) : FRef := ⟨r_TWN_CQ_LO i, 31, 0⟩
/-- `TWN_CQ_HI` (R485). -/
def r_TWN_CQ_HI (i : Nat) : Nat := 0x410020 + i * 0x80
def f_TWN_CQ_HI_ADDR (i : Nat) : FRef := ⟨r_TWN_CQ_HI i, 31, 0⟩
/-- `TWN_APT_BASE_LO` (R485). -/
def r_TWN_APT_BASE_LO (i : Nat) : Nat := 0x410038 + i * 0x80
def f_TWN_APT_BASE_LO_ADDR (i : Nat) : FRef := ⟨r_TWN_APT_BASE_LO i, 31, 0⟩
/-- `TWN_APT_BASE_HI` (R485). -/
def r_TWN_APT_BASE_HI (i : Nat) : Nat := 0x41003C + i * 0x80
def f_TWN_APT_BASE_HI_ADDR (i : Nat) : FRef := ⟨r_TWN_APT_BASE_HI i, 31, 0⟩
/-- `FLT_STATUS` (R514). -/
def r_FLT_STATUS : Nat := 0x200000
def f_FLT_STATUS_SEVERE : FRef := ⟨r_FLT_STATUS, 0, 0⟩
def f_FLT_STATUS_SELF : FRef := ⟨r_FLT_STATUS, 1, 1⟩
def f_FLT_STATUS_DROP : FRef := ⟨r_FLT_STATUS, 2, 2⟩
def f_FLT_STATUS_GOV_HELD : FRef := ⟨r_FLT_STATUS, 3, 3⟩
def f_FLT_STATUS_STEP_FAULT : FRef := ⟨r_FLT_STATUS, 4, 4⟩
def f_FLT_STATUS_REPLAY_TMO : FRef := ⟨r_FLT_STATUS, 5, 5⟩
def f_FLT_STATUS_ACT_NA : FRef := ⟨r_FLT_STATUS, 6, 6⟩
/-- `FLT_STATUS_CNT` (R514). -/
def r_FLT_STATUS_CNT : Nat := 0x200004
def f_FLT_STATUS_CNT_COUNT : FRef := ⟨r_FLT_STATUS_CNT, 15, 0⟩
/-- `FLT_CTL` (R515). -/
def r_FLT_CTL : Nat := 0x200008
def f_FLT_CTL_SAFELIGHT : FRef := ⟨r_FLT_CTL, 0, 0⟩
def f_FLT_CTL_TEST : FRef := ⟨r_FLT_CTL, 1, 1⟩
def f_FLT_CTL_CNT_CLEAR : FRef := ⟨r_FLT_CTL, 2, 2⟩
/-- `FLT_PHASE` (R515). -/
def r_FLT_PHASE : Nat := 0x20000C
def f_FLT_PHASE_PHASE : FRef := ⟨r_FLT_PHASE, 2, 0⟩
/-- `FLT_INJECT` (R515). -/
def r_FLT_INJECT : Nat := 0x200010
def f_FLT_INJECT_SOURCE : FRef := ⟨r_FLT_INJECT, 11, 0⟩
def f_FLT_INJECT_KIND : FRef := ⟨r_FLT_INJECT, 19, 12⟩
def f_FLT_INJECT_GO : FRef := ⟨r_FLT_INJECT, 31, 31⟩
/-- `FLT_RCMD_ARG` (R516). -/
def r_FLT_RCMD_ARG : Nat := 0x200050
def f_FLT_RCMD_ARG_ARG : FRef := ⟨r_FLT_RCMD_ARG, 31, 0⟩
/-- `FLT_RCMD` (R516). -/
def r_FLT_RCMD : Nat := 0x200054
def f_FLT_RCMD_OP : FRef := ⟨r_FLT_RCMD, 3, 0⟩
def f_FLT_RCMD_GO : FRef := ⟨r_FLT_RCMD, 15, 15⟩
def f_FLT_RCMD_RSEQ : FRef := ⟨r_FLT_RCMD, 31, 16⟩
/-- `FLT_RCMD_RES` (R516). -/
def r_FLT_RCMD_RES : Nat := 0x200058
def f_FLT_RCMD_RES_RESULT : FRef := ⟨r_FLT_RCMD_RES, 1, 0⟩
def f_FLT_RCMD_RES_BUSY : FRef := ⟨r_FLT_RCMD_RES, 2, 2⟩
def f_FLT_RCMD_RES_RSEQ : FRef := ⟨r_FLT_RCMD_RES, 31, 16⟩
/-- `FLT_REPLAY_CFG` (R516). -/
def r_FLT_REPLAY_CFG : Nat := 0x200060
def f_FLT_REPLAY_CFG_AUTO : FRef := ⟨r_FLT_REPLAY_CFG, 0, 0⟩
def f_FLT_REPLAY_CFG_MAX : FRef := ⟨r_FLT_REPLAY_CFG, 7, 4⟩
def f_FLT_REPLAY_CFG_WAIT_EXP : FRef := ⟨r_FLT_REPLAY_CFG, 31, 16⟩
/-- `FLT_PART_FAULT` (R516). -/
def r_FLT_PART_FAULT : Nat := 0x200064
def f_FLT_PART_FAULT_FAULTED : FRef := ⟨r_FLT_PART_FAULT, 15, 0⟩
def f_FLT_PART_FAULT_HELD : FRef := ⟨r_FLT_PART_FAULT, 31, 16⟩
/-- `FLT_GOV_CFG` (R516). -/
def r_FLT_GOV_CFG : Nat := 0x200068
def f_FLT_GOV_CFG_MAX : FRef := ⟨r_FLT_GOV_CFG, 7, 0⟩
def f_FLT_GOV_CFG_WINDOW_K : FRef := ⟨r_FLT_GOV_CFG, 23, 8⟩
/-- `FLT_GOV_VIEW` (R516). -/
def r_FLT_GOV_VIEW : Nat := 0x20006C
def f_FLT_GOV_VIEW_COUNT : FRef := ⟨r_FLT_GOV_VIEW, 7, 0⟩
/-- `FLT_Q_W0` (R517). -/
def r_FLT_Q_W0 : Nat := 0x200020
def f_FLT_Q_W0_WORD : FRef := ⟨r_FLT_Q_W0, 31, 0⟩
/-- `FLT_Q_W1` (R517). -/
def r_FLT_Q_W1 : Nat := 0x200024
def f_FLT_Q_W1_WORD : FRef := ⟨r_FLT_Q_W1, 31, 0⟩
/-- `FLT_Q_W2` (R517). -/
def r_FLT_Q_W2 : Nat := 0x200028
def f_FLT_Q_W2_WORD : FRef := ⟨r_FLT_Q_W2, 31, 0⟩
/-- `FLT_Q_W3` (R517). -/
def r_FLT_Q_W3 : Nat := 0x20002C
def f_FLT_Q_W3_WORD : FRef := ⟨r_FLT_Q_W3, 31, 0⟩
/-- `FLT_Q_TAG` (R517). -/
def r_FLT_Q_TAG : Nat := 0x200030
def f_FLT_Q_TAG_VALID : FRef := ⟨r_FLT_Q_TAG, 0, 0⟩
def f_FLT_Q_TAG_CORR : FRef := ⟨r_FLT_Q_TAG, 1, 1⟩
def f_FLT_Q_TAG_UNCORR : FRef := ⟨r_FLT_Q_TAG, 2, 2⟩
/-- `FLT_Q_DEPTH` (R517). -/
def r_FLT_Q_DEPTH : Nat := 0x200034
def f_FLT_Q_DEPTH_WORDS : FRef := ⟨r_FLT_Q_DEPTH, 13, 0⟩
/-- `FLT_DROP_CNT` (R517). -/
def r_FLT_DROP_CNT : Nat := 0x200038
def f_FLT_DROP_CNT_COUNT : FRef := ⟨r_FLT_DROP_CNT, 31, 0⟩
/-- `FLT_SRC_SEL` (R518). -/
def r_FLT_SRC_SEL : Nat := 0x200040
def f_FLT_SRC_SEL_SOURCE : FRef := ⟨r_FLT_SRC_SEL, 11, 0⟩
/-- `FLT_SRC_VIEW` (R518). -/
def r_FLT_SRC_VIEW : Nat := 0x200044
def f_FLT_SRC_VIEW_COUNT : FRef := ⟨r_FLT_SRC_VIEW, 7, 0⟩
def f_FLT_SRC_VIEW_N : FRef := ⟨r_FLT_SRC_VIEW, 15, 8⟩
def f_FLT_SRC_VIEW_SEVERE : FRef := ⟨r_FLT_SRC_VIEW, 16, 16⟩
def f_FLT_SRC_VIEW_SEQ : FRef := ⟨r_FLT_SRC_VIEW, 31, 20⟩
/-- `FLT_SRC_WIN` (R518). -/
def r_FLT_SRC_WIN : Nat := 0x200048
def f_FLT_SRC_WIN_W : FRef := ⟨r_FLT_SRC_WIN, 15, 0⟩
def f_FLT_SRC_WIN_RSEQ : FRef := ⟨r_FLT_SRC_WIN, 31, 16⟩
/-- `FLT_PEER_SEL` (R518). -/
def r_FLT_PEER_SEL : Nat := 0x2000A0
def f_FLT_PEER_SEL_CHIP : FRef := ⟨r_FLT_PEER_SEL, 11, 0⟩
/-- `FLT_PEER_VIEW` (R518). -/
def r_FLT_PEER_VIEW : Nat := 0x2000A4
def f_FLT_PEER_VIEW_DEAD : FRef := ⟨r_FLT_PEER_VIEW, 0, 0⟩
def f_FLT_PEER_VIEW_RSEQ : FRef := ⟨r_FLT_PEER_VIEW, 31, 16⟩
/-- `FLT_PEER_DROP` (R518). -/
def r_FLT_PEER_DROP : Nat := 0x2000A8
def f_FLT_PEER_DROP_COUNT : FRef := ⟨r_FLT_PEER_DROP, 31, 0⟩
/-- `FLT_PEER` (R518). -/
def r_FLT_PEER (i : Nat) : Nat := 0x200400 + i * 0x4
def f_FLT_PEER_DEAD (i : Nat) : FRef := ⟨r_FLT_PEER i, 31, 0⟩
/-- `FLT_KIND_POL` (R518). -/
def r_FLT_KIND_POL (i : Nat) : Nat := 0x202000 + i * 0x4
def f_FLT_KIND_POL_EVENT (i : Nat) : FRef := ⟨r_FLT_KIND_POL i, 2, 0⟩
def f_FLT_KIND_POL_SEVERE (i : Nat) : FRef := ⟨r_FLT_KIND_POL i, 5, 3⟩
def f_FLT_KIND_POL_COUNTED (i : Nat) : FRef := ⟨r_FLT_KIND_POL i, 6, 6⟩
/-- `FLT_STRIP_W0` (R519). -/
def r_FLT_STRIP_W0 (i : Nat) : Nat := 0x201000 + i * 0x20
def f_FLT_STRIP_W0_WORD (i : Nat) : FRef := ⟨r_FLT_STRIP_W0 i, 31, 0⟩
/-- `FLT_STRIP_W1` (R519). -/
def r_FLT_STRIP_W1 (i : Nat) : Nat := 0x201004 + i * 0x20
def f_FLT_STRIP_W1_WORD (i : Nat) : FRef := ⟨r_FLT_STRIP_W1 i, 31, 0⟩
/-- `FLT_STRIP_W2` (R519). -/
def r_FLT_STRIP_W2 (i : Nat) : Nat := 0x201008 + i * 0x20
def f_FLT_STRIP_W2_WORD (i : Nat) : FRef := ⟨r_FLT_STRIP_W2 i, 31, 0⟩
/-- `FLT_STRIP_W3` (R519). -/
def r_FLT_STRIP_W3 (i : Nat) : Nat := 0x20100C + i * 0x20
def f_FLT_STRIP_W3_WORD (i : Nat) : FRef := ⟨r_FLT_STRIP_W3 i, 31, 0⟩
/-- `FLT_STRIP_FLAGS` (R519). -/
def r_FLT_STRIP_FLAGS (i : Nat) : Nat := 0x201010 + i * 0x20
def f_FLT_STRIP_FLAGS_VALID (i : Nat) : FRef := ⟨r_FLT_STRIP_FLAGS i, 0, 0⟩
def f_FLT_STRIP_FLAGS_SECONDARY (i : Nat) : FRef := ⟨r_FLT_STRIP_FLAGS i, 1, 1⟩
def f_FLT_STRIP_FLAGS_MADE_SEVERE (i : Nat) : FRef := ⟨r_FLT_STRIP_FLAGS i, 2, 2⟩
def f_FLT_STRIP_FLAGS_QUEUED (i : Nat) : FRef := ⟨r_FLT_STRIP_FLAGS i, 3, 3⟩
def f_FLT_STRIP_FLAGS_ACTION (i : Nat) : FRef := ⟨r_FLT_STRIP_FLAGS i, 6, 4⟩
def f_FLT_STRIP_FLAGS_PHASE (i : Nat) : FRef := ⟨r_FLT_STRIP_FLAGS i, 10, 8⟩
/-- `FLT_STRIP_PTR` (R519). -/
def r_FLT_STRIP_PTR : Nat := 0x201800
def f_FLT_STRIP_PTR_NEXT : FRef := ⟨r_FLT_STRIP_PTR, 5, 0⟩
def f_FLT_STRIP_PTR_WRAPPED : FRef := ⟨r_FLT_STRIP_PTR, 6, 6⟩
def f_FLT_STRIP_PTR_HEAD : FRef := ⟨r_FLT_STRIP_PTR, 13, 8⟩
def f_FLT_STRIP_PTR_HEAD_VALID : FRef := ⟨r_FLT_STRIP_PTR, 14, 14⟩
def f_FLT_STRIP_PTR_FROZEN : FRef := ⟨r_FLT_STRIP_PTR, 15, 15⟩
/-- `FLT_HEAD_W0` (R519). -/
def r_FLT_HEAD_W0 : Nat := 0x200080
def f_FLT_HEAD_W0_WORD : FRef := ⟨r_FLT_HEAD_W0, 31, 0⟩
/-- `FLT_HEAD_W1` (R519). -/
def r_FLT_HEAD_W1 : Nat := 0x200084
def f_FLT_HEAD_W1_WORD : FRef := ⟨r_FLT_HEAD_W1, 31, 0⟩
/-- `FLT_HEAD_W2` (R519). -/
def r_FLT_HEAD_W2 : Nat := 0x200088
def f_FLT_HEAD_W2_WORD : FRef := ⟨r_FLT_HEAD_W2, 31, 0⟩
/-- `FLT_HEAD_W3` (R519). -/
def r_FLT_HEAD_W3 : Nat := 0x20008C
def f_FLT_HEAD_W3_WORD : FRef := ⟨r_FLT_HEAD_W3, 31, 0⟩
/-- `FLT_HEAD_FLAGS` (R519). -/
def r_FLT_HEAD_FLAGS : Nat := 0x200090
def f_FLT_HEAD_FLAGS_VALID : FRef := ⟨r_FLT_HEAD_FLAGS, 0, 0⟩
def f_FLT_HEAD_FLAGS_SECONDARY : FRef := ⟨r_FLT_HEAD_FLAGS, 1, 1⟩
def f_FLT_HEAD_FLAGS_MADE_SEVERE : FRef := ⟨r_FLT_HEAD_FLAGS, 2, 2⟩
def f_FLT_HEAD_FLAGS_QUEUED : FRef := ⟨r_FLT_HEAD_FLAGS, 3, 3⟩
def f_FLT_HEAD_FLAGS_ACTION : FRef := ⟨r_FLT_HEAD_FLAGS, 6, 4⟩
def f_FLT_HEAD_FLAGS_PHASE : FRef := ⟨r_FLT_HEAD_FLAGS, 10, 8⟩
/-- `AUD_STATUS` (R547). -/
def r_AUD_STATUS : Nat := 0x308000
def f_AUD_STATUS_LOST : FRef := ⟨r_AUD_STATUS, 0, 0⟩
def f_AUD_STATUS_FETCH_HELD : FRef := ⟨r_AUD_STATUS, 1, 1⟩
def f_AUD_STATUS_INPUT_ERR : FRef := ⟨r_AUD_STATUS, 2, 2⟩
def f_AUD_STATUS_FLASH : FRef := ⟨r_AUD_STATUS, 3, 3⟩
def f_AUD_STATUS_RING_HELD : FRef := ⟨r_AUD_STATUS, 4, 4⟩
def f_AUD_STATUS_RPL_TMO : FRef := ⟨r_AUD_STATUS, 5, 5⟩
/-- `AUD_STATUS_CNT` (R547). -/
def r_AUD_STATUS_CNT : Nat := 0x308004
def f_AUD_STATUS_CNT_COUNT : FRef := ⟨r_AUD_STATUS_CNT, 15, 0⟩
/-- `AUD_CFG` (R548). -/
def r_AUD_CFG : Nat := 0x308008
def f_AUD_CFG_CLOSE_MS : FRef := ⟨r_AUD_CFG, 13, 0⟩
/-- `AUD_QUEUE` (R548). -/
def r_AUD_QUEUE : Nat := 0x30800C
def f_AUD_QUEUE_DEPTH : FRef := ⟨r_AUD_QUEUE, 12, 0⟩
/-- `AUD_LOST_CNT` (R548). -/
def r_AUD_LOST_CNT : Nat := 0x308020
def f_AUD_LOST_CNT_COUNT : FRef := ⟨r_AUD_LOST_CNT, 31, 0⟩
/-- `AUD_FLASH` (R548). -/
def r_AUD_FLASH : Nat := 0x308024
def f_AUD_FLASH_FREE : FRef := ⟨r_AUD_FLASH, 11, 0⟩
def f_AUD_FLASH_FAIL_A : FRef := ⟨r_AUD_FLASH, 12, 12⟩
def f_AUD_FLASH_FAIL_B : FRef := ⟨r_AUD_FLASH, 13, 13⟩
/-- `AUD_MIRROR_CFG` (R548). -/
def r_AUD_MIRROR_CFG : Nat := 0x308030
def f_AUD_MIRROR_CFG_SLOTS : FRef := ⟨r_AUD_MIRROR_CFG, 15, 0⟩
/-- `AUD_MIRROR_CI` (R548). -/
def r_AUD_MIRROR_CI : Nat := 0x308034
def f_AUD_MIRROR_CI_CI : FRef := ⟨r_AUD_MIRROR_CI, 31, 0⟩
/-- `AUD_MIRROR_PI` (R548). -/
def r_AUD_MIRROR_PI : Nat := 0x308038
def f_AUD_MIRROR_PI_PI : FRef := ⟨r_AUD_MIRROR_PI, 31, 0⟩
/-- `AUD_RPL_CFG` (R548). -/
def r_AUD_RPL_CFG : Nat := 0x30803C
def f_AUD_RPL_CFG_TMO : FRef := ⟨r_AUD_RPL_CFG, 15, 0⟩
/-- `AUD_SEQ_LO` (R548). -/
def r_AUD_SEQ_LO : Nat := 0x308010
def f_AUD_SEQ_LO_LO : FRef := ⟨r_AUD_SEQ_LO, 31, 0⟩
/-- `AUD_SEQ_HI` (R548). -/
def r_AUD_SEQ_HI : Nat := 0x308014
def f_AUD_SEQ_HI_HI : FRef := ⟨r_AUD_SEQ_HI, 31, 0⟩
/-- `AUD_BLOCK_LO` (R548). -/
def r_AUD_BLOCK_LO : Nat := 0x308018
def f_AUD_BLOCK_LO_LO : FRef := ⟨r_AUD_BLOCK_LO, 31, 0⟩
/-- `AUD_BLOCK_HI` (R548). -/
def r_AUD_BLOCK_HI : Nat := 0x30801C
def f_AUD_BLOCK_HI_HI : FRef := ⟨r_AUD_BLOCK_HI, 31, 0⟩
/-- `AUD_MIRROR_BASE_LO` (R548). -/
def r_AUD_MIRROR_BASE_LO : Nat := 0x308028
def f_AUD_MIRROR_BASE_LO_LO : FRef := ⟨r_AUD_MIRROR_BASE_LO, 31, 0⟩
/-- `AUD_MIRROR_BASE_HI` (R548). -/
def r_AUD_MIRROR_BASE_HI : Nat := 0x30802C
def f_AUD_MIRROR_BASE_HI_HI : FRef := ⟨r_AUD_MIRROR_BASE_HI, 31, 0⟩
/-- `AUD_PART` (R549). -/
def r_AUD_PART : Nat := 0x308040
def f_AUD_PART_AUDITED : FRef := ⟨r_AUD_PART, 15, 0⟩
def f_AUD_PART_REPLAY : FRef := ⟨r_AUD_PART, 31, 16⟩
/-- `AUD_WIN` (R549). -/
def r_AUD_WIN (i : Nat) : Nat := 0x308050 + i * 0x4
def f_AUD_WIN_AUDITED (i : Nat) : FRef := ⟨r_AUD_WIN i, 31, 0⟩
/-- `AUD_RPL_WIN` (R549). -/
def r_AUD_RPL_WIN (i : Nat) : Nat := 0x308060 + i * 0x4
def f_AUD_RPL_WIN_REPLAY (i : Nat) : FRef := ⟨r_AUD_RPL_WIN i, 31, 0⟩
/-- `AUD_RPL_BASE_LO` (R549). -/
def r_AUD_RPL_BASE_LO (i : Nat) : Nat := 0x308100 + i * 0x10
def f_AUD_RPL_BASE_LO_BASE_LO (i : Nat) : FRef := ⟨r_AUD_RPL_BASE_LO i, 31, 0⟩
/-- `AUD_RPL_BASE_HI` (R549). -/
def r_AUD_RPL_BASE_HI (i : Nat) : Nat := 0x308104 + i * 0x10
def f_AUD_RPL_BASE_HI_BASE_HI (i : Nat) : FRef := ⟨r_AUD_RPL_BASE_HI i, 31, 0⟩
/-- `AUD_RPL_HZN_LO` (R549). -/
def r_AUD_RPL_HZN_LO (i : Nat) : Nat := 0x308108 + i * 0x10
def f_AUD_RPL_HZN_LO_HZN_LO (i : Nat) : FRef := ⟨r_AUD_RPL_HZN_LO i, 31, 0⟩
/-- `AUD_RPL_HZN_HI` (R549). -/
def r_AUD_RPL_HZN_HI (i : Nat) : Nat := 0x30810C + i * 0x10
def f_AUD_RPL_HZN_HI_HZN_HI (i : Nat) : FRef := ⟨r_AUD_RPL_HZN_HI i, 31, 0⟩
/-- `BOOT_STATUS` (R571). -/
def r_BOOT_STATUS : Nat := 0x300000
def f_BOOT_STATUS_FLASH : FRef := ⟨r_BOOT_STATUS, 0, 0⟩
def f_BOOT_STATUS_FLOOR_RAISED : FRef := ⟨r_BOOT_STATUS, 1, 1⟩
def f_BOOT_STATUS_FW_FALLBACK : FRef := ⟨r_BOOT_STATUS, 2, 2⟩
/-- `BOOT_STAGE` (R571). -/
def r_BOOT_STAGE : Nat := 0x300008
def f_BOOT_STAGE_STAGE : FRef := ⟨r_BOOT_STAGE, 3, 0⟩
def f_BOOT_STAGE_RESET_KIND : FRef := ⟨r_BOOT_STAGE, 6, 4⟩
def f_BOOT_STAGE_FW_FLASH : FRef := ⟨r_BOOT_STAGE, 7, 7⟩
def f_BOOT_STAGE_IMG_SLOT : FRef := ⟨r_BOOT_STAGE, 9, 8⟩
def f_BOOT_STAGE_ERR : FRef := ⟨r_BOOT_STAGE, 23, 16⟩
/-- `BOOT_RESET` (R571). -/
def r_BOOT_RESET : Nat := 0x30000C
def f_BOOT_RESET_GO : FRef := ⟨r_BOOT_RESET, 0, 0⟩
def f_BOOT_RESET_KEY : FRef := ⟨r_BOOT_RESET, 31, 16⟩
/-- `BOOT_FLOOR` (R571). -/
def r_BOOT_FLOOR : Nat := 0x300010
def f_BOOT_FLOOR_FLOOR : FRef := ⟨r_BOOT_FLOOR, 31, 0⟩
/-- `BOOT_FLOOR_SET` (R571). -/
def r_BOOT_FLOOR_SET : Nat := 0x300014
def f_BOOT_FLOOR_SET_VALUE : FRef := ⟨r_BOOT_FLOOR_SET, 31, 0⟩
/-- `BOOT_FLOOR_GO` (R571). -/
def r_BOOT_FLOOR_GO : Nat := 0x300018
def f_BOOT_FLOOR_GO_RESULT : FRef := ⟨r_BOOT_FLOOR_GO, 1, 0⟩
def f_BOOT_FLOOR_GO_GO : FRef := ⟨r_BOOT_FLOOR_GO, 31, 31⟩
/-- `BOOT_FW_SEC` (R571). -/
def r_BOOT_FW_SEC : Nat := 0x30001C
def f_BOOT_FW_SEC_SEC_VERSION : FRef := ⟨r_BOOT_FW_SEC, 31, 0⟩
/-- `BOOT_TIME_MS` (R571). -/
def r_BOOT_TIME_MS : Nat := 0x300020
def f_BOOT_TIME_MS_MS : FRef := ⟨r_BOOT_TIME_MS, 15, 0⟩
/-- `BOOT_RECOVER` (R571). -/
def r_BOOT_RECOVER : Nat := 0x300024
def f_BOOT_RECOVER_LEN : FRef := ⟨r_BOOT_RECOVER, 27, 0⟩
def f_BOOT_RECOVER_GO : FRef := ⟨r_BOOT_RECOVER, 31, 31⟩
/-- `BOOT_STATUS_CNT` (R571). -/
def r_BOOT_STATUS_CNT : Nat := 0x300004
def f_BOOT_STATUS_CNT_COUNT : FRef := ⟨r_BOOT_STATUS_CNT, 15, 0⟩
/-- `IMG_STATUS` (R572). -/
def r_IMG_STATUS : Nat := 0x301000
def f_IMG_STATUS_APPLIED : FRef := ⟨r_IMG_STATUS, 0, 0⟩
def f_IMG_STATUS_DELTA_APPLIED : FRef := ⟨r_IMG_STATUS, 1, 1⟩
def f_IMG_STATUS_REFUSED : FRef := ⟨r_IMG_STATUS, 2, 2⟩
def f_IMG_STATUS_WRITTEN : FRef := ⟨r_IMG_STATUS, 3, 3⟩
def f_IMG_STATUS_WRITE_FAIL : FRef := ⟨r_IMG_STATUS, 4, 4⟩
/-- `IMG_INFO` (R572). -/
def r_IMG_INFO : Nat := 0x301008
def f_IMG_INFO_STRUCT_EPOCH : FRef := ⟨r_IMG_INFO, 31, 0⟩
/-- `IMG_SEC` (R572). -/
def r_IMG_SEC : Nat := 0x30100C
def f_IMG_SEC_SEC_VERSION : FRef := ⟨r_IMG_SEC, 31, 0⟩
/-- `IMG_REFUSE` (R572). -/
def r_IMG_REFUSE : Nat := 0x301010
def f_IMG_REFUSE_REASON : FRef := ⟨r_IMG_REFUSE, 7, 0⟩
def f_IMG_REFUSE_SECTION : FRef := ⟨r_IMG_REFUSE, 15, 8⟩
def f_IMG_REFUSE_OP : FRef := ⟨r_IMG_REFUSE, 17, 16⟩
/-- `IMG_LEN` (R572). -/
def r_IMG_LEN : Nat := 0x30101C
def f_IMG_LEN_LEN : FRef := ⟨r_IMG_LEN, 26, 0⟩
/-- `IMG_CMD` (R572). -/
def r_IMG_CMD : Nat := 0x301028
def f_IMG_CMD_OP : FRef := ⟨r_IMG_CMD, 1, 0⟩
def f_IMG_CMD_BUSY : FRef := ⟨r_IMG_CMD, 30, 30⟩
def f_IMG_CMD_GO : FRef := ⟨r_IMG_CMD, 31, 31⟩
/-- `IMG_STATUS_CNT` (R572). -/
def r_IMG_STATUS_CNT : Nat := 0x301004
def f_IMG_STATUS_CNT_COUNT : FRef := ⟨r_IMG_STATUS_CNT, 15, 0⟩
/-- `IMG_SRC_LO` (R572). -/
def r_IMG_SRC_LO : Nat := 0x301014
def f_IMG_SRC_LO_LO : FRef := ⟨r_IMG_SRC_LO, 31, 0⟩
/-- `IMG_SRC_HI` (R572). -/
def r_IMG_SRC_HI : Nat := 0x301018
def f_IMG_SRC_HI_HI : FRef := ⟨r_IMG_SRC_HI, 31, 0⟩
/-- `IMG_APPLY_LO` (R572). -/
def r_IMG_APPLY_LO : Nat := 0x301020
def f_IMG_APPLY_LO_LO : FRef := ⟨r_IMG_APPLY_LO, 31, 0⟩
/-- `IMG_APPLY_HI` (R572). -/
def r_IMG_APPLY_HI : Nat := 0x301024
def f_IMG_APPLY_HI_HI : FRef := ⟨r_IMG_APPLY_HI, 31, 0⟩
/-- `IMG_DIGEST` (R572). -/
def r_IMG_DIGEST (i : Nat) : Nat := 0x301040 + i * 0x4
def f_IMG_DIGEST_DIGEST (i : Nat) : FRef := ⟨r_IMG_DIGEST i, 31, 0⟩
/-- `CLK_STATUS` (R591). -/
def r_CLK_STATUS : Nat := 0x100000
def f_CLK_STATUS_XTAL_QUAL : FRef := ⟨r_CLK_STATUS, 0, 0⟩
def f_CLK_STATUS_XTAL_LOST : FRef := ⟨r_CLK_STATUS, 1, 1⟩
def f_CLK_STATUS_TREF_LOST : FRef := ⟨r_CLK_STATUS, 2, 2⟩
def f_CLK_STATUS_REF_SWITCH : FRef := ⟨r_CLK_STATUS, 3, 3⟩
/-- `CLK_STATUS_CNT` (R591). -/
def r_CLK_STATUS_CNT : Nat := 0x100004
def f_CLK_STATUS_CNT_COUNT : FRef := ⟨r_CLK_STATUS_CNT, 15, 0⟩
/-- `CLK_SRC` (R592). -/
def r_CLK_SRC : Nat := 0x100008
def f_CLK_SRC_AON_XTAL : FRef := ⟨r_CLK_SRC, 0, 0⟩
def f_CLK_SRC_REF_TREF : FRef := ⟨r_CLK_SRC, 1, 1⟩
def f_CLK_SRC_XTAL_STATE : FRef := ⟨r_CLK_SRC, 3, 2⟩
def f_CLK_SRC_TREF_VALID : FRef := ⟨r_CLK_SRC, 4, 4⟩
def f_CLK_SRC_RUN : FRef := ⟨r_CLK_SRC, 9, 5⟩
/-- `CLK_XTAL_CNT` (R592). -/
def r_CLK_XTAL_CNT : Nat := 0x10000C
def f_CLK_XTAL_CNT_LAST : FRef := ⟨r_CLK_XTAL_CNT, 15, 0⟩
def f_CLK_XTAL_CNT_RANGE : FRef := ⟨r_CLK_XTAL_CNT, 31, 16⟩
/-- `CLK_TREF_PPM` (R592). -/
def r_CLK_TREF_PPM : Nat := 0x100010
def f_CLK_TREF_PPM_PPM : FRef := ⟨r_CLK_TREF_PPM, 15, 0⟩
/-- `PWR_STATUS` (R593). -/
def r_PWR_STATUS : Nat := 0x108000
def f_PWR_STATUS_AON_SWITCH : FRef := ⟨r_PWR_STATUS, 0, 0⟩
def f_PWR_STATUS_THROTTLE : FRef := ⟨r_PWR_STATUS, 1, 1⟩
def f_PWR_STATUS_PWR_CAP : FRef := ⟨r_PWR_STATUS, 2, 2⟩
def f_PWR_STATUS_AT_FLOOR : FRef := ⟨r_PWR_STATUS, 3, 3⟩
def f_PWR_STATUS_SEQ_FAIL : FRef := ⟨r_PWR_STATUS, 4, 4⟩
def f_PWR_STATUS_AVS_ERR : FRef := ⟨r_PWR_STATUS, 5, 5⟩
/-- `PWR_STATUS_CNT` (R593). -/
def r_PWR_STATUS_CNT : Nat := 0x108004
def f_PWR_STATUS_CNT_COUNT : FRef := ⟨r_PWR_STATUS_CNT, 15, 0⟩
/-- `PWR_OP` (R594). -/
def r_PWR_OP : Nat := 0x108008
def f_PWR_OP_REQ : FRef := ⟨r_PWR_OP, 2, 0⟩
def f_PWR_OP_CUR : FRef := ⟨r_PWR_OP, 6, 4⟩
def f_PWR_OP_CAP_THERM : FRef := ⟨r_PWR_OP, 10, 8⟩
def f_PWR_OP_CAP_PWR : FRef := ⟨r_PWR_OP, 14, 12⟩
def f_PWR_OP_BUSY : FRef := ⟨r_PWR_OP, 15, 15⟩
/-- `PWR_SEQ_CFG` (R594). -/
def r_PWR_SEQ_CFG : Nat := 0x10800C
def f_PWR_SEQ_CFG_SETTLE_US : FRef := ⟨r_PWR_SEQ_CFG, 9, 0⟩
/-- `PWR_THERM_CFG` (R594). -/
def r_PWR_THERM_CFG : Nat := 0x108010
def f_PWR_THERM_CFG_THROTTLE_C : FRef := ⟨r_PWR_THERM_CFG, 7, 0⟩
def f_PWR_THERM_CFG_HYST_C : FRef := ⟨r_PWR_THERM_CFG, 11, 8⟩
def f_PWR_THERM_CFG_RAISE_EXP : FRef := ⟨r_PWR_THERM_CFG, 31, 16⟩
/-- `PWR_LIMIT` (R594). -/
def r_PWR_LIMIT : Nat := 0x108014
def f_PWR_LIMIT_VCORE_W : FRef := ⟨r_PWR_LIMIT, 10, 0⟩
/-- `PWR_AON` (R594). -/
def r_PWR_AON : Nat := 0x108018
def f_PWR_AON_ACTIVE : FRef := ⟨r_PWR_AON, 0, 0⟩
def f_PWR_AON_A_OK : FRef := ⟨r_PWR_AON, 1, 1⟩
def f_PWR_AON_B_OK : FRef := ⟨r_PWR_AON, 2, 2⟩
/-- `PWR_VCORE` (R594). -/
def r_PWR_VCORE : Nat := 0x10801C
def f_PWR_VCORE_MV : FRef := ⟨r_PWR_VCORE, 9, 0⟩
def f_PWR_VCORE_AMPS : FRef := ⟨r_PWR_VCORE, 26, 16⟩
/-- `PWR_VCORE_W` (R594). -/
def r_PWR_VCORE_W : Nat := 0x108020
def f_PWR_VCORE_W_W : FRef := ⟨r_PWR_VCORE_W, 10, 0⟩
/-- `PWR_TEMP` (R594). -/
def r_PWR_TEMP : Nat := 0x108024
def f_PWR_TEMP_MAX_C : FRef := ⟨r_PWR_TEMP, 7, 0⟩
def f_PWR_TEMP_SENSOR : FRef := ⟨r_PWR_TEMP, 13, 8⟩
/-- `PWR_TEMP_SEL` (R594). -/
def r_PWR_TEMP_SEL : Nat := 0x108028
def f_PWR_TEMP_SEL_SENSOR : FRef := ⟨r_PWR_TEMP_SEL, 5, 0⟩
/-- `PWR_TEMP_VIEW` (R594). -/
def r_PWR_TEMP_VIEW : Nat := 0x10802C
def f_PWR_TEMP_VIEW_C : FRef := ⟨r_PWR_TEMP_VIEW, 7, 0⟩
/-- `PWR_THROTTLE_CNT` (R594). -/
def r_PWR_THROTTLE_CNT : Nat := 0x108030
def f_PWR_THROTTLE_CNT_COUNT : FRef := ⟨r_PWR_THROTTLE_CNT, 31, 0⟩
/-- `PWR_PIN_SEL` (R610). -/
def r_PWR_PIN_SEL : Nat := 0x108100
def f_PWR_PIN_SEL_PIN : FRef := ⟨r_PWR_PIN_SEL, 3, 0⟩
/-- `PWR_PIN_FILT` (R610). -/
def r_PWR_PIN_FILT : Nat := 0x108104
def f_PWR_PIN_FILT_UNITS : FRef := ⟨r_PWR_PIN_FILT, 5, 0⟩
def f_PWR_PIN_FILT_FIXED : FRef := ⟨r_PWR_PIN_FILT, 6, 6⟩
def f_PWR_PIN_FILT_LEVEL : FRef := ⟨r_PWR_PIN_FILT, 7, 7⟩

/-- Rows of the Id block. -/
def rowsId : List RegRow := [
  ⟨0x0, 0x0, 1, .none, true, [⟨31, 24, .ro, 0x54, none⟩, ⟨23, 16, .ro, 0x9, none⟩, ⟨15, 8, .ro, 0x40, none⟩, ⟨7, 4, .ro, 0x0, none⟩, ⟨3, 0, .ro, 0x0, none⟩]⟩,
  ⟨0x4, 0x0, 1, .none, true, [⟨7, 0, .ro, 0x40, none⟩, ⟨15, 8, .ro, 0x60, none⟩, ⟨19, 16, .ro, 0x8, none⟩, ⟨23, 20, .ro, 0xF, none⟩]⟩,
  ⟨0x8, 0x0, 1, .none, false, [⟨15, 0, .ro, 0x0, none⟩, ⟨22, 16, .ro, 0x0, none⟩, ⟨24, 23, .ro, 0x0, none⟩, ⟨31, 31, .ro, 0x0, none⟩]⟩,
  ⟨0xC, 0x0, 1, .none, false, [⟨11, 0, .ro, 0x0, none⟩, ⟨15, 12, .ro, 0x0, none⟩, ⟨31, 31, .ro, 0x0, none⟩]⟩]

/-- Rows of the Clk block. -/
def rowsClk : List RegRow := [
  ⟨0x100400, 0x0, 1, .none, false, [⟨2, 0, .ro, 0x1, none⟩, ⟨3, 3, .ro, 0x0, none⟩, ⟨10, 4, .ro, 0x3C, none⟩, ⟨23, 12, .ro, 0x400, none⟩, ⟨26, 24, .ro, 0x0, none⟩, ⟨27, 27, .ro, 0x0, none⟩]⟩,
  ⟨0x100404, 0x0, 1, .none, false, [⟨20, 0, .ro, 0x0, none⟩, ⟨23, 21, .ro, 0x0, none⟩]⟩,
  ⟨0x100408, 0x0, 1, .low, true, [⟨31, 0, .ro, 0x0, none⟩]⟩,
  ⟨0x10040C, 0x0, 1, .high, true, [⟨31, 0, .ro, 0x0, none⟩]⟩,
  ⟨0x100410, 0x0, 1, .none, false, [⟨1, 0, .ro, 0x0, none⟩, ⟨3, 2, .ro, 0x0, none⟩, ⟨31, 16, .ro, 0x0, none⟩]⟩,
  ⟨0x100414, 0x0, 1, .none, false, [⟨15, 0, .rw, 0x3E8, some (10, 60000)⟩]⟩,
  ⟨0x100418, 0x0, 1, .none, false, [⟨0, 0, .w1c, 0x0, none⟩, ⟨1, 1, .w1c, 0x0, none⟩, ⟨2, 2, .w1c, 0x0, none⟩, ⟨3, 3, .w1c, 0x0, none⟩, ⟨4, 4, .w1c, 0x0, none⟩, ⟨5, 5, .w1c, 0x0, none⟩, ⟨6, 6, .w1c, 0x0, none⟩, ⟨7, 7, .w1c, 0x0, none⟩]⟩,
  ⟨0x10041C, 0x0, 1, .none, false, [⟨15, 0, .ro, 0x0, none⟩]⟩,
  ⟨0x100420, 0x0, 1, .none, false, [⟨20, 0, .ro, 0x0, none⟩, ⟨31, 31, .wo, 0x0, none⟩]⟩,
  ⟨0x100424, 0x0, 1, .none, false, [⟨31, 0, .ro, 0x0, none⟩]⟩,
  ⟨0x100428, 0x0, 1, .none, false, [⟨31, 0, .ro, 0x0, none⟩]⟩,
  ⟨0x100000, 0x0, 1, .none, false, [⟨0, 0, .w1c, 0x0, none⟩, ⟨1, 1, .w1c, 0x0, none⟩, ⟨2, 2, .w1c, 0x0, none⟩, ⟨3, 3, .w1c, 0x0, none⟩]⟩,
  ⟨0x100004, 0x0, 1, .none, false, [⟨15, 0, .ro, 0x0, none⟩]⟩,
  ⟨0x100008, 0x0, 1, .none, false, [⟨0, 0, .ro, 0x0, none⟩, ⟨1, 1, .ro, 0x0, none⟩, ⟨3, 2, .ro, 0x0, none⟩, ⟨4, 4, .ro, 0x0, none⟩, ⟨9, 5, .ro, 0x0, none⟩]⟩,
  ⟨0x10000C, 0x0, 1, .none, false, [⟨15, 0, .ro, 0x0, none⟩, ⟨31, 16, .ro, 0xFFFF, none⟩]⟩,
  ⟨0x100010, 0x0, 1, .none, false, [⟨15, 0, .ro, 0x0, none⟩]⟩,
  ⟨0x108000, 0x0, 1, .none, false, [⟨0, 0, .w1c, 0x0, none⟩, ⟨1, 1, .w1c, 0x0, none⟩, ⟨2, 2, .w1c, 0x0, none⟩, ⟨3, 3, .w1c, 0x0, none⟩, ⟨4, 4, .w1c, 0x0, none⟩, ⟨5, 5, .w1c, 0x0, none⟩]⟩,
  ⟨0x108004, 0x0, 1, .none, false, [⟨15, 0, .ro, 0x0, none⟩]⟩,
  ⟨0x108008, 0x0, 1, .none, false, [⟨2, 0, .rw, 0x7, none⟩, ⟨6, 4, .ro, 0x0, none⟩, ⟨10, 8, .ro, 0x7, none⟩, ⟨14, 12, .ro, 0x7, none⟩, ⟨15, 15, .ro, 0x0, none⟩]⟩,
  ⟨0x10800C, 0x0, 1, .none, false, [⟨9, 0, .rw, 0x32, some (5, 1000)⟩]⟩,
  ⟨0x108010, 0x0, 1, .none, false, [⟨7, 0, .rw, 0x64, some (70, 105)⟩, ⟨11, 8, .rw, 0x5, some (1, 15)⟩, ⟨31, 16, .rw, 0x400, some (1, 65535)⟩]⟩,
  ⟨0x108014, 0x0, 1, .none, false, [⟨10, 0, .rw, 0x460, some (100, 1120)⟩]⟩,
  ⟨0x108018, 0x0, 1, .none, false, [⟨0, 0, .ro, 0x0, none⟩, ⟨1, 1, .ro, 0x0, none⟩, ⟨2, 2, .ro, 0x0, none⟩]⟩,
  ⟨0x10801C, 0x0, 1, .none, false, [⟨9, 0, .ro, 0x0, none⟩, ⟨26, 16, .ro, 0x0, none⟩]⟩,
  ⟨0x108020, 0x0, 1, .none, false, [⟨10, 0, .ro, 0x0, none⟩]⟩,
  ⟨0x108024, 0x0, 1, .none, false, [⟨7, 0, .ro, 0x0, none⟩, ⟨13, 8, .ro, 0x0, none⟩]⟩,
  ⟨0x108028, 0x0, 1, .none, false, [⟨5, 0, .rw, 0x0, some (0, 47)⟩]⟩,
  ⟨0x10802C, 0x0, 1, .none, true, [⟨7, 0, .ro, 0x0, none⟩]⟩,
  ⟨0x108030, 0x0, 1, .none, false, [⟨31, 0, .ro, 0x0, none⟩]⟩,
  ⟨0x108100, 0x0, 1, .none, false, [⟨3, 0, .rw, 0x0, some (0, 13)⟩]⟩,
  ⟨0x108104, 0x0, 1, .none, true, [⟨5, 0, .rw, 0x0, none⟩, ⟨6, 6, .ro, 0x0, none⟩, ⟨7, 7, .ro, 0x0, none⟩]⟩]

/-- Rows of the Srv block. -/
def rowsSrv0 : List RegRow := [
  ⟨0x80F000, 0x10, 16, .none, false, [⟨7, 0, .rw, 0x0, none⟩, ⟨15, 8, .rw, 0x20, some (1, 255)⟩, ⟨31, 31, .wo, 0x0, none⟩]⟩,
  ⟨0x80F004, 0x10, 16, .none, false, [⟨15, 0, .ro, 0x0, none⟩, ⟨31, 16, .ro, 0x0, none⟩]⟩,
  ⟨0x80F008, 0x10, 16, .none, false, [⟨0, 0, .w1c, 0x0, none⟩, ⟨1, 1, .w1c, 0x0, none⟩]⟩,
  ⟨0x80F00C, 0x10, 16, .none, false, [⟨15, 0, .ro, 0x0, none⟩]⟩,
  ⟨0x800000, 0x0, 1, .none, false, [⟨0, 0, .w1c, 0x0, none⟩, ⟨1, 1, .w1c, 0x0, none⟩, ⟨2, 2, .w1c, 0x0, none⟩, ⟨3, 3, .w1c, 0x0, none⟩, ⟨4, 4, .w1c, 0x0, none⟩, ⟨5, 5, .w1c, 0x0, none⟩, ⟨6, 6, .w1c, 0x0, none⟩]⟩,
  ⟨0x800004, 0x0, 1, .none, false, [⟨15, 0, .ro, 0x0, none⟩]⟩,
  ⟨0x800008, 0x0, 1, .low, false, [⟨31, 0, .ro, 0x0, none⟩]⟩,
  ⟨0x80000C, 0x0, 1, .high, false, [⟨15, 0, .ro, 0x0, none⟩]⟩,
  ⟨0x800010, 0x0, 1, .low, false, [⟨31, 0, .ro, 0x0, none⟩]⟩,
  ⟨0x800014, 0x0, 1, .high, false, [⟨15, 0, .ro, 0x0, none⟩]⟩,
  ⟨0x800018, 0x0, 1, .none, false, [⟨7, 0, .rw, 0x10, some (1, 255)⟩, ⟨15, 8, .rw, 0x40, some (1, 255)⟩]⟩,
  ⟨0x80001C, 0x0, 1, .none, false, [⟨31, 0, .rw, 0x75300, some (1, 4294967294)⟩]⟩,
  ⟨0x800020, 0x0, 1, .none, false, [⟨31, 0, .ro, 0x0, none⟩]⟩,
  ⟨0x800024, 0x0, 1, .none, false, [⟨31, 0, .ro, 0x0, none⟩]⟩,
  ⟨0x800028, 0x0, 1, .none, false, [⟨17, 0, .rw, 0x0, none⟩]⟩,
  ⟨0x80002C, 0x0, 1, .none, true, [⟨3, 0, .ro, 0x0, none⟩, ⟨7, 4, .ro, 0x0, none⟩, ⟨15, 8, .ro, 0x0, none⟩, ⟨23, 16, .ro, 0x0, none⟩]⟩,
  ⟨0x800030, 0x0, 1, .none, true, [⟨31, 0, .ro, 0x0, none⟩]⟩,
  ⟨0x800100, 0x10, 2, .low, false, [⟨31, 0, .ro, 0x0, none⟩]⟩,
  ⟨0x800104, 0x10, 2, .high, false, [⟨31, 0, .ro, 0x0, none⟩]⟩,
  ⟨0x800108, 0x10, 2, .none, false, [⟨31, 0, .ro, 0x0, none⟩]⟩,
  ⟨0x80010C, 0x10, 2, .none, false, [⟨31, 0, .ro, 0x0, none⟩]⟩,
  ⟨0x80E000, 0x40, 16, .none, false, [⟨5, 0, .ro, 0x0, none⟩]⟩,
  ⟨0x80E004, 0x40, 16, .none, false, [⟨27, 0, .ro, 0x0, none⟩]⟩,
  ⟨0x80E008, 0x40, 16, .none, false, [⟨27, 0, .ro, 0x0, none⟩]⟩,
  ⟨0x80E00C, 0x40, 16, .none, true, [⟨27, 0, .ro, 0x0, none⟩]⟩,
  ⟨0x80E010, 0x40, 16, .none, true, [⟨9, 0, .ro, 0x0, none⟩]⟩,
  ⟨0x80E014, 0x40, 16, .none, true, [⟨17, 0, .ro, 0x0, none⟩]⟩,
  ⟨0x80E018, 0x40, 16, .none, false, [⟨1, 0, .ro, 0x0, none⟩]⟩,
  ⟨0x80E01C, 0x40, 16, .none, false, [⟨31, 0, .ro, 0x0, none⟩]⟩,
  ⟨0x80E020, 0x40, 16, .none, false, [⟨31, 0, .ro, 0x0, none⟩]⟩,
  ⟨0x80E024, 0x40, 16, .none, false, [⟨31, 0, .ro, 0x0, none⟩]⟩,
  ⟨0x80E028, 0x40, 16, .low, true, [⟨31, 0, .ro, 0x0, none⟩]⟩,
  ⟨0x80E02C, 0x40, 16, .high, true, [⟨31, 0, .ro, 0x0, none⟩]⟩,
  ⟨0x80E030, 0x40, 16, .none, false, [⟨0, 0, .rw, 0x0, none⟩, ⟨1, 1, .ro, 0x0, none⟩, ⟨2, 2, .wo, 0x0, none⟩]⟩,
  ⟨0x80E034, 0x40, 16, .none, true, [⟨13, 0, .ro, 0x0, none⟩]⟩,
  ⟨0x802000, 0x0, 1, .none, false, [⟨7, 0, .rw, 0x8, some (1, 255)⟩, ⟨15, 8, .rw, 0x20, some (1, 255)⟩, ⟨16, 16, .rw, 0x1, none⟩]⟩,
  ⟨0x802004, 0x0, 1, .none, false, [⟨0, 0, .w1c, 0x0, none⟩, ⟨1, 1, .w1c, 0x0, none⟩, ⟨2, 2, .w1c, 0x0, none⟩, ⟨3, 3, .w1c, 0x0, some (1, 255)⟩]⟩,
  ⟨0x802008, 0x0, 1, .none, false, [⟨15, 0, .ro, 0x0, none⟩]⟩,
  ⟨0x802100, 0x20, 16, .low, false, [⟨31, 0, .ro, 0x0, none⟩]⟩,
  ⟨0x802104, 0x20, 16, .high, false, [⟨15, 0, .ro, 0x0, none⟩]⟩]

/-- Rows of the Srv block. -/
def rowsSrv1 : List RegRow := [
  ⟨0x802108, 0x20, 16, .none, false, [⟨31, 0, .ro, 0x0, none⟩]⟩,
  ⟨0x80210C, 0x20, 16, .none, false, [⟨31, 0, .ro, 0x0, none⟩]⟩,
  ⟨0x802110, 0x20, 16, .none, false, [⟨31, 0, .ro, 0x0, none⟩]⟩,
  ⟨0x802114, 0x20, 16, .none, false, [⟨31, 0, .ro, 0x0, none⟩]⟩,
  ⟨0x802118, 0x20, 16, .none, false, [⟨31, 0, .ro, 0x0, none⟩]⟩,
  ⟨0x80211C, 0x20, 16, .none, false, [⟨31, 0, .ro, 0x0, none⟩]⟩]

/-- Rows of the Arr block. -/
def rowsArr0 : List RegRow := [
  ⟨0x1000000, 0x40000, 64, .none, false, [⟨0, 0, .rw, 0x0, none⟩, ⟨1, 1, .ro, 0x0, none⟩, ⟨15, 8, .rw, 0x4, some (1, 255)⟩]⟩,
  ⟨0x1000004, 0x40000, 64, .none, false, [⟨0, 0, .w1c, 0x0, none⟩, ⟨1, 1, .w1c, 0x0, none⟩, ⟨2, 2, .w1c, 0x0, none⟩, ⟨3, 3, .w1c, 0x0, none⟩, ⟨4, 4, .w1c, 0x0, none⟩]⟩,
  ⟨0x1000008, 0x40000, 64, .none, false, [⟨15, 0, .ro, 0x0, none⟩]⟩,
  ⟨0x100000C, 0x40000, 64, .none, false, [⟨9, 0, .ro, 0x0, none⟩, ⟨21, 16, .ro, 0x0, none⟩]⟩,
  ⟨0x1000010, 0x40000, 64, .none, true, [⟨8, 0, .ro, 0x0, none⟩, ⟨22, 16, .ro, 0x0, none⟩, ⟨26, 24, .ro, 0x0, none⟩, ⟨27, 27, .ro, 0x0, none⟩, ⟨28, 28, .ro, 0x0, none⟩]⟩,
  ⟨0x1000018, 0x40000, 64, .low, false, [⟨31, 0, .ro, 0x0, none⟩]⟩,
  ⟨0x100001C, 0x40000, 64, .high, false, [⟨31, 0, .ro, 0x0, none⟩]⟩,
  ⟨0x1000020, 0x40000, 64, .none, false, [⟨31, 0, .ro, 0x0, none⟩]⟩,
  ⟨0x1000024, 0x40000, 64, .none, false, [⟨3, 0, .ro, 0x0, none⟩, ⟨31, 16, .ro, 0x0, none⟩]⟩,
  ⟨0x1000028, 0x40000, 64, .none, true, [⟨6, 0, .ro, 0x0, none⟩, ⟨7, 7, .ro, 0x0, none⟩, ⟨10, 8, .ro, 0x0, none⟩]⟩,
  ⟨0x100002C, 0x40000, 64, .none, false, [⟨31, 0, .ro, 0x0, none⟩]⟩,
  ⟨0x1000030, 0x40000, 64, .none, false, [⟨31, 0, .ro, 0x0, none⟩]⟩,
  ⟨0x103F000, 0x4, 8, .none, true, [⟨3, 0, .ro, 0x8, none⟩, ⟨7, 4, .ro, 0xF, none⟩, ⟨8, 8, .ro, 0x0, none⟩, ⟨15, 9, .ro, 0x7F, none⟩, ⟨16, 16, .ro, 0x0, none⟩]⟩,
  ⟨0x103F020, 0x0, 1, .none, false, [⟨5, 0, .rw, 0x0, none⟩, ⟨7, 7, .wo, 0x0, none⟩, ⟨14, 8, .rw, 0x8, some (1, 64)⟩, ⟨16, 16, .ro, 0x0, none⟩]⟩,
  ⟨0x103F024, 0x0, 1, .none, false, [⟨0, 0, .w1c, 0x0, none⟩, ⟨1, 1, .w1c, 0x0, none⟩, ⟨2, 2, .w1c, 0x0, none⟩]⟩,
  ⟨0x103F028, 0x0, 1, .none, false, [⟨15, 0, .ro, 0x0, none⟩]⟩,
  ⟨0x103F02C, 0x0, 1, .none, false, [⟨6, 0, .rw, 0x0, some (0, 71)⟩]⟩,
  ⟨0x103F030, 0x0, 1, .none, true, [⟨1, 0, .ro, 0x0, none⟩, ⟨8, 2, .ro, 0x0, none⟩, ⟨31, 16, .ro, 0x0, none⟩]⟩,
  ⟨0x1000040, 0x40000, 64, .none, false, [⟨0, 0, .w1c, 0x0, none⟩, ⟨1, 1, .w1c, 0x0, none⟩, ⟨2, 2, .w1c, 0x0, none⟩]⟩,
  ⟨0x1000044, 0x40000, 64, .none, false, [⟨15, 0, .ro, 0x0, none⟩]⟩,
  ⟨0x1000048, 0x40000, 64, .none, false, [⟨8, 0, .ro, 0x0, none⟩, ⟨9, 9, .ro, 0x0, none⟩, ⟨31, 16, .ro, 0x0, none⟩]⟩,
  ⟨0x100004C, 0x40000, 64, .none, false, [⟨31, 0, .ro, 0x0, none⟩]⟩,
  ⟨0x1000080, 0x40000, 64, .none, false, [⟨31, 0, .ro, 0x0, none⟩]⟩,
  ⟨0x1000084, 0x40000, 64, .none, false, [⟨31, 0, .ro, 0x0, none⟩]⟩,
  ⟨0x1000088, 0x40000, 64, .none, false, [⟨31, 0, .ro, 0x0, none⟩]⟩,
  ⟨0x100008C, 0x40000, 64, .none, false, [⟨31, 0, .ro, 0x0, none⟩]⟩,
  ⟨0x1000090, 0x40000, 64, .none, false, [⟨31, 0, .ro, 0x0, none⟩]⟩,
  ⟨0x1000094, 0x40000, 64, .none, false, [⟨31, 0, .ro, 0x0, none⟩]⟩,
  ⟨0x1000098, 0x40000, 64, .none, false, [⟨31, 0, .ro, 0x0, none⟩]⟩,
  ⟨0x100009C, 0x40000, 64, .none, false, [⟨31, 0, .ro, 0x0, none⟩]⟩,
  ⟨0x10000A0, 0x40000, 64, .none, false, [⟨31, 0, .ro, 0x0, none⟩]⟩,
  ⟨0x10000A4, 0x40000, 64, .none, false, [⟨31, 0, .ro, 0x0, none⟩]⟩,
  ⟨0x10000A8, 0x40000, 64, .none, false, [⟨31, 0, .ro, 0x0, none⟩]⟩,
  ⟨0x10000AC, 0x40000, 64, .none, false, [⟨31, 0, .ro, 0x0, none⟩]⟩,
  ⟨0x10000B0, 0x40000, 64, .none, false, [⟨31, 0, .ro, 0x0, none⟩]⟩,
  ⟨0x10000B4, 0x40000, 64, .none, false, [⟨31, 0, .ro, 0x0, none⟩]⟩,
  ⟨0x10000B8, 0x40000, 64, .none, false, [⟨31, 0, .ro, 0x0, none⟩]⟩,
  ⟨0x10000BC, 0x40000, 64, .none, false, [⟨31, 0, .ro, 0x0, none⟩]⟩,
  ⟨0x103F040, 0x0, 1, .none, false, [⟨15, 0, .ro, 0x0, none⟩, ⟨18, 16, .ro, 0x0, none⟩, ⟨22, 19, .ro, 0x6, none⟩]⟩,
  ⟨0x1001000, 0x40000, 64, .none, false, [⟨15, 0, .rw, 0x96, some (1, 65535)⟩]⟩]

/-- Rows of the Arr block. -/
def rowsArr1 : List RegRow := [
  ⟨0x1001004, 0x40000, 64, .none, false, [⟨0, 0, .w1c, 0x0, none⟩, ⟨1, 1, .w1c, 0x0, none⟩, ⟨2, 2, .w1c, 0x0, none⟩, ⟨3, 3, .w1c, 0x0, none⟩]⟩,
  ⟨0x1001008, 0x40000, 64, .none, false, [⟨15, 0, .ro, 0x0, none⟩]⟩,
  ⟨0x100100C, 0x40000, 64, .low, false, [⟨31, 0, .ro, 0x0, none⟩]⟩,
  ⟨0x1001010, 0x40000, 64, .high, false, [⟨31, 0, .ro, 0x0, none⟩]⟩,
  ⟨0x1001014, 0x40000, 64, .none, false, [⟨5, 0, .rw, 0x0, none⟩]⟩,
  ⟨0x1001018, 0x40000, 64, .none, true, [⟨2, 0, .ro, 0x0, none⟩, ⟨5, 3, .ro, 0x0, none⟩, ⟨6, 6, .ro, 0x0, none⟩, ⟨15, 8, .ro, 0x0, none⟩, ⟨19, 16, .ro, 0x0, none⟩]⟩,
  ⟨0x100101C, 0x40000, 64, .low, true, [⟨31, 0, .ro, 0x0, none⟩]⟩,
  ⟨0x1001020, 0x40000, 64, .high, true, [⟨15, 0, .ro, 0x0, none⟩]⟩,
  ⟨0x1001024, 0x40000, 64, .none, true, [⟨31, 0, .ro, 0x0, none⟩]⟩,
  ⟨0x1001028, 0x40000, 64, .none, true, [⟨15, 0, .ro, 0x0, none⟩]⟩,
  ⟨0x1001030, 0x40000, 64, .low, false, [⟨31, 0, .ro, 0x0, none⟩]⟩,
  ⟨0x1001034, 0x40000, 64, .high, false, [⟨31, 0, .ro, 0x0, none⟩]⟩,
  ⟨0x1001038, 0x40000, 64, .none, false, [⟨31, 0, .ro, 0x0, none⟩]⟩,
  ⟨0x100103C, 0x40000, 64, .none, false, [⟨31, 0, .ro, 0x0, none⟩]⟩,
  ⟨0x1002000, 0x40000, 64, .none, true, [⟨15, 0, .ro, 0x0, none⟩, ⟨31, 16, .ro, 0x0, none⟩]⟩,
  ⟨0x1002004, 0x40000, 64, .none, false, [⟨3, 0, .ro, 0x0, none⟩, ⟨7, 4, .ro, 0x0, none⟩, ⟨31, 16, .ro, 0x0, none⟩]⟩]

/-- Rows of the Mem block. -/
def rowsMem : List RegRow := [
  ⟨0x3C00000, 0x0, 1, .none, false, [⟨0, 0, .w1c, 0x0, none⟩, ⟨1, 1, .w1c, 0x0, none⟩, ⟨2, 2, .w1c, 0x0, none⟩, ⟨3, 3, .w1c, 0x0, none⟩, ⟨4, 4, .w1c, 0x0, none⟩, ⟨5, 5, .w1c, 0x0, none⟩, ⟨6, 6, .w1c, 0x0, none⟩, ⟨7, 7, .w1c, 0x0, none⟩]⟩,
  ⟨0x3C00004, 0x0, 1, .none, false, [⟨15, 0, .ro, 0x0, none⟩]⟩,
  ⟨0x3C00008, 0x0, 1, .none, false, [⟨1, 0, .ro, 0x1, none⟩, ⟨3, 2, .ro, 0x0, none⟩, ⟨4, 4, .ro, 0x0, none⟩]⟩,
  ⟨0x3C0000C, 0x0, 1, .none, false, [⟨31, 0, .ro, 0x0, none⟩]⟩,
  ⟨0x3C00010, 0x0, 1, .none, false, [⟨31, 0, .ro, 0x0, none⟩]⟩,
  ⟨0x3C00014, 0x0, 1, .none, false, [⟨31, 0, .ro, 0x0, none⟩]⟩,
  ⟨0x3C00020, 0x0, 1, .none, false, [⟨15, 0, .rw, 0x1000, some (1, 65535)⟩]⟩,
  ⟨0x3C00024, 0x0, 1, .none, false, [⟨7, 0, .rw, 0x18, some (1, 168)⟩, ⟨8, 8, .rw, 0x1, none⟩]⟩,
  ⟨0x3C00028, 0x0, 1, .none, false, [⟨31, 0, .ro, 0x0, none⟩]⟩,
  ⟨0x3C0002C, 0x0, 1, .none, false, [⟨31, 0, .ro, 0x0, none⟩]⟩,
  ⟨0x3C00030, 0x0, 1, .low, false, [⟨31, 0, .ro, 0x0, none⟩]⟩,
  ⟨0x3C00034, 0x0, 1, .high, false, [⟨15, 0, .ro, 0x0, none⟩]⟩,
  ⟨0x3C00100, 0x4, 16, .none, false, [⟨31, 0, .ro, 0x0, none⟩]⟩,
  ⟨0x3C00200, 0x4, 8, .none, true, [⟨11, 0, .ro, 0x0, none⟩, ⟨19, 16, .ro, 0x0, none⟩, ⟨31, 31, .ro, 0x0, none⟩]⟩]

/-- Rows of the Cmp block. -/
def rowsCmp : List RegRow := [
  ⟨0xC00000, 0x0, 1, .none, false, [⟨0, 0, .w1c, 0x0, none⟩, ⟨1, 1, .w1c, 0x0, none⟩, ⟨2, 2, .w1c, 0x0, none⟩, ⟨3, 3, .w1c, 0x0, none⟩, ⟨4, 4, .w1c, 0x0, none⟩, ⟨5, 5, .w1c, 0x0, none⟩, ⟨6, 6, .w1c, 0x0, none⟩, ⟨7, 7, .w1c, 0x0, none⟩]⟩,
  ⟨0xC00004, 0x0, 1, .none, false, [⟨15, 0, .ro, 0x0, none⟩]⟩,
  ⟨0xC00008, 0x0, 1, .low, false, [⟨31, 0, .ro, 0x0, none⟩]⟩,
  ⟨0xC0000C, 0x0, 1, .high, false, [⟨15, 0, .ro, 0x0, none⟩]⟩,
  ⟨0xC00010, 0x0, 1, .none, false, [⟨19, 0, .rw, 0x1F40, some (250, 1000000)⟩]⟩,
  ⟨0xC00014, 0x0, 1, .none, false, [⟨15, 0, .rw, 0x100, some (1, 65535)⟩]⟩,
  ⟨0xC00018, 0x0, 1, .none, false, [⟨15, 0, .rw, 0x1F40, some (1, 65535)⟩]⟩,
  ⟨0xC00020, 0x0, 1, .none, false, [⟨11, 0, .rw, 0x0, none⟩, ⟨15, 12, .rw, 0x0, none⟩, ⟨31, 16, .rw, 0x0, none⟩]⟩,
  ⟨0xC00024, 0x0, 1, .none, false, [⟨17, 0, .rw, 0x0, none⟩, ⟨31, 31, .wo, 0x0, none⟩]⟩,
  ⟨0xC00028, 0x0, 1, .none, false, [⟨1, 0, .ro, 0x0, none⟩, ⟨2, 2, .ro, 0x0, none⟩, ⟨31, 16, .ro, 0x0, none⟩]⟩,
  ⟨0xC00030, 0x0, 1, .none, false, [⟨31, 0, .ro, 0x0, none⟩]⟩,
  ⟨0xC00034, 0x0, 1, .none, false, [⟨31, 0, .ro, 0x0, none⟩]⟩,
  ⟨0xC00038, 0x0, 1, .none, false, [⟨31, 0, .ro, 0x0, none⟩]⟩,
  ⟨0xC0003C, 0x0, 1, .none, false, [⟨31, 0, .ro, 0x0, none⟩]⟩,
  ⟨0xC00040, 0x0, 1, .none, false, [⟨31, 0, .ro, 0x0, none⟩]⟩,
  ⟨0xC00080, 0x0, 1, .none, false, [⟨3, 0, .rw, 0x0, none⟩]⟩,
  ⟨0xC00084, 0x0, 1, .none, true, [⟨7, 0, .ro, 0x0, none⟩, ⟨9, 8, .ro, 0x0, none⟩, ⟨31, 16, .ro, 0x0, none⟩]⟩,
  ⟨0xC00088, 0x0, 1, .none, true, [⟨15, 0, .ro, 0x0, none⟩, ⟨31, 16, .ro, 0x0, none⟩]⟩,
  ⟨0xC0008C, 0x0, 1, .none, true, [⟨15, 0, .ro, 0x0, none⟩]⟩,
  ⟨0xC00100, 0x10, 16, .none, false, [⟨1, 0, .ro, 0x0, none⟩, ⟨2, 2, .ro, 0x0, none⟩, ⟨11, 8, .ro, 0x0, none⟩]⟩,
  ⟨0xC00104, 0x10, 16, .none, false, [⟨0, 0, .rw, 0x0, none⟩, ⟨2, 1, .ro, 0x0, none⟩]⟩,
  ⟨0xC00108, 0x10, 16, .none, true, [⟨17, 0, .ro, 0x0, none⟩]⟩,
  ⟨0xC0010C, 0x10, 16, .none, false, [⟨15, 0, .ro, 0x0, none⟩]⟩,
  ⟨0xC00200, 0x0, 1, .low, false, [⟨31, 0, .ro, 0x0, none⟩]⟩,
  ⟨0xC00204, 0x0, 1, .high, false, [⟨15, 0, .ro, 0x0, none⟩]⟩,
  ⟨0xC00208, 0x0, 1, .none, false, [⟨31, 0, .ro, 0x0, none⟩]⟩]

/-- Rows of the Avl block. -/
def rowsAvl0 : List RegRow := [
  ⟨0x3000000, 0x0, 1, .none, false, [⟨0, 0, .w1c, 0x0, none⟩, ⟨1, 1, .w1c, 0x0, none⟩, ⟨2, 2, .w1c, 0x0, none⟩, ⟨3, 3, .w1c, 0x0, none⟩, ⟨4, 4, .w1c, 0x0, none⟩, ⟨5, 5, .w1c, 0x0, none⟩, ⟨6, 6, .w1c, 0x0, none⟩, ⟨7, 7, .w1c, 0x0, none⟩]⟩,
  ⟨0x3000004, 0x0, 1, .none, false, [⟨15, 0, .ro, 0x0, none⟩]⟩,
  ⟨0x3000008, 0x0, 1, .none, false, [⟨4, 0, .ro, 0x0, none⟩, ⟨5, 5, .ro, 0x0, none⟩, ⟨10, 6, .ro, 0x0, none⟩, ⟨11, 11, .ro, 0x0, none⟩, ⟨15, 12, .ro, 0x7, none⟩, ⟨23, 16, .rw, 0x10, some (1, 255)⟩, ⟨24, 24, .ro, 0x0, none⟩, ⟨25, 25, .ro, 0x0, none⟩]⟩,
  ⟨0x300000C, 0x0, 1, .none, false, [⟨23, 0, .ro, 0x0, none⟩]⟩,
  ⟨0x3000010, 0x0, 1, .none, false, [⟨31, 0, .ro, 0x0, none⟩]⟩,
  ⟨0x3010000, 0x4, 4096, .none, false, [⟨31, 0, .ro, 0x0, none⟩]⟩,
  ⟨0x3100000, 0x100, 24, .none, false, [⟨7, 0, .rw, 0x64, some (1, 255)⟩, ⟨13, 8, .rw, 0x8, some (1, 63)⟩, ⟨23, 16, .rw, 0x4, some (1, 255)⟩]⟩,
  ⟨0x3100004, 0x100, 24, .none, false, [⟨0, 0, .rw, 0x0, none⟩, ⟨1, 1, .wo, 0x0, none⟩, ⟨2, 2, .wo, 0x0, none⟩]⟩,
  ⟨0x3100008, 0x100, 24, .none, false, [⟨2, 0, .ro, 0x0, none⟩, ⟨6, 3, .ro, 0x0, none⟩, ⟨10, 7, .ro, 0xF, none⟩, ⟨22, 11, .ro, 0x0, none⟩, ⟨27, 23, .ro, 0x0, none⟩, ⟨29, 28, .ro, 0x0, none⟩]⟩,
  ⟨0x310000C, 0x100, 24, .none, false, [⟨0, 0, .w1c, 0x0, none⟩, ⟨1, 1, .w1c, 0x0, none⟩, ⟨2, 2, .w1c, 0x0, none⟩, ⟨3, 3, .w1c, 0x0, none⟩, ⟨4, 4, .w1c, 0x0, none⟩, ⟨5, 5, .w1c, 0x0, none⟩, ⟨6, 6, .w1c, 0x0, none⟩, ⟨7, 7, .w1c, 0x0, none⟩]⟩,
  ⟨0x3100010, 0x100, 24, .none, false, [⟨15, 0, .ro, 0x0, none⟩]⟩,
  ⟨0x3100038, 0x100, 24, .none, false, [⟨23, 0, .ro, 0x0, none⟩]⟩,
  ⟨0x310003C, 0x100, 24, .none, false, [⟨13, 0, .rw, 0x64, some (10, 10000)⟩, ⟨31, 16, .rw, 0x1000, some (1, 65535)⟩]⟩,
  ⟨0x3100014, 0x100, 24, .none, false, [⟨31, 0, .ro, 0x0, none⟩]⟩,
  ⟨0x3100018, 0x100, 24, .none, false, [⟨31, 0, .ro, 0x0, none⟩]⟩,
  ⟨0x310001C, 0x100, 24, .none, false, [⟨31, 0, .ro, 0x0, none⟩]⟩,
  ⟨0x3100020, 0x100, 24, .none, false, [⟨31, 0, .ro, 0x0, none⟩]⟩,
  ⟨0x3100024, 0x100, 24, .none, false, [⟨31, 0, .ro, 0x0, none⟩]⟩,
  ⟨0x3100028, 0x100, 24, .low, false, [⟨31, 0, .ro, 0x0, none⟩]⟩,
  ⟨0x310002C, 0x100, 24, .high, false, [⟨31, 0, .ro, 0x0, none⟩]⟩,
  ⟨0x3100030, 0x100, 24, .low, false, [⟨31, 0, .ro, 0x0, none⟩]⟩,
  ⟨0x3100034, 0x100, 24, .high, false, [⟨31, 0, .ro, 0x0, none⟩]⟩,
  ⟨0x3100040, 0x100, 24, .none, false, [⟨31, 0, .ro, 0x0, none⟩]⟩,
  ⟨0x3100044, 0x100, 24, .none, false, [⟨31, 0, .ro, 0x0, none⟩]⟩,
  ⟨0x3100048, 0x100, 24, .none, false, [⟨31, 0, .ro, 0x0, none⟩]⟩,
  ⟨0x310004C, 0x100, 24, .none, false, [⟨31, 0, .ro, 0x0, none⟩]⟩,
  ⟨0x3100050, 0x100, 24, .none, false, [⟨31, 0, .ro, 0x0, none⟩]⟩,
  ⟨0x3100054, 0x100, 24, .none, false, [⟨31, 0, .ro, 0x0, none⟩]⟩,
  ⟨0x3100058, 0x100, 24, .none, false, [⟨31, 0, .ro, 0x0, none⟩]⟩,
  ⟨0x310005C, 0x100, 24, .none, false, [⟨31, 0, .ro, 0x0, none⟩]⟩,
  ⟨0x3100060, 0x100, 24, .none, false, [⟨31, 0, .ro, 0x0, none⟩]⟩,
  ⟨0x3200000, 0x0, 1, .none, false, [⟨13, 0, .rw, 0xC8, some (20, 10000)⟩, ⟨23, 14, .rw, 0x28, some (5, 1000)⟩]⟩,
  ⟨0x3200004, 0x0, 1, .none, false, [⟨0, 0, .w1c, 0x0, none⟩, ⟨1, 1, .w1c, 0x0, none⟩, ⟨2, 2, .w1c, 0x0, none⟩, ⟨3, 3, .w1c, 0x0, none⟩, ⟨4, 4, .w1c, 0x0, none⟩, ⟨5, 5, .w1c, 0x0, none⟩]⟩,
  ⟨0x3200008, 0x0, 1, .none, false, [⟨15, 0, .ro, 0x0, none⟩]⟩,
  ⟨0x320000C, 0x0, 1, .none, false, [⟨0, 0, .ro, 0x0, none⟩, ⟨31, 16, .ro, 0x0, none⟩]⟩,
  ⟨0x3200010, 0x0, 1, .low, false, [⟨31, 0, .ro, 0x0, none⟩]⟩,
  ⟨0x3200014, 0x0, 1, .high, false, [⟨15, 0, .ro, 0x0, none⟩]⟩,
  ⟨0x3200018, 0x0, 1, .none, false, [⟨31, 0, .ro, 0x0, none⟩]⟩,
  ⟨0x320001C, 0x0, 1, .none, false, [⟨31, 0, .ro, 0x0, none⟩]⟩,
  ⟨0x3200020, 0x0, 1, .none, false, [⟨31, 0, .ro, 0x0, none⟩]⟩]

/-- Rows of the Avl block. -/
def rowsAvl1 : List RegRow := [
  ⟨0x3200024, 0x0, 1, .none, false, [⟨31, 0, .ro, 0x0, none⟩]⟩,
  ⟨0x3200028, 0x0, 1, .none, false, [⟨31, 0, .ro, 0x0, none⟩]⟩,
  ⟨0x320002C, 0x0, 1, .none, false, [⟨31, 0, .ro, 0x0, none⟩]⟩,
  ⟨0x3200100, 0x4, 64, .none, true, [⟨9, 0, .ro, 0x0, none⟩]⟩,
  ⟨0x3300000, 0x4, 32768, .none, false, [⟨31, 0, .rw, 0x0, none⟩]⟩]

/-- Rows of the Syn block. -/
def rowsSyn : List RegRow := [
  ⟨0x3800000, 0x0, 1, .none, false, [⟨0, 0, .w1c, 0x0, none⟩, ⟨1, 1, .w1c, 0x0, none⟩, ⟨2, 2, .w1c, 0x0, none⟩, ⟨3, 3, .w1c, 0x0, none⟩]⟩,
  ⟨0x3800004, 0x0, 1, .none, false, [⟨15, 0, .ro, 0x0, none⟩]⟩,
  ⟨0x3800008, 0x0, 1, .none, false, [⟨9, 0, .rw, 0x64, some (10, 1000)⟩, ⟨15, 10, .rw, 0x10, some (1, 63)⟩, ⟨25, 16, .rw, 0xA, some (1, 1000)⟩]⟩,
  ⟨0x380000C, 0x0, 1, .none, false, [⟨12, 0, .rw, 0x0, none⟩]⟩,
  ⟨0x3800010, 0x0, 1, .none, true, [⟨19, 0, .ro, 0x0, none⟩, ⟨31, 20, .ro, 0x0, none⟩]⟩,
  ⟨0x3800014, 0x0, 1, .none, true, [⟨31, 0, .ro, 0x0, none⟩]⟩,
  ⟨0x3800018, 0x0, 1, .none, true, [⟨20, 0, .ro, 0x0, none⟩]⟩,
  ⟨0x3800100, 0x4, 128, .none, false, [⟨31, 0, .ro, 0x0, none⟩]⟩,
  ⟨0x3810000, 0x10, 8192, .low, true, [⟨31, 0, .ro, 0x0, none⟩]⟩,
  ⟨0x3810004, 0x10, 8192, .high, true, [⟨31, 0, .ro, 0x0, none⟩]⟩,
  ⟨0x3810008, 0x10, 8192, .none, false, [⟨0, 0, .rw, 0x0, none⟩, ⟨1, 1, .rw, 0x0, none⟩, ⟨21, 2, .rw, 0x0, none⟩]⟩,
  ⟨0x381000C, 0x10, 8192, .none, false, [⟨31, 0, .wo, 0x0, none⟩]⟩]

/-- Rows of the Sig block. -/
def rowsSig : List RegRow := [
  ⟨0x2000000, 0x0, 1, .none, false, [⟨0, 0, .w1c, 0x0, none⟩, ⟨1, 1, .w1c, 0x0, none⟩, ⟨2, 2, .w1c, 0x0, none⟩, ⟨3, 3, .w1c, 0x0, some (1, 65535)⟩, ⟨4, 4, .w1c, 0x0, none⟩, ⟨5, 5, .w1c, 0x0, none⟩, ⟨6, 6, .w1c, 0x0, none⟩]⟩,
  ⟨0x2000004, 0x0, 1, .none, false, [⟨15, 0, .ro, 0x0, none⟩]⟩,
  ⟨0x2000008, 0x0, 1, .none, false, [⟨15, 0, .rw, 0x96, some (1, 65535)⟩]⟩,
  ⟨0x200000C, 0x0, 1, .none, false, [⟨6, 0, .ro, 0x7F, none⟩, ⟨14, 8, .ro, 0x7F, none⟩, ⟨22, 16, .ro, 0x7F, none⟩, ⟨30, 24, .ro, 0x7F, none⟩]⟩,
  ⟨0x2000010, 0x4, 4, .none, true, [⟨25, 0, .ro, 0x0, none⟩]⟩,
  ⟨0x2010000, 0x1000, 96, .none, true, [⟨6, 0, .ro, 0x0, none⟩, ⟨7, 7, .ro, 0x0, none⟩, ⟨15, 8, .ro, 0x0, none⟩, ⟨19, 16, .ro, 0x0, none⟩, ⟨20, 20, .ro, 0x0, none⟩, ⟨21, 21, .ro, 0x0, none⟩, ⟨22, 22, .ro, 0x0, none⟩]⟩,
  ⟨0x2010004, 0x1000, 96, .none, false, [⟨5, 0, .ro, 0x0, none⟩]⟩,
  ⟨0x2010008, 0x1000, 96, .none, false, [⟨2, 0, .rw, 0x0, none⟩]⟩,
  ⟨0x201000C, 0x1000, 96, .none, true, [⟨2, 0, .ro, 0x0, none⟩, ⟨3, 3, .ro, 0x0, none⟩, ⟨6, 4, .ro, 0x0, none⟩, ⟨15, 8, .ro, 0x0, none⟩, ⟨31, 16, .ro, 0x0, none⟩]⟩,
  ⟨0x2010010, 0x1000, 96, .low, true, [⟨31, 0, .ro, 0x0, none⟩]⟩,
  ⟨0x2010014, 0x1000, 96, .high, true, [⟨15, 0, .ro, 0x0, none⟩]⟩,
  ⟨0x2010018, 0x1000, 96, .low, false, [⟨31, 0, .ro, 0x0, none⟩]⟩,
  ⟨0x201001C, 0x1000, 96, .high, false, [⟨31, 0, .ro, 0x0, none⟩]⟩,
  ⟨0x2010020, 0x1000, 96, .none, false, [⟨31, 0, .ro, 0x0, none⟩]⟩,
  ⟨0x2010024, 0x1000, 96, .none, false, [⟨31, 0, .ro, 0x0, none⟩]⟩]

/-- Rows of the Rad block. -/
def rowsRad : List RegRow := [
  ⟨0x2400000, 0x0, 1, .none, false, [⟨0, 0, .w1c, 0x0, none⟩, ⟨1, 1, .w1c, 0x0, none⟩, ⟨2, 2, .w1c, 0x0, none⟩, ⟨3, 3, .w1c, 0x0, none⟩, ⟨4, 4, .w1c, 0x0, none⟩, ⟨5, 5, .w1c, 0x0, none⟩, ⟨6, 6, .w1c, 0x0, none⟩, ⟨7, 7, .w1c, 0x0, none⟩]⟩,
  ⟨0x2400004, 0x0, 1, .none, false, [⟨15, 0, .ro, 0x0, none⟩]⟩,
  ⟨0x2400008, 0x0, 1, .none, false, [⟨6, 0, .rw, 0x8, some (2, 64)⟩, ⟨7, 7, .rw, 0x1, none⟩, ⟨14, 8, .rw, 0x8, some (1, 80)⟩]⟩,
  ⟨0x240000C, 0x0, 1, .none, false, [⟨10, 0, .rw, 0x0, none⟩, ⟨23, 12, .rw, 0x0, none⟩, ⟨31, 31, .wo, 0x0, none⟩]⟩,
  ⟨0x2400010, 0x0, 1, .none, false, [⟨1, 0, .ro, 0x0, none⟩, ⟨2, 2, .ro, 0x0, none⟩, ⟨25, 16, .ro, 0x0, none⟩]⟩,
  ⟨0x2400014, 0x0, 1, .none, false, [⟨31, 0, .ro, 0x0, none⟩]⟩,
  ⟨0x2400018, 0x0, 1, .none, false, [⟨31, 0, .ro, 0x0, none⟩]⟩,
  ⟨0x240001C, 0x0, 1, .none, false, [⟨31, 0, .ro, 0x0, none⟩]⟩,
  ⟨0x2400020, 0x0, 1, .none, false, [⟨31, 0, .ro, 0x0, none⟩]⟩,
  ⟨0x2400030, 0x0, 1, .none, false, [⟨10, 0, .rw, 0x0, none⟩]⟩,
  ⟨0x2400034, 0x0, 1, .none, true, [⟨2, 0, .ro, 0x0, none⟩, ⟨4, 3, .ro, 0x0, none⟩, ⟨17, 8, .ro, 0x0, none⟩, ⟨24, 18, .ro, 0x0, none⟩]⟩,
  ⟨0x2400038, 0x0, 1, .none, true, [⟨11, 0, .ro, 0x0, none⟩]⟩,
  ⟨0x2400040, 0x0, 1, .none, false, [⟨2, 0, .rw, 0x0, none⟩, ⟨4, 3, .rw, 0x0, none⟩, ⟨7, 5, .rw, 0x0, none⟩]⟩,
  ⟨0x2400044, 0x0, 1, .none, true, [⟨5, 0, .ro, 0x0, none⟩, ⟨12, 6, .ro, 0x0, none⟩, ⟨13, 13, .ro, 0x0, none⟩, ⟨14, 14, .ro, 0x0, none⟩]⟩,
  ⟨0x2400048, 0x0, 1, .none, true, [⟨31, 0, .ro, 0x0, none⟩]⟩,
  ⟨0x240004C, 0x0, 1, .none, true, [⟨31, 0, .ro, 0x0, none⟩]⟩]

/-- Rows of the Fh block. -/
def rowsFh : List RegRow := [
  ⟨0x2800000, 0x0, 1, .none, false, [⟨0, 0, .w1c, 0x0, none⟩, ⟨1, 1, .w1c, 0x0, none⟩, ⟨2, 2, .w1c, 0x0, none⟩, ⟨3, 3, .w1c, 0x0, none⟩, ⟨4, 4, .w1c, 0x0, none⟩, ⟨5, 5, .w1c, 0x0, none⟩]⟩,
  ⟨0x2800004, 0x0, 1, .none, false, [⟨15, 0, .ro, 0x0, none⟩]⟩,
  ⟨0x2800100, 0x4, 8, .none, false, [⟨2, 0, .ro, 0x0, none⟩, ⟨7, 4, .ro, 0x0, none⟩, ⟨11, 8, .ro, 0x0, none⟩]⟩,
  ⟨0x2800040, 0x0, 1, .none, true, [⟨31, 0, .ro, 0x0, none⟩]⟩,
  ⟨0x2800044, 0x0, 1, .none, true, [⟨31, 0, .ro, 0x0, none⟩]⟩,
  ⟨0x2800048, 0x0, 1, .none, true, [⟨0, 0, .ro, 0x0, none⟩, ⟨1, 1, .ro, 0x0, none⟩, ⟨2, 2, .ro, 0x0, none⟩, ⟨3, 3, .ro, 0x0, none⟩]⟩,
  ⟨0x280004C, 0x0, 1, .none, true, [⟨12, 0, .ro, 0x0, none⟩]⟩,
  ⟨0x2800050, 0x0, 1, .none, false, [⟨31, 0, .ro, 0x0, none⟩]⟩,
  ⟨0x2800010, 0x0, 1, .none, false, [⟨31, 0, .ro, 0x0, none⟩]⟩,
  ⟨0x2800014, 0x0, 1, .none, false, [⟨31, 0, .ro, 0x0, none⟩]⟩,
  ⟨0x2800018, 0x0, 1, .none, false, [⟨31, 0, .ro, 0x0, none⟩]⟩,
  ⟨0x280001C, 0x0, 1, .none, false, [⟨31, 0, .ro, 0x0, none⟩]⟩,
  ⟨0x2800020, 0x0, 1, .none, false, [⟨31, 0, .ro, 0x0, none⟩]⟩,
  ⟨0x2800024, 0x0, 1, .none, false, [⟨31, 0, .ro, 0x0, none⟩]⟩]

/-- Rows of the Ptp block. -/
def rowsPtp : List RegRow := [
  ⟨0x2900000, 0x0, 1, .none, false, [⟨0, 0, .w1c, 0x0, none⟩, ⟨1, 1, .w1c, 0x0, none⟩, ⟨2, 2, .w1c, 0x0, none⟩, ⟨3, 3, .w1c, 0x0, none⟩, ⟨4, 4, .w1c, 0x0, none⟩]⟩,
  ⟨0x2900004, 0x0, 1, .none, false, [⟨15, 0, .ro, 0x0, none⟩]⟩,
  ⟨0x2900008, 0x0, 1, .none, false, [⟨0, 0, .wo, 0x0, none⟩]⟩,
  ⟨0x290000C, 0x0, 1, .low, false, [⟨31, 0, .ro, 0x0, none⟩]⟩,
  ⟨0x2900010, 0x0, 1, .high, false, [⟨15, 0, .ro, 0x0, none⟩]⟩,
  ⟨0x2900014, 0x0, 1, .none, false, [⟨31, 0, .ro, 0x0, none⟩]⟩,
  ⟨0x2900018, 0x0, 1, .none, false, [⟨15, 0, .ro, 0x0, none⟩]⟩,
  ⟨0x290001C, 0x0, 1, .none, false, [⟨31, 0, .ro, 0x0, none⟩]⟩,
  ⟨0x2900020, 0x0, 1, .none, false, [⟨0, 0, .ro, 0x0, none⟩, ⟨1, 1, .rw, 0x0, none⟩, ⟨2, 2, .rw, 0x0, none⟩, ⟨3, 3, .ro, 0x0, none⟩, ⟨15, 8, .rw, 0xA, some (1, 255)⟩, ⟨23, 16, .rw, 0x8, some (2, 255)⟩, ⟨31, 24, .rw, 0x7, none⟩]⟩,
  ⟨0x2900040, 0x10, 2, .none, false, [⟨7, 0, .ro, 0x0, none⟩, ⟨12, 8, .ro, 0x0, none⟩, ⟨20, 16, .ro, 0x0, none⟩, ⟨21, 21, .ro, 0x0, none⟩, ⟨22, 22, .ro, 0x0, none⟩, ⟨23, 23, .ro, 0x0, none⟩, ⟨31, 24, .ro, 0xFF, none⟩]⟩,
  ⟨0x2900044, 0x10, 2, .none, false, [⟨31, 0, .ro, 0x0, none⟩]⟩,
  ⟨0x2900048, 0x10, 2, .none, false, [⟨23, 0, .ro, 0x0, none⟩]⟩,
  ⟨0x2900100, 0x4, 32, .none, false, [⟨15, 0, .rw, 0x0, none⟩, ⟨31, 16, .rw, 0x0, none⟩]⟩]

/-- Rows of the Tm block. -/
def rowsTm : List RegRow := [
  ⟨0x2A00000, 0x0, 1, .none, false, [⟨0, 0, .rw, 0x0, none⟩, ⟨5, 1, .rw, 0x0, none⟩, ⟨10, 8, .rw, 0x0, none⟩]⟩,
  ⟨0x2A00004, 0x0, 1, .none, true, [⟨7, 0, .ro, 0x1, none⟩, ⟨9, 8, .ro, 0x0, none⟩, ⟨10, 10, .ro, 0x0, none⟩, ⟨31, 16, .ro, 0x0, none⟩]⟩,
  ⟨0x2A00008, 0x0, 1, .none, true, [⟨23, 0, .ro, 0x0, none⟩]⟩,
  ⟨0x2A0000C, 0x0, 1, .none, true, [⟨23, 0, .ro, 0x0, none⟩]⟩,
  ⟨0x2A00010, 0x0, 1, .none, true, [⟨31, 0, .ro, 0x0, none⟩]⟩,
  ⟨0x2A00014, 0x0, 1, .none, false, [⟨0, 0, .wo, 0x0, none⟩]⟩,
  ⟨0x2A00018, 0x0, 1, .none, true, [⟨31, 0, .ro, 0x0, none⟩]⟩,
  ⟨0x2A000C0, 0x0, 1, .none, true, [⟨31, 0, .ro, 0x0, none⟩]⟩,
  ⟨0x2A00040, 0x8, 16, .none, true, [⟨23, 0, .ro, 0x0, none⟩]⟩,
  ⟨0x2A00044, 0x8, 16, .none, true, [⟨31, 0, .ro, 0x0, none⟩]⟩,
  ⟨0x2A00100, 0x0, 1, .none, false, [⟨0, 0, .w1c, 0x0, none⟩]⟩,
  ⟨0x2A00104, 0x0, 1, .none, false, [⟨15, 0, .ro, 0x0, none⟩]⟩]

/-- Rows of the Hst block. -/
def rowsHst : List RegRow := [
  ⟨0x400000, 0x0, 1, .none, false, [⟨0, 0, .w1c, 0x0, none⟩, ⟨1, 1, .w1c, 0x0, none⟩, ⟨2, 2, .w1c, 0x0, none⟩, ⟨3, 3, .w1c, 0x0, none⟩, ⟨4, 4, .w1c, 0x0, none⟩, ⟨5, 5, .w1c, 0x0, some (1, 255)⟩]⟩,
  ⟨0x400004, 0x0, 1, .none, false, [⟨15, 0, .ro, 0x0, none⟩]⟩,
  ⟨0x400008, 0x0, 1, .none, true, [⟨0, 0, .ro, 0x0, none⟩, ⟨1, 1, .ro, 0x0, none⟩, ⟨2, 2, .ro, 0x0, none⟩, ⟨3, 3, .ro, 0x0, none⟩]⟩,
  ⟨0x40000C, 0x0, 1, .none, false, [⟨31, 0, .wo, 0x0, none⟩]⟩,
  ⟨0x400010, 0x0, 1, .none, false, [⟨15, 0, .rw, 0x3E8, some (10, 60000)⟩]⟩,
  ⟨0x400014, 0x0, 1, .none, false, [⟨0, 0, .wo, 0x0, none⟩]⟩,
  ⟨0x400038, 0x0, 1, .none, false, [⟨3, 0, .rw, 0x0, some (0, 10)⟩, ⟨7, 4, .rw, 0x0, some (0, 10)⟩, ⟨8, 8, .rw, 0x0, none⟩]⟩,
  ⟨0x400040, 0x0, 1, .none, false, [⟨7, 0, .rw, 0x8, some (1, 255)⟩, ⟨15, 8, .rw, 0x0, none⟩]⟩,
  ⟨0x400048, 0x0, 1, .low, false, [⟨31, 0, .ro, 0x0, none⟩]⟩,
  ⟨0x40004C, 0x0, 1, .high, false, [⟨15, 0, .ro, 0x0, none⟩]⟩,
  ⟨0x400020, 0x0, 1, .low, false, [⟨31, 0, .rw, 0x0, none⟩]⟩,
  ⟨0x400024, 0x0, 1, .high, false, [⟨31, 0, .rw, 0x0, none⟩]⟩,
  ⟨0x400028, 0x0, 1, .low, false, [⟨31, 0, .rw, 0x0, none⟩]⟩,
  ⟨0x40002C, 0x0, 1, .high, false, [⟨31, 0, .rw, 0x0, none⟩]⟩,
  ⟨0x400030, 0x0, 1, .low, false, [⟨31, 0, .rw, 0x0, none⟩]⟩,
  ⟨0x400034, 0x0, 1, .high, false, [⟨31, 0, .rw, 0x0, none⟩]⟩,
  ⟨0x410000, 0x80, 128, .none, false, [⟨0, 0, .rw, 0x0, none⟩, ⟨1, 1, .ro, 0x0, none⟩, ⟨2, 2, .ro, 0x0, none⟩, ⟨15, 8, .rw, 0x20, some (1, 255)⟩, ⟨19, 16, .rw, 0x0, some (0, 10)⟩, ⟨23, 20, .rw, 0x0, some (0, 10)⟩]⟩,
  ⟨0x410004, 0x80, 128, .none, false, [⟨7, 0, .ro, 0x0, none⟩, ⟨31, 16, .ro, 0x0, none⟩]⟩,
  ⟨0x410008, 0x80, 128, .none, false, [⟨19, 0, .rw, 0x0, none⟩]⟩,
  ⟨0x410024, 0x80, 128, .none, false, [⟨7, 0, .rw, 0x0, some (2, 255)⟩, ⟨9, 8, .rw, 0x1, some (1, 2)⟩]⟩,
  ⟨0x410028, 0x80, 128, .none, false, [⟨7, 0, .rw, 0x1, some (1, 255)⟩, ⟨17, 8, .rw, 0x0, some (0, 1000)⟩]⟩,
  ⟨0x41002C, 0x80, 128, .none, false, [⟨17, 0, .rw, 0x0, none⟩]⟩,
  ⟨0x410030, 0x80, 128, .none, false, [⟨18, 0, .rw, 0x0, some (0, 262144)⟩]⟩,
  ⟨0x410034, 0x80, 128, .none, false, [⟨15, 0, .rw, 0x0, none⟩]⟩,
  ⟨0x410040, 0x80, 128, .none, false, [⟨7, 0, .rw, 0x0, some (0, 128)⟩]⟩,
  ⟨0x410044, 0x80, 128, .none, false, [⟨0, 0, .wo, 0x0, none⟩, ⟨1, 1, .wo, 0x0, none⟩, ⟨2, 2, .wo, 0x0, none⟩, ⟨3, 3, .wo, 0x0, none⟩, ⟨4, 4, .wo, 0x0, none⟩, ⟨5, 5, .wo, 0x0, none⟩]⟩,
  ⟨0x410048, 0x80, 128, .none, false, [⟨2, 0, .ro, 0x0, none⟩, ⟨3, 3, .ro, 0x0, none⟩, ⟨15, 8, .ro, 0x0, none⟩]⟩,
  ⟨0x41004C, 0x80, 128, .none, false, [⟨15, 0, .rw, 0x1F40, some (1, 65535)⟩]⟩,
  ⟨0x410050, 0x80, 128, .none, false, [⟨31, 0, .ro, 0x0, none⟩]⟩,
  ⟨0x410054, 0x80, 128, .none, false, [⟨31, 0, .ro, 0x0, none⟩]⟩,
  ⟨0x410058, 0x80, 128, .none, false, [⟨31, 0, .ro, 0x0, none⟩]⟩,
  ⟨0x41000C, 0x80, 128, .low, false, [⟨31, 0, .rw, 0x0, none⟩]⟩,
  ⟨0x410010, 0x80, 128, .high, false, [⟨31, 0, .rw, 0x0, none⟩]⟩,
  ⟨0x410014, 0x80, 128, .low, false, [⟨31, 0, .rw, 0x0, none⟩]⟩,
  ⟨0x410018, 0x80, 128, .high, false, [⟨31, 0, .rw, 0x0, none⟩]⟩,
  ⟨0x41001C, 0x80, 128, .low, false, [⟨31, 0, .rw, 0x0, none⟩]⟩,
  ⟨0x410020, 0x80, 128, .high, false, [⟨31, 0, .rw, 0x0, none⟩]⟩,
  ⟨0x410038, 0x80, 128, .low, false, [⟨31, 0, .rw, 0x0, none⟩]⟩,
  ⟨0x41003C, 0x80, 128, .high, false, [⟨31, 0, .rw, 0x0, none⟩]⟩]

/-- Rows of the Flt block. -/
def rowsFlt : List RegRow := [
  ⟨0x200000, 0x0, 1, .none, false, [⟨0, 0, .w1c, 0x0, none⟩, ⟨1, 1, .w1c, 0x0, none⟩, ⟨2, 2, .w1c, 0x0, none⟩, ⟨3, 3, .w1c, 0x0, none⟩, ⟨4, 4, .w1c, 0x0, none⟩, ⟨5, 5, .w1c, 0x0, none⟩, ⟨6, 6, .w1c, 0x0, none⟩]⟩,
  ⟨0x200004, 0x0, 1, .none, false, [⟨15, 0, .ro, 0x0, none⟩]⟩,
  ⟨0x200008, 0x0, 1, .none, false, [⟨0, 0, .wo, 0x0, none⟩, ⟨1, 1, .rw, 0x0, none⟩, ⟨2, 2, .wo, 0x0, none⟩]⟩,
  ⟨0x20000C, 0x0, 1, .none, true, [⟨2, 0, .ro, 0x0, none⟩]⟩,
  ⟨0x200010, 0x0, 1, .none, false, [⟨11, 0, .rw, 0x0, none⟩, ⟨19, 12, .rw, 0x0, none⟩, ⟨31, 31, .wo, 0x0, none⟩]⟩,
  ⟨0x200050, 0x0, 1, .none, false, [⟨31, 0, .rw, 0x0, none⟩]⟩,
  ⟨0x200054, 0x0, 1, .none, false, [⟨3, 0, .rw, 0x0, none⟩, ⟨15, 15, .wo, 0x0, none⟩, ⟨31, 16, .rw, 0x0, none⟩]⟩,
  ⟨0x200058, 0x0, 1, .none, false, [⟨1, 0, .ro, 0x0, none⟩, ⟨2, 2, .ro, 0x0, none⟩, ⟨31, 16, .ro, 0x0, none⟩]⟩,
  ⟨0x200060, 0x0, 1, .none, false, [⟨0, 0, .rw, 0x1, none⟩, ⟨7, 4, .rw, 0x3, none⟩, ⟨31, 16, .rw, 0x1F40, some (1, 65535)⟩]⟩,
  ⟨0x200064, 0x0, 1, .none, true, [⟨15, 0, .ro, 0x0, none⟩, ⟨31, 16, .ro, 0x0, none⟩]⟩,
  ⟨0x200068, 0x0, 1, .none, false, [⟨7, 0, .rw, 0x2, some (1, 255)⟩, ⟨23, 8, .rw, 0x6DDD, some (1, 65535)⟩]⟩,
  ⟨0x20006C, 0x0, 1, .none, true, [⟨7, 0, .ro, 0x0, none⟩]⟩,
  ⟨0x200020, 0x0, 1, .none, true, [⟨31, 0, .ro, 0x0, none⟩]⟩,
  ⟨0x200024, 0x0, 1, .none, true, [⟨31, 0, .ro, 0x0, none⟩]⟩,
  ⟨0x200028, 0x0, 1, .none, true, [⟨31, 0, .ro, 0x0, none⟩]⟩,
  ⟨0x20002C, 0x0, 1, .none, true, [⟨31, 0, .ro, 0x0, none⟩]⟩,
  ⟨0x200030, 0x0, 1, .none, true, [⟨0, 0, .ro, 0x0, none⟩, ⟨1, 1, .ro, 0x0, none⟩, ⟨2, 2, .ro, 0x0, none⟩]⟩,
  ⟨0x200034, 0x0, 1, .none, true, [⟨13, 0, .ro, 0x0, none⟩]⟩,
  ⟨0x200038, 0x0, 1, .none, false, [⟨31, 0, .ro, 0x0, none⟩]⟩,
  ⟨0x200040, 0x0, 1, .none, false, [⟨11, 0, .rw, 0x0, none⟩]⟩,
  ⟨0x200044, 0x0, 1, .none, true, [⟨7, 0, .ro, 0x0, none⟩, ⟨15, 8, .ro, 0x0, none⟩, ⟨16, 16, .ro, 0x0, none⟩, ⟨31, 20, .ro, 0x0, none⟩]⟩,
  ⟨0x200048, 0x0, 1, .none, true, [⟨15, 0, .ro, 0x1, none⟩, ⟨31, 16, .ro, 0x0, none⟩]⟩,
  ⟨0x2000A0, 0x0, 1, .none, false, [⟨11, 0, .rw, 0x0, none⟩]⟩,
  ⟨0x2000A4, 0x0, 1, .none, true, [⟨0, 0, .ro, 0x0, none⟩, ⟨31, 16, .ro, 0x0, none⟩]⟩,
  ⟨0x2000A8, 0x0, 1, .none, false, [⟨31, 0, .ro, 0x0, none⟩]⟩,
  ⟨0x200400, 0x4, 128, .none, true, [⟨31, 0, .ro, 0x0, none⟩]⟩,
  ⟨0x202000, 0x4, 256, .none, false, [⟨2, 0, .ro, 0x2, none⟩, ⟨5, 3, .ro, 0x2, none⟩, ⟨6, 6, .ro, 0x0, none⟩]⟩,
  ⟨0x201000, 0x20, 64, .none, true, [⟨31, 0, .ro, 0x0, none⟩]⟩,
  ⟨0x201004, 0x20, 64, .none, true, [⟨31, 0, .ro, 0x0, none⟩]⟩,
  ⟨0x201008, 0x20, 64, .none, true, [⟨31, 0, .ro, 0x0, none⟩]⟩,
  ⟨0x20100C, 0x20, 64, .none, true, [⟨31, 0, .ro, 0x0, none⟩]⟩,
  ⟨0x201010, 0x20, 64, .none, true, [⟨0, 0, .ro, 0x0, none⟩, ⟨1, 1, .ro, 0x0, none⟩, ⟨2, 2, .ro, 0x0, none⟩, ⟨3, 3, .ro, 0x0, none⟩, ⟨6, 4, .ro, 0x0, none⟩, ⟨10, 8, .ro, 0x0, none⟩]⟩,
  ⟨0x201800, 0x0, 1, .none, true, [⟨5, 0, .ro, 0x0, none⟩, ⟨6, 6, .ro, 0x0, none⟩, ⟨13, 8, .ro, 0x0, none⟩, ⟨14, 14, .ro, 0x0, none⟩, ⟨15, 15, .ro, 0x0, none⟩]⟩,
  ⟨0x200080, 0x0, 1, .none, true, [⟨31, 0, .ro, 0x0, none⟩]⟩,
  ⟨0x200084, 0x0, 1, .none, true, [⟨31, 0, .ro, 0x0, none⟩]⟩,
  ⟨0x200088, 0x0, 1, .none, true, [⟨31, 0, .ro, 0x0, none⟩]⟩,
  ⟨0x20008C, 0x0, 1, .none, true, [⟨31, 0, .ro, 0x0, none⟩]⟩,
  ⟨0x200090, 0x0, 1, .none, true, [⟨0, 0, .ro, 0x0, none⟩, ⟨1, 1, .ro, 0x0, none⟩, ⟨2, 2, .ro, 0x0, none⟩, ⟨3, 3, .ro, 0x0, none⟩, ⟨6, 4, .ro, 0x0, none⟩, ⟨10, 8, .ro, 0x0, none⟩]⟩]

/-- Rows of the Boot block. -/
def rowsBoot0 : List RegRow := [
  ⟨0x308000, 0x0, 1, .none, false, [⟨0, 0, .w1c, 0x0, none⟩, ⟨1, 1, .w1c, 0x0, none⟩, ⟨2, 2, .w1c, 0x0, none⟩, ⟨3, 3, .w1c, 0x0, none⟩, ⟨4, 4, .w1c, 0x0, none⟩, ⟨5, 5, .w1c, 0x0, none⟩]⟩,
  ⟨0x308004, 0x0, 1, .none, false, [⟨15, 0, .ro, 0x0, none⟩]⟩,
  ⟨0x308008, 0x0, 1, .none, false, [⟨13, 0, .rw, 0x64, some (1, 10000)⟩]⟩,
  ⟨0x30800C, 0x0, 1, .none, true, [⟨12, 0, .ro, 0x0, none⟩]⟩,
  ⟨0x308020, 0x0, 1, .none, false, [⟨31, 0, .ro, 0x0, none⟩]⟩,
  ⟨0x308024, 0x0, 1, .none, false, [⟨11, 0, .ro, 0x800, none⟩, ⟨12, 12, .ro, 0x0, none⟩, ⟨13, 13, .ro, 0x0, none⟩]⟩,
  ⟨0x308030, 0x0, 1, .none, false, [⟨15, 0, .rw, 0x0, none⟩]⟩,
  ⟨0x308034, 0x0, 1, .none, false, [⟨31, 0, .rw, 0x0, none⟩]⟩,
  ⟨0x308038, 0x0, 1, .none, false, [⟨31, 0, .ro, 0x0, none⟩]⟩,
  ⟨0x30803C, 0x0, 1, .none, false, [⟨15, 0, .rw, 0x1F40, some (1, 65535)⟩]⟩,
  ⟨0x308010, 0x0, 1, .low, true, [⟨31, 0, .ro, 0x0, none⟩]⟩,
  ⟨0x308014, 0x0, 1, .high, true, [⟨31, 0, .ro, 0x0, none⟩]⟩,
  ⟨0x308018, 0x0, 1, .low, true, [⟨31, 0, .ro, 0x0, none⟩]⟩,
  ⟨0x30801C, 0x0, 1, .high, true, [⟨31, 0, .ro, 0x0, none⟩]⟩,
  ⟨0x308028, 0x0, 1, .low, false, [⟨31, 0, .rw, 0x0, none⟩]⟩,
  ⟨0x30802C, 0x0, 1, .high, false, [⟨31, 0, .rw, 0x0, none⟩]⟩,
  ⟨0x308040, 0x0, 1, .none, false, [⟨15, 0, .ro, 0x0, none⟩, ⟨31, 16, .rw, 0x0, none⟩]⟩,
  ⟨0x308050, 0x4, 4, .none, false, [⟨31, 0, .ro, 0x0, none⟩]⟩,
  ⟨0x308060, 0x4, 4, .none, false, [⟨31, 0, .rw, 0x0, none⟩]⟩,
  ⟨0x308100, 0x10, 16, .low, false, [⟨31, 0, .rw, 0x0, none⟩]⟩,
  ⟨0x308104, 0x10, 16, .high, false, [⟨31, 0, .rw, 0x0, none⟩]⟩,
  ⟨0x308108, 0x10, 16, .low, true, [⟨31, 0, .ro, 0x0, none⟩]⟩,
  ⟨0x30810C, 0x10, 16, .high, true, [⟨31, 0, .ro, 0x0, none⟩]⟩,
  ⟨0x300000, 0x0, 1, .none, false, [⟨0, 0, .w1c, 0x0, none⟩, ⟨1, 1, .w1c, 0x0, none⟩, ⟨2, 2, .w1c, 0x0, none⟩]⟩,
  ⟨0x300008, 0x0, 1, .none, true, [⟨3, 0, .ro, 0x0, none⟩, ⟨6, 4, .ro, 0x0, none⟩, ⟨7, 7, .ro, 0x0, none⟩, ⟨9, 8, .ro, 0x0, none⟩, ⟨23, 16, .ro, 0x0, none⟩]⟩,
  ⟨0x30000C, 0x0, 1, .none, false, [⟨0, 0, .wo, 0x0, none⟩, ⟨31, 16, .wo, 0x0, none⟩]⟩,
  ⟨0x300010, 0x0, 1, .none, true, [⟨31, 0, .ro, 0x0, none⟩]⟩,
  ⟨0x300014, 0x0, 1, .none, false, [⟨31, 0, .rw, 0x0, none⟩]⟩,
  ⟨0x300018, 0x0, 1, .none, false, [⟨1, 0, .ro, 0x0, none⟩, ⟨31, 31, .wo, 0x0, none⟩]⟩,
  ⟨0x30001C, 0x0, 1, .none, false, [⟨31, 0, .ro, 0x0, none⟩]⟩,
  ⟨0x300020, 0x0, 1, .none, false, [⟨15, 0, .ro, 0x0, none⟩]⟩,
  ⟨0x300024, 0x0, 1, .none, false, [⟨27, 0, .rw, 0x0, none⟩, ⟨31, 31, .wo, 0x0, none⟩]⟩,
  ⟨0x300004, 0x0, 1, .none, false, [⟨15, 0, .ro, 0x0, none⟩]⟩,
  ⟨0x301000, 0x0, 1, .none, false, [⟨0, 0, .w1c, 0x0, none⟩, ⟨1, 1, .w1c, 0x0, none⟩, ⟨2, 2, .w1c, 0x0, none⟩, ⟨3, 3, .w1c, 0x0, none⟩, ⟨4, 4, .w1c, 0x0, none⟩]⟩,
  ⟨0x301008, 0x0, 1, .none, false, [⟨31, 0, .ro, 0x0, none⟩]⟩,
  ⟨0x30100C, 0x0, 1, .none, false, [⟨31, 0, .ro, 0x0, none⟩]⟩,
  ⟨0x301010, 0x0, 1, .none, false, [⟨7, 0, .ro, 0x0, none⟩, ⟨15, 8, .ro, 0x0, none⟩, ⟨17, 16, .ro, 0x0, none⟩]⟩,
  ⟨0x30101C, 0x0, 1, .none, false, [⟨26, 0, .rw, 0x0, none⟩]⟩,
  ⟨0x301028, 0x0, 1, .none, false, [⟨1, 0, .rw, 0x0, none⟩, ⟨30, 30, .ro, 0x0, none⟩, ⟨31, 31, .wo, 0x0, none⟩]⟩,
  ⟨0x301004, 0x0, 1, .none, false, [⟨15, 0, .ro, 0x0, none⟩]⟩]

/-- Rows of the Boot block. -/
def rowsBoot1 : List RegRow := [
  ⟨0x301014, 0x0, 1, .low, false, [⟨31, 0, .rw, 0x0, none⟩]⟩,
  ⟨0x301018, 0x0, 1, .high, false, [⟨31, 0, .rw, 0x0, none⟩]⟩,
  ⟨0x301020, 0x0, 1, .low, false, [⟨31, 0, .rw, 0x0, none⟩]⟩,
  ⟨0x301024, 0x0, 1, .high, false, [⟨31, 0, .rw, 0x0, none⟩]⟩,
  ⟨0x301040, 0x4, 12, .none, false, [⟨31, 0, .ro, 0x0, none⟩]⟩]

/-- The rows of the block that holds an offset (R35). -/
def rowsAt (off : Nat) : List RegRow :=
  if off < 0x100000 then rowsId else
  if off < 0x200000 then rowsClk else
  if off < 0x300000 then rowsFlt else
  if off < 0x400000 then rowsBoot0 ++ rowsBoot1 else
  if off < 0x800000 then rowsHst else
  if off < 0xC00000 then rowsSrv0 ++ rowsSrv1 else
  if off < 0x1000000 then rowsCmp else
  if off < 0x2000000 then rowsArr0 ++ rowsArr1 else
  if off < 0x2400000 then rowsSig else
  if off < 0x2800000 then rowsRad else
  if off < 0x2900000 then rowsFh else
  if off < 0x2A00000 then rowsPtp else
  if off < 0x3000000 then rowsTm else
  if off < 0x3800000 then rowsAvl0 ++ rowsAvl1 else
  if off < 0x3C00000 then rowsSyn else
  if off < 0x4000000 then rowsMem else
  []

/-- Whether a row covers an offset. -/
def RegRow.covers (r : RegRow) (off : Nat) : Bool :=
  if r.count = 1 then off == r.base
  else decide (r.base ≤ off) && decide ((off - r.base) % r.stride = 0) && decide ((off - r.base) / r.stride < r.count)

/-- The row of the register at an offset, if a chapter defines one (R11). -/
def rowOf (off : Nat) : Option RegRow := (rowsAt off).find? (fun r => r.covers off)

/-- The reset value of a register: each field at its reset value, reserved bits 0. -/
def RegRow.rst (r : RegRow) : Nat := r.fields.foldl (fun a f => a + f.rst * 2 ^ f.lo) 0

/-- The reset value of the register at an offset; 0 where no chapter defines one (R11). -/
def resetAt (off : Nat) : Nat :=
  match rowOf off with
  | some r => r.rst
  | none => 0

end Sys2Proof.Machine
end

