-- ==== Sys2Proof/Machine/State.lean ====
section
/-! DEFINITION. The state of the block as plain data: every register, FIFO, buffer, counter, mode and pin the spec
gives it, and the queue of waiting commands. A field's default is its value at reset; the marks beside the
defaults name the entries of the assumption log. -/
namespace Sys2Proof.Machine
open Sys2Proof

/-- An entry of the proof strip, and the head copy (R519). -/
structure StripEntry where
  /-- R519 128, the message -/
  msg : FltMsg := {}
  /-- R519 1, the entry holds a message -/
  valid : Bool := false
  /-- R519 1, a collector self-fault was merged into this head -/
  secondary : Bool := false
  /-- R519 1, this message made its source severe -/
  madeSevere : Bool := false
  /-- R519 1, the message entered the fault queue -/
  queued : Bool := false
  /-- R519 3, highest action taken -/
  action : Nat := 0
  /-- R519 3, phase in force after its actions -/
  phase : Nat := 0
  deriving DecidableEq, Repr

/-- The collector's record of one source (R492). -/
structure FltSource where
  /-- R488 12, SEQ the next message of the source carries -/
  seq : Nat := 0
  /-- R518 12, SEQ of its last message -/
  lastSeq : Nat := 0
  /-- R492 8, count -/
  c : Nat := 0
  /-- R492 32, tick at which the window opened -/
  t0 : Nat := 0
  /-- R492 1, the source is SEVERE -/
  severe : Bool := false
  /-- R509 16, RSEQ of the last applied SRC_CLEAR -/
  rseq : Nat := 0
  /-- R491 8, threshold N from FAULT_POLICY -/
  n : Nat := 0
  /-- R491 16, window W from FAULT_POLICY -/
  w : Nat := 1
  deriving DecidableEq, Repr

/-- The peer table's record of one chip (R511). -/
structure PeerRec where
  /-- R511 1, the DEAD bit a VERDICT wrote -/
  dead : Bool := false
  /-- R512 1, a DEAD verdict is in force -/
  inForce : Bool := false
  /-- R512, shutter count at which a verdict was applied that waits for a shutter -/
  pend : Option Nat := none
  /-- R509 16, RSEQ of the last applied VERDICT -/
  rseq : Nat := 0
  deriving DecidableEq, Repr

/-- Recovery state of a serving partition (R507). -/
inductive RecState where
  | running
  | stepFault
  | replaying
  deriving DecidableEq, Repr

/-- Recovery record of one partition (R507). -/
structure PartRec where
  /-- R507 2, recovery state -/
  st : RecState := .running
  /-- R507 4, replay attempts -/
  attempts : Nat := 0
  /-- R507 1, waits for a REPLAY command -/
  held : Bool := false
  /-- R507 1, a REPLAY command was applied and the replay has not started -/
  cmd : Bool := false
  /-- R507, shutter count at the last entry into STEP_FAULT -/
  since : Nat := 0
  /-- R507 1, WAIT_EXP has expired since that entry -/
  tmo : Bool := false
  /-- R509 16, RSEQ of the last applied REPLAY -/
  rseq : Nat := 0
  deriving DecidableEq, Repr

/-- Phases of the collector (R498). -/
inductive FltPhase where
  | startup
  | service
  | test
  | recovery
  | safelight
  deriving DecidableEq, Repr

/-- The fault collector (R487). -/
structure Flt where
  /-- R488, messages sent and not yet handled, first in first out -/
  inbox : List FltMsg := []
  /-- R491, record of every source -/
  src : SMap FltSource := []
  /-- R496 8,192 words, the fault queue, three words a message -/
  queue : List FltMsg := []
  /-- R497 64 entries, the proof strip -/
  strip : SMap StripEntry := []
  /-- R519 6, entry written next -/
  ptr : Nat := 0
  /-- R519 1, all 64 entries have been written -/
  wrapped : Bool := false
  /-- R519 6, entry of the current head -/
  headIdx : Nat := 0
  /-- R519 1, the current phase has a head -/
  headValid : Bool := false
  /-- R519, the head copy FLT_HEAD_W0 to FLT_HEAD_FLAGS -/
  head : StripEntry := {}
  /-- R497 1, frozen by the safelight state -/
  frozen : Bool := false
  /-- R498 3, the phase in force -/
  phase : FltPhase := .startup
  /-- R545 1, TEST entered since reset -/
  tested : Bool := false
  /-- R498 1, TEST holds since the shutter after FLT_CTL.TEST was written 1 -/
  inTest : Bool := false
  /-- R513 32, tick at which the governor's window opened -/
  govT0 : Nat := 0
  /-- R513 8, quarantines in the current window -/
  govCnt : Nat := 0
  /-- R511 4,096 chips, the peer table -/
  peers : SMap PeerRec := []
  /-- R507 16 partitions, recovery records -/
  part : SMap PartRec := []
  /-- R517 128, the message the last read of FLT_Q_W0 latched -/
  lastQ : FltMsg := {}
  /-- R517 1, FLT_Q_TAG.VALID -/
  lastQValid : Bool := false
  /-- R517 2, FLT_Q_TAG.CORR and UNCORR -/
  lastQErr : Nat := 0
  /-- R501 1, SAFE_L is asserted -/
  safeL : Bool := false
  deriving DecidableEq, Repr

/-- A serving pipeline of one partition (R59). -/
structure Pipe where
  /-- R59 64, tick of the first step after the last rebase -/
  base : Nat := 0
  /-- R62 1, a rebase waits for the next step start -/
  rebase : Bool := false
  /-- R62 8, the PERIOD in force; a written one waits for the next step start -/
  period : Nat := 0
  /-- R60 1, some step has retired since reset -/
  ran : Bool := false
  /-- R61 1, STEP_LATE was raised and lag has not returned to 0 -/
  lateOnce : Bool := false
  deriving DecidableEq, Repr

/-- Part of the exposure a resource is in (R51). -/
inductive LeasePhase where
  | openLease
  | guard
  | radio
  deriving DecidableEq, Repr

/-- Time base, shutter and leases (R43). -/
structure Tim where
  /-- R46 64, device time base in ns at the last shutter -/
  tb : Nat := 0
  /-- R43, ns counted since the last shutter (the time base between shutters) -/
  subNs : Nat := 0
  /-- R430 16, fraction of a nanosecond of the time base -/
  frac : Nat := 0
  /-- R43 64, tick number of the current exposure -/
  tick : Nat := 0
  /-- R48, time base value of the next shutter -/
  nextEdge : Nat := 125000
  /-- R16, shutters since reset; limits of N exposures count it -/
  expo : Nat := 0
  /-- R45 1, the time source is valid -/
  srcValid : Bool := false
  /-- R46 1, the source became valid in FREE and the step waits for the next shutter -/
  stepPend : Bool := false
  /-- R46 1, a backward step was refused; tried again only after the source is lost and valid again -/
  refused : Bool := false
  /-- R323, last offset measured by the time source, local minus source, 2^-16 ns -/
  srcOff : Int := 0
  /-- R46, ticks d by which the next shutter moves tick deadlines -/
  rebaseD : Nat := 0
  /-- R439, what the last pulse on PPS_IN in FREE adds to the time base to put a second's start on the pulse, ns -/
  pps : Option Int := none
  /-- R430, the steps that the time base has made, ns: the residence counter is the time base without them -/
  steps : Int := 0
  /-- R46, signed step that the next shutter applies to RELEASE_NS -/
  stepNs : Int := 0
  /-- R45 5, consecutive exposures within 50 ns -/
  lockRun : Nat := 0
  /-- R47, time base value at entry into HOLDOVER -/
  holdStart : Nat := 0
  /-- R47 1, the holdover limit was reported in this HOLDOVER -/
  holdDone : Bool := false
  /-- R51, lease part of every radio-capable resource -/
  lease : SMap LeasePhase := []
  /-- R57, radio work of this exposure that is not complete -/
  radioWork : List RadioWork := []
  /-- R55, cells whose work of this exposure was given up -/
  gaveUp : List Nat := []
  /-- R59 16, the serving pipelines -/
  pipe : SMap Pipe := []
  deriving DecidableEq, Repr

/-- A weight slot of the cells (R82). -/
structure WSlot where
  /-- R82 1, the slot holds a weight set -/
  valid : Bool := false
  /-- R83 1, its load has completed -/
  ready : Bool := false
  /-- R83 32, WGT_ADDR of the set -/
  addr : Nat := 0
  /-- R83, FMT_A, FMT_W and MX of the set -/
  fmts : Nat := 0
  /-- R185 1, an uncorrectable error was met while loading -/
  err : Bool := false
  /-- R82, the descriptor that it was loaded for and that has not started -/
  load : Option Desc := none
  /-- R79, the weight rows and scales, by offset from WGT_ADDR -/
  bytes : SMap Byte := []
  deriving DecidableEq, Repr

/-- A pass in a queue of an array or in flight (R85). -/
structure Pass where
  /-- R85 512, the descriptor -/
  d : Desc := {}
  /-- R163 1, every pass of the issue returns a completion -/
  cpl : Bool := false
  /-- R81, beats written -/
  beat : Nat := 0
  /-- R98 1, its residue check failed; no further entry is written -/
  failed : Bool := false
  /-- R87, number of its chain on the array -/
  cid : Nat := 0
  /-- R77, the weight set in the slot that its beats are tagged with -/
  w : WSlot := {}
  /-- R98 1, its residue mismatch is reported, and the spare re-runs its chain -/
  mism : Bool := false
  /-- R103 1, an operand of it was lost in the copy to a spare -/
  lost : Bool := false
  deriving DecidableEq, Repr

/-- A chain of a job in a queue of an array (R87). -/
structure Chain where
  /-- R87, number of the chain on the array -/
  cid : Nat := 0
  /-- R94 1, its LAST or ONLY pass has started; the chain waits for its end -/
  ending : Bool := false
  /-- R95 1, the chain is in the radio queue -/
  radio : Bool := false
  /-- R95 32, owning job -/
  job : Nat := 0
  /-- R87, fields the later passes must carry -/
  d : Desc := {}
  /-- R87, mask contents -/
  mask : List Byte := []
  /-- R123 1, an entry of the chain saturated -/
  sat : Bool := false
  /-- R88 4, 0 sound, 7 an earlier pass was rejected, 0xA poisoned -/
  bad : Nat := 0
  /-- R99 1, the chain was re-run on the spare after a residue failure -/
  res : Bool := false
  /-- R214 32, SEQ of its last completed pass -/
  last : Option Nat := none
  deriving DecidableEq, Repr

/-- State of a logical array (R101). -/
inductive MapSt where
  | inService
  | swapPending
  | copying
  | onSpare
  | offline
  deriving DecidableEq, Repr

/-- State of a hardware thread (R151). -/
inductive ThrSt where
  | idle
  | ready
  | wait
  | parked
  | spilled
  | faulted
  deriving DecidableEq, Repr

/-- What a waiting thread waits for (R151). -/
inductive WaitWhy where
  | none
  | pwait
  | mwait
  | msend
  | fence
  | twalk
  | issue
  | access
  deriving DecidableEq, Repr

/-- A hardware thread of a thread engine (R148). -/
structure Thr where
  /-- R151 3, state -/
  st : ThrSt := .idle
  /-- R151 3, state before the lease park -/
  prev : ThrSt := .ready
  /-- R148 32, bound job -/
  job : Nat := 0
  /-- R148 3, bound priority -/
  prio : Nat := 0
  /-- R148 16, bound tenant -/
  tenant : Nat := 0
  /-- R332 8, accounting slot of the tenant -/
  slot : Nat := 0
  /-- R148 4, bound partition -/
  part : Nat := 0
  /-- R148 1, radio-bound -/
  radio : Bool := false
  /-- R154 48, instruction address, DESIGN CHOICE 3 -/
  pc : Nat := 0
  /-- R152 32 × 32 × 32, vector registers, lane l of v(r) at key 32 r + l, DESIGN CHOICE 3 -/
  v : SMap Nat := []
  /-- R152 32 × 64, scalar registers, DESIGN CHOICE 3 -/
  s : SMap Nat := []
  /-- R152 8 × 32, predicate registers, DESIGN CHOICE 3 -/
  p : SMap Nat := []
  /-- R153 5, FPFLAGS -/
  fpflags : Nat := 0
  /-- R153 3, TSTAT -/
  tstat : Nat := 0
  /-- R151, what it waits for -/
  why : WaitWhy := .none
  /-- R151 48, address of the instruction that it issued last or waits to issue -/
  ipc : Nat := 0
  /-- R151 5, destination register of the waiting instruction -/
  wD : Nat := 0
  /-- R166, queue, address or reach of the waiting instruction -/
  wA : Nat := 0
  /-- R166 64, word, tag or base of the waiting instruction -/
  wB : Nat := 0
  /-- R96, descriptor of an issue held on a full queue -/
  wHeld : Option Pass := none
  /-- R96, shutter count at the start of the hold -/
  wSince : Nat := 0
  /-- R163 6, outstanding passes -/
  outst : Nat := 0
  /-- R161, passes whose last accumulator write is outstanding -/
  accOut : Nat := 0
  /-- R165, completions not yet taken, oldest first -/
  comps : List Nat := []
  /-- R161, tags of remote accesses outstanding -/
  rmtOut : List Nat := []
  /-- R182 8, kind of the last fault -/
  kind : Nat := 0
  /-- R152 2, error held by a register that the next instruction reads: 0 none, 1 correctable, 2 uncorrectable -/
  ecc : Nat := 0
  deriving DecidableEq, Repr

/-- A job pre-empted on an array (R215). -/
structure Spill where
  /-- R214 32, the victim -/
  job : Nat := 0
  /-- R215 32, the incoming job -/
  inc : Nat := 0
  /-- R214, its save area -/
  base : Nat := 0
  /-- R214 64, threads to be saved -/
  thr : Nat := 0
  /-- R214 32, row blocks to be saved -/
  acc : Nat := 0
  /-- R214 64, store regions to be saved -/
  store : Nat := 0
  /-- R215 32, row blocks not yet saved, or not yet returned -/
  accLeft : Nat := 0
  /-- R215 64, store regions not yet saved, or not yet returned -/
  storeLeft : Nat := 0
  /-- R215 1, the pass boundary has come and the threads are spilled -/
  begun : Bool := false
  /-- R215 1, the header is written: the spill has ended -/
  hdr : Bool := false
  /-- R216 1, the reload is in progress -/
  back : Bool := false
  /-- R218 1, the save area is poisoned -/
  poison : Bool := false
  /-- R214, what the save area does not lay out of the saved threads: binding, waits, completions -/
  thrs : List (Nat × Thr) := []
  deriving DecidableEq, Repr

/-- A logical array (R95). -/
structure Arr where
  /-- R95 256, the open queue, oldest first -/
  openQ : List Pass := []
  /-- R95 64, the radio queue, oldest first -/
  radioQ : List Pass := []
  /-- R83, passes started and not ended, oldest first -/
  run : List Pass := []
  /-- R95, open chains by job and queue -/
  chains : List Chain := []
  /-- R95, job whose open chain the open queue is issuing -/
  cur : Option Nat := none
  /-- R87, number the next chain takes -/
  nextCid : Nat := 1
  /-- R74, weight slot A -/
  slotA : WSlot := {}
  /-- R74, weight slot B -/
  slotB : WSlot := {}
  /-- R77 1, slot B is active -/
  actB : Bool := false
  /-- R101 3, substitution state -/
  map : MapSt := .inService
  /-- R101 1, the copy to the spare is complete -/
  copyDone : Bool := false
  /-- R101, shutter count at the substitution request -/
  subReq : Nat := 0
  /-- R215, jobs pre-empted on the array, oldest first -/
  spills : List Spill := []
  /-- R99 1, the die's spare runs the rest of this array's radio work of the exposure -/
  rerun : Bool := false
  /-- R99, address ranges the spare serves until the next shutter -/
  redir : List (Nat × Nat) := []
  deriving DecidableEq, Repr

/-- A compute die (R110). -/
structure Die where
  /-- R110 4, disabled position, 0xF in the ZS9-64, DESIGN CHOICE 4 -/
  disabled : Nat := 15
  /-- R110 7, logical array the spare serves, wholly or for its radio passes only (R102) -/
  spareFor : Nat := 127
  /-- R110 1, the spare serves a logical array -/
  spareBusy : Bool := false
  /-- R110 1, the spare runs a radio re-run in this exposure -/
  rerun : Bool := false
  deriving DecidableEq, Repr

/-- A physical array (R112). -/
structure Phys where
  /-- R101 1, isolated -/
  isolated : Bool := false
  /-- R112 16, residue failures since reset -/
  resCnt : Nat := 0
  deriving DecidableEq, Repr

/-- The thread engines (R148). -/
structure Te where
  /-- R148 64 × 64, thread t of engine n at key 64 n + t -/
  thr : SMap Thr := []
  /-- R166 16 × 128 × 64, queue q of engine n at key 16 n + q, oldest first -/
  mq : SMap (List Nat) := []
  /-- R149 6, thread each engine issued last, DESIGN CHOICE 3 -/
  last : SMap Nat := []
  deriving DecidableEq, Repr

/-- A job of a radio accelerator (R382). -/
structure AccJob where
  /-- R382, submitting core -/
  core : Nat := 0
  /-- R382, submitting thread -/
  thr : Nat := 0
  /-- R382 32, job of that thread -/
  job : Nat := 0
  /-- R380 4, partition of a tenant job -/
  part : Nat := 0
  /-- R382 1, RADIO -/
  radio : Bool := false
  /-- R382 3, KIND that the submission named -/
  kind : Nat := 0
  /-- R382 3, engine -/
  eng : Nat := 0
  /-- R382 32, CTRL -/
  ctrl : Nat := 0
  /-- R382 32, SEQ -/
  seq : Nat := 0
  /-- R382 64, IN -/
  src : Nat := 0
  /-- R382 64, OUT -/
  dst : Nat := 0
  /-- R382 32, IN_LEN -/
  inLen : Nat := 0
  /-- R382 32, OUT_LEN -/
  outLen : Nat := 0
  /-- R382, PARAM -/
  param : List Byte := []
  /-- R382 3, priority of the submitting thread -/
  prio : Nat := 0
  /-- R494 1, it was reissued from an isolated engine -/
  re : Bool := false
  deriving DecidableEq, Repr

/-- What a signal-core thread waits for (R368). -/
inductive SigWhy where
  | none
  | jwait
  | xwait
  | jsub
  | xfer
  deriving DecidableEq, Repr

/-- A thread of a signal core (R369). -/
structure SigThr where
  /-- R368 3, state; never SPILLED -/
  st : ThrSt := .idle
  /-- R368, state before it was parked -/
  prev : ThrSt := .ready
  /-- R365 1, radio-bound -/
  radio : Bool := false
  /-- R365 32, bound job -/
  job : Nat := 0
  /-- R366 3, bound priority -/
  prio : Nat := 0
  /-- R387 16, bound tenant -/
  tenant : Nat := 0
  /-- R383 8, accounting slot -/
  slot : Nat := 0
  /-- R365 4, bound partition -/
  part : Nat := 0
  /-- R371 48, bundle address -/
  pc : Nat := 0
  /-- R369 16 × 16 × 48, c registers, component q of lane l of c(r) at 32 r + 2 l + q -/
  c : SMap Nat := []
  /-- R369 4 × 16 × 112, accumulators, at 32 r + 2 l + q -/
  acc : SMap Nat := []
  /-- R369 16 × 32, scalars -/
  x : SMap Nat := []
  /-- R369 16 × 19, address registers -/
  ar : SMap Nat := []
  /-- R369 16 × 20, offset registers -/
  ofs : SMap Nat := []
  /-- R369 8 × 38, BASE of ml(r) at 2 r, LEN at 2 r + 1 -/
  ml : SMap Nat := []
  /-- R370 5, VL -/
  vl : Nat := 16
  /-- R370 7, RND -/
  rnd : Nat := 0
  /-- R370 5, FLAGS -/
  flags : Nat := 0
  /-- R383 7, logical core whose radio program it runs -/
  tid : Nat := 0
  /-- R368, what it waits for -/
  why : SigWhy := .none
  /-- R382 4, destination of a waiting `jwait` -/
  wD : Nat := 0
  /-- R385, job of a waiting `jsub` -/
  wJob : Option AccJob := none
  /-- R385, transfer of a waiting `xfer` -/
  wXfer : Option Transfer := none
  /-- R381, bank of that transfer -/
  wBank : Nat := 0
  /-- R382 5, jobs outstanding -/
  outst : Nat := 0
  /-- R381 3, transfers outstanding -/
  xfers : Nat := 0
  /-- R382, completions not yet taken, oldest first -/
  comps : List Nat := []
  /-- R387 8, kind of the last fault -/
  kind : Nat := 0
  /-- R369 2, error that the next bundle reads: 0 none, 1 correctable, 2 uncorrectable -/
  ecc : Nat := 0
  deriving DecidableEq, Repr

/-- An engine of the radio accelerators (R382). -/
structure Eng where
  /-- R382 32, the radio queue, oldest first -/
  radioQ : List AccJob := []
  /-- R382 64, the open queue, oldest first -/
  openQ : List AccJob := []
  /-- R419 32, jobs completed -/
  jobs : Nat := 0
  /-- R419 32, cycles with a job running -/
  busy : Nat := 0
  /-- R419 1, isolated -/
  isolated : Bool := false
  /-- R51 1, the open job that it may have begun before the shutter has not ended in the guard -/
  guard : Bool := false
  deriving DecidableEq, Repr

/-- The signal cores and the radio accelerators (R363). -/
structure Sig where
  /-- R365 96 × 8, thread t of core c at key 8 c + t -/
  thr : SMap SigThr := []
  /-- R366 3, thread each core issued last, DESIGN CHOICE 3 -/
  last : SMap Nat := []
  /-- R383, re-run core: failed core it stands in for, plus 1 -/
  rerun : SMap Nat := []
  /-- R382 80, engines, by source number (R489) -/
  eng : SMap Eng := []
  deriving DecidableEq, Repr

/-- The arbiter of a stage-memory bank (R190). -/
structure Bank where
  /-- R189, transfer that holds the grant -/
  cur : Option Transfer := none
  /-- R190 8, pending transfers, oldest first, the granted one not listed -/
  pend : List Transfer := []
  /-- R191, transfers that found the queue full -/
  stall : List Transfer := []
  deriving DecidableEq, Repr

/-- A channel of an array DMA (R199). -/
structure DmaCh where
  /-- R199 32, bound job -/
  job : Option Nat := none
  /-- R199 1, bound to the radio program -/
  radio : Bool := false
  /-- R200 4, slot served next -/
  slot : Nat := 0
  /-- R200 1, a descriptor is in progress -/
  busy : Bool := false
  /-- R215 1, stopped by a spill -/
  stop : Bool := false
  /-- R199 4, partition of the job -/
  part : Nat := 0
  /-- R332 8, accounting slot of the job -/
  acct : Nat := 0
  /-- R200, descriptors whose GO is set, by slot: the fields written before it -/
  go : List (Nat × DmaDesc) := []
  /-- R202, rows of the descriptor in progress that have moved -/
  row : Nat := 0
  /-- R204 4, error of the descriptor in progress -/
  code : Nat := 0
  deriving DecidableEq, Repr

/-- A completion of a bulk mover (R207). -/
structure BulkCpl where
  /-- R207 32, SEQ -/
  seq : Nat := 0
  /-- R207 32, status -/
  status : Nat := 0
  /-- R207 64, bytes written -/
  bytes : Nat := 0
  /-- R205, who submitted the descriptor -/
  sub : BulkSub := .radio
  deriving DecidableEq, Repr

/-- The memories and their movers (R184). -/
structure MemS where
  /-- R185, addresses of 64-bit SRAM words and 64-byte LPDDR lines that hold an uncorrectable error -/
  uncorr : List Nat := []
  /-- R185, addresses of words and lines that hold a correctable error -/
  corr : List Nat := []
  /-- R190 512, the bank arbiters -/
  bank : SMap Bank := []
  /-- R200 64 × 16 KiB, ring memory of array n at key 0x4000 n + offset, DESIGN CHOICE 3 -/
  ring : SMap Byte := []
  /-- R199 64 × 16, channel c of array n at key 16 n + c -/
  dma : SMap DmaCh := []
  /-- R205 8 × 4, submission queue q of mover m at key 4 m + q -/
  bulkQ : SMap (List BulkDesc) := []
  /-- R205, queue a mover is serving, plus 1 -/
  bulkCur : SMap Nat := []
  /-- R207, completion FIFO of each submitter, oldest first: 0 the serving engine, 1 the job scheduler, 2 the radio program -/
  bulkCpl : SMap (List BulkCpl) := []
  /-- R203, R207, what each data mover is moving: channel c of array n at key 16 n + c, bulk mover m at 1,024 + m -/
  mv : SMap Move := []
  /-- R187, number of the next stage-memory transfer of a data mover -/
  mvId : Nat := 0
  /-- R203, channel of array n that moved the last beat of its class, at key 2 n for channels 0 to 11 and 2 n + 1 for 12 to 15 -/
  dmaLast : SMap Nat := []
  /-- R197 24, refresh-rate indication of each package, log2 of the multiple of the base rate -/
  refRate : SMap Nat := []
  /-- R197, refresh commands postponed at each controller -/
  refPost : SMap Nat := []
  /-- R210, words of each packet FIFO that hold an error, by their place from the oldest; true when it cannot be corrected: 0 the fault
  queue, 1 the manager's receive FIFO, 0x10 + p the step stream of partition p, 0x1000 + 16 n + q message queue q of engine n,
  0x2000 + 4 m + q queue q of bulk mover m -/
  fifoErr : SMap (List (Nat × Bool)) := []
  /-- R210 16, errors that each packet FIFO has corrected -/
  fifoCorr : SMap Nat := []
  /-- R198, next line that patrol scrub reads -/
  scrub : Nat := 0
  /-- R501 1, LPDDR6 is in self-refresh -/
  selfRefresh : Bool := false
  deriving DecidableEq, Repr

/-- An entry of a page table (R238). -/
structure PtEnt where
  /-- R237 64, HANDLE -/
  h : Nat := 0
  /-- R238 16 × 8, SLOTMAP -/
  map : List Nat := []
  deriving DecidableEq, Repr

/-- STATE of a context (R232). -/
inductive CtxSt where
  | free
  | queued
  | prefill
  | decode
  | pausing
  | paused
  | expired
  deriving DecidableEq, Repr

/-- A context entry, with the page table that belongs to it (R231). -/
structure Ctx where
  /-- R232, STATE -/
  st : CtxSt := .free
  /-- R231 3, priority -/
  prio : Nat := 0
  /-- R231 1, SAMPLED -/
  sampled : Bool := false
  /-- R231 1, AUTO_RESUME -/
  autoResume : Bool := false
  /-- R231 1, RESUME_PENDING -/
  resume : Bool := false
  /-- R231 1, RESUME_STATE -/
  resumeDecode : Bool := false
  /-- R231 16, TENANT -/
  tenant : Nat := 0
  /-- R231 32, MODEL -/
  model : Nat := 0
  /-- R231 64, SEED -/
  seed : Nat := 0
  /-- R231 18, RNG_CTX -/
  rng : Nat := 0
  /-- R231 4, partition of KEY: that of the home -/
  part : Nat := 0
  /-- R231 32, POS -/
  pos : Nat := 0
  /-- R231 32, PROMPT_LEN -/
  promptLen : Nat := 0
  /-- R231 32, PROMPT_DONE -/
  promptDone : Nat := 0
  /-- R231 32, GEN_LIMIT -/
  genLimit : Nat := 0
  /-- R231 32, GEN_COUNT -/
  genCount : Nat := 0
  /-- R231 64, ARRIVAL -/
  arrival : Nat := 0
  /-- R231 64, PT_ROOT -/
  root : Nat := 0
  /-- R231 16, PAGES_RESV -/
  resv : Nat := 0
  /-- R231 16, PAGES_LATENT -/
  latent : Nat := 0
  /-- R231 16, NEXT_CHUNK -/
  chunk : Nat := 0
  /-- R231 8, WINDOW -/
  win : Nat := 0
  /-- R231 2, ARCH_TIER -/
  tier : Nat := 0
  /-- R231 32, TTL -/
  ttl : Nat := 0
  /-- R231 64, EXPIRY -/
  expiry : Nat := 0
  /-- R231 64, ARCH_ADDR -/
  archAddr : Nat := 0
  /-- R231 32, ARCH_UNITS -/
  archUnits : Nat := 0
  /-- R231 8, LAST_REASON -/
  reason : Nat := 0
  /-- R258 2, SRC -/
  src : Nat := 0
  /-- R258 8, DEPTH -/
  depth : Nat := 0
  /-- R258 8, DEPTH_MAX -/
  depthMax : Nat := 0
  /-- R258 8, WIDTH -/
  width : Nat := 0
  /-- R258 8, NODES_MAX -/
  nodesMax : Nat := 0
  /-- R258 8, ZERO_RUN -/
  zeroRun : Nat := 0
  /-- R258 8, BACKOFF -/
  backoff : Nat := 0
  /-- R258 64, HOST_TREE -/
  hostTree : Nat := 0
  /-- R529 384, LOUPE, all zeros when empty -/
  loupe : List Byte := []
  /-- R231 64, USER_TAG -/
  userTag : Nat := 0
  /-- R231 32, TEMP -/
  temp : Nat := 0
  /-- R231 32, TOP_P -/
  topP : Nat := 0
  /-- R231 32, TOP_K -/
  topK : Nat := 0
  /-- R231 4 × 32, STOP -/
  stop : List Nat := []
  /-- R231 12, HOME -/
  home : Nat := 0
  /-- R231 16, OWN_EPOCH -/
  epoch : Nat := 0
  /-- R231 64, TOKENS_IN -/
  tokIn : Nat := 0
  /-- R231 64, TOKENS_OUT -/
  tokOut : Nat := 0
  /-- R231 64, UNIT_TICKS -/
  unitTicks : Nat := 0
  /-- R231 32, STEPS -/
  steps : Nat := 0
  /-- R231 32, PAUSES -/
  pauses : Nat := 0
  /-- R231 32, LAST_TOKEN -/
  last : Nat := 0
  /-- R280 18, home context number: the guest map for a guest entry -/
  homeCtx : Nat := 0
  /-- R280 4, partition of this chip that runs it -/
  owner : Nat := 0
  /-- R280 1, this chip is its home and another chip owns it -/
  away : Bool := false
  /-- R284 1, it waits for its hand-over -/
  hand : Bool := false
  /-- R284 1, its RELEASE was sent and has not been answered -/
  rel : Bool := false
  /-- R284 16, target of that RELEASE: chip × 16 + partition -/
  target : Nat := 0
  /-- R285 2, 1 its ACQUIRE, 2 its entry is awaited -/
  acq : Nat := 0
  /-- R238, page-table entries, by entry number -/
  pt : SMap PtEnt := []
  /-- R238, leaf units, by number -/
  leaf : SMap Nat := []
  /-- R260, latent pages reserved for the next step, a handle for each group -/
  lat : List (List Nat) := []
  /-- R260, latent pages of the current step -/
  latCur : List (List Nat) := []
  /-- R245 1, rung 1 cancelled its tree of the next step -/
  cancel : Bool := false
  /-- R270 1, rung 1 cancelled its tree of the current step -/
  cancelCur : Bool := false
  /-- R286, page-table entries changed since the last retirement update -/
  ptNew : List Nat := []
  /-- R479 1, closed by an abort as soon as it is live again -/
  late : Bool := false
  /-- R232 1, closed by a command; its pages are released at the next retirement -/
  leaving : Bool := false
  /-- R240 2, its archive reload: 0 none, 1 awaits the zero fill of its pages, 2 with a bulk mover -/
  reloading : Nat := 0
  deriving DecidableEq, Repr

/-- The tree of a context in a step (R262). -/
structure Tree where
  /-- R262, PARENT -/
  parent : List Nat := []
  /-- R262, NDEPTH -/
  depth : List Nat := []
  /-- R262, PLACE -/
  place : List Nat := []
  /-- R259, TOKEN of a host tree -/
  toks : Option (List Nat) := none
  /-- R262 8, DROPPED -/
  dropped : Nat := 0
  /-- R262 2, SOURCE -/
  src : Nat := 0
  /-- R262, LATENT -/
  lat : List (List Nat) := []
  deriving DecidableEq, Repr

/-- A context's part in a step (R244). -/
structure BatchEnt where
  /-- R244 18, context -/
  ctx : Nat := 0
  /-- R244 16, prompt tokens -/
  chunk : Nat := 0
  /-- R262, tree of a DECODE context -/
  tree : Option Tree := none
  /-- R232 1, admitted by a resume: it reloads in this step -/
  reload : Bool := false
  /-- R285 1, taken out of the batch: its acquisition failed -/
  out : Bool := false
  deriving DecidableEq, Repr

/-- Where a partition's current step stands (R240). -/
inductive StepPhase where
  | idle
  | planned
  | running
  | retiring
  deriving DecidableEq, Repr

/-- A step record and the window it goes to (R247). -/
structure Rec where
  /-- R248 8, window -/
  win : Nat := 0
  /-- R286 12, chip whose window it is -/
  home : Nat := 0
  /-- R247 64, length word -/
  len : Nat := 0
  /-- R247, payload -/
  bytes : List Byte := []
  deriving DecidableEq, Repr

/-- A context command that waits for a planning (R470). -/
structure SrvCmd where
  /-- R233 8, window, at the home chip -/
  win : Nat := 0
  /-- R233 32, position in the ring -/
  pos : Nat := 0
  /-- R470 12, chip that forwarded it -/
  home : Nat := 0
  /-- R470 8, opcode -/
  op : Nat := 0
  /-- R470 18, context, as this chip numbers it -/
  ctx : Nat := 0
  /-- R468 64, arrival tick -/
  arrival : Nat := 0
  /-- R483, time base at its fetch point -/
  ns : Nat := 0
  /-- R469, the entry -/
  body : List Byte := []
  /-- R526 1, 1 from a replay window -/
  log : Nat := 0
  deriving DecidableEq, Repr

/-- The serving engine's record of one partition (R242). -/
structure SrvPart where
  /-- R470 32, the serving job -/
  job : Option Nat := none
  /-- R234 32, handle of the model served -/
  model : Option Nat := none
  /-- R470 64, arrival tick of the PART_MODEL that bound the job -/
  modelArrival : Nat := 0
  /-- R242 64, index of the current step -/
  step : Nat := 0
  /-- R242 64, index of the next step -/
  next : Nat := 0
  /-- R240, the current step's phase -/
  phase : StepPhase := .idle
  /-- R244 512, its batch, in ascending context number -/
  batch : List BatchEnt := []
  /-- R247 64, its start tick -/
  start : Nat := 0
  /-- R240, shutter count since which its start is held -/
  holdAt : Nat := 0
  /-- R241 64, its admission cut -/
  cut : Nat := 0
  /-- R247, records of changes outside a step -/
  recs : List Rec := []
  /-- R248 8,192 words, the step-stream queue, oldest first -/
  stream : List Rec := []
  /-- R248, records of the retirement in progress that have not entered the queue -/
  out : List Rec := []
  /-- R60 1, the step's threads had halted at the last shutter -/
  ended : Bool := false
  /-- R248, shutter count since which a retirement waits for room -/
  waitAt : Option Nat := none
  /-- R256, why planning is halted: 1 stream, 2 replay wait, 3 replay horizon -/
  halt : Nat := 0
  /-- R256 1, RESUME was written -/
  resumed : Bool := false
  /-- R233, commands that wait for a planning -/
  cmds : List SrvCmd := []
  /-- R291, shutter count since which the partition drains -/
  drainAt : Nat := 0
  /-- R291 1, its drain has timed out -/
  drainTmo : Bool := false
  /-- R527, shutter count at which a replaying step's predecessor retired -/
  hznAt : Option Nat := none
  deriving DecidableEq, Repr

/-- A model slot (R234). -/
structure Model where
  /-- R234 1, a descriptor is loaded -/
  loaded : Bool := false
  /-- R234 26, load count -/
  count : Nat := 0
  /-- R235 1,024, the descriptor -/
  desc : List Byte := []
  deriving DecidableEq, Repr

/-- The serving engine (R227). -/
structure Srv where
  /-- R227 262,144, the live entries, by context number -/
  ctx : SMap Ctx := []
  /-- R228, entries changed since they were written back -/
  dirty : List Nat := []
  /-- R229 4,096 × 8, context cache: contexts of each set, most recently used first -/
  cache : SMap (List Nat) := []
  /-- R230, contexts whose cached entry holds an uncorrectable error -/
  bad : List Nat := []
  /-- R234 64, model slots -/
  model : SMap Model := []
  /-- R239 28, allocated units: length of the run that starts there, by unit from `SRV_KV_BASE` -/
  used : SMap Nat := []
  /-- R239 28, first unit and length of the runs that await their zero fill -/
  zero : List (Nat × Nat) := []
  /-- R240 28, first unit and length of the runs that await the archive copy that frees them -/
  leave : List (Nat × Nat) := []
  /-- R237 16, generation of the page that starts at a unit -/
  gen : SMap Nat := []
  deriving DecidableEq, Repr

/-- State of a composition slot (R299). -/
inductive CompSt where
  | unused
  | active
  | overlap
  | down
  deriving DecidableEq, Repr

/-- A composition slot (R275). -/
structure Comp where
  /-- R275, the current descriptor -/
  cfg : CompCfg := {}
  /-- R299 2, state -/
  st : CompSt := .unused
  /-- R278, the map of the epoch before, until it is retired -/
  old : Option CompCfg := none
  /-- R277 16, notices of the current epoch in flight -/
  curIn : Nat := 0
  /-- R277 16, notices of the epoch before in flight -/
  oldIn : Nat := 0
  /-- R278, shutter count since OVERLAP began -/
  since : Nat := 0
  /-- R278 1, new notices of the old epoch are refused -/
  shut : Bool := false
  deriving DecidableEq, Repr

/-- A hand-over notice that a target has accepted (R284). -/
structure Notice where
  /-- R284 4, target partition -/
  part : Nat := 0
  /-- R284 12, home chip -/
  home : Nat := 0
  /-- R284 18, home context number -/
  ctx : Nat := 0
  /-- R284 16, ownership epoch -/
  epoch : Nat := 0
  /-- R284 8, COMP_ID -/
  comp : Nat := 0
  /-- R284 16, composition epoch -/
  cepoch : Nat := 0
  /-- R282 16, releasing owner: chip × 16 + partition -/
  frm : Nat := 0
  /-- R285 64, tick of its receipt -/
  tick : Nat := 0
  /-- R285, what it carries of the entry, in the engine's internal layout -/
  entry : List Nat := []
  deriving DecidableEq, Repr

/-- Compositions and ownership beside the registers and the records in memory (R273). -/
structure Own where
  /-- R275 16, composition slots -/
  comp : SMap Comp := []
  /-- R285, notices accepted and not yet admitted -/
  notices : List Notice := []
  /-- R294 64, snapshots written -/
  acctSeq : Nat := 0
  /-- R294, shutter count at the last snapshot -/
  acctAt : Option Nat := none
  deriving DecidableEq, Repr

/-- An Asivipin port beside its registers (R313). -/
structure Port where
  /-- R313 1, usable for routing -/
  usable : Bool := false
  /-- R313 1, entered UP since the last shutter -/
  fresh : Bool := false
  /-- R315 1, ROUTES lists the port -/
  listed : Bool := false
  /-- R315 12, neighbour chip that ROUTES lists -/
  nbrChip : Nat := 0
  /-- R315 5, neighbour port that ROUTES lists -/
  nbrPort : Nat := 0
  /-- R306 12, FSEQ of the next DATA flit -/
  txNext : Nat := 0
  /-- R309 1,024, replay buffer, oldest first -/
  replay : List Flit := []
  /-- R310 12, FSEQ expected next -/
  rxNext : Nat := 0
  /-- R310 1, a NAK was sent for the current gap -/
  nakSent : Bool := false
  /-- R311 12, last ACK value received -/
  lastAck : Nat := 4095
  /-- R313 12, FSEQ of the last resend -/
  resendSeq : Nat := 0
  /-- R313 6, consecutive resends of that FSEQ -/
  resends : Nat := 0
  /-- R308, credits used on each VC, in 16-byte units, of the 1,024 the neighbour gives -/
  credit : SMap Nat := []
  /-- R313, time base in ns at entry into TRAINING or RETRAIN -/
  since : Nat := 0
  /-- R311, time base in ns since which no ACK has advanced and nothing was resent -/
  ackAt : Nat := 0
  /-- R314, symbol errors of each lane in the current window -/
  laneWin : SMap Nat := []
  /-- R314 9, lanes out of use -/
  lanesBad : Nat := 0
  /-- R324, stamp of the PDELAY_REQ that waits for its answer, 2^-16 ns -/
  t1 : Option Nat := none
  /-- R324 16, last link-delay measurements, 2^-16 ns -/
  delays : List Nat := []
  /-- R324, shutter count of the last PDELAY_REQ -/
  lastPd : Nat := 0
  /-- R324 1, entered UP and has sent no PDELAY_REQ since -/
  pdDue : Bool := false
  /-- R325, shutter count from which the port has delivered beacons in every exposure -/
  bcnSince : Nat := 0
  /-- R325, shutter count of the last beacon the port delivered -/
  bcnExpo : Option Nat := none
  deriving DecidableEq, Repr

/-- What a chip keeps for a destination chip (R343). -/
structure Dest where
  /-- R343 32, ATAG counter -/
  atag : Nat := 0
  /-- R344 16, SEPOCH -/
  sepoch : Nat := 0
  /-- R344 1, the SEPOCH is fixed -/
  known : Bool := false
  /-- R344, TAG of the query that waits for its answer -/
  query : Option Nat := none
  /-- R344 1, that query ended other than with OK -/
  failed : Bool := false
  /-- R344, time base in ns at which that query was sent -/
  queryAt : Nat := 0
  /-- R318 5, port that its ordered requests use -/
  port : Option Nat := none
  deriving DecidableEq, Repr

/-- Where an outstanding request stands (R343, R344). -/
inductive ReqPhase where
  | waitQuery
  | waitTag
  | sent
  deriving DecidableEq, Repr

/-- Who issued a remote request (R338): a thread of an engine, the serving engine, or a data mover (channel c of array n is 16 n + c,
bulk mover m is 1,024 + m). -/
inductive Requester where
  | thread (n t : Nat)
  | serve
  | mover (k : Nat)
  deriving DecidableEq, Repr

/-- An outstanding request (R338). -/
structure Req where
  /-- R338, its stream's requester -/
  who : Requester := .serve
  /-- R336, the request -/
  pkt : Pkt := {}
  /-- R343, sent, or waiting for an answer to its query or for the tag rule -/
  phase : ReqPhase := .sent
  /-- R338, status, result and MET of a completion that arrived; 16 REMOTE_DEAD, 17 OUTCOME_UNKNOWN, 18 denied reach -/
  done : Option (Nat × Nat × Bool) := none
  /-- R336, load data of that completion -/
  bytes : List Byte := []
  /-- R341, time base in ns of its first send -/
  sentAt : Nat := 0
  /-- R343, time base in ns of its last send -/
  lastAt : Nat := 0
  /-- R347 1, being resent -/
  resends : Bool := false
  /-- R293 8, accounting slot of a data mover's request -/
  slot : Nat := 0
  /-- R162, what completes at the thread: 0 load, 1 store, 2 atomic with result, 3 atomic without, 4 sync without wait, 5 sync with wait -/
  kind : Nat := 0
  /-- R159 5, destination register -/
  reg : Nat := 0
  /-- R159, lane, 32 a scalar, 33 all lanes -/
  lane : Nat := 32
  deriving DecidableEq, Repr

/-- Routing, remote requests and their outcomes (R331). -/
structure Net where
  /-- R313 24, the ports -/
  port : SMap Port := []
  /-- R340, outstanding requests, in order of issue -/
  reqs : List Req := []
  /-- R335 16, TAG tried next -/
  nextTag : Nat := 0
  /-- R343 4,096, destination chips -/
  dest : SMap Dest := []
  /-- R318, ordered requests that wait in the route stage -/
  held : List Pkt := []
  /-- R315, packets delivered to this chip and not yet applied, oldest first -/
  inbox : List Pkt := []
  /-- R341, destinations reported dead (false) or unknown (true) since the last shutter -/
  deadRep : List (Nat × Bool) := []
  /-- R322, shutter count of the exposure in which the root's last beacon left, and how many left in it -/
  bcnAt : Nat := 0
  bcnSent : Nat := 0
  /-- R318 1, a switch occurred since the last shutter -/
  rerouted : Bool := false
  /-- R347, time base at the last cause of RECOVERING -/
  recT : Nat := 0
  /-- R322 16, sequence number of the next beacon sent as root -/
  bcnSeq : Nat := 0
  /-- R338, completions that the serving engine has not taken, oldest first -/
  srvDone : List Req := []
  /-- R350, waits at the sync unit: object, operand, thread key (of a remote request the time base at which it came), remote request -/
  waits : List (Nat × Nat × Nat × Option Pkt) := []
  deriving DecidableEq, Repr

/-- A sync object beside its registers (R351). -/
structure SynObj where
  /-- R351 20, arrivals in the current generation -/
  arrived : Nat := 0
  /-- R352, chips that arrived in the current generation -/
  chips : List Nat := []
  /-- R351, chip, tick and cycle of the last arrival of the generation -/
  last : Option (Nat × Nat × Nat) := none
  /-- R352, the arrival before it -/
  prev : Option (Nat × Nat × Nat) := none
  /-- R351, last arriver of the last completed generation -/
  genLast : Option (Nat × Nat × Nat) := none
  deriving DecidableEq, Repr

/-- The sync unit (R349). -/
structure Syn where
  /-- R349 8,192, the objects -/
  obj : SMap SynObj := []
  /-- R352 64, fog history, oldest first -/
  hist : List Nat := []
  deriving DecidableEq, Repr

/-- An egress queue (R440). -/
structure TmQ where
  /-- R440, frames, oldest first -/
  items : List TmItem := []
  /-- R441 48, finish tag of the last enqueued frame -/
  f : Nat := 0
  /-- R441 8, w_i -/
  weight : Nat := 1
  /-- R455 2, 0 none, 1 credit, 2 calendar -/
  shaper : Nat := 0
  /-- R455 1, radio class -/
  radio : Bool := false
  /-- R455 16, byte limit in KiB -/
  limit : Nat := 0
  /-- R443, idle slope, Mb/s -/
  idle : Nat := 0
  /-- R443, port rate of the send slope, Mb/s -/
  port : Nat := 1
  /-- R444, calendar rate, Mb/s -/
  rate : Nat := 1
  /-- R444, burst, ns -/
  burst : Nat := 0
  /-- R443, credit, thousandths of a bit -/
  credit : Int := 0
  /-- R443, time base at which the credit was last brought up to date -/
  credAt : Nat := 0
  /-- R444, next eligible time -/
  elig : Nat := 0
  /-- R445 32, frames discarded -/
  drop : Nat := 0
  /-- R447 24, highest depth -/
  hwmDepth : Nat := 0
  /-- R447 32, highest head-frame delay, ns -/
  hwmDelay : Nat := 0
  /-- R446 16, samples of this exposure -/
  cur : List (Nat × Nat) := []
  /-- R446 16, published samples -/
  samp : List (Nat × Nat) := []
  /-- R446 32, tick of the published samples -/
  sampTick : Nat := 0
  deriving DecidableEq, Repr

/-- The traffic managers; egress e is sub-port e, or port e - 32 (R440). -/
structure Tm where
  /-- R440 56 × 8, queue i of egress e at key 8 e + i -/
  q : SMap TmQ := []
  /-- R441 48, virtual time of each egress -/
  v : SMap Nat := []
  /-- R441, frames and packets routed to a queue of an egress that have not entered it -/
  inb : List (Nat × Nat × TmItem) := []
  deriving DecidableEq, Repr

/-- What a domain has received on its slave or its backup port (R438). -/
structure PtpPort where
  /-- R436, time base at the last Announce -/
  ann : Option Nat := none
  /-- R436, time base at the last Sync -/
  sync : Option Nat := none
  /-- R438, time base since which both have come without a lapse -/
  since : Nat := 0
  deriving DecidableEq, Repr

/-- A PTP domain beside its registers (R436). -/
structure PtpDom where
  /-- R438, its slave port -/
  slave : PtpPort := {}
  /-- R438, its backup port -/
  back : PtpPort := {}
  /-- R434, a two-step Sync that waits for its Follow_Up: sequence number, t2, correction -/
  pend : Option (Nat × Int × Int) := none
  /-- R434, the Delay_Req sent last: sequence number, t3 -/
  t3 : Option (Nat × Int) := none
  /-- R434, sm of the latest exchange, 2^-16 ns -/
  sm : Option Int := none
  /-- R434 16, last path delays, 2^-16 ns -/
  mpds : List Int := []
  /-- R434, offset, 2^-16 ns -/
  offset : Int := 0
  /-- R437, time base since which the domain is VALID -/
  validAt : Nat := 0
  deriving DecidableEq, Repr

/-- Fronthaul and PTP (R420). -/
structure Fh where
  /-- R422 8, eAxC: sequence number expected next, plus 1 -/
  seq : SMap Nat := []
  /-- R422 8, eAxC: sequence number of its next downlink message -/
  tx : SMap Nat := []
  /-- R425, sections announced by C-plane messages sent, whose U-plane is not: eAxC, air time, PRBs -/
  secs : List (Nat × Nat × Nat) := []
  /-- R424, U-plane messages terminated and not yet written: sub-port, message, time base at its arrival -/
  rxU : List (Nat × EcpriMsg × Nat) := []
  /-- R428, PTP messages terminated and not yet handled: sub-port, message, ingress stamp -/
  rxP : List (Nat × PtpMsg × Int) := []
  /-- R428 4,096 × 64, the manager's receive FIFO: word, and whether it is a length word -/
  mrx : List (Nat × Bool) := []
  /-- R436 2, the domains -/
  dom : SMap PtpDom := []
  deriving DecidableEq, Repr

/-- States of a cell (R392). -/
inductive CellSt where
  | absent
  | stopped
  | running
  | migOut
  | migIn
  deriving DecidableEq, Repr

/-- What Layer 2 has asked of one slot of a cell (R411). -/
structure SlotReq where
  /-- R391 64, tick of the slot's first exposure -/
  t0 : Nat := 0
  /-- R408 1, DL_TTI.request arrived -/
  dl : Bool := false
  /-- R408 1, TX_Data.request arrived -/
  tx : Bool := false
  /-- R408 1, UL_TTI.request arrived -/
  ul : Bool := false
  /-- R408 1, UL_DCI.request arrived -/
  dci : Bool := false
  /-- R413, PDUs of its uplink configuration -/
  pdus : List Pdu := []
  /-- R411 1, its downlink configuration asks for transport blocks -/
  data : Bool := false
  deriving DecidableEq, Repr

/-- A radio cell (R392). -/
structure Cell where
  /-- R392 3, state -/
  st : CellSt := .absent
  /-- R392, state it takes at the next frame boundary -/
  next : Option CellSt := none
  /-- R411, requests of slots to come -/
  reqs : List SlotReq := []
  /-- R415 64, tick of the switch boundary of its migration -/
  migB : Nat := 0
  /-- R415 1, phase 1 of its migration is complete -/
  copied : Bool := false
  /-- R415 1, phase 2 of a migration to this chip is not complete -/
  harq : Bool := false
  /-- R412, handles of decodes that ran without their HARQ buffer and are not yet reported -/
  miss : List Nat := []
  /-- R419 12, other chip of its last migration -/
  peer : Nat := 0
  deriving DecidableEq, Repr

/-- Progress of a migration at the source (R415). -/
inductive MigPhase where
  | idle
  | offered
  | phase1
  | ready
  | phase2
  deriving DecidableEq, Repr

/-- Radio processing (R388). -/
structure Rad where
  /-- R390 2,048, the cells -/
  cell : SMap Cell := []
  /-- R410, buffers a window has posted: address, bytes, TAG; oldest first -/
  buf : SMap (List (Nat × Nat × Nat)) := []
  /-- R415, the migration in progress -/
  mig : MigPhase := .idle
  /-- R415 11, its cell -/
  migCell : Nat := 0
  /-- R415 12, its target -/
  migTo : Nat := 0
  /-- R415 64, tick of the switch boundary -/
  migB : Nat := 0
  deriving DecidableEq, Repr

/-- A command that a window has fetched and that is not complete (R469). -/
structure Cmd where
  /-- R469 8, OPCODE -/
  op : Nat := 0
  /-- R469 8, FLAGS -/
  flags : Nat := 0
  /-- R469 32, TAG -/
  tag : Nat := 0
  /-- R469 128, the entry -/
  body : List Byte := []
  /-- R468 64, arrival tick -/
  arrival : Nat := 0
  /-- R466 32, its index in the ring -/
  pos : Nat := 0
  /-- R483, time base at its fetch point -/
  ns : Nat := 0
  /-- R470 1, it has been accepted and waits for its effect -/
  begun : Bool := false
  deriving DecidableEq, Repr

/-- A window beside its registers (R465). -/
structure Win where
  /-- R466 32, SQ_CI -/
  sqCi : Nat := 0
  /-- R466 32, CQ_PI -/
  cqPi : Nat := 0
  /-- R466 32, CQ_CI last read -/
  cqCi : Nat := 0
  /-- R469, commands not complete, oldest first -/
  cmds : List Cmd := []
  /-- R477, completion entries that wait for room, oldest first -/
  cpl : List (List Byte) := []
  /-- R526 64, LOG_TICK of the last entry of a replay window -/
  logTick : Nat := 0
  /-- R478 8, entries committed since the last message -/
  since : Nat := 0
  /-- R478, time base at the first of them -/
  coalAt : Option Nat := none
  /-- R477, shutter count since which the ring is full -/
  fullAt : Option Nat := none
  /-- R479, shutter count of entry into DRAINING or ABORTING -/
  stAt : Nat := 0
  /-- R471 24, number of the last job -/
  jobs : Nat := 0
  /-- R461 1, a Function Level Reset aborts and resets the window -/
  flr : Bool := false
  deriving DecidableEq, Repr

/-- State of a job (R480). -/
inductive JobSt where
  | pending
  | started
  deriving DecidableEq, Repr

/-- A job of the scheduler (R471). -/
structure Job where
  /-- R471 32, JOB_ID -/
  id : Nat := 0
  /-- R471, window, 128 the admin ring -/
  win : Nat := 0
  /-- R474 32, TAG of its JOB_START -/
  tag : Nat := 0
  /-- R469 1, CPL of its JOB_START -/
  cpl : Bool := false
  /-- R480 64, arrival tick -/
  arrival : Nat := 0
  /-- R480 32, ring position -/
  pos : Nat := 0
  /-- R483, time base at its fetch point -/
  ns : Nat := 0
  /-- R480, state -/
  st : JobSt := .pending
  /-- R480, shutter count since which it is pending -/
  since : Nat := 0
  /-- R481, order of its start -/
  order : Nat := 0
  /-- R471 4, partition -/
  part : Nat := 0
  /-- R471 3, priority -/
  prio : Nat := 0
  /-- R471 7, threads per array -/
  threads : Nat := 0
  /-- R471 4, threads per signal core -/
  sig : Nat := 0
  /-- R471 64, ARRAYS -/
  arrays : Nat := 0
  /-- R471 16, DMA -/
  dma : Nat := 0
  /-- R471 64, STORE_MAP -/
  store : Nat := 0
  /-- R471 32, ACC_MAP -/
  acc : Nat := 0
  /-- R471 64, ENTRY -/
  entry : Nat := 0
  /-- R471 64, ARG -/
  arg : Nat := 0
  /-- R471 64, SAVE_BASE -/
  save : Nat := 0
  /-- R471 96, SIG_CORES -/
  cores : Nat := 0
  /-- R471 8, accounting slot -/
  slot : Nat := 0
  /-- R471 16, tenant -/
  tenant : Nat := 0
  /-- R470 4, partition whose serving job it is -/
  serve : Option Nat := none
  /-- R481, arrays on which its threads have started -/
  begun : List Nat := []
  /-- R481, array: shutter count of its start or last reload there -/
  run : SMap Nat := []
  /-- R482 1, JOB_STOP -/
  stop : Bool := false
  /-- R474 8, kind of the fault that ended it -/
  fault : Nat := 0
  deriving DecidableEq, Repr

/-- Hosts, windows and jobs (R457). -/
structure Hst where
  /-- R465 129, windows; 128 is the admin ring -/
  win : SMap Win := []
  /-- R480, pending and started jobs -/
  jobs : List Job := []
  /-- R481, jobs started so far -/
  starts : Nat := 0
  /-- R463, time base at the last heartbeat, failover or reset -/
  hbAt : Nat := 0
  /-- R463 1, the heartbeat interval has lapsed -/
  lapsed : Bool := false
  /-- R463 1, a claim takes effect at the next shutter -/
  claim : Bool := false
  /-- R484 32, MSI-X tables, word i of vector v of link l at 1024 l + 4 v + i, PRESUMED 30 -/
  msix : SMap Nat := []
  /-- R478, link and vector whose pending bit is set -/
  pba : List (Nat × Nat) := []
  /-- R457 4, links PA0, PA1, PB0, PB1 that are up -/
  linkUp : SMap Bool := []
  /-- R457, rate and width of each link: 1 + 8 × rate code + width code -/
  linkRate : SMap Nat := []
  /-- R457 2, ports whose PERST_L is asserted -/
  perst : List Nat := [0, 1]
  deriving DecidableEq, Repr

/-- An audit block that is closed (R541). -/
structure AudBlk where
  /-- R541 64, BLOCK_SEQ -/
  seq : Nat := 0
  /-- R541, header to 0x1FF and records -/
  bytes : List Byte := []
  /-- R541 384, BLOCK_DIGEST -/
  digest : List Byte := []
  deriving DecidableEq, Repr

/-- The audit log (R532). -/
structure Aud where
  /-- R534 64, SEQ of the next record -/
  seq : Nat := 0
  /-- R538 4,096 records, the record queue, oldest first -/
  q : List (List Byte) := []
  /-- R539, the run of lost records: how many, SEQ of the first -/
  lost : Option (Nat × Nat) := none
  /-- R540, records of the open block -/
  blk : List (List Byte) := []
  /-- R540, time base at its first record, ns -/
  blkAt : Nat := 0
  /-- R541 64, BLOCK_SEQ of the open block -/
  next : Nat := 0
  /-- R541 384, BLOCK_DIGEST of the block before it, none when empty -/
  prev : List Byte := []
  /-- R542, closed blocks not committed, oldest first -/
  closed : List AudBlk := []
  /-- R542 2,048 slots, committed blocks of flash A, by slot, DESIGN CHOICE 35 -/
  ringA : SMap AudBlk := []
  /-- R542 2,048 slots, committed blocks of flash B, by slot, DESIGN CHOICE 35 -/
  ringB : SMap AudBlk := []
  /-- R545, the newest committed block -/
  newest : Option AudBlk := none
  deriving DecidableEq, Repr

/-- One of the two xSPI NOR flashes: its slots are listed when they are committed (R558) (R557). -/
structure Flash where
  /-- R557, firmware slot: GEN and content, DESIGN CHOICE 35 -/
  fw : Option (Nat × Firmware) := none
  /-- R557, image slot 0: GEN and content, DESIGN CHOICE 35 -/
  img0 : Option (Nat × Image) := none
  /-- R557, image slot 1: GEN and content, DESIGN CHOICE 35 -/
  img1 : Option (Nat × Image) := none
  /-- R562 32, authenticated monotonic counter -/
  counter : Nat := 0
  deriving DecidableEq, Repr

/-- A flash write in progress (R570). -/
structure WriteJob where
  /-- R570, the image that OP 2 writes -/
  img : Option Image := none
  /-- R570, the firmware that OP 3 writes -/
  fw : Option Firmware := none
  /-- R570 64, GEN -/
  gen : Nat := 0
  /-- R570, slots to write, 2 × flash + slot, the one being written first -/
  todo : List Nat := []
  /-- R570 1, a slot was written -/
  ok : Bool := false
  deriving DecidableEq, Repr

/-- Start-up, images and flashes (R550). -/
structure Boot where
  /-- R614 1, RESET_L is held low -/
  rstL : Bool := true
  /-- R585 1, the device is in power-on reset -/
  por : Bool := false
  /-- R560 1, the derived keys are in the always-on key store -/
  keys : Bool := false
  /-- R557, flash A -/
  flA : Flash := {}
  /-- R557, flash B -/
  flB : Flash := {}
  /-- R562 32, rollback floor as read last -/
  floor : Nat := 0
  /-- R558, the running firmware -/
  run : Option Firmware := none
  /-- R558, slot and image that passed IMG_VERIFY -/
  pick : Option (Nat × Image) := none
  /-- R545 384, delta chain -/
  chain : List Byte := List.replicate 48 0
  /-- R568, a verified delta, its apply tick, and the shutter count of its verification -/
  delta : Option (Image × Nat × Nat) := none
  /-- R570, the flash write in progress -/
  job : Option WriteJob := none
  /-- R571, time base at the last reset -/
  resetNs : Nat := 0
  deriving DecidableEq, Repr

/-- Reference qualification (R574). -/
structure Clk where
  /-- R574 16, counts of the last windows, oldest first -/
  win : List Nat := []
  /-- R575 1, CLK_XTAL_FAIL was raised for the crystal's qualification -/
  tmo : Bool := false
  /-- R578 5, consecutive TIMEREF windows within 100 ppm -/
  run : Nat := 0
  /-- R580 1, no PLL reference remains -/
  gone : Bool := false
  deriving DecidableEq, Repr

/-- Where the operating-point sequencer stands (R583). -/
inductive SeqSt where
  | idle
  | lowering
  | raiseAsk
  | raising
  | lowerVolt
  deriving DecidableEq, Repr

/-- Operating point, AVSBus and telemetry (R582). -/
structure Pwr where
  /-- R583, the sequencer's step -/
  seq : SeqSt := .idle
  /-- R583 3, point it moves to -/
  goal : Nat := 0
  /-- R583, shutter count at which the step began -/
  since : Nat := 0
  /-- R583, time base at the voltage write of a raise -/
  volt : Nat := 0
  /-- R582 3, target computed last -/
  tgt : Nat := 0
  /-- R583 1, a raise to that target was given up -/
  gaveUp : Bool := false
  /-- R584, AVSBus command outstanding: a voltage in mV, or a read -/
  avs : Option (Option Nat) := none
  /-- R584 1, failures of that command -/
  tries : Nat := 0
  /-- R584 1, the last command failed twice -/
  avsBad : Bool := false
  /-- R588 8, mV × A of the last shutters, oldest first -/
  watts : List Nat := []
  /-- R589, consecutive exposures with the hottest sensor below the lower threshold -/
  cool : Nat := 0
  /-- R589, consecutive exposures with the power below its limit -/
  light : Nat := 0
  /-- R589 1, a cap is below the floor -/
  atFloor : Bool := false
  /-- R588 48 × 8, sensor readings, °C -/
  temps : SMap Nat := []
  deriving DecidableEq, Repr

/-- Pins (R608). -/
structure Pins where
  /-- R608 14 × 6, filter time of each input in units of 20 ns -/
  units : List Nat := [50, 50, 50, 50, 50, 3, 3, 3, 0, 0, 0, 0, 0, 0]
  /-- R604 2, ports whose PA_X8_L or PB_X8_L strap is tied low -/
  x8 : List Nat := []
  deriving DecidableEq, Repr

/-- Why a step stops with a fault. No command of this block raises a fault: every behaviour the spec gives is a
next state, an access error included (R32). The reason stands for an access the spec forbids outright; it is safe. -/
inductive Fault where
  /-- Raised by no command; kept so that the type names a reason. Safe: the machine would stop where it goes on. -/
  | none
  deriving DecidableEq, Repr

/-- Why a command has no meaning. -/
inductive Refusal where
  /-- Raised by `exec` for a command that has no meaning yet. Safe: the machine stops where the hardware goes on. -/
  | notModelled (mnemonic : String)
  deriving DecidableEq, Repr

/-- The whole state of the block. -/
structure State where
  /-- R12, R35: the registers that differ from their reset values, by BAR0 offset. -/
  regs : SMap (BitVec 32) := []
  /-- R30, R184: memory by device-physical address; an unlisted byte reads 0 (R618; LPDDR6: DESIGN CHOICE 2). -/
  mem : SMap Byte := []
  /-- R9: high-word latch of each requester: the functions of links PA0, PA1, PB0, PB1 as 0 to 3, other masters from 4. -/
  latch : SMap (BitVec 32) := []
  /-- R487: the fault collector. -/
  flt : Flt := {}
  /-- R41: time base, shutter and leases. -/
  tim : Tim := {}
  /-- R100: logical arrays. -/
  arr : SMap Arr := []
  /-- R110: compute dies. -/
  die : SMap Die := []
  /-- R112: physical arrays. -/
  phys : SMap Phys := []
  /-- R4: fused grade, true for the ZS9-56. DESIGN CHOICE 4: a ZS9-64. -/
  grade56 : Bool := false
  /-- R364, R386: mask of the signal cores disabled at manufacture on each base die; an unlisted die has positions 24
  and 25 disabled. DESIGN CHOICE 4. -/
  coreDis : SMap Nat := []
  /-- R148: thread engines. -/
  te : Te := {}
  /-- R184: memories and movers. -/
  ms : MemS := {}
  /-- R331: routing and remote requests. -/
  net : Net := {}
  /-- R349: the sync unit. -/
  syn : Syn := {}
  /-- R440: the traffic managers. -/
  tm : Tm := {}
  /-- R420, R436: fronthaul and PTP. -/
  fh : Fh := {}
  /-- R363: the signal cores and the radio accelerators. -/
  sig : Sig := {}
  /-- R388: radio cells and migration. -/
  rad : Rad := {}
  /-- R457: hosts, windows and jobs. -/
  hst : Hst := {}
  /-- R293: accounting counters; counter i of slot k at key 16 k + i, modulo 2^64. -/
  acct : SMap Nat := []
  /-- R532: the audit log. -/
  aud : Aud := {}
  /-- R242: the serving engine's partitions. -/
  sp : SMap SrvPart := []
  /-- R227: contexts, models and the KV pools. -/
  srv : Srv := {}
  /-- R273: compositions and hand-over notices. -/
  own : Own := {}
  /-- R550: start-up, images and flashes. -/
  boot : Boot := {}
  /-- R574: reference qualification. -/
  clk : Clk := {}
  /-- R582: operating point, AVSBus and telemetry. -/
  pwr : Pwr := {}
  /-- R608: pin filters and straps. -/
  pins : Pins := {}
  /-- The structure in force: the applied image with the deltas applied since. -/
  img : Option Image := none
  /-- What has left the block, oldest first (the model's own record). DESIGN CHOICE 5. -/
  out : List Out := []
  /-- The counter the free values are read at (the model's own). DESIGN CHOICE 1. -/
  free : Nat := 0
  /-- The commands that wait, first in first out (the model's own). -/
  pending : List Instr := []
  deriving DecidableEq, Repr

/-- R550, R617: the block right after a COLD reset: every field at the default its declaration gives. -/
def State.reset : State := {}

end Sys2Proof.Machine
end

