-- ==== Sys2Proof/Machine/Ops.lean ====
section
/-! DEFINITION. The named operations over registers, memory and the fault collector's inbox. -/
namespace Sys2Proof.Machine
open Sys2Proof

/-! Registers (R9 to R13). -/

/-- The stored word of the register at an offset; its reset value while nothing differs from it. -/
def State.reg (s : State) (off : Nat) : BitVec 32 := sget (BitVec.ofNat 32 (resetAt off)) s.regs off

/-- Store a whole register word. -/
def State.setReg (s : State) (off : Nat) (v : BitVec 32) : State :=
  { s with regs := sset (BitVec.ofNat 32 (resetAt off)) s.regs off v }

/-- A field of a register. -/
def State.get (s : State) (f : FRef) : Nat := bits (s.reg f.off).toNat f.hi f.lo

/-- A one-bit field of a register. -/
def State.flag (s : State) (f : FRef) : Bool := s.get f == 1

/-- Store a field of a register. -/
def State.put (s : State) (f : FRef) (v : Nat) : State :=
  s.setReg f.off (BitVec.ofNat 32 (setBits (s.reg f.off).toNat f.hi f.lo v))

/-- Store a one-bit field. -/
def State.putB (s : State) (f : FRef) (b : Bool) : State := s.put f (if b then 1 else 0)

/-- Add to a counter field, saturating at its width. -/
def State.bumpBy (s : State) (f : FRef) (n : Nat) : State := s.put f (satAdd (f.hi + 1 - f.lo) (s.get f) n)

/-- Count one event in a saturating counter. -/
def State.bump (s : State) (f : FRef) : State := s.bumpBy f 1

/-- R210: the CORR and UNCORR tags of the `n` oldest words of a packet FIFO. -/
def State.fifoTag (s : State) (f n : Nat) : Nat :=
  let l := (sget [] s.ms.fifoErr f).filter (fun e => decide (e.1 < n))
  (if l.any (fun e => !e.2) then 1 else 0) + (if l.any (·.2) then 2 else 0)

/-- R210: `n` words leave a packet FIFO: the errors corrected in them are counted, and a word that cannot be corrected goes as stored. -/
def State.fifoTake (s : State) (f n : Nat) : State :=
  let l := sget [] s.ms.fifoErr f
  if l.isEmpty then s
  else
    let c := (l.filter (fun e => decide (e.1 < n) && !e.2)).length
    let rest := (l.filter (fun e => decide (n ≤ e.1))).map (fun e => (e.1 - n, e.2))
    { s with ms := { s.ms with
      fifoErr := sset [] s.ms.fifoErr f rest
      fifoCorr := sset 0 s.ms.fifoCorr f (satAdd 16 (sget 0 s.ms.fifoCorr f) c) } }

/-- Add to a 64-bit counter held in two consecutive registers (R9). -/
def State.bump64 (s : State) (lo : Nat) (n : Nat) : State :=
  let v := ((s.reg lo).toNat + 2 ^ 32 * (s.reg (lo + 4)).toNat + n) % 2 ^ 64
  (s.setReg lo (BitVec.ofNat 32 v)).setReg (lo + 4) (BitVec.ofNat 32 (v / 2 ^ 32))

/-- A number held in two consecutive registers (R9). -/
def State.reg64 (s : State) (lo : Nat) : Nat := (s.reg lo).toNat + 2 ^ 32 * (s.reg (lo + 4)).toNat

/-- Store a number in two consecutive registers. -/
def State.setReg64 (s : State) (lo : Nat) (v : Nat) : State :=
  (s.setReg lo (BitVec.ofNat 32 v)).setReg (lo + 4) (BitVec.ofNat 32 (v / 2 ^ 32))

/-- R504: hardware sets a status bit, and the companion set-count at +4 increases, saturating at 0xFFFF. -/
def State.status (s : State) (f : FRef) : State := (s.put f 1).bump ⟨f.off + 4, 15, 0⟩

/-- R36: whether logical array n exists in the grade. -/
def State.hasArray (s : State) (n : Nat) : Bool := decide (n < if s.grade56 then 56 else 64)

/-- R36: whether logical signal core c exists in the grade. -/
def State.hasCore (s : State) (c : Nat) : Bool := decide (c < if s.grade56 then 88 else 96)

/-- R500, R585: no result is written once the safelight state holds, nor in power-on reset. -/
def State.live (s : State) : Bool := decide (s.flt.phase ≠ .safelight) && !s.boot.por

/-- R553: the stage of start-up. -/
def State.stage (s : State) : Nat := s.get f_BOOT_STAGE_STAGE

/-- Run an effect outside the safelight state only (R501). -/
def whenLive (s : State) (f : State → State) : State := if s.live then f s else s

/-- Whether an image is applied (R39). -/
def State.valid (s : State) : Bool := s.flag f_ID_CHIP_VALID

/-- Record what leaves the block. -/
def State.emit (s : State) (o : Out) : State := { s with out := s.out ++ [o] }

/-! Clocking (R41, R581). -/

/-- R41, R64: the period in ns. -/
def State.periodNs (s : State) : Nat := 62500 * 2 ^ min 4 (s.get f_CLK_SHT_CFG_PERIOD)

/-- R581: frequency of an operating point in MHz. -/
def opMHz : Nat → Nat
  | 0 => 600 | 1 => 700 | 2 => 800 | 3 => 900 | 4 => 1000 | 5 => 1080 | 6 => 1150 | _ => 1200

/-- R581: VCORE of an operating point in mV. -/
def opMv : Nat → Nat
  | 0 => 600 | 1 => 620 | 2 => 645 | 3 => 670 | 4 => 700 | 5 => 725 | 6 => 760 | _ => 800

/-- Frequency in force, in MHz. -/
def State.mhz (s : State) : Nat := opMHz (s.get f_CLK_SHT_BUDGET_CUR_OP)

/-- Cycles as nanoseconds at the frequency in force. -/
def State.cycNs (s : State) (c : Nat) : Nat := c * 1000 / s.mhz

/-! Fault messages (R487, R488). -/

/-- The collector's record of a source. -/
def State.src (s : State) (k : Nat) : FltSource := sget {} s.flt.src k

/-- Send a message to the collector: it takes the source's next SEQ and the current tick, and waits in order. -/
def State.raise (s : State) (src kind addr aux : Nat) : State :=
  let r := s.src src
  let m : FltMsg := { source := src, kind := kind, seq := r.seq, tick := s.tim.tick % 2 ^ 32, addr := addr % 2 ^ 48, aux := aux % 2 ^ 16 }
  { s with flt := { s.flt with
      inbox := s.flt.inbox ++ [m]
      src := sset {} s.flt.src src { r with seq := (r.seq + 1) % 4096, lastSeq := r.seq } } }

/-- R498: a cause of RECOVERY arises; TEST and the other phases take precedence. -/
def State.enterRecovery (s : State) : State :=
  if s.flt.phase = .service then { s with flt := { s.flt with phase := .recovery, headValid := false } } else s

/-! Source numbers (R489). -/

def srcArray (p : Nat) : Nat := p
def srcTe (p : Nat) : Nat := 0x80 + p
def srcCore (q : Nat) : Nat := 0x100 + q
def srcLp (i : Nat) : Nat := 0x200 + i
def srcBulk (m : Nat) : Nat := 0x220 + m
def srcStage (b : Nat) : Nat := 0x230 + b
def srcPort (p : Nat) : Nat := 0x240 + p
def srcRoute : Nat := 0x258
def srcRemote : Nat := 0x259
def srcSync : Nat := 0x25A
def srcFh (p : Nat) : Nat := 0x260 + p
def srcTime : Nat := 0x268
def srcPcie (p : Nat) : Nat := 0x270 + p
def srcWin : Nat := 0x272
def srcServe : Nat := 0x280
def srcOwn : Nat := 0x281
def srcClk : Nat := 0x2C0
def srcPwr : Nat := 0x2C1
def srcTherm : Nat := 0x2C2
def srcMgmt : Nat := 0x2C3
def srcBoot : Nat := 0x2C4
def srcAud : Nat := 0x2C5
def srcFlt : Nat := 0x2C6

/-- R489: the source number of a radio accelerator engine: kind as R382 codes it, base die, engine. -/
def srcEngine (kind die e : Nat) : Nat :=
  match kind with
  | 0 | 1 => 0x180 + 8 * die + e
  | 2 => 0x1A0 + 2 * die + e
  | 3 => 0x1A8 + 2 * die + e
  | 4 => 0x1B0 + 4 * die + e
  | _ => 0x1C0 + 4 * die + e

/-- R489: whether a source number is assigned. -/
def srcListed (k : Nat) : Bool :=
  decide (k < 72) || (decide (0x80 ≤ k) && decide (k < 0x80 + 72)) || (decide (0x100 ≤ k) && decide (k < 0x100 + 104))
  || (decide (0x180 ≤ k) && decide (k < 0x1D0)) || (decide (0x200 ≤ k) && decide (k < 0x218))
  || (decide (0x220 ≤ k) && decide (k < 0x228)) || (decide (0x230 ≤ k) && decide (k < 0x234))
  || (decide (0x240 ≤ k) && decide (k < 0x25B)) || (decide (0x260 ≤ k) && decide (k < 0x269))
  || (decide (0x270 ≤ k) && decide (k < 0x273)) || k == 0x280 || k == 0x281
  || (decide (0x2C0 ≤ k) && decide (k < 0x2C7))

/-! Logical and physical arrays (R100, R110). -/

def State.arrOf (s : State) (n : Nat) : Arr := sget {} s.arr n
def State.setArr (s : State) (n : Nat) (a : Arr) : State := { s with arr := sset {} s.arr n a }
def State.dieOf (s : State) (d : Nat) : Die := sget {} s.die d
def State.setDie (s : State) (d : Nat) (x : Die) : State := { s with die := sset {} s.die d x }
def State.physOf (s : State) (p : Nat) : Phys := sget {} s.phys p
def State.setPhys (s : State) (p : Nat) (x : Phys) : State := { s with phys := sset {} s.phys p x }

/-- Logical arrays of a die: eight in the ZS9-64, seven in the ZS9-56. -/
def State.perDie (s : State) : Nat := if s.grade56 then 7 else 8

/-- The compute die of a logical array (R100). -/
def State.dieOfArr (s : State) (n : Nat) : Nat := n / s.perDie

/-- The default position of a logical array on its die (R100): the disabled position is skipped. -/
def State.defaultPos (s : State) (n : Nat) : Nat :=
  if s.grade56 then
    let i := n % 7
    if i < (s.dieOf (n / 7)).disabled then i else i + 1
  else n % 8

/-- The physical array that serves logical array n by default (R100). -/
def State.defaultPhys (s : State) (n : Nat) : Nat := 9 * s.dieOfArr n + s.defaultPos n

/-- The physical array that serves a logical array; in ON_SPARE the die's position 8. Of an OFFLINE array, which none serves,
`ARR_MAP.PHYS` reads the default one (DESIGN CHOICE 90). -/
def State.physFor (s : State) (n : Nat) : Nat :=
  if (s.arrOf n).map = .onSpare then 9 * s.dieOfArr n + 8 else s.defaultPhys n

/-- Enabled positions of a base die's signal cores (R364). -/
def State.corePos (s : State) (b : Nat) : List Nat :=
  (List.range 26).filter (fun i => !(bitAt (sget 0x3000000 s.coreDis b) i))

/-- The physical core that serves logical core c (R364): enabled cores of its die in ascending order. -/
def State.physCore (s : State) (c : Nat) : Nat :=
  let k := if s.grade56 then 22 else 24
  26 * (c / k) + (s.corePos (c / k)).getD (c % k) 0

/-! Device-physical memory (R30 to R32, R184). -/

/-- A region of the device-physical address space. -/
inductive Region where
  | lpddr | stage | store (n : Nat) | acc (n : Nat) | sigmem (c : Nat) | regSpace | hostA | hostB | reserved
  deriving DecidableEq, Repr

/-- Populated LPDDR bytes (R31, R38). -/
def State.lpBytes (s : State) : Nat := s.get f_ID_MEMORY_CAP_GIB * 2 ^ 30

/-- The region an address lies in (R30, R31); LPDDR above the populated capacity is reserved. -/
def State.region (s : State) (a : Nat) : Region :=
  if a < 0x018000000000 then (if a < s.lpBytes then .lpddr else .reserved)
  else if a < 0x020000000000 then .reserved
  else if a < 0x020010000000 then .stage
  else if a < 0x021000000000 then .reserved
  else if a < 0x021010000000 then
    let n := (a - 0x021000000000) / 0x400000
    if s.hasArray n then .store n else .reserved
  else if a < 0x022000000000 then .reserved
  else if a < 0x022010000000 then
    let n := (a - 0x022000000000) / 0x400000
    if s.hasArray n && decide ((a - 0x022000000000) % 0x400000 < 0x280000) then .acc n else .reserved
  else if a < 0x023000000000 then .reserved
  else if a < 0x023003000000 then
    let c := (a - 0x023000000000) / 0x80000
    if s.hasCore c then .sigmem c else .reserved
  else if a < 0x024000000000 then .reserved
  else if a < 0x024010000000 then .regSpace
  else if a < 0x400000000000 then .reserved
  else if a < 0x500000000000 then .hostA
  else if a < 0x600000000000 then .hostB
  else .reserved

/-- Start of the stage memory. -/
def stageBase : Nat := 0x020000000000
/-- Start of logical array n's store (R30). -/
def storeBase (n : Nat) : Nat := 0x021000000000 + n * 0x400000
/-- Start of logical array n's accumulator store (R30). -/
def accBase (n : Nat) : Nat := 0x022000000000 + n * 0x400000
/-- Start of logical core c's local memory (R30). -/
def sigBase (c : Nat) : Nat := 0x023000000000 + c * 0x80000

/-- One byte of memory. -/
def State.readByte (s : State) (a : Nat) : Byte := sget 0 s.mem a

/-- The listed bytes of a range, keyed by offset from its start. -/
def slice (m : SMap Byte) (a n : Nat) : SMap Byte :=
  (m.filter (fun e => decide (a ≤ e.1) && decide (e.1 < a + n))).map (fun e => (e.1 - a, e.2))

/-- Pair bytes with rising addresses, dropping zeros. -/
def cellsFrom : Nat → List Byte → SMap Byte
  | _, [] => []
  | a, b :: bs => if b = 0 then cellsFrom (a + 1) bs else (a, b) :: cellsFrom (a + 1) bs

/-- Overwrite n bytes from a with the listed bytes of a slice. -/
def overlay (m : SMap Byte) (a n : Nat) (c : SMap Byte) : SMap Byte :=
  m.filter (fun e => decide (e.1 < a)) ++ c ++ m.filter (fun e => decide (a + n ≤ e.1))

/-- n bytes of memory from an address. -/
def State.readBytes (s : State) (a n : Nat) : List Byte :=
  let c := slice s.mem a n
  (List.range n).map (fun i => sget 0 c i)

/-- A little-endian number of n bytes. -/
def State.readLE (s : State) (a n : Nat) : Nat := leNat (s.readBytes a n)

/-- Store bytes from an address. -/
def State.writeBytes (s : State) (a : Nat) (bs : List Byte) : State :=
  { s with mem := overlay s.mem a bs.length (cellsFrom a bs) }

/-- Store a little-endian number of n bytes. -/
def State.writeLE (s : State) (a n v : Nat) : State := s.writeBytes a (leBytes n v)

/-- Zero a range. -/
def State.zeroRange (s : State) (a n : Nat) : State := { s with mem := overlay s.mem a n [] }

/-- Copy a range; the source is read whole before the destination is written. -/
def State.copyRange (s : State) (dst src n : Nat) : State :=
  { s with mem := overlay s.mem dst n ((slice s.mem src n).map (fun e => (e.1 + dst, e.2))) }

/-- R184, R185, R209: what one code protects: a 64-byte line of LPDDR6, an accumulator entry of 10 bytes, else a 64-bit word. -/
def granuleOf (a : Nat) : Nat × Nat :=
  if a < 0x018000000000 then (a / 64 * 64, 64)
  else if 0x022000000000 ≤ a ∧ a < 0x022010000000 then (a - (a - 0x022000000000) % 0x400000 % 10, 10)
  else (a / 8 * 8, 8)

/-- The words or lines in a list of marked ones that a range touches. -/
def touched (l : List Nat) (a n : Nat) : List Nat :=
  l.filter (fun g => decide (g < a + n) && decide (a < g + (granuleOf g).2))

/-- R196: physical channels in service, in ascending order. -/
def State.channels (s : State) : List Nat :=
  bitList 32 (s.reg r_MEM_LP_MAP0).toNat ++ (bitList 32 (s.reg r_MEM_LP_MAP1).toNat).map (· + 32)
    ++ (bitList 32 (s.reg r_MEM_LP_MAP2).toNat).map (· + 64)

/-- R196: the physical channel that holds an LPDDR address, and the offset within it. -/
def State.channelAt (s : State) (a : Nat) : Nat × Nat :=
  let l := s.channels
  (l.getD (a / 4096 % l.length) 0, a / 4096 / l.length * 4096 + a % 4096)

def State.channelOf (s : State) (a : Nat) : Nat := (s.channelAt a).1

/-- R185: the unit whose memory holds an address, as a source number.  -/
def State.memSource (s : State) (a : Nat) : Nat :=
  match s.region a with
  | .store n | .acc n => srcArray (s.physFor n)
  | .sigmem c => srcCore (s.physCore c)
  | .stage => srcStage ((a - stageBase) / 0x80000 / 128)
  | _ => srcLp (s.channelOf a / 4)

/-- R185: an uncorrectable word or line was read. -/
def State.reportUncorr (s : State) (g : Nat) : State :=
  let s := (s.setReg r_MEM_ERR_ADDR_LO (BitVec.ofNat 32 g)).put f_MEM_ERR_ADDR_HI_ADDR_HI (g / 2 ^ 32)
  let s := (s.status f_MEM_STATUS_UNCORR).bump f_MEM_UNCORR_CNT_COUNT
  s.raise (s.memSource g) 0x29 g 0

/-- R185: a correctable word or line was read: corrected, written back and reported. -/
def State.reportCorr (s : State) (g : Nat) : State :=
  let s := { s with ms := { s.ms with corr := s.ms.corr.filter (· ≠ g) } }
  let s := (s.status f_MEM_STATUS_CORR).bump f_MEM_CORR_CNT_COUNT
  s.raise (s.memSource g) 0x28 g 0

/-- What an access to memory answers. -/
inductive Acc where
  | ok | unmapped | uncorr | guarded
  deriving DecidableEq, Repr

/-- R32, R185: read n bytes at a device-physical address for a unit. An unmapped address raises ADDR_UNMAPPED from
the unit; an uncorrectable error answers zeros with error status. What a line read of the register space answers is not stated:
free bytes (Assumption 12). -/
def State.load (s : State) (unit a n : Nat) : State × List Byte × Acc :=
  if s.region a = .reserved ∨ s.region (a + n - 1) ≠ s.region a then
    (s.raise unit 0x16 a 0, List.replicate n 0, .unmapped)
  else if s.region a = .regSpace then ({ s with free := s.free + n }, (List.range n).map (fun i => Config.freeByte (s.free + i)), .ok)
  else
    let s := (touched s.ms.corr a n).foldl (fun s g => s.reportCorr g) s
    match touched s.ms.uncorr a n with
    | [] => (s, s.readBytes a n, .ok)
    | bad => (bad.foldl (fun s g => s.reportUncorr g) s, List.replicate n 0, .uncorr)

/-- R228, R281, R331: ranges that only their own engine writes: the context table, the ownership records and the
dedupe table, once an image is applied. -/
def State.guardedAt (s : State) (a : Nat) : Bool :=
  let inR (b n : Nat) := decide (b ≤ a) && decide (a < b + n)
  s.valid && (inR (s.reg64 r_SRV_CTX_BASE_LO) (262144 * 256) || inR (s.reg64 r_CMP_OWN_BASE_LO) (262144 * 32)
    || inR (s.reg64 r_AVL_DEDUP_BASE_LO) (32 * 2 ^ 20))

/-- R209: the marks a write of a range clears: words and lines that it covers whole. -/
def coveredBy (l : List Nat) (a n : Nat) : List Nat :=
  l.filter (fun g => !(decide (a ≤ g) && decide (g + (granuleOf g).2 ≤ a + n)))

/-- R209: a write takes place: it clears the errors of the words and lines that it covers whole. -/
def State.putBytes (s : State) (a : Nat) (bs : List Byte) : State :=
  ({ s with ms := { s.ms with uncorr := coveredBy s.ms.uncorr a bs.length, corr := coveredBy s.ms.corr a bs.length } } : State).writeBytes a bs

/-- R209: the words and lines that a write covers only in part are read first, and corrected. -/
def State.mendPart (s : State) (a n : Nat) : State := (touched (coveredBy s.ms.corr a n) a n).foldl (fun s g => s.reportCorr g) s

/-- R209: a write with byte enables. A word or line that it covers in part is read, merged and written back; one that cannot be
corrected keeps what it holds and is reported. -/
def State.putEnabled (s : State) (a : Nat) (bs : List (Option Byte)) : State :=
  let on (x : Nat) : Bool := decide (a ≤ x) && (bs.getD (x - a) none).isSome
  let hit (g : Nat) : Bool := (List.range (granuleOf g).2).any (fun i => on (g + i))
  let full (g : Nat) : Bool := (List.range (granuleOf g).2).all (fun i => on (g + i))
  let bad := s.ms.uncorr.filter (fun g => hit g && !full g)
  let s := bad.foldl (fun s g => s.reportUncorr g) ((s.ms.corr.filter (fun g => hit g && !full g)).foldl (fun s g => s.reportCorr g) s)
  let s : State := { s with ms := { s.ms with uncorr := s.ms.uncorr.filter (fun g => !full g), corr := s.ms.corr.filter (fun g => !full g) } }
  let old := s.readBytes a bs.length
  s.writeBytes a (bs.zipIdx.map (fun (b, i) => if bad.contains (granuleOf (a + i)).1 then old.getD i 0 else b.getD (old.getD i 0)))

/-- R32, R209, R228: write bytes at a device-physical address for a unit. A partial write that meets an uncorrectable
word or line completes with error status and writes nothing. A write of the register space is ignored (R13, R462). -/
def State.store (s : State) (unit a : Nat) (bs : List Byte) : State × Acc :=
  let n := bs.length
  if s.region a = .reserved ∨ s.region (a + n - 1) ≠ s.region a then (s.raise unit 0x16 a 0, .unmapped)
  else if s.region a = .regSpace then (s, .ok)
  else if s.guardedAt a ∨ s.guardedAt (a + n - 1) then (s.raise unit 0x17 a 0, .guarded)
  else
    match touched (coveredBy s.ms.uncorr a n) a n with
    | [] => ((s.mendPart a n).putBytes a bs, .ok)
    | bad => (bad.foldl (fun s g => s.reportUncorr g) s, .uncorr)

/-! Accounting (R293). -/

/-- Add to accounting counter i of slot k, modulo 2^64. -/
def State.account (s : State) (k i n : Nat) : State :=
  let key := 16 * k + i
  { s with acct := sset 0 s.acct key ((sget 0 s.acct key + n) % 2 ^ 64) }

/-- R293: a read of host memory, whose payload counts as PCIe bytes of a slot. -/
def State.hostR (s : State) (slot port pasid a n : Nat) : State := (s.emit (.hostRead port pasid a n)).account slot 6 n

/-- R293: a write of host memory, whose payload counts as PCIe bytes of a slot. -/
def State.hostW (s : State) (slot port pasid a : Nat) (bs : List Byte) : State := (s.emit (.hostWrite port pasid a bs)).account slot 6 bs.length

/-- Count bytes moved to or from LPDDR6 or stage memory. -/
def State.acctMem (s : State) (k a n : Nat) : State :=
  match s.region a with
  | .lpddr => s.account k 2 n
  | .stage => s.account k 3 n
  | _ => s

/-- A list that the image in force gives; without an image it is empty. -/
def State.imgList {α : Type} (s : State) (f : Image → List α) : List α :=
  match s.img with
  | some g => f g
  | none => []

/-! Free values (Assumption 1). -/

/-- The next free word, and the state that has used it. -/
def State.freeW (s : State) : State × Nat := ({ s with free := s.free + 1 }, (Config.freeWord s.free).toNat)

/-- Give n bytes from an address values that nothing constrains. -/
def State.freeRange (s : State) (a n : Nat) : State :=
  let s' := s.writeBytes a ((List.range n).map (fun i => Config.freeByte (s.free + i)))
  { s' with free := s.free + n }

end Sys2Proof.Machine
end

