-- ==== Sys2Proof/Machine/Numerics.lean ====
section
/-! DEFINITION. The arithmetic of the arrays: element formats, products on the anchor grid, column sums, the update of
an AP80 entry, the ZS7-compatible order, and the conversions out (R78, R79, R114 to R129, R138 to R141). -/
namespace Sys2Proof.Machine
open Sys2Proof

/-- The conversion code of a format code of R78. -/
def fmtCode : Nat → Nat
  | 0 => 10 | 1 => 8 | 2 => 9 | 3 => 4 | 4 => 5 | 5 => 7 | 6 => 2 | _ => 3

/-- R78: group of a format code: 0 FP4/FP6, 1 FP8, 2 INT8, 3 BF16/FP16, 4 reserved. -/
def fmtGroup (c : Nat) : Nat := if c ≤ 2 then 0 else if c ≤ 4 then 1 else if c = 5 then 2 else if c ≤ 7 then 3 else 4

/-- R78: reduction depth of one pass. -/
def fmtK (c : Nat) : Nat := if c ≤ 2 then 256 else 128

/-- R78: cycles per beat. -/
def fmtB (c : Nat) : Nat := if c ≤ 5 then 1 else 2

/-- R79: element width in bits. -/
def elemBits (c : Nat) : Nat := codeWidth (fmtCode c)

/-- R79: bytes of an activation or weight row. -/
def rowBytes (c : Nat) : Nat := fmtK c * elemBits c / 8

/-- R78: weight load cycles. -/
def loadCycles (c : Nat) (mx : Bool) : Nat := (512 * rowBytes c + (if mx then fmtK c / 32 * 512 else 0)) / 256

/-! Descriptor fields (R86). -/

def Desc.opcode (d : Desc) : Nat := bits d.ctrl 3 0
def Desc.fmtA (d : Desc) : Nat := bits d.ctrl 7 4
def Desc.fmtW (d : Desc) : Nat := bits d.ctrl 11 8
def Desc.mx (d : Desc) : Bool := bitAt d.ctrl 12
def Desc.acc (d : Desc) : Nat := bits d.ctrl 14 13
def Desc.radio (d : Desc) : Bool := bitAt d.ctrl 15
def Desc.planes (d : Desc) : Nat := bits d.ctrl 19 16
def Desc.maskMode (d : Desc) : Nat := bits d.ctrl 21 20
def Desc.maskFill (d : Desc) : Bool := bitAt d.ctrl 22
def Desc.outFmt (d : Desc) : Nat := bits d.ctrl 25 23
/-- FIRST or ONLY: the pass starts a chain. -/
def Desc.starts (d : Desc) : Bool := d.acc == 1 || d.acc == 3
/-- LAST or ONLY: the pass ends its chain. -/
def Desc.ends (d : Desc) : Bool := d.acc == 2 || d.acc == 3
/-- The signed anchor exponent (R118). -/
def Desc.anchorInt (d : Desc) : Int := toSigned 16 d.anchor
/-- Outputs of the enabled planes, in order of n (R75, R93). -/
def Desc.outs (d : Desc) : List Nat := (List.range 512).filter (fun n => bitAt d.planes (n / 128))

/-- R93: bytes of one output element. -/
def outBytes : Nat → Nat
  | 0 => 4 | 1 => 2 | 2 => 2 | 3 => 1 | 4 => 1 | 5 => 4 | 6 => 16 | _ => 4

/-- R127: the conversion code of an OUT_FMT. -/
def outCode : Nat → Nat
  | 0 => 1 | 1 => 2 | 2 => 3 | 3 => 4 | 4 => 5 | _ => 6

/-- R93: the fill value of a masked output. -/
def fillValue : Nat → Nat
  | 0 => 0xFF800000 | 1 => 0xFF80 | 2 => 0xFC00 | 3 => 0xFE | 4 => 0xFC | 5 => 0x80000000 | _ => 0

/-- R84: convert-out cost of a row. -/
def Desc.convCost (d : Desc) : Nat := ceilDiv (128 * popCount 4 d.planes * outBytes d.outFmt) 256

/-- R84: duration of a pass in cycles. -/
def Desc.duration (d : Desc) : Nat :=
  let b := fmtB d.fmtA
  if d.ends then b + 265 + (d.m - 1) * max b d.convCost + d.convCost else d.m * b + 262

/-- R89: whether entry (row i, output n) of a pass is masked. -/
def maskedAt (mode : Nat) (mask : List Byte) (i n : Nat) : Bool :=
  match mode with
  | 1 => bitAt (mask.getD (i / 8) 0).toNat (i % 8)
  | 2 => bitAt (leNat ((mask.drop (i / 16 * 4)).take 4)) (n / 16)
  | _ => false

/-! Elements and scales (R114, R115). A finite element is a signed mantissa and an exponent. -/

/-- The exact value of an element; none for a NaN or an infinity. -/
def elemVal (c x : Nat) : Option (Int × Int) :=
  match decodeCode (fmtCode c) x with
  | .fin neg m e => some (if neg then -(m : Int) else m, e)
  | _ => none

/-- The exponent of an E8M0 scale; none for 0xFF. -/
def scaleVal (x : Nat) : Option Int := if x = 255 then none else some ((x : Int) - 127)

/-- The raw elements of a row (R79). -/
def rowElems (c : Nat) (row : List Byte) : List Nat :=
  let x := leNat row
  let w := elemBits c
  (List.range (fmtK c)).map (fun i => x / 2 ^ (w * i) % 2 ^ w)

/-- R119: a signed magnitude m × 2^k rounded to an integer, ties to even; none above 2^79 − 1. -/
def gridRound (m : Int) (k : Int) : Option Int :=
  if m = 0 then some 0
  else if k ≥ 0 then
    if k > 79 then none
    else let q := m.natAbs * 2 ^ k.toNat
      if q > 2 ^ 79 - 1 then none else some (if m < 0 then -(q : Int) else q)
  else
    let (q, _) := rnePow m.natAbs (-k).toNat
    if q > 2 ^ 79 - 1 then none else some (if m < 0 then -(q : Int) else q)

/-- What a beat adds to an entry: the exact column sum, whether a product left the grid's range, and whether an
operand was not finite (R119 to R121). -/
structure ColSum where
  sum : Int
  range : Bool
  nonfin : Bool
  deriving DecidableEq, Repr

/-- Operand element at index k: its value with the block scale of k. None for a NaN, an infinity or scale 0xFF. -/
def scaled (v : Option (Int × Int)) (sc : Option Int) : Option (Int × Int) :=
  match v, sc with
  | some (m, e), some x => some (m, e + x)
  | _, _ => none

/-- R119, R120: the column sum of one beat and one output. -/
def colSum (anchor : Int) (a w : List (Option (Int × Int))) : ColSum :=
  (a.zip w).foldl (fun r p =>
    match p.1, p.2 with
    | some (ma, ea), some (mw, ew) =>
      match gridRound (ma * mw) (ea + ew - (anchor - 44)) with
      | some q => { r with sum := r.sum + q }
      | none => { r with range := true }
    | _, _ => { r with nonfin := true }) ⟨0, false, false⟩

/-- The AP80 saturation marker (R116). -/
def sat80 : Nat := 2 ^ 79
/-- The AP128 saturation marker (R128). -/
def sat128 : Nat := 2 ^ 127

/-- An updated entry, and why it became SAT: 0 not new, 1 range, 2 non-finite operand. -/
structure EntryUp where
  val : Nat
  cause : Nat
  deriving DecidableEq, Repr

/-- R120 to R122: update an entry. A first update ignores what the entry held. -/
def entryUpdate (first : Bool) (old : Nat) (c : ColSum) : EntryUp :=
  if !first && old == sat80 then ⟨sat80, 0⟩
  else if c.nonfin then ⟨sat80, 2⟩
  else
    let x := (if first then 0 else toSigned 80 old) + c.sum
    if c.range || decide (x.natAbs > 2 ^ 79 - 1) then ⟨sat80, 1⟩ else ⟨ofSigned 80 x, 0⟩

/-- R140: products rounded to binary32, groups of g added one at a time, each group's sum added to the entry. -/
def zs7Group (g : Nat) : Nat → Nat → List (Nat × Nat) → Nat → Nat
  | 0, entry, _, _ => entry
  | fuel + 1, entry, ps, code =>
    match ps with
    | [] => entry
    | _ =>
      let f := fmtOf 1
      let prods := (ps.take g).map (fun p =>
        (f.fmul (decodeCode (p.1 / 2 ^ 16) (p.1 % 2 ^ 16)) (decodeCode (p.2 / 2 ^ 16) (p.2 % 2 ^ 16))).1)
      let grp := match prods with
        | [] => 0
        | x :: xs => xs.foldl (fun a y => (f.fadd (f.decode a) (f.decode y)).1) x
      zs7Group g fuel ((f.fadd (f.decode entry) (f.decode grp)).1) (ps.drop g) code

/-- R140: the entry after a beat of a ZS7-compatible pass; elements carry their conversion code in bits [31:16]. -/
def zs7Update (g : Nat) (first : Bool) (old : Nat) (ps : List (Nat × Nat)) : Nat :=
  zs7Group g (ps.length + 1) (if first then 0 else old % 2 ^ 32) ps 0

/-- R127, R128: convert an AP80 entry on an anchor, or the binary32 value of a ZS7 entry, to an OUT_FMT; the datum and
whether the conversion clamped to ±448 or ±(2^31 − 1). -/
def convertOut (zs7 : Bool) (anchor : Int) (outFmt : Nat) (entry : Nat) : Nat × Bool :=
  if outFmt = 6 then (if entry = sat80 then sat128 else ofSigned 128 (toSigned 80 entry), false)
  else
    let code := outCode outFmt
    let v : Fv := if zs7 then (fmtOf 1).decode (entry % 2 ^ 32)
      else if entry = sat80 then .nan false
      else let x := toSigned 80 entry; .fin (decide (x < 0)) x.natAbs (anchor - 44)
    let (r, fl) := convertTo code v false
    let clamp :=
      match v with
      | .nan _ => false
      | .inf _ => code == 4 || code == 6
      | .fin _ _ _ => (code == 4 && bitAt fl 2) || (code == 6 && bitAt fl 0)
    (r, clamp)

/-- R125: the smallest e with every magnitude below 2^e, for one magnitude m × 2^x; none for zero. -/
def boundExp (m : Nat) (x : Int) : Option Int := if m = 0 then none else some ((Nat.log2 m : Int) + 1 + x)

end Sys2Proof.Machine
end

