-- ==== Sys2Proof/Machine/Threads.lean ====
section
/-! DEFINITION. Operations over hardware threads of the thread engines: registers, completions, faults, and the step
fault of a serving partition (R151 to R153, R165, R177, R178, R505). -/
namespace Sys2Proof.Machine
open Sys2Proof

def thrKey (n t : Nat) : Nat := 64 * n + t
def State.thr (s : State) (n t : Nat) : Thr := sget {} s.te.thr (thrKey n t)
def State.setThr (s : State) (n t : Nat) (x : Thr) : State :=
  { s with te := { s.te with thr := sset {} s.te.thr (thrKey n t) x } }

/-- R152: scalar register r; s0 reads as 0. -/
def Thr.sr (x : Thr) (r : Nat) : Nat := if r = 0 then 0 else sget 0 x.s r % 2 ^ 64
/-- R152: write scalar register r modulo 2^64; s0 ignores it. -/
def Thr.setS (x : Thr) (r v : Nat) : Thr := if r = 0 then x else { x with s := sset 0 x.s r (v % 2 ^ 64) }
/-- R152: predicate register r; p0 reads as all ones. -/
def Thr.pr (x : Thr) (r : Nat) : Nat := if r = 0 then 2 ^ 32 - 1 else sget 0 x.p r % 2 ^ 32
/-- R152: write a predicate register; p0 ignores it. -/
def Thr.setP (x : Thr) (r v : Nat) : Thr := if r = 0 then x else { x with p := sset 0 x.p r (v % 2 ^ 32) }
/-- R152: lane l of vector register r. -/
def Thr.lane (x : Thr) (r l : Nat) : Nat := sget 0 x.v (32 * (r % 32) + l) % 2 ^ 32
/-- R152: write lane l of vector register r. -/
def Thr.setLane (x : Thr) (r l v : Nat) : Thr := { x with v := sset 0 x.v (32 * (r % 32) + l) (v % 2 ^ 32) }
/-- R152: lane l of the FP64 vector in the pair v(r), v(r + 1). -/
def Thr.pair (x : Thr) (r l : Nat) : Nat := x.lane r l + 2 ^ 32 * x.lane (r + 1) l
/-- R152: write lane l of an FP64 pair. -/
def Thr.setPair (x : Thr) (r l v : Nat) : Thr := (x.setLane r l v).setLane (r + 1) l (v / 2 ^ 32)
/-- R137: set sticky flags. -/
def Thr.orFlags (x : Thr) (f : Nat) : Thr := { x with fpflags := x.fpflags ||| f }

/-- All thread numbers of the chip. -/
def allThreads : List (Nat × Nat) := (List.range 64).flatMap (fun n => (List.range 64).map (fun t => (n, t)))

/-- R178: whether a thread of a job is stopped by a fault of the job. -/
def Thr.stops (x : Thr) (job : Nat) : Bool := x.job == job && !x.radio && x.st ≠ .idle && x.st ≠ .faulted
def SigThr.stops (x : SigThr) (job : Nat) : Bool := x.job == job && !x.radio && x.st ≠ .idle && x.st ≠ .faulted

/-- R350: the waits on sync objects of the threads of a job end with them. -/
def State.dropWaits (s : State) (job : Nat) : State :=
  { s with net := { s.net with waits := s.net.waits.filter (fun w => w.2.2.2.isSome || (sget ({} : Thr) s.te.thr w.2.2.1).job ≠ job) } }

/-- R178, R180, R384: mark every thread bound to a job FAULTED, on every engine and core, keeping what the faulting thread recorded. -/
def State.stopJob (s : State) (job : Nat) : State :=
  let s := s.dropWaits job
  let hit (n : Nat) : Bool := s.te.thr.any (fun e => e.1 / 64 == n && e.2.stops job)
  let core := s.sig.thr.any (fun e => e.2.stops job)
  let ns := (List.range 64).filter hit
  let s : State := { s with
    te := { s.te with thr := s.te.thr.map (fun e => (e.1, if e.2.stops job then { e.2 with st := .faulted, why := .none } else e.2)) }
    sig := { s.sig with thr := s.sig.thr.map (fun e => (e.1, if e.2.stops job then { e.2 with st := .faulted, why := .none } else e.2)) } }
  let s := ns.foldl (fun (s : State) n => s.status (f_TE_STATUS_FAULT n)) s
  if core then s.status f_SIG_STATUS_FAULT else s

/-- R178: a fault of a radio-bound thread stops the other radio-bound threads of its engine. DEDUCED 84: the radio program of an engine
is the job of its radio-bound threads. -/
def State.stopRadio (s : State) (n : Nat) : State :=
  { s with te := { s.te with thr := s.te.thr.map (fun e =>
      (e.1, if e.1 / 64 = n ∧ e.2.radio = true ∧ e.2.st ≠ .idle ∧ e.2.st ≠ .faulted then { e.2 with st := .faulted, why := .none } else e.2)) } }

/-- R505, R507: a step fault of partition p: the job's threads stop, SRV_STEP_FAULT is raised and the recovery state
moves. A partition already in STEP_FAULT, or whose step is retiring, stays as it is. -/
def State.stepFault (s : State) (p : Nat) : State :=
  let r := sget {} s.flt.part p
  let sp := sget {} s.sp p
  if r.st = .stepFault ∨ sp.phase = .retiring then s
  else
    let s := match sp.job with
      | some j => s.stopJob j
      | none => s
    let s := s.raise srcServe 0x33 (sp.step % 2 ^ 48) p
    let s := s.status f_FLT_STATUS_STEP_FAULT
    let r' : PartRec := { r with st := .stepFault, attempts := if r.st = .running then 0 else r.attempts, since := s.tim.expo, tmo := false, cmd := false }
    ({ s with flt := { s.flt with part := sset {} s.flt.part p r' } } : State).enterRecovery

/-- The partition whose serving job a job is. -/
def State.servedBy (s : State) (job : Nat) : Option Nat :=
  (List.range 16).find? (fun p => (sget {} s.sp p).job == some job)

/-- R505: a fault of a serving job's work is a step fault. -/
def State.jobFault (s : State) (job : Nat) : State :=
  match s.servedBy job with
  | some p => s.stepFault p
  | none => s

/-- R178: thread t of engine n enters FAULTED for a kind, at its PC, and the other threads of its job stop. -/
def State.thrStop (s : State) (n t kind : Nat) : State :=
  let x := s.thr n t
  let s := s.setThr n t { x with st := .faulted, why := .none, kind := kind }
  let s := s.status (f_TE_STATUS_FAULT n)
  if x.radio then s.stopRadio n else (s.stopJob x.job).jobFault x.job

/-- R177, R178: thread t of engine n raises a fault: FAULTED, the fault recorded, the other threads of its job stopped. -/
def State.thrFault (s : State) (n t kind addr : Nat) : State :=
  (s.raise (srcTe (s.physFor n)) kind addr t).thrStop n t kind

/-- R185: a load of a thread met an uncorrectable error, which its memory has reported: the thread's job stops as R178 states, at the
PC of the load. DEDUCED 84: the thread records the kind MEM_UNCORR. -/
def State.loadStop (s : State) (n t : Nat) : State :=
  let x := s.thr n t
  if x.st = .faulted then s else (s.setThr n t { x with pc := x.ipc }).thrStop n t 0x29

/-- R151: a thread that waited goes on. -/
def Thr.wake (x : Thr) : Thr := { x with st := if x.st = .wait then .ready else x.st, prev := .ready, why := .none }

/-- R164: a completion word. -/
def completionWord (seq code : Nat) (sat residue chainEnd radio : Bool) : Nat :=
  let b (x : Bool) (i : Nat) := if x then 2 ^ i else 0
  seq % 2 ^ 32 + code % 16 * 2 ^ 32 + b sat 36 + b residue 37 + b chainEnd 38 + b radio 39 + 2 ^ 63

/-- R148, R163: change the thread that issued a pass, while it is bound to the job that it was bound to then. -/
def State.onIssuer (s : State) (n : Nat) (d : Desc) (f : Thr → Thr) : State :=
  let x := s.thr n d.thread
  if x.job = d.job then s.setThr n d.thread (f x) else s

/-- R165: a thread takes a completion: one that waits in `pwait` goes on with it, else it joins the untaken ones. -/
def Thr.take (x : Thr) (word : Nat) : Thr :=
  if x.why = .pwait then { (x.wake.setS x.wD word) with outst := x.outst - 1 } else { x with comps := x.comps ++ [word] }

/-- R165: hand a completion to the thread that issued the pass. -/
def State.deliver (s : State) (n : Nat) (d : Desc) (word : Nat) : State := s.onIssuer n d (fun x => x.take word)

/-- R161, R346: whether everything that a fence of a reach waits for has completed; local accesses complete in the
step that issues them. -/
def Thr.fenceMet (x : Thr) (reach : Nat) : Bool :=
  (reach == 0 || x.rmtOut.isEmpty) && (reach != 2 || x.accOut == 0)

/-- R161: a fence that waited ends once its accesses have completed. -/
def Thr.fenceWake (x : Thr) : Thr := if x.why = .fence ∧ x.fenceMet x.wB = true then x.wake else x

/-- A pass of a thread ended and returns no completion (R163). -/
def State.passDone (s : State) (n : Nat) (d : Desc) : State := s.onIssuer n d (fun x => { x with outst := x.outst - 1 })

/-- A pass of a thread made its last accumulator write (R161). -/
def State.accDone (s : State) (n : Nat) (d : Desc) : State :=
  s.onIssuer n d (fun x => ({ x with accOut := x.accOut - 1 } : Thr).fenceWake)

end Sys2Proof.Machine
end

