-- ==== Sys2Proof/Machine/Arrays.lean ====
section
/-! DEFINITION. The matrix arrays: queues and chains of passes, descriptor checks, beats, convert-out, residue handling
and the substitution of a logical array by its die's spare (R74 to R112, R119 to R129). -/
namespace Sys2Proof.Machine
open Sys2Proof

/-- The lease part that a resource is in: arrays are resources 0 to 63. -/
def State.leaseOf (s : State) (r : Nat) : LeasePhase := sget .openLease s.tim.lease r

/-- R91: radio rows and radio store bytes of an array. -/
def State.radioRows (s : State) (n : Nat) : Nat := s.get (f_ARR_ACC_SPLIT_RADIO_ROWS n)
def State.radioStore (s : State) (n : Nat) : Nat := s.get (f_ARR_ACC_SPLIT_RADIO_STORE n) * 0x10000

/-- R91: whether store offsets [a, a + len) lie in the region of a lease. -/
def State.storeOk (s : State) (n : Nat) (radio : Bool) (a len : Nat) : Bool :=
  let r := s.radioStore n
  if radio then decide (a + len ≤ r) else decide (r ≤ a) && decide (a + len ≤ 0x400000)

/-- R91: whether accumulator rows [r, r + m) lie in the region of a lease. -/
def State.rowsOk (s : State) (n : Nat) (radio : Bool) (r m : Nat) : Bool :=
  let k := s.radioRows n
  if radio then decide (r + m ≤ k) else decide (k ≤ r) && decide (r + m ≤ 512)

/-- R138: whether a pass runs under ZS7-compatible numerics: an open-lease pass of a marked partition, not INT8. -/
def State.zs7 (s : State) (part : Nat) (radio : Bool) : Bool := !radio && bitAt (s.get f_ARR_COMPAT_ZS7_PART) part

/-- The partition of a logical array (R24). -/
def State.partOfArr (s : State) (n : Nat) : Option Nat :=
  match s.img with
  | some g => (g.parts.find? (fun p => p.arrays.contains n)).map (·.id)
  | none => none

/-- Whether an array's open passes run ZS7-compatible. -/
def State.arrZs7 (s : State) (n : Nat) (radio : Bool) : Bool :=
  match s.partOfArr n with
  | some p => s.zs7 p radio
  | none => false

/-- R87: mask bytes of a descriptor. -/
def State.maskBytes (s : State) (n : Nat) (d : Desc) : List Byte :=
  match d.maskMode with
  | 1 => s.readBytes (storeBase n + d.maskAddr) 64
  | 2 => s.readBytes (storeBase n + d.maskAddr) 128
  | _ => []

/-- The open chain of a job in a queue. -/
def Arr.chainOf (a : Arr) (radio : Bool) (job : Nat) : Option Chain :=
  a.chains.find? (fun c => c.radio == radio && c.job == job && !c.ending)

/-- A chain by its number. -/
def Arr.chainNo (a : Arr) (cid : Nat) : Chain := (a.chains.find? (fun c => c.cid == cid)).getD {}

/-- Change a chain by its number. -/
def Arr.modChain (a : Arr) (cid : Nat) (f : Chain → Chain) : Arr :=
  { a with chains := a.chains.map (fun c => if c.cid = cid then f c else c) }

/-- R87, R93: a chain that takes no more passes is kept until none of its passes is in flight: its mask, poison and saturation hold
for their beats. -/
def Arr.purge (a : Arr) : Arr := { a with chains := a.chains.filter (fun c => !c.ending || a.run.any (fun p => p.cid == c.cid)) }

/-- A chain takes no more passes. -/
def Arr.closeChain (a : Arr) (cid : Nat) : Arr := (a.modChain cid (fun c => { c with ending := true })).purge

/-- R87: fields that must be equal within a chain. -/
def chainSame (c : Chain) (d : Desc) (mask : List Byte) : Bool :=
  c.d.m == d.m && c.d.tileRow == d.tileRow && c.d.fmtA == d.fmtA && c.d.fmtW == d.fmtW && c.d.mx == d.mx
  && c.d.radio == d.radio && c.d.planes == d.planes && c.d.anchor == d.anchor && c.d.maskMode == d.maskMode && c.mask == mask

/-- R82: bytes of a weight set with its scales. -/
def Desc.wbytes (d : Desc) : Nat := 512 * rowBytes d.fmtW + (if d.mx then fmtK d.fmtW / 32 * 512 else 0)

/-- R85, R86: the reserved bits and bytes of a descriptor. -/
def Desc.reservedSet (d : Desc) : Bool := bits d.ctrl 31 26 ≠ 0 || d.rsv ≠ 0 || bits d.prio 7 3 ≠ 0

/-- The checks of R88 but those on the chain's record, each with its code, lowest first. -/
def State.descChecks (s : State) (n : Nat) (radioQ bound : Bool) (d : Desc) (mask : List Byte) : List (Nat × Bool) :=
  let r := d.radio
  let al (a : Nat) := a % 64 == 0
  let zs7 := s.arrZs7 n r
  let rb := rowBytes d.fmtA
  let k32 := fmtK d.fmtA / 32
  let ch := (s.arrOf n).chainOf radioQ d.job
  [(0x1, d.opcode ≠ 1 || d.outFmt == 7 || d.maskMode == 3 || (zs7 && d.outFmt == 6)),
   (0x2, fmtGroup d.fmtA == 4 || fmtGroup d.fmtW == 4 || fmtGroup d.fmtA ≠ fmtGroup d.fmtW
      || (d.mx && decide (fmtGroup d.fmtA ≥ 2)) || d.planes == 0 || (zs7 && (fmtGroup d.fmtA == 0 || d.mx))),
   (0x3, d.m == 0 || decide (d.m > 512) || d.tileRow % 16 ≠ 0 || decide (d.tileRow + d.m > 512)),
   (0x4, !(s.rowsOk n r d.tileRow d.m)),
   (0x5, !(al d.actAddr && al d.actStride && decide (rb ≤ d.actStride) && s.storeOk n r d.actAddr ((d.m - 1) * d.actStride + rb)
      && al d.wgtAddr && s.storeOk n r d.wgtAddr d.wbytes
      && (!d.mx || (al d.scaleAddr && s.storeOk n r d.scaleAddr (d.m * k32)))
      && (d.maskMode == 0 || (al d.maskAddr && s.storeOk n r d.maskAddr (if d.maskMode = 1 then 64 else 128)))
      && (!d.ends || (al d.outAddr && s.storeOk n r d.outAddr ((d.m - 1) * d.outStride * 64 + d.outs.length * outBytes d.outFmt))))),
   (0x6, r && !(s.region d.radAct == .stage && s.region d.radWgt == .stage)),
   (0x7, (match ch with
      | some c => d.starts || !(chainSame c d mask)
      | none => !d.starts)),
   (0x8, d.reservedSet),
   (0x9, (r && !bound) || r ≠ radioQ)]

/-- R88: the code a descriptor is rejected with when the queue reaches it; 0 when it passes. `lost` marks a pass that the copy to a
spare has poisoned (R103). -/
def State.descCode (s : State) (n : Nat) (radioQ bound lost : Bool) (d : Desc) (mask : List Byte) : Nat :=
  let bad := match (s.arrOf n).chainOf radioQ d.job with
    | some c => if d.starts then 0 else c.bad
    | none => 0
  if bad ≠ 0 then bad
  else if lost then 0xA
  else match (s.descChecks n radioQ bound d mask).find? (·.2) with
    | some (c, _) => c
    | none => 0

/-- R107: an open chain is in progress: it may take more passes, or its convert-out has not ended (R93). -/
def Arr.chainOpen (a : Arr) : Bool := a.cur.isSome || a.run.any (fun p => !p.d.radio)

/-- R104: HALTED reads 1 when HALT is set, no chain of the open queue is in progress and no open pass is running. -/
def State.halted (s : State) (n : Nat) : Bool := s.flag (f_ARR_CTRL_HALT n) && !(s.arrOf n).chainOpen

/-- R99, R102: the physical array that runs a pass: while the die's spare re-runs radio work of the array, or the array is in
SWAP_PENDING or COPYING, its radio passes run on the spare. -/
def State.physRun (s : State) (n : Nat) (radio : Bool) : Nat :=
  let a := s.arrOf n
  if radio && (a.rerun || a.map == .swapPending || a.map == .copying) then 9 * s.dieOfArr n + 8 else s.physFor n

/-- R57: the radio work of a resource that is the next to complete; of a core, the work of a thread. -/
def State.workOf (s : State) (r t : Nat) : Option RadioWork := s.tim.radioWork.find? (fun w => w.res == r && (r < 0x100 || 0x160 ≤ r || w.thr == t))

/-- R57: it has completed and passed its checks. -/
def State.workDone (s : State) (r t : Nat) : State :=
  match s.workOf r t with
  | some w => { s with tim := { s.tim with radioWork := s.tim.radioWork.erase w } }
  | none => s

/-- R55, R57: it is given up without a result. -/
def State.workLost (s : State) (r t : Nat) : State :=
  match s.workOf r t with
  | some w => { s with tim := { s.tim with radioWork := s.tim.radioWork.erase w, gaveUp := s.tim.gaveUp ++ w.cells } }
  | none => s

/-- R123, R164: whether the completion of a pass that ends a chain shows a saturation: of the chain of its job in its queue. -/
def Arr.satOf (a : Arr) (radio : Bool) (d : Desc) : Bool :=
  d.ends && !d.starts && ((a.chainOf radio d.job).map (·.sat)).getD false

/-- R88, R99: reject a pass: the error completion, and the record and fault of a rejection. -/
def State.rejectPass (s : State) (n : Nat) (radio : Bool) (p : Pass) (code : Nat) (sat : Bool) : State :=
  let s := s.status (f_ARR_STATUS_DESC_ERR n)
  let s := (s.put (f_ARR_DESC_ERR_CODE n) code).put (f_ARR_DESC_ERR_SEQ n) (p.d.seq % 2 ^ 16)
  let s := s.raise (srcArray (s.physRun n radio)) 0x02 n (code + 16 * (p.d.seq % 4096))
  let s := s.deliver n p.d (completionWord p.d.seq code sat false p.d.ends radio)
  let s := s.accDone n p.d
  let s := if radio then s.workLost n 0 else s
  if code = 0xA then s.jobFault p.d.job else s

/-- R83: the key of a weight set: formats and MX setting. -/
def Desc.wkey (d : Desc) : Nat := d.fmtA + 16 * d.fmtW + (if d.mx then 256 else 0)

def WSlot.holds (w : WSlot) (d : Desc) : Bool := w.valid && w.addr == d.wgtAddr && w.fmts == d.wkey

def Arr.active (a : Arr) : WSlot := if a.actB then a.slotB else a.slotA
def Arr.spareSlot (a : Arr) : WSlot := if a.actB then a.slotA else a.slotB
def Arr.setSpareSlot (a : Arr) (w : WSlot) : Arr := if a.actB then { a with slotA := w } else { a with slotB := w }

/-- R94: rows of a chain that still waits for its convert-out and overlap the pass. -/
def Arr.rowsPending (a : Arr) (d : Desc) : Bool :=
  a.run.any (fun p => p.d.ends && decide (p.d.tileRow < d.tileRow + d.m) && decide (d.tileRow < p.d.tileRow + p.d.m))

/-- R95: the pass that a queue issues next. In an open chain only that chain's passes; else the oldest of the highest
priority. Passes of a job that is being spilled or reloaded wait (R216). -/
def Arr.next (a : Arr) (radio : Bool) : Option Pass :=
  if radio then a.radioQ.head?
  else
    let l := a.openQ.filter (fun p => a.spills.all (fun v => v.job ≠ p.d.job))
    match a.cur with
    | some j => l.find? (fun p => p.d.job == j)
    | none =>
      let hi := l.foldl (fun h p => max h (p.d.prio % 8)) 0
      l.find? (fun p => p.d.prio % 8 == hi)

def Arr.take (a : Arr) (radio : Bool) (p : Pass) : Arr :=
  if radio then { a with radioQ := a.radioQ.erase p } else { a with openQ := a.openQ.erase p }

/-- R163: place a descriptor of a thread in a queue and count it outstanding. -/
def State.enqueuePass (s : State) (n t : Nat) (radio : Bool) (p : Pass) : State :=
  let a := s.arrOf n
  let s := s.setArr n (if radio then { a with radioQ := a.radioQ ++ [p] } else { a with openQ := a.openQ ++ [p] })
  let x := s.thr n t
  s.setThr n t { x with outst := x.outst + 1, accOut := x.accOut + 1 }

/-- R481: whether bytes [off, off + len) of the store, or of the accumulator store, lie in a region that a spill has yet to
save. An access to such a region stalls. -/
def Arr.unsaved (a : Arr) (acc : Bool) (off len : Nat) : Bool :=
  let u := if acc then 81920 else 0x10000
  a.spills.any (fun v => v.begun && !v.hdr &&
    (bitList 64 (if acc then v.accLeft else v.storeLeft)).any (fun r => decide (r * u < off + len) && decide (off < (r + 1) * u)))

/-- R481: whether an operand of an open pass lies in a region that is not yet saved. -/
def Arr.passStalls (a : Arr) (d : Desc) : Bool :=
  !a.spills.isEmpty && !d.radio
  && (a.unsaved true (d.tileRow * 5120) (d.m * 5120) || a.unsaved false d.actAddr ((d.m - 1) * d.actStride + rowBytes d.fmtA)
    || a.unsaved false d.wgtAddr d.wbytes || (d.mx && a.unsaved false d.scaleAddr (d.m * (fmtK d.fmtA / 32)))
    || (d.maskMode ≠ 0 && a.unsaved false d.maskAddr 128)
    || (d.ends && a.unsaved false d.outAddr ((d.m - 1) * d.outStride * 64 + d.outs.length * outBytes d.outFmt)))

/-- R95, R163: whether an issue finds no room: the queue is full or the thread holds 32 outstanding passes. -/
def State.issueFull (s : State) (n t : Nat) (radio : Bool) : Bool :=
  let a := s.arrOf n
  (if radio then decide (64 ≤ a.radioQ.length) else decide (256 ≤ a.openQ.length)) || decide (32 ≤ (s.thr n t).outst)

/-- R96: an issue held on a full queue goes on once there is room; held threads go on in thread order. -/
def State.retryIssues (s : State) (n : Nat) : State :=
  (List.range 64).foldl (fun s t =>
    let x := s.thr n t
    match x.why, x.wHeld with
    | .issue, some p =>
      let radio := x.wA = 1
      if s.issueFull n t radio then s
      else ((s.setThr n t { (x.wake.setS x.wD 0) with wHeld := none }).enqueuePass n t radio p)
    | _, _ => s) s

/-- R88: what a rejected pass leaves of its chain. Later passes of the chain are rejected with 0x7 up to its LAST; a rejected FIRST
opens such a chain. A pass that would start a chain is no pass of the chain that its job has open (Assumption 49). -/
def Arr.afterReject (a : Arr) (radio : Bool) (d : Desc) (mask : List Byte) (code : Nat) : Arr :=
  let bad := if code = 0xA then 0xA else 7
  match a.chainOf radio d.job with
  | some c =>
    if d.starts then a
    else if d.ends then { (a.closeChain c.cid) with cur := if radio then a.cur else none }
    else a.modChain c.cid (fun c => { c with bad := if c.bad = 0 then bad else c.bad })
  | none =>
    if d.starts && !d.ends then
      { a with nextCid := a.nextCid + 1, chains := a.chains ++ [{ cid := a.nextCid, radio := radio, job := d.job, d := d, mask := mask, bad := bad }] }
    else a

/-- R82, R83: the set in the spare slot was loaded for this pass. A set of an earlier pass left there does not serve it. -/
def WSlot.loadFor (w : WSlot) (d : Desc) : Bool := w.valid && w.load == some d

/-- R99: the accumulator rows, and the rows of bytes that a convert-out writes, of a chain that the spare runs: it serves them until
the next shutter. -/
def rerunRows (n : Nat) (d : Desc) : Nat × Nat := (accBase n + d.tileRow * 5120, d.m * 5120)
def rerunOut (n : Nat) (d : Desc) : List (Nat × Nat) :=
  (List.range d.m).map (fun i => (storeBase n + d.outAddr + i * d.outStride * 64, d.outs.length * outBytes d.outFmt))

/-- R83, R87, R99: a pass starts with weight set w. While the spare runs the array's radio work it serves the rows of the chains it
runs. -/
def Arr.beginPass (a : Arr) (n : Nat) (radio : Bool) (p : Pass) (mask : List Byte) (w : WSlot) : Arr :=
  let d := p.d
  let a := a.take radio p
  let (a, cid) : Arr × Nat := match a.chainOf radio d.job with
    | some c => (a, c.cid)
    | none => ({ a with nextCid := a.nextCid + 1, chains := a.chains ++ [{ cid := a.nextCid, radio := radio, job := d.job, d := d, mask := mask }] }, a.nextCid)
  let a := if d.ends then a.modChain cid (fun c => { c with ending := true }) else a
  let a := if radio then a else { a with cur := if d.ends then none else some d.job }
  let a := if radio && a.rerun && d.starts then { a with redir := a.redir ++ [rerunRows n d] } else a
  { a with run := a.run ++ [{ p with cid := cid, w := w }] }

/-- R83, R88: what PASS_START does once the queue has reached a pass: it is rejected; or it starts, on the active slot or on the
slot that was loaded for it; or its weights begin to load into the spare slot. The beats of passes in flight keep the sets of their
slot tags (R77). -/
def State.startPass (s : State) (n : Nat) (radio : Bool) (p : Pass) : State :=
  let a := s.arrOf n
  let d := p.d
  let mask := s.maskBytes n d
  let bound := (s.thr n d.thread).radio
  let code := s.descCode n radio bound p.lost d mask
  if code ≠ 0 then
    ((s.setArr n ((a.take radio p).afterReject radio d mask code)).rejectPass n radio p code (a.satOf radio d)).retryIssues n
  else if a.active.holds d then
    if d.starts && a.rowsPending d then s
    else ((s.bump (f_ARR_WHIT_CNT_COUNT n)).setArr n (a.beginPass n radio p mask a.active)).retryIssues n
  else if a.spareSlot.loadFor d then
    if a.spareSlot.ready && !(d.starts && a.rowsPending d) then
      let w := { a.spareSlot with load := none }
      (s.setArr n (({ (a.setSpareSlot w) with actB := !a.actB } : Arr).beginPass n radio p mask w)).retryIssues n
    else s
  else s.setArr n (a.setSpareSlot { valid := true, ready := false, addr := d.wgtAddr, fmts := d.wkey, load := some d })

/-- Whether a queue may issue now (R51, R95, R101, R104). A new open chain does not start under HALT. -/
def State.mayIssue (s : State) (n : Nat) (radio : Bool) (p : Pass) : Bool :=
  let a := s.arrOf n
  if radio then s.leaseOf n = .radio && a.map ≠ .offline
  else s.leaseOf n = .openLease && (a.map = .inService || a.map = .onSpare)
    && !(s.flag (f_ARR_CTRL_HALT n) && a.cur.isNone) && !(a.passStalls p.d)
    && !(p.d.starts && a.cur.isSome && a.cur ≠ some p.d.job)

def State.doPassStart (s : State) (n : Nat) (radio : Bool) : State :=
  if s.hasArray n then
    match (s.arrOf n).next radio with
    | some p => if s.mayIssue n radio p then s.startPass n radio p else s
    | none => s
  else s

/-- PASS_START (R83, R88, R95): the queue reaches a descriptor, checks it, and starts the pass when its weights are in
a slot and no convert-out of the same rows is pending; a weight load begins when they are not. -/
def execPassStart (n : Fin 64) (radio : Bool) (s : State) : Host.Outcome State Fault Refusal :=
  .next (whenLive s (fun s => s.doPassStart n radio))

/-- WEIGHT_LOAD_COMPLETE (R79, R82): the inactive slot holds the set that its load named. -/
def execWeightLoadComplete (n : Fin 64) (s : State) : Host.Outcome State Fault Refusal :=
  .next (whenLive s (fun s =>
    let a := s.arrOf n
    let w := a.spareSlot
    if w.valid && !w.ready then
      let d : Desc := { ctrl := (w.fmts % 16) * 16 + (w.fmts / 16 % 16) * 256 + (if w.fmts ≥ 256 then 2 ^ 12 else 0) }
      let at' := storeBase n + w.addr
      let bad := touched s.ms.uncorr at' d.wbytes
      let s := (touched s.ms.corr at' d.wbytes).foldl (fun s g => s.reportCorr g) s
      let s := bad.foldl (fun s g => s.reportUncorr g) s
      s.setArr n (a.setSpareSlot { w with ready := true, err := !bad.isEmpty, bytes := slice s.mem at' d.wbytes })
    else s))

/-! Beats (R81, R89, R90, R97 to R99, R119 to R124). -/

/-- R117: the address of an accumulator entry. -/
def entryAddr (n row out : Nat) : Nat := accBase n + row * 5120 + out * 10

/-- The column sum of output o for a beat, from the weight slot's bytes and the decoded activation row. -/
def outSum (d : Desc) (wb : SMap Byte) (acts : List (Option (Int × Int))) (o : Nat) : ColSum :=
  let rb := rowBytes d.fmtW
  let k32 := fmtK d.fmtW / 32
  let raw := rowElems d.fmtW ((List.range rb).map (fun i => sget 0 wb (o * rb + i)))
  let ws := raw.zipIdx.map (fun (x, k) =>
    let v := elemVal d.fmtW x
    if d.mx then scaled v (scaleVal (sget 0 wb (512 * rb + o * k32 + k / 32)).toNat) else v)
  colSum d.anchorInt acts ws

/-- The decoded activation row of beat i (R79, R115). -/
def State.actRow (s : State) (n : Nat) (d : Desc) (i : Nat) : List (Option (Int × Int)) :=
  let raw := rowElems d.fmtA (s.readBytes (storeBase n + d.actAddr + i * d.actStride) (rowBytes d.fmtA))
  let k32 := fmtK d.fmtA / 32
  let sc := s.readBytes (storeBase n + d.scaleAddr + i * k32) k32
  raw.zipIdx.map (fun (x, k) =>
    let v := elemVal d.fmtA x
    if d.mx then scaled v (scaleVal (sc.getD (k / 32) 0).toNat) else v)

/-- Pairs of raw elements of a ZS7-compatible beat, each with its conversion code in bits [31:16]. -/
def State.rawPairs (s : State) (n : Nat) (d : Desc) (wb : SMap Byte) (i o : Nat) : List (Nat × Nat) :=
  let ra := rowElems d.fmtA (s.readBytes (storeBase n + d.actAddr + i * d.actStride) (rowBytes d.fmtA))
  let rb := rowBytes d.fmtW
  let rw := rowElems d.fmtW ((List.range rb).map (fun j => sget 0 wb (o * rb + j)))
  (ra.zip rw).map (fun p => (p.1 + fmtCode d.fmtA * 2 ^ 16, p.2 + fmtCode d.fmtW * 2 ^ 16))

/-- One beat's writes: the new entries of the tile row, oldest output first, with the cause of each new SAT. -/
def State.beatEntries (s : State) (n : Nat) (p : Pass) (wb : SMap Byte) (outs : List Nat) : List (Nat × EntryUp) :=
  let d := p.d
  let row := d.tileRow + p.beat
  if s.arrZs7 n d.radio && fmtGroup d.fmtA ≠ 2 then
    let g := 2 ^ s.get f_ARR_COMPAT_GROUP_LOG2
    outs.map (fun o => (o, ⟨zs7Update g d.starts (s.readLE (entryAddr n row o) 10) (s.rawPairs n d wb p.beat o), 0⟩))
  else
    let acts := s.actRow n d p.beat
    outs.map (fun o => (o, entryUpdate d.starts (s.readLE (entryAddr n row o) 10) (outSum d wb acts o)))

/-- R122: report the entries that became SAT in a beat. -/
def State.reportSat (s : State) (n : Nat) (p : Pass) (ups : List (Nat × EntryUp)) : State :=
  let news := ups.filter (fun u => u.2.cause ≠ 0)
  match news with
  | [] => s
  | (_, u) :: _ =>
    let row := p.d.tileRow + p.beat
    let rowsReg := (f_ARR_SAT_ROWS_0_ROWS n).off + 4 * (row / 32)
    let s := s.setReg rowsReg (s.reg rowsReg ||| BitVec.ofNat 32 (2 ^ (row % 32)))
    let s := s.status (f_ARR_STATUS_OVERFLOW n)
    let s := if news.any (fun u => u.2.cause == 1) then s.status (f_ARR_NUM_STATUS_SAT_RANGE n) else s
    let s := if news.any (fun u => u.2.cause == 2) then s.status (f_ARR_NUM_STATUS_SAT_NONFIN n) else s
    let s := s.bumpBy (f_ARR_SAT_CNT_COUNT n) news.length
    let a := s.arrOf n
    if (a.chainNo p.cid).sat then s
    else
      let s := s.setArr n (a.modChain p.cid (fun c => { c with sat := true }))
      let s := ((s.put (f_ARR_SAT_INFO_ROW n) row).put (f_ARR_SAT_INFO_CAUSE n) (u.cause - 1)).put (f_ARR_SAT_INFO_SEQ n) (p.d.seq % 2 ^ 16)
      s.raise (srcArray (s.physRun n p.d.radio)) 0x03 n (row + 512 * (u.cause - 1))

/-- Store the entries of a beat. -/
def State.storeEntries (s : State) (n row : Nat) (ups : List (Nat × EntryUp)) : State :=
  ups.foldl (fun s u => s.putBytes (entryAddr n row u.1) (leBytes 10 u.2.val)) s

/-- Replace the first pass in flight that still has beats to write. -/
def Arr.modRun (a : Arr) (f : Pass → Pass) : Arr :=
  { a with run :=
      let done := a.run.takeWhile (fun p => decide (p.beat ≥ p.d.m))
      match a.run.drop done.length with
      | [] => a.run
      | p :: rest => done ++ f p :: rest }

/-- R55, R102: whether the die's spare can take over a failed radio chain: it serves no logical array, wholly or for its radio passes. -/
def State.spareFree (s : State) (n : Nat) : Bool :=
  let d := s.dieOfArr n
  !(s.dieOf d).spareBusy && !(s.physOf (9 * d + 8)).isolated

/-- R98, R99: a residue mismatch of the pass in flight, at lowest output o. A radio chain is re-run on the die's spare
when it can be (R55), with the results of a fault-free run; else the pass writes no more and its chain is poisoned. -/
def State.residueFail (s : State) (n o : Nat) (p : Pass) : State :=
  let ph := s.physRun n p.d.radio
  let s := (s.status (f_ARR_STATUS_RESIDUE n)).bump (f_ARR_RES_CNT_COUNT n)
  let x := s.physOf ph
  let s := s.setPhys ph { x with resCnt := satAdd 16 x.resCnt 1 }
  let s := s.raise (srcArray ph) 0x01 n o
  let a := s.arrOf n
  if p.d.radio && s.spareFree n then
    let a := (a.modChain p.cid (fun c => { c with res := true })).modRun (fun q => { q with mism := true })
    let s := s.setArr n { a with rerun := true, redir := a.redir ++ [rerunRows n p.d] }
    let dd := s.dieOfArr n
    let s := s.setDie dd { s.dieOf dd with rerun := true }
    (s.status f_CLK_SHT_STATUS_RERUN).bump f_CLK_RERUN_CNT_COUNT
  else
    let a := (a.modChain p.cid (fun c => { c with bad := 0xA })).modRun (fun q => { q with failed := true })
    let s := s.setArr n a
    if p.d.radio then s else s.jobFault p.d.job

/-- The words, lines and entries that a beat reads, among marked ones (R185). -/
def beatErrors (l : List Nat) (n : Nat) (p : Pass) (outs : List Nat) : List Nat :=
  let d := p.d
  let row := d.tileRow + p.beat
  let k32 := fmtK d.fmtA / 32
  touched l (storeBase n + d.actAddr + p.beat * d.actStride) (rowBytes d.fmtA)
  ++ (if d.mx then touched l (storeBase n + d.scaleAddr + p.beat * k32) k32 else [])
  ++ (if d.starts then [] else outs.flatMap (fun o => touched l (entryAddr n row o) 10))
  ++ (if p.beat = 0 && d.maskMode ≠ 0 then touched l (storeBase n + d.maskAddr) (if d.maskMode = 1 then 64 else 128) else [])

/-- Whether the pass whose beat is next has failed. -/
def Arr.beatFailed (a : Arr) : Bool :=
  match a.run.find? (fun p => decide (p.beat < p.d.m)) with
  | some q => q.failed
  | none => false

/-- R123: a FIRST or ONLY pass clears the sticky bit of a row as it writes the row's first entry. -/
def State.clearSatRow (s : State) (n row : Nat) : State :=
  let rowsReg := (f_ARR_SAT_ROWS_0_ROWS n).off + 4 * (row / 32)
  s.setReg rowsReg (s.reg rowsReg &&& ~~~ (BitVec.ofNat 32 (2 ^ (row % 32))))

def State.doBeat (s : State) (n : Nat) (bad : Option Nat) : State :=
  let a := s.arrOf n
  match a.run.find? (fun p => decide (p.beat < p.d.m)) with
  | none => s
  | some p =>
    let d := p.d
    let ch := a.chainNo p.cid
    let outs := d.outs.filter (fun o => !(maskedAt d.maskMode ch.mask p.beat o))
    let step (s : State) : State := s.setArr n ((s.arrOf n).modRun (fun q => { q with beat := q.beat + 1 }))
    match outs with
    | [] => step (s.bump (f_ARR_BUBBLE_CNT_COUNT n))
    | o :: _ =>
      if p.failed then step s
      else
        let errs := beatErrors s.ms.uncorr n p outs
        let s := (beatErrors s.ms.corr n p outs).foldl (fun s g => s.reportCorr g) s
        let s := errs.foldl (fun s g => s.reportUncorr g) s
        let hit := match bad.filter (fun b => outs.contains b) with
          | some b => some b
          | none => if !errs.isEmpty || (p.w.err && p.beat == 0) then some o else none
        let s := match hit with
          | some b => if p.mism then s else s.residueFail n b p
          | none => s
        if (s.arrOf n).beatFailed then step s
        else
          let s := if d.starts then s.clearSatRow n (d.tileRow + p.beat) else s
          let ups := s.beatEntries n p p.w.bytes outs
          let s := s.storeEntries n (d.tileRow + p.beat) ups
          step (s.reportSat n p ups)

/-- BEAT_WRITE (R81, R97 to R99, R120 to R124): the oldest beat not yet written leaves the residue stage; `bad` is the
lowest output whose residue differs, if one does; a gated output is not checked. -/
def execBeatWrite (n : Fin 64) (bad : Option (Fin 512)) (s : State) : Host.Outcome State Fault Refusal :=
  .next (whenLive s (fun s => s.doBeat n (bad.map (·.val))))

/-! Ends (R84, R93, R99, R163, R164). -/

/-- R99: a pass that failed, or that ran in a chain that was poisoned, converts nothing out and completes with 0xA. -/
def Arr.poisoned (a : Arr) (p : Pass) : Bool := p.failed || (a.chainNo p.cid).bad == 0xA

/-- R108, R293: a completed pass is counted, and its cycles are accounted to its tenant's slot. -/
def State.countPass (s : State) (n : Nat) (p : Pass) : State :=
  (s.bump64 (r_ARR_PASS_CNT_LO n) 1).account (s.thr n p.d.thread).slot 0 p.d.duration

/-- Take a pass out of flight. -/
def Arr.endRun (a : Arr) (p : Pass) : Arr := { a with run := a.run.erase p }

def State.doPassEnd (s : State) (n : Nat) : State :=
  let a := s.arrOf n
  match a.run.find? (fun p => decide (p.beat ≥ p.d.m) && (!p.d.ends || a.poisoned p)) with
  | none => s
  | some p =>
    let b := a.endRun p
    let c := a.chainNo p.cid
    let b := (b.modChain p.cid (fun c => { c with ending := c.ending || p.d.ends, last := some p.d.seq })).purge
    let s := (s.setArr n b).accDone n p.d
    let s := if !p.d.radio then s else if a.poisoned p then s.workLost n 0 else s.workDone n 0
    let s := if a.poisoned p then s else s.countPass n p
    let s :=
      if a.poisoned p then s.deliver n p.d (completionWord p.d.seq 0xA (p.d.ends && c.sat) p.failed p.d.ends p.d.radio)
      else if p.cpl then s.deliver n p.d (completionWord p.d.seq 0 false p.mism false p.d.radio)
      else s.passDone n p.d
    s.retryIssues n

/-- PASS_END (R84, R98, R99, R163): the oldest finished pass without convert-out ends and returns any completion. -/
def execPassEnd (n : Fin 64) (s : State) : Host.Outcome State Fault Refusal :=
  .next (whenLive s (fun s => s.doPassEnd n))

/-- One output row of a convert-out (R93): its bytes, in order of the enabled outputs, and whether a value clamped.
A masked entry is not written, or takes the fill value. -/
def State.convRow (s : State) (n : Nat) (p : Pass) (mask : List Byte) (i : Nat) : List (Option Byte) × Bool :=
  let d := p.d
  let w := outBytes d.outFmt
  let zs7 := s.arrZs7 n d.radio && fmtGroup d.fmtA ≠ 2
  d.outs.foldl (fun r o =>
    if maskedAt d.maskMode mask i o then
      (r.1 ++ (if d.maskFill then (leBytes w (fillValue d.outFmt)).map some else List.replicate w none), r.2)
    else
      let (v, c) := convertOut zs7 d.anchorInt d.outFmt (s.readLE (entryAddr n (d.tileRow + i) o) 10)
      (r.1 ++ (leBytes w v).map some, r.2 || c)) ([], false)

/-- R93: the whole convert-out, row by row. -/
def State.convertRows (s : State) (n : Nat) (p : Pass) (mask : List Byte) : State :=
  (List.range p.d.m).foldl (fun s i =>
    let (bs, c) := s.convRow n p mask i
    let s := s.putEnabled (storeBase n + p.d.outAddr + i * p.d.outStride * 64) bs
    if c then s.status (f_ARR_NUM_STATUS_CVT_CLAMP n) else s) s

def State.doChainEnd (s : State) (n : Nat) : State :=
  let a := s.arrOf n
  match a.run.find? (fun p => decide (p.beat ≥ p.d.m) && p.d.ends && !(a.poisoned p)) with
  | none => s
  | some p =>
    let c := a.chainNo p.cid
    let s := s.convertRows n p c.mask
    let a := s.arrOf n
    let a := (a.endRun p).closeChain p.cid
    let a := if a.rerun && p.d.radio then { a with redir := a.redir ++ rerunOut n p.d } else a
    let s := ((s.setArr n a).accDone n p.d).countPass n p
    let s := if p.d.radio then s.workDone n 0 else s
    let s := s.deliver n p.d (completionWord p.d.seq 0 c.sat c.res true p.d.radio)
    s.retryIssues n

/-- CHAIN_END (R93, R123, R127): the convert-out of the oldest finished LAST or ONLY pass, its completion, and the end
of its chain. -/
def execChainEnd (n : Fin 64) (s : State) : Host.Outcome State Fault Refusal :=
  .next (whenLive s (fun s => s.doChainEnd n))

/-- ARRAY_HALT (R104): HALT is written; it takes effect at the next chain end. -/
def State.doArrayHalt (s : State) (n : Nat) (v : Bool) : State := s.putB (f_ARR_CTRL_HALT n) v

def execArrayHalt (n : Fin 64) (v : Bool) (s : State) : Host.Outcome State Fault Refusal :=
  .next (whenLive s (fun s => if s.hasArray n then s.doArrayHalt n v else s))

/-! Substitution (R100 to R103, R111). -/

/-- R101: queued open passes of an array that went OFFLINE complete with code 0xA. -/
def State.flushOpen (s : State) (n : Nat) : State :=
  let a := s.arrOf n
  let chains := a.chains.map (fun c => if c.radio then c else { c with ending := true })
  let s := s.setArr n ({ a with openQ := [], chains := chains, cur := none } : Arr).purge
  a.openQ.foldl (fun s p =>
    ((s.deliver n p.d (completionWord p.d.seq 0xA (a.satOf false p.d) false p.d.ends false)).accDone n p.d).jobFault p.d.job) s

/-- R111: PENDING reads 1 while a substitution is in SWAP_PENDING or COPYING. -/
def State.refreshPending (s : State) : State :=
  s.putB f_ARR_SUBST_PENDING (s.arr.any (fun e => e.2.map = .swapPending || e.2.map = .copying))

/-- R101: the logical array goes OFFLINE: the physical array that served it is isolated, its open passes end, and a spare that it had
serves it no more. -/
def State.goOffline (s : State) (n kind : Nat) : State :=
  let ph := s.physFor n
  let s := s.setPhys ph { s.physOf ph with isolated := true }
  let d := s.dieOfArr n
  let s := if (s.dieOf d).spareFor = n then s.setDie d { s.dieOf d with spareBusy := false, spareFor := 127 } else s
  let s := s.setArr n { s.arrOf n with map := .offline, copyDone := false }
  let s := s.status (f_ARR_STATUS_OFFLINE n)
  let s := s.raise (srcArray ph) kind n 0
  (s.flushOpen n).refreshPending

/-- R101: a requested substitution, from the manager or the fault collector. -/
def State.substitute (s : State) (n : Nat) : State :=
  let a := s.arrOf n
  let d := s.dieOfArr n
  let x := s.dieOf d
  match a.map with
  | .inService =>
    if x.spareFor = 127 && !x.spareBusy && !(s.physOf (9 * d + 8)).isolated then
      let s := s.setArr n { a with map := .swapPending, subReq := s.tim.expo, copyDone := false }
      (s.setDie d { x with spareBusy := true, spareFor := n }).refreshPending.enterRecovery
    else (s.status f_ARR_MAP_STATUS_NO_SPARE).goOffline n 0x04
  | .onSpare => (s.status f_ARR_MAP_STATUS_NO_SPARE).goOffline n 0x04
  | _ => s.status f_ARR_MAP_STATUS_SUBST_REFUSED

/-- R111: a write of ARR_SUBST: LOGICAL and TMO are stored, and GO requests the substitution. A refused GO does nothing else. -/
def State.doSubstGo (s : State) (v : Nat) : State :=
  let tmo := bits v 14 8
  let n := bits v 5 0
  let m := (s.arrOf n).map
  if bitAt v 7 && (s.flag f_ARR_SUBST_PENDING || m = .offline || m = .onSpare || !(s.hasArray n)) then s.status f_ARR_MAP_STATUS_SUBST_REFUSED
  else
    let s := s.put f_ARR_SUBST_LOGICAL n
    let s := if 1 ≤ tmo ∧ tmo ≤ 64 then s.put f_ARR_SUBST_TMO tmo else s
    if bitAt v 7 then s.substitute n else s

/-- ARR_SUBST_GO (R101, R111): the manager writes ARR_SUBST. -/
def execArrSubstGo (v : BitVec 32) (s : State) : Host.Outcome State Fault Refusal :=
  .next (whenLive s (fun s => s.doSubstGo v.toNat))

/-- R101: whether the copy may begin: no open pass runs, the die's radio work has ended, no spill or reload is on. -/
def State.copyReady (s : State) (n : Nat) : Bool :=
  let a := s.arrOf n
  a.map = .swapPending && a.run.all (fun p => p.d.radio) && a.spills.all (fun v => v.hdr && !v.back)
  && (List.range 64).all (fun k => s.dieOfArr k ≠ s.dieOfArr n || s.leaseOf k = .openLease)

/-- SUBST_COPY_START (R101, R217): SWAP_PENDING goes to COPYING once nothing of the array is running. -/
def execSubstCopyStart (n : Fin 64) (s : State) : Host.Outcome State Fault Refusal :=
  .next (whenLive s (fun s => if s.copyReady n then s.setArr n { s.arrOf n with map := .copying } else s))

/-- SUBST_COPY_COMPLETE (R101): the copy is complete and waits for the next shutter. Memory is held by logical number,
so the copied bytes are those already there. -/
def execSubstCopyComplete (n : Fin 64) (s : State) : Host.Outcome State Fault Refusal :=
  .next (whenLive s (fun s => let a := s.arrOf n; if a.map = .copying then s.setArr n { a with copyDone := true } else s))

/-- Whether a range of the array's memories meets a line. -/
def meets (line b len : Nat) : Bool := decide (b < line + 64) && decide (line < b + len)

/-- Whether an operand of a pass, or its tile rows, meet a line (R101). -/
def passHolds (n : Nat) (d : Desc) (line : Nat) : Bool :=
  meets line (accBase n + d.tileRow * 5120) (d.m * 5120)
  || (List.range d.m).any (fun i => meets line (storeBase n + d.actAddr + i * d.actStride) (rowBytes d.fmtA))
  || meets line (storeBase n + d.wgtAddr) d.wbytes
  || (d.mx && meets line (storeBase n + d.scaleAddr) (d.m * (fmtK d.fmtA / 32)))
  || (d.maskMode ≠ 0 && meets line (storeBase n + d.maskAddr) (if d.maskMode = 1 then 64 else 128))

/-- R101: an open chain is poisoned whose tile rows, or the operands of whose passes in flight or still queued, meet the line. -/
def Arr.chainLost (a : Arr) (n line : Nat) (c : Chain) : Bool :=
  !c.radio && (meets line (accBase n + c.d.tileRow * 5120) (c.d.m * 5120) || a.run.any (fun p => p.cid == c.cid && passHolds n p.d line)
    || ((a.openQ.filter (fun p => p.d.job == c.job)).takeWhile (fun p => !p.d.starts)).any (fun p => passHolds n p.d line))

/-- ARRAY_SWAP_DATA, but for the jobs' regions: the line is zeroed; the chains that hold it are poisoned, and so is each queued pass
that would read it (R103). -/
def State.swapData (s : State) (n addr : Nat) : State :=
  let line := addr / 64 * 64
  let s := s.zeroRange line 64
  let s := { s with ms := { s.ms with uncorr := s.ms.uncorr.filter (fun g => g / 64 * 64 ≠ line) } }
  let a := s.arrOf n
  let s := s.setArr n { a with
    chains := a.chains.map (fun c => if a.chainLost n line c then { c with bad := 0xA } else c)
    openQ := a.openQ.map (fun p => if passHolds n p.d line then { p with lost := true } else p) }
  s.raise (srcArray (s.physFor n)) 0x05 addr 0

/-- ARRAY_SWAP_TIMEOUT (R101): a substitution that is not done TMO exposures after its request goes OFFLINE. -/
def State.swapTimeout (s : State) (n : Nat) : State :=
  let a := s.arrOf n
  if (a.map = .swapPending || a.map = .copying) && decide (s.tim.expo - a.subReq ≥ s.get f_ARR_SUBST_TMO) then
    s.goOffline n 0x06
  else s

def execArraySwapTimeout (n : Fin 64) (s : State) : Host.Outcome State Fault Refusal :=
  .next (whenLive s (fun s => s.swapTimeout n))

/-- R101, R111: at the shutter after the copy, the logical array moves to the spare. -/
def State.substRemap (s : State) (n : Nat) : State :=
  let a := s.arrOf n
  if a.map = .copying && a.copyDone then
    let old := s.physFor n
    let d := s.dieOfArr n
    let s := s.setPhys old { s.physOf old with isolated := true }
    let s := s.setArr n { a with map := .onSpare, copyDone := false }
    let s := s.setDie d { s.dieOf d with spareBusy := true, spareFor := n }
    let s := (s.status (f_ARR_STATUS_SUBST n)).status f_ARR_MAP_STATUS_SUBST_DONE
    (s.raise (srcArray (9 * d + 8)) 0x81 0 0).refreshPending
  else s

end Sys2Proof.Machine
end

