-- ==== Sys2Proof/Machine/TeCore.lean ====
section
/-! DEFINITION. Instruction words of the thread engines: fields, which encodings are legal, how a thread issues one, and
the addresses that a thread may reach (R149 to R160, R177). -/
namespace Sys2Proof.Machine
open Sys2Proof

/-- R155: the fields of an instruction word. C and IMM are 0 in the 32-bit form (Assumption 20). -/
structure TeWord where
  long : Bool
  op : Nat
  d : Nat
  a : Nat
  b : Nat
  pr : Nat
  func : Nat
  c : Nat
  imm : Int
  deriving DecidableEq, Repr

def teWord (w : BitVec 64) : TeWord :=
  let x := w.toNat
  let long := bitAt x 0
  { long := long, op := bits x 6 1, d := bits x 11 7, a := bits x 16 12, b := bits x 21 17, pr := bits x 24 22
    func := bits x 31 25, c := if long then bits x 36 32 else 0, imm := if long then toSigned 27 (bits x 63 37) else 0 }

/-- Bytes of an instruction. -/
def TeWord.len (i : TeWord) : Nat := if i.long then 8 else 4

/-- R156: the operation number within the class; in a class whose FUNC carries modifiers the number stands in the bits
above them (Assumption 21). -/
def TeWord.num (i : TeWord) : Nat :=
  match i.op with
  | 0x02 => i.func % 32
  | 0x06 => i.func / 32
  | 0x07 => i.func / 2
  | 0x0C => i.func / 4
  | 0x0F => i.func / 64
  | _ => i.func

def evenReg (r : Nat) : Bool := r % 2 == 0

/-- R159, R160: legality of a load or store of the access classes. -/
def TeWord.accessLegal (i : TeWord) : Bool :=
  let kind := i.func % 4
  let size := i.func / 4 % 8
  if kind = 2 then
    i.op ≠ 0x08 && decide (i.func / 8 % 8 ≤ 5)
  else
    kind ≠ 3 && size ≠ 7 && i.func / 64 == 0 && (i.func / 32 % 2 == 0 || i.op == 0x08)
    && ((size ≠ 5 && size ≠ 6) || i.long)
    && (size ≠ 6 || evenReg (if kind = 0 then i.d else i.b))

/-- R156: whether a word encodes an instruction. DESIGN CHOICE 28: where a rule bounds an operand and gives no outcome outside the bound,
the word is illegal: IMM of `s64split` that is no multiple of 32 (R173), the count of an AP128 instruction outside 1 to 4,096 (R175), a
compare's D or a select's C that names a predicate register of 8 or more (R152). -/
def TeWord.legal (i : TeWord) : Bool :=
  match i.op with
  | 0x00 => decide (i.func ≤ 11) && (i.func ≠ 9 || decide (i.imm % 4 ≠ 3)) && (i.func ≠ 10 || (decide (0 ≤ i.imm) && decide (i.imm ≤ 5)))
      && (i.func ≠ 11 || (decide (0 ≤ i.imm) && decide (i.imm ≤ 5)))
  | 0x01 => decide (i.func ≤ 13)
  | 0x02 =>
    let wide := i.func / 32 == 3
    let k := i.func % 32
    decide (k ≤ 15) && (if k ≥ 13 then decide (i.d < 8) else !wide || evenReg i.d)
    && (!wide || evenReg i.a) && (!wide || ((decide (6 < k) && decide (k < 13)) || evenReg i.b)) && (!wide || k ≠ 3 || evenReg i.c)
  | 0x03 => decide (i.func ≤ 16) && ((i.func ≠ 12 && i.func ≠ 13) || decide (i.d < 8)) && (i.func ≠ 14 || decide (i.c < 8))
  | 0x04 =>
    let dst := i.func % 16
    let src := i.func / 16
    decide (dst ≤ 10) && (dst ≠ 0 || evenReg i.d) && (src ≠ 0 || evenReg i.a)
  | 0x05 => decide (i.func ≤ 5)
  | 0x06 => i.long && decide (i.num ≤ 2) && decide (1 ≤ i.imm) && decide (i.imm ≤ 4096)
      && (i.num ≠ 2 || [1, 2, 3, 4, 5, 6].contains (i.func % 16))
  | 0x07 => i.long && decide (i.num ≤ 1) && (if i.num = 0 then decide (i.imm % 32 = 0) && evenReg i.b else evenReg i.d)
  | 0x08 | 0x09 | 0x0A | 0x0B => i.accessLegal
  | 0x0C => decide (i.num ≤ 2)
  | 0x0D => decide (i.func ≤ 2) && (i.func == 0 || evenReg i.d)
  | 0x0E => decide (i.func ≤ 1) && (i.func ≠ 0 || i.long)
  | 0x0F => i.long && i.num == 0 && decide (i.func % 16 ≤ 9)
  | 0x10 => i.long && decide (i.func ≤ 3) && (i.func ≠ 0 || evenReg i.d) && ((i.func ≠ 1 && i.func ≠ 2) || i.d % 4 == 0)
      && (i.func ≠ 3 || evenReg i.d)
  | _ => false

/-- R150: whether a thread of engine n is ready in the lease that the array is in: a radio-bound one in the radio lease, any other in
the open lease. -/
def State.thrReady (s : State) (n t : Nat) : Bool :=
  let x := s.thr n t
  x.st == .ready && (if x.radio then s.leaseOf n == .radio else s.leaseOf n == .openLease)

/-- R149: rank of a thread: radio-bound threads above all others, then by priority. -/
def Thr.rank (x : Thr) : Nat := (if x.radio then 8 else 0) + x.prio % 8

/-- R149: the ready thread that engine n takes: of the highest rank, the first after the one it issued last. -/
def State.nextThr (s : State) (n : Nat) : Option Nat :=
  let last := sget 0 s.te.last n
  let l := ((List.range 64).map (fun i => (last + 1 + i) % 64)).filter (fun t => s.thrReady n t)
  let hi := l.foldl (fun h t => max h (s.thr n t).rank) 0
  l.find? (fun t => (s.thr n t).rank == hi)

/-- R149: whether engine n takes thread t next. -/
def State.mayRun (s : State) (n t : Nat) : Bool := s.hasArray n && s.nextThr n == some t

/-- R154, R177: whether the fetch at a thread's PC fails; the locked radio program never misses. -/
def State.fetchBad (s : State) (x : Thr) (len : Nat) : Bool :=
  !x.radio && (s.region x.pc ≠ .lpddr || s.region (x.pc + len - 1) ≠ .lpddr || !(touched s.ms.uncorr x.pc len).isEmpty)

/-- R183, R149: an instruction issues: it is counted and the PC moves past it. -/
def State.issue (s : State) (n t len : Nat) : State :=
  let s := s.bump64 (r_TE_ISSUE_CNT_LO n) 1
  let s := { s with te := { s.te with last := sset 0 s.te.last n t } }
  let x := s.thr n t
  s.setThr n t { x with pc := (x.pc + len) % 2 ^ 48, ipc := x.pc }

/-- R152: a register with a correctable error is corrected and counted. -/
def State.regEcc (s : State) (n t : Nat) : State :=
  let x := s.thr n t
  if x.ecc = 1 then (s.setThr n t { x with ecc := 0 }).status (f_TE_STATUS_REG_CORR n) else s

/-- The registers that an instruction reads or writes; true marks a vector register. -/
def TeWord.regs (i : TeWord) : List (Bool × Nat) :=
  let S (r : Nat) := [(false, r)]
  let V (r : Nat) := [(true, r)]
  let P (wide : Bool) (r : Nat) := if wide then [(true, r), (true, (r + 1) % 32)] else [(true, r)]
  match i.op with
  | 0x00 => (if i.func = 6 ∨ i.func = 10 then S i.d else S i.a ++ S i.b)
  | 0x01 => S i.d ++ S i.a ++ S i.b
  | 0x02 =>
    let w := i.func / 32 == 3
    (if i.func % 32 ≥ 13 then [] else P w i.d) ++ P w i.a ++ P w i.b ++ (if i.func % 32 = 3 then P w i.c else [])
  | 0x03 => (if i.func = 15 then V i.d ++ S i.a else V i.d ++ V i.a ++ V i.b ++ (if i.func = 3 then V i.c else []))
  | 0x04 => P (i.func % 16 == 0) i.d ++ P (i.func / 16 == 0) i.a
  | 0x05 => (if i.func = 3 then V i.d ++ V i.a else if i.func < 3 then S i.d ++ V i.a else S i.d ++ S i.a ++ S i.b ++ S i.c)
  | 0x06 => S i.d ++ S i.a ++ S i.b ++ S i.c
  | 0x07 => S i.a ++ (if i.num = 0 then P true i.b ++ S i.c ++ V i.c else P true i.d ++ S i.b ++ V i.c)
  | 0x08 | 0x09 | 0x0A | 0x0B =>
    let r := if i.func % 4 = 0 then i.d else i.b
    S i.a ++ (if i.func % 4 = 2 then S i.d ++ S i.b ++ S i.c
      else if i.func / 4 % 8 ≤ 3 then S r else P (i.func / 4 % 8 == 6) r ++ (if i.func / 4 % 8 ≥ 5 then V i.c else []))
  | 0x0C => S i.d ++ S i.a
  | 0x0D => S i.d ++ S (i.d + 1) ++ S i.a ++ S i.b
  | 0x0E => V i.d ++ V i.a ++ V i.c ++ S i.a ++ S i.b
  | 0x0F => S i.d ++ S i.a ++ S i.b ++ S i.c
  | _ => S i.a ++ S i.b ++ S i.c ++ S i.d ++ S (i.d + 1) ++ (if i.func = 0 then [] else V i.d ++ V (i.d + 1) ++ V (i.d + 2) ++ V (i.d + 3))

/-- R157, R162: registers of a thread whose value a remote request still has to bring. -/
def State.pendRegs (s : State) (n t : Nat) : List (Bool × Nat) :=
  s.net.reqs.flatMap (fun r =>
    if r.who = .thread n t then
      (match r.kind with
       | 0 => if r.lane = 32 then [(false, r.reg)] else if r.pkt.count = 8 then [(true, r.reg), (true, (r.reg + 1) % 32)] else [(true, r.reg)]
       | 2 => [(false, r.reg)]
       | _ => [])
    else [])

/-- Issue the instruction word w of a row whose instructions `mine` names. `flt` gives the fault (kind, address) that
it raises, if one; the faulting instruction's PC stays (R151, R177). A thread whose operand is still to come waits and
issues nothing. A word of another row's changes nothing. -/
def State.teRow (s : State) (n t : Nat) (w : BitVec 64) (mine : TeWord → Bool)
    (flt : State → TeWord → Option (Nat × Nat)) (eff : State → TeWord → State) : State :=
  let i := teWord w
  let x := s.thr n t
  if !s.mayRun n t then s
  else if s.fetchBad x i.len then s.thrFault n t 0x11 x.pc
  else if !i.legal then s.thrFault n t 0x10 x.pc
  else if !mine i then s
  else if i.regs.any (fun r => (s.pendRegs n t).contains r) then s.setThr n t { x with st := .wait, why := .access, ipc := x.pc }
  else if x.ecc = 2 then s.thrFault n t 0x15 x.pc
  else
    let s := s.regEcc n t
    match flt s i with
    | some (k, a) => s.thrFault n t k a
    | none => eff (s.issue n t i.len) i

/-- A fault found after the issue: the PC is again that of the faulting instruction. -/
def State.lateFault (s : State) (n t : Nat) (i : TeWord) (kind addr : Nat) : State :=
  let x := s.thr n t
  (s.setThr n t { x with pc := ofSigned 48 ((x.pc : Int) - i.len) }).thrFault n t kind addr

/-- No fault. -/
def noFault (_ : State) (_ : TeWord) : Option (Nat × Nat) := none

/-- Change the thread that issues. -/
def State.onThr (s : State) (n t : Nat) (f : Thr → Thr) : State := s.setThr n t (f (s.thr n t))

/-! Reach (R24, R91, R160). -/

/-- The partition that a number names, in the structure in force. -/
def State.partCfg (s : State) (p : Nat) : PartCfg :=
  match s.img with
  | some g => (g.parts.find? (fun x => x.id == p)).getD {}
  | none => {}

/-- Stage banks that the image assigns to radio. -/
def State.radioBanks (s : State) : List Nat :=
  match s.img with
  | some g => g.radioBanks
  | none => []

/-- Whether [a, a + len) lies in one of the ranges (base, bytes). -/
def inRanges (l : List (Nat × Nat)) (a len : Nat) : Bool := l.any (fun r => decide (r.1 ≤ a) && decide (a + len ≤ r.1 + r.2))

/-- R160: whether a device-physical range of stage memory or LPDDR6 is within reach of a partition's work, or of the radio program,
which belongs to no partition and reaches the banks that the image assigns to radio. -/
def State.partReach (s : State) (p : Nat) (radio : Bool) (a len : Nat) : Bool :=
  let c := s.partCfg p
  match s.region a with
  | .stage =>
    let ok (x : Nat) := (if radio then s.radioBanks else c.banks).contains ((x - stageBase) / 0x80000)
    ok a && ok (a + len - 1) && s.region (a + len - 1) == .stage
  | .lpddr => !radio && inRanges c.ranges a len
  | _ => false

/-- A scalar operand and the immediate, modulo 2^64. -/
def teAddr (v : Nat) (imm : Int) : Nat := ofSigned 64 ((v : Int) + imm)

/-- The fault of one element of an access to the array's store (Assumption 22 on the order of the checks). -/
def State.storeFault (s : State) (n : Nat) (x : Thr) (off len al : Nat) : Option (Nat × Nat) :=
  if off % al ≠ 0 then some (0x12, storeBase n + off)
  else if !(s.storeOk n x.radio off len) then some (0x13, storeBase n + off)
  else none

/-- The fault of one element of a load from the accumulator store. -/
def State.accFault (s : State) (n : Nat) (x : Thr) (off len al : Nat) : Option (Nat × Nat) :=
  if off % al ≠ 0 then some (0x12, accBase n + off)
  else if !(s.rowsOk n x.radio (off / 5120) ((off + len - 1) / 5120 - off / 5120 + 1)) then some (0x13, accBase n + off)
  else none

/-- The fault of one element of an access to stage memory (class 0x09) or LPDDR6 (0x0A). -/
def State.memFault (s : State) (x : Thr) (cls : Nat) (write : Bool) (a len al : Nat) : Option (Nat × Nat) :=
  let want : Region := if cls = 0x09 then .stage else .lpddr
  if a % al ≠ 0 then some (0x12, a)
  else if s.region a = .reserved then some (0x16, a)
  else if write && (s.guardedAt a || s.guardedAt (a + len - 1)) then some (0x17, a)
  else if s.region a ≠ want || !(s.partReach x.part x.radio a len) then some (0x13, a)
  else none

/-- The fault of one element of an access of class cls; `addr` is what the instruction addresses. -/
def State.elemFault (s : State) (n : Nat) (x : Thr) (cls : Nat) (acc write : Bool) (addr len al : Nat) : Option (Nat × Nat) :=
  if cls = 0x08 then
    if acc then (if write then some (0x13, accBase n + addr) else s.accFault n x addr len al)
    else s.storeFault n x addr len al
  else s.memFault x cls write addr len al

/-- The device-physical address of an element. -/
def elemAddr (n cls : Nat) (acc : Bool) (addr : Nat) : Nat :=
  if cls = 0x08 then (if acc then accBase n + addr else storeBase n + addr) else addr

/-- The first fault of a list of elements. -/
def firstFault (l : List (Option (Nat × Nat))) : Option (Nat × Nat) := l.findSome? id

/-- Read memory for a thread. Where an uncorrectable error is met it reads as zero and the thread's job stops (R185). -/
def State.teRead (s : State) (n t a len : Nat) : State × List Byte :=
  let (s, bs, st) := s.load (srcTe (s.physFor n)) a len
  (if st = .uncorr then s.loadStop n t else s, bs)

/-- Write for a thread engine. -/
def State.teWrite (s : State) (n a : Nat) (bs : List Byte) : State := (s.store (srcTe (s.physFor n)) a bs).1

/-- Lanes that a predicate enables. -/
def Thr.lanes (x : Thr) (pr : Nat) : List Nat := bitList 32 (x.pr pr)

/-- Data of the operand list as numbers of w bytes each. -/
def chunks (w : Nat) : Nat → List Byte → List Nat
  | 0, _ => []
  | k + 1, bs => leNat (bs.take w) :: chunks w k (bs.drop w)

/-! Message queues (R166). -/

/-- Queue q of engine n. -/
def State.mqOf (s : State) (n q : Nat) : List Nat := sget [] s.te.mq (16 * n + q)
def State.setMq (s : State) (n q : Nat) (l : List Nat) : State :=
  { s with te := { s.te with mq := sset [] s.te.mq (16 * n + q) l } }

/-- R166, R210: the oldest word leaves queue q of engine n; `rest` stays. -/
def State.mqTake (s : State) (n q : Nat) (rest : List Nat) : State := (s.setMq n q rest).fifoTake (0x1000 + 16 * n + q) 1

/-- The first thread for which a condition holds, by key. -/
def State.findThr (s : State) (p : Nat → Thr → Bool) : Option (Nat × Thr) := s.te.thr.find? (fun e => p e.1 e.2)

/-- A thread of engine n that waits for a word of its queue q takes the oldest one. -/
def State.mqServe (s : State) (n q : Nat) : State :=
  match s.mqOf n q, s.findThr (fun k x => k / 64 == n && x.why == .mwait && x.wA % 16 == q && !bitAt x.wA 63) with
  | v :: rest, some (k, x) =>
    (s.mqTake n q rest).setThr (k / 64) (k % 64) (((x.setS x.wD v).setS (x.wD + 1) 1).wake)
  | _, _ => s

/-- A thread that waits with a full `msend` to queue q of engine n sends its word once there is room. -/
def State.mqRefill (s : State) (n q : Nat) : State :=
  let l := s.mqOf n q
  if l.length ≥ 128 then s
  else
    match s.findThr (fun _ x => x.why == .msend && x.wA % 16 == q && bits x.wA 21 16 == n) with
    | some (k, x) => ((s.setMq n q (l ++ [x.wB])).setThr (k / 64) (k % 64) ((x.setS x.wD 0).wake)).mqServe n q
    | none => s

end Sys2Proof.Machine
end

