-- ==== Sys2Proof/Machine/Fabric.lean ====
section
/-! DEFINITION. Routing of packets, outstanding remote requests with their tags, epochs and stream order, and the sync
unit (R27, R40, R315 to R320, R331 to R353). -/
namespace Sys2Proof.Machine
open Sys2Proof

def State.chipId (s : State) : Nat := s.get f_ID_CHIP_CHIP_ID
def State.portOf (s : State) (p : Nat) : Port := sget {} s.net.port p
def State.setPort (s : State) (p : Nat) (x : Port) : State := { s with net := { s.net with port := sset {} s.net.port p x } }
def State.destOf (s : State) (d : Nat) : Dest := sget {} s.net.dest d
def State.setDest (s : State) (d : Nat) (x : Dest) : State := { s with net := { s.net with dest := sset {} s.net.dest d x } }
def State.portSt (s : State) (p : Nat) : Nat := s.get (f_AVL_PORT_STATE_STATE p)

/-- The time base, in ns. -/
def State.now (s : State) : Nat := s.tim.tb + s.tim.subNs

/-- R16: whether a limit of `ns` that began at `start` ends within the exposure in progress. DESIGN CHOICE 15. -/
def State.reached (s : State) (start ns : Nat) : Bool := decide (start + ns ≤ s.tim.nextEdge)

/-- R43: the time base comes to t ns within the exposure in progress: a command that carries a stamp, or comes at a stated point of
the exposure, moves it on. DESIGN CHOICE 15. -/
def State.atNs (s : State) (t : Nat) : State := { s with tim := { s.tim with subNs := min (max s.now t) s.tim.nextEdge - s.tim.tb } }

/-- R512: the DEAD verdict of a chip is in force. -/
def State.peerDead (s : State) (c : Nat) : Bool := (sget {} s.flt.peers c).inForce

/-! Packets (R307, R335, R336). -/

/-- R307: the routing header. -/
def Pkt.header (p : Pkt) (units : Nat) : Nat :=
  p.dst % 4096 + p.src % 4096 * 2 ^ 12 + p.cls % 4 * 2 ^ 24 + p.hops % 4 * 2 ^ 26 + (if p.resent then 2 ^ 28 else 0)
  + units % 32 * 2 ^ 32 + p.tag % 65536 * 2 ^ 37 + p.op % 32 * 2 ^ 53 + p.status % 16 * 2 ^ 58 + (if p.own then 2 ^ 62 else 0)

/-- R336: the word of a tagged request at 0x10. -/
def Pkt.tagWord (p : Pkt) : Nat :=
  p.atag % 2 ^ 32 + p.sepoch % 65536 * 2 ^ 32 + p.aop % 8 * 2 ^ 48 + (if p.wide then 2 ^ 51 else 0) + (if p.sgn then 2 ^ 52 else 0)

/-- R336: the packet's bytes after its routing header. -/
def Pkt.body (p : Pkt) : List Byte :=
  match p.op with
  | 0x01 => leBytes 8 (p.addr % 2 ^ 48 + (p.count - 1) % 65536 * 2 ^ 48)
  | 0x02 => leBytes 8 (p.addr % 2 ^ 48 + (if p.own then p.epoch % 65536 * 2 ^ 48 else 0)) ++ leBytes 8 (p.count % 512) ++ p.data
  | 0x03 => leBytes 8 (p.addr % 2 ^ 48) ++ leBytes 8 p.tagWord ++ leBytes 8 p.operand ++ (if p.aop = 4 then leBytes 8 p.compare else [])
  | 0x04 => leBytes 8 (p.addr % 8192) ++ leBytes 8 p.tagWord ++ leBytes 8 p.operand
  | 0x05 => leBytes 8 0 ++ leBytes 8 (p.epoch % 65536 * 2 ^ 32)
  | 0x10 => leBytes 8 (p.atag % 2 ^ 32 + (if p.met then 2 ^ 32 else 0)) ++ p.data
  | _ => leBytes 8 0 ++ leBytes 8 p.tagWord ++ p.srv.flatMap (leBytes 8)

/-- R307: length in 16-byte units. -/
def Pkt.units (p : Pkt) : Nat := ceilDiv (8 + p.body.length) 16

/-- R307: the packet's bytes, padded to its units. -/
def Pkt.bytes (p : Pkt) : List Byte :=
  let b := leBytes 8 (p.header p.units) ++ p.body
  b ++ List.replicate (16 * p.units - b.length) 0

/-- R343: whether a request carries an update tag. -/
def Pkt.tagged (p : Pkt) : Bool := p.op == 3 || (p.op == 4 && decide (p.aop ≤ 2)) || (decide (8 ≤ p.op) && decide (p.op ≤ 0xB))

/-! Egress queues (R320, R440). -/

def State.tmQ (s : State) (e i : Nat) : TmQ := sget {} s.tm.q (8 * e + i)
def State.setTmQ (s : State) (e i : Nat) (x : TmQ) : State := { s with tm := { s.tm with q := sset {} s.tm.q (8 * e + i) x } }
/-- Bytes in a queue. -/
def TmQ.depth (x : TmQ) : Nat := x.items.foldl (fun n i => n + i.len) 0

/-- Bytes waiting at an egress, those routed to it included. -/
def State.egressBytes (s : State) (e : Nat) : Nat :=
  (List.range 8).foldl (fun n i => n + (s.tmQ e i).depth) 0
  + (s.tm.inb.filter (fun x => x.1 == e)).foldl (fun n x => n + x.2.2.len) 0

/-- R320: the queue of a packet. -/
def State.pktQueue (s : State) (p : Pkt) : Nat :=
  if p.cls = 2 then 1
  else if p.src = s.chipId then (if p.cls = 0 then 2 else if p.bulk then 6 else 3)
  else if p.cls = 0 then 4 else 5

/-- Hand a frame to queue i of egress e; it enters at a TM_ENQUEUE. -/
def State.toEgress (s : State) (e i : Nat) (x : TmItem) : State := { s with tm := { s.tm with inb := s.tm.inb ++ [(e, i, x)] } }

def TmItem.pkt? (x : TmItem) : Option Pkt :=
  match x.load with
  | .pkt p => some p
  | _ => none

/-- Packets queued for a port, in order. -/
def State.queuedPkts (s : State) (p : Nat) : List Pkt :=
  ((List.range 8).flatMap (fun i => (s.tmQ (32 + p) i).items)).filterMap (·.pkt?)
  ++ (s.tm.inb.filter (fun x => x.1 == 32 + p)).filterMap (·.2.2.pkt?)

/-- Packets of a port's unacknowledged flits. -/
def Port.unacked (x : Port) : List Pkt := x.replay.flatMap (·.pkts)

/-! Routing (R315 to R319). -/

/-- R315: alternative a of the entry of a destination, when it is VALID. -/
def State.alternative (s : State) (dst a : Nat) : Option Nat :=
  let b := bits (s.reg (r_AVL_ROUTE dst)).toNat (8 * a + 7) (8 * a)
  if bitAt b 5 then some (b % 32) else none

/-- R317: usable alternatives, in order. -/
def State.usableAlts (s : State) (dst : Nat) : List Nat :=
  ((List.range 4).filterMap (s.alternative dst)).filter (fun p => s.portSt p == 2 && (s.portOf p).usable)

/-- R318: whether an ordered request for a destination is still queued on a port or unacknowledged in its buffer. -/
def State.orderedOn (s : State) (p dst : Nat) : Bool :=
  (s.queuedPkts p ++ (s.portOf p).unacked).any (fun k => k.cls == 0 && k.dst == dst)

/-- What routing decides for a packet. -/
inductive RouteTo where
  | here | port (p : Nat) | wait | none
  deriving DecidableEq, Repr

/-- The alternative whose egress holds the fewest bytes; a tie goes to the first. -/
def State.fewest (s : State) : List Nat → Option Nat
  | [] => none
  | p :: ps =>
    match s.fewest ps with
    | none => some p
    | some q => some (if s.egressBytes (32 + q) < s.egressBytes (32 + p) then q else p)

/-- R315, R317, R318: where a packet goes. An ordered request goes behind those that wait for its destination (R338). -/
def State.routeOf (s : State) (k : Pkt) : RouteTo :=
  if k.dst = s.chipId then .here
  else
    let alts := s.usableAlts k.dst
    if k.cls = 0 then
      let old := (s.destOf k.dst).port
      if s.net.held.any (fun h => h.dst == k.dst) then .wait
      else match old with
      | some p => if s.portSt p = 3 then .wait else
        match alts with
        | [] => if s.orderedOn p k.dst && s.portSt p == 2 then .wait else .none
        | q :: _ => if q = p then .port p else if s.orderedOn p k.dst then .wait else .port q
      | none => match alts with
        | [] => .none
        | q :: _ => .port q
    else
      match s.fewest alts with
      | some p => .port p
      | none => .none

/-- R318: record the port that ordered requests for a destination use, counting a switch. -/
def State.usePort (s : State) (k : Pkt) (p : Nat) : State :=
  if k.cls ≠ 0 then s
  else
    let d := s.destOf k.dst
    let s' := s.setDest k.dst { d with port := some p }
    if d.port.isSome ∧ d.port ≠ some p then
      let s' := (s'.bump f_AVL_RR_CNT_COUNT).status f_AVL_STATUS_REROUTE
      { s' with net := { s'.net with rerouted := true } }
    else s'

/-- R347: an event that puts the chip into RECOVERING. -/
def State.recover (s : State) : State :=
  let s := if s.flag f_AVL_RMT_STATE_RECOVERING then s else s.status f_AVL_RMT_STATUS_RECOVERY
  let s := s.putB f_AVL_RMT_STATE_RECOVERING true
  { s with net := { s.net with recT := s.now } }

/-- R319: a packet has no usable alternative. -/
def State.noRouteReport (s : State) : State :=
  (s.status f_AVL_STATUS_NO_ROUTE).raise srcRoute 0x45 0 0

/-- Note that an outstanding request's completion arrived (R338). -/
def State.markDone (s : State) (tag status result : Nat) (met : Bool) (bytes : List Byte) : State :=
  { s with net := { s.net with reqs := s.net.reqs.map (fun r =>
      if r.pkt.tag = tag ∧ r.done.isNone then { r with done := some (status, result, met), bytes := bytes } else r) } }

/-- Place a packet: deliver it here, hand it to a port, hold it, or handle it as having no route (R315, R319).
`answer` is the routing of an answer, which is discarded when it has no route itself. -/
def State.place (s : State) (k : Pkt) (onNone : State → State) : State :=
  match s.routeOf k with
  | .here => { s with net := { s.net with inbox := s.net.inbox ++ [k] } }
  | .port p => (s.usePort k p).toEgress (32 + p) (s.pktQueue k) { load := .pkt k, len := 16 * k.units }
  | .wait => { s with net := { s.net with held := s.net.held ++ [k] } }
  | .none => onNone s

/-- R337: the response to a request. -/
def State.responseTo (s : State) (k : Pkt) (status result : Nat) (met : Bool) (data : List Byte) : Pkt :=
  { dst := k.src, src := s.chipId, cls := 2, tag := k.tag, op := 0x10, status := status
    atag := if k.tagged then k.atag else 0, met := met, operand := result
    data := if k.op = 1 then data else if k.op = 3 ∨ k.op = 4 ∨ k.op = 5 then leBytes 8 result else [] }

/-- Send a response; one without a route is discarded (R319). -/
def State.respond (s : State) (k : Pkt) (status result : Nat) (met : Bool) (data : List Byte) : State :=
  s.place (s.responseTo k status result met data) (fun s => s.noRouteReport)

/-- R315, R319: route a packet; transit is refused until an image is applied (R40). A request of this chip without a route completes
with error status, and so does an epoch query (R344). -/
def State.routeAgain (s : State) (k : Pkt) : State :=
  s.place k (fun s =>
    let s := s.noRouteReport
    if k.cls = 2 then s
    else if k.src = s.chipId then
      (if k.op = 5 then s.setDest k.dst { s.destOf k.dst with query := none, failed := true } else s.markDone k.tag 5 0 false (List.replicate k.count 0))
    else s.respond k 5 0 false (List.replicate k.count 0))

/-- R342: route a packet that comes to the route stage now. -/
def State.route (s : State) (k : Pkt) : State :=
  s.routeAgain (if k.cls = 2 ∨ k.dst = s.chipId then k else { k with ts := s.now })

/-! Reach tables (R331 to R334). -/

/-- Word w of entry e of slot k. -/
def State.reachWord (s : State) (k e w : Nat) : Nat := (s.reg (r_AVL_REACH (128 * k + 8 * e + w))).toNat

/-- R332: whether entry e of slot k allows a request; kind 0 memory, 1 sync objects; perm is the CTRL bit. -/
def State.reachEntry (s : State) (k e kind perm chip a len : Nat) : Bool :=
  let c := s.reachWord k e 0
  let id (x : Nat) := if x = 0xFFF then s.chipId else x
  let base := s.reachWord k e 1 + 2 ^ 32 * bits (s.reachWord k e 2) 15 0
  let lim := s.reachWord k e 3 + 2 ^ 32 * bits (s.reachWord k e 4) 15 0
  bitAt c 24 && bits c 25 25 == kind && bitAt c perm
  && decide (id (bits c 11 0) ≤ chip) && decide (chip ≤ id (bits c 23 12)) && decide (base ≤ a) && decide (a + len - 1 ≤ lim)

/-- R332: whether a slot's table allows a request. -/
def State.reachOk (s : State) (k kind perm chip a len : Nat) : Bool :=
  (List.range 16).any (fun e => s.reachEntry k e kind perm chip a len)

/-- R333: a denied request is counted. -/
def State.reachDeny (s : State) : State := (s.bump f_AVL_REACH_DENY_CNT_COUNT).status f_AVL_RMT_STATUS_REACH_DENY

/-- R33: the chip that a global address names; 0xFFF is this chip. -/
def State.globalChip (s : State) (g : Nat) : Nat := let c := bits g 59 48; if c = 0xFFF then s.chipId else c

/-- R34: whether an address lies in the regions that a remote request may reach. -/
def remoteRegion (a : Nat) : Bool := decide (a < 0x018000000000) || (decide (stageBase ≤ a) && decide (a < 0x020010000000))

/-- R34: whether a range lies in one of those regions whole. -/
def remoteRange (a n : Nat) : Bool := remoteRegion a && remoteRegion (a + n - 1) && (decide (a < stageBase) == decide (a + n - 1 < stageBase))

/-! The memory side of a target (R331, R337). -/

/-- The status of an access. -/
def Acc.status : Acc → Nat
  | .ok => 0
  | .unmapped => 1
  | .uncorr => 2
  | .guarded => 3

def State.targetLoad (s : State) (a n : Nat) : State × Nat × List Byte :=
  if remoteRegion a then
    let (s, bs, c) := s.load srcRemote a n
    (s, c.status, bs)
  else (s.raise srcRemote 0x16 a 0, 1, List.replicate n 0)

def State.targetStore (s : State) (a : Nat) (bs : List Byte) : State × Nat :=
  if remoteRegion a then
    let (s, c) := s.store srcRemote a bs
    (s, c.status)
  else (s.raise srcRemote 0x16 a 0, 1)

/-- R159, R339: an atomic at its atomic unit; status and old value. -/
def State.targetAtomic (s : State) (k : Pkt) : State × Nat × Nat :=
  let n := if k.wide then 8 else 4
  let (s, st, bs) := s.targetLoad k.addr n
  if st ≠ 0 then (s, st, 0)
  else
    let old := leNat bs
    let b := k.operand % 2 ^ (8 * n)
    let lt (x y : Nat) : Bool := if k.sgn then decide (toSigned (8 * n) x < toSigned (8 * n) y) else decide (x < y)
    let v := match k.aop with
      | 0 | 5 => (old + b) % 2 ^ (8 * n)
      | 1 => if lt b old then b else old
      | 2 => if lt old b then b else old
      | 3 => b
      | _ => if old = k.compare % 2 ^ (8 * n) then b else old
    let (s, st) := s.targetStore k.addr (leBytes n v)
    (s, st, old)

/-! Sync objects (R349 to R353). -/

def State.synObj (s : State) (o : Nat) : SynObj := sget {} s.syn.obj o
def State.setSynObj (s : State) (o : Nat) (x : SynObj) : State := { s with syn := { s.syn with obj := sset {} s.syn.obj o x } }
def State.synVal (s : State) (o : Nat) : Nat := s.reg64 (r_SYN_OBJ_VALUE_LO o)
def State.setSynVal (s : State) (o v : Nat) : State := s.setReg64 (r_SYN_OBJ_VALUE_LO o) (v % 2 ^ 64)

/-- Whether a chip is fogged. -/
def State.fogged (s : State) (c : Nat) : Bool := bitAt (s.reg (r_SYN_FOG_MAP (c / 32))).toNat (c % 32)
def State.setFog (s : State) (c : Nat) (b : Bool) : State :=
  s.setReg (r_SYN_FOG_MAP (c / 32)) (BitVec.ofNat 32 (setBits (s.reg (r_SYN_FOG_MAP (c / 32))).toNat (c % 32) (c % 32) (if b then 1 else 0)))

/-- R352: enter a chip into the fog history, and update the chips whose counts changed. -/
def State.fogEnter (s : State) (c : Nat) : State :=
  let old := s.syn.hist
  let h := if old.length ≥ 64 then old.drop 1 ++ [c] else old ++ [c]
  let s := { s with syn := { s.syn with hist := h } }
  let n := s.get f_SYN_CFG_FOG_N
  let cnt (x : Nat) := (h.filter (· == x)).length
  let s := if cnt c ≥ n ∧ s.fogged c = false then
      ((s.setFog c true).status f_SYN_STATUS_FOG).raise srcSync 0x4A 0 c else s
  match old.head? with
  | some x => if old.length ≥ 64 ∧ s.fogged x = true ∧ cnt x < n / 2 then (s.setFog x false).status f_SYN_STATUS_UNFOG else s
  | none => s

/-- The device time of an arrival in ns, from its tick and cycle. -/
def State.arrivalNs (s : State) (a : Nat × Nat × Nat) : Nat := a.2.1 * s.periodNs + s.cycNs a.2.2

/-- R351, R352: an arrival at a barrier. -/
def State.arrive (s : State) (o chip cyc : Nat) : State :=
  let x := s.synObj o
  let me := (chip, s.tim.tick, cyc)
  let chips := if x.chips.contains chip then x.chips else x.chips ++ [chip]
  if x.arrived + 1 = s.get (f_SYN_OBJ_CFG_EXPECT o) then
    let s := s.setSynObj o { genLast := some me }
    let s := s.setSynVal o (s.synVal o + 1)
    match x.last with
    | some p => if chips.length ≥ 2 ∧ s.arrivalNs me - s.arrivalNs p ≥ s.get f_SYN_CFG_LATE_US * 1000 then s.fogEnter chip else s
    | none => s
  else s.setSynObj o { x with arrived := x.arrived + 1, chips := chips, last := some me, prev := x.last }

/-- R349: apply an operation but WAIT_GE; status and result. -/
def State.syncApply (s : State) (o sop operand chip cyc : Nat) : State × Nat × Nat :=
  let old := s.synVal o
  let bar := s.flag (f_SYN_OBJ_CFG_BARRIER o)
  let bad := !(s.flag (f_SYN_OBJ_CFG_ENABLE o)) || (sop == 1 && bar) || (sop == 2 && (!bar || s.get (f_SYN_OBJ_CFG_EXPECT o) == 0))
    || decide (o > 8191)
  if bad then (s.status f_SYN_STATUS_BAD_OP, 7, 0)
  else
    match sop with
    | 0 => (s.setSynVal o (old + operand), 0, old)
    | 1 => (s.setSynVal o operand, 0, old)
    | 2 => (s.arrive o chip cyc, 0, old)
    | _ => (s, 0, old)

/-- R350: end the waits of an object whose condition holds now. -/
def State.syncWake (s : State) (o : Nat) : State :=
  let v := s.synVal o
  let (hit, rest) := s.net.waits.partition (fun w => w.1 == o && decide (w.2.1 ≤ v))
  hit.foldl (fun s w =>
    match w.2.2.2 with
    | some k => s.respond k 0 v true []
    | none =>
      let t := w.2.2.1
      let x := s.thr (t / 64) (t % 64)
      s.setThr (t / 64) (t % 64) (((x.setS x.wD v).setS (x.wD + 1) 1).wake)) { s with net := { s.net with waits := rest } }

/-! Outstanding requests (R338 to R346). -/

/-- R341: the poison value for n bytes. -/
def poison (n : Nat) : List Byte := (List.range n).map (fun i => if i % 2 = 0 then 0xAD else 0xDE)
def poisonWord : Nat := 0xDEADDEADDEADDEAD

/-- R162, R338: a completed request of a thread. One that the thread has no longer outstanding, since it ended or was bound anew
(R148), changes no register. Tag 65,536 marks a request that this chip answers at once. -/
def State.finishThread (s : State) (n t : Nat) (r : Req) : State :=
  let (st, res, met) := r.done.getD (0, 0, false)
  let x := s.thr n t
  if r.pkt.tag ≠ 65536 ∧ x.rmtOut.contains r.pkt.tag = false then s
  else
  let x := match r.kind with
    | 0 => if r.lane = 33 then (List.range 32).foldl (fun (x : Thr) l => x.setLane r.reg l (leNat ((r.bytes.drop (4 * l)).take 4))) x
           else if r.lane = 32 then x.setS r.reg (leNat r.bytes)
           else if r.bytes.length = 8 then x.setPair r.reg r.lane (leNat r.bytes) else x.setLane r.reg r.lane (leNat r.bytes)
    | 2 => x.setS r.reg res
    | 5 => (x.setS r.reg res).setS (r.reg + 1) (if st = 0 ∧ (r.pkt.aop ≠ 4 ∨ met = true) then 1 else 0)
    | _ => x
  let x := { x with rmtOut := x.rmtOut.erase r.pkt.tag
                    tstat := x.tstat ||| (if st ≠ 0 then 1 else 0) ||| (if st = 17 then 2 else 0) }
  let x := if x.why = .access ∨ (r.kind = 5 ∧ x.why = .mwait ∧ x.wA = r.pkt.tag + 2 ^ 63) then x.wake else x
  let s := s.setThr n t x.fenceWake
  if st ≠ 0 then s.status (f_TE_STATUS_REMOTE_ERR n) else s

/-! Data movers (R187, R202, R207): what one waits for has ended. -/

def State.mvOf (s : State) (k : Nat) : Move := sget {} s.ms.mv k
def State.setMv (s : State) (k : Nat) (v : Move) : State := { s with ms := { s.ms with mv := sset {} s.ms.mv k v } }

/-- What a mover waited for has ended without error: it has read `bs`, or written n bytes. -/
def Move.got (v : Move) (read : Bool) (n : Nat) (bs : List Byte) : Move :=
  if read then { v with wait := .none, buf := v.buf ++ bs } else { v with wait := .none, wr := v.wr + n }

/-- What a mover moves ends with an error. -/
def Move.fails (v : Move) (e : MErr) : Move := { v with wait := .none, buf := [], err := some e }

/-- R338, R341: a completed request of a data mover; one that it no longer waits for changes nothing. -/
def State.finishMover (s : State) (k : Nat) (r : Req) : State :=
  let (st, _, _) := r.done.getD (0, 0, false)
  let v := s.mvOf k
  match v.wait with
  | .far read tag skip n =>
    if tag ≠ r.pkt.tag then s
    else if st ≠ 0 then s.setMv k (v.fails (if read then .srcFar else .dstFar (decide (16 ≤ st))))
    else s.setMv k (v.got read n ((r.bytes.drop skip).take n))
  | _ => s

/-- R338: complete the requests of a stream, or of a data mover, in order of issue, while the oldest one's completion has arrived. -/
def State.drainStream (s : State) (who : Requester) (dst : Nat) : Nat → State
  | 0 => s
  | fuel + 1 =>
    match s.net.reqs.find? (fun r => r.who == who && r.pkt.dst == dst) with
    | some r =>
      if r.done.isSome then
        let s := { s with net := { s.net with reqs := s.net.reqs.filter (fun q => q.pkt.tag ≠ r.pkt.tag) } }
        let s := match who with
          | .thread n t => s.finishThread n t r
          | .mover k => s.finishMover k r
          | .serve => { s with net := { s.net with srvDone := s.net.srvDone ++ [r] } }
        let stale := r.pkt.op == 2 && r.pkt.own && (r.done.getD (0, 0, false)).1 == 4
        (if stale then ({ s with net := { s.net with srvDone := s.net.srvDone ++ [r] } } : State) else s).drainStream who dst fuel
      else s
    | none => s

/-- R286: the guest context of this chip that has a page of another chip over an address. -/
def State.kvPage (s : State) (dst a : Nat) : Option Nat :=
  let base := s.reg64 r_SRV_KV_BASE_LO
  (s.srv.ctx.find? (fun e => e.2.st ≠ .free && e.2.home == dst && dst ≠ s.chipId && e.2.pt.any (fun x =>
    x.2.h ≠ 0 && bits x.2.h 11 0 == dst && decide (base + bits x.2.h 39 12 * 4096 ≤ a)
      && decide (a < base + bits x.2.h 39 12 * 4096 + 2 ^ (12 + bits x.2.h 61 58))))).map (·.1)

/-- R286: a store into a page that another chip holds for a guest context is a KV append: it carries the ownership epoch. A page of a
chip that is not the context's home is not checked there (Assumption 62). -/
def State.ownCheck (s : State) (k : Pkt) : Pkt :=
  if k.op ≠ 2 then k
  else match s.kvPage k.dst k.addr with
    | some n => { k with own := true, epoch := (sget ({} : Ctx) s.srv.ctx n).epoch }
    | none => k

/-- R341: account a request that completes as dead or unknown, with one report per destination and shutter. -/
def State.deadReport (s : State) (dst addr : Nat) (unknown : Bool) : State :=
  let s := if unknown then (s.bump f_AVL_RMT_UNKNOWN_CNT_COUNT).status f_AVL_RMT_STATUS_OUTCOME_UNKNOWN
           else (s.bump f_AVL_RMT_DEAD_CNT_COUNT).status f_AVL_RMT_STATUS_REMOTE_DEAD
  let s := if s.net.deadRep.contains (dst, unknown) then s
    else ({ s with net := { s.net with deadRep := s.net.deadRep ++ [(dst, unknown)] } }).raise srcRemote
      (if unknown then 0x49 else 0x48) addr dst
  s.recover

/-- R341: whether a request completes with OUTCOME_UNKNOWN when its bound expires. -/
def Pkt.unknownWhenDead (p : Pkt) : Bool := p.tagged

/-- R341: the bound of a request expired, or its peer is dead. A tagged update that was never sent completes with
REMOTE_DEAD (R344). -/
def State.deadFinish (s : State) (r : Req) : State :=
  let unk := r.pkt.unknownWhenDead && r.phase == .sent
  let s := s.markDone r.pkt.tag (if unk then 17 else 16) poisonWord false (poison r.pkt.count)
  s.deadReport r.pkt.dst r.pkt.addr unk

/-- The next TAG that no outstanding request carries (R335). -/
def State.freshTag (s : State) : Nat :=
  let used (t : Nat) := s.net.reqs.any (fun r => r.pkt.tag == t) || s.net.dest.any (fun e => e.2.query == some t)
  ((List.range 65536).map (fun i => (s.net.nextTag + i) % 65536)).find? (fun t => !used t) |>.getD 0

/-- R344: send an epoch query to a destination. -/
def State.sendQuery (s : State) (dst : Nat) : State :=
  let t := s.freshTag
  let s := { s with net := { s.net with nextTag := (t + 1) % 65536 } }
  let s := s.setDest dst { s.destOf dst with query := some t, queryAt := s.now }
  s.route { dst := dst, src := s.chipId, cls := 0, tag := t, op := 5, epoch := s.get f_AVL_RMT_STATE_SEPOCH }

/-- Change an outstanding request. -/
def State.modReq (s : State) (tag : Nat) (f : Req → Req) : State :=
  { s with net := { s.net with reqs := s.net.reqs.map (fun r => if r.pkt.tag = tag then f r else r) } }

/-- R343: whether a request to a destination may be sent now: its SEPOCH is fixed and the request 256 tags earlier has
completed. -/
def State.tagFree (s : State) (dst : Nat) : Bool :=
  let d := s.destOf dst
  d.known && !(s.net.reqs.any (fun r => r.pkt.dst == dst && r.pkt.tagged && r.phase == .sent
    && r.pkt.atag == (d.atag + 2 ^ 32 - 256) % 2 ^ 32))

/-- R340: requests of the serving engine that were sent and are outstanding. -/
def State.serveOut (s : State) : Nat := (s.net.reqs.filter (fun r => r.who == .serve && r.phase == .sent && r.done.isNone)).length

/-- Send a request that waits, if its stream, the tag rule and the serving engine's limit let it go (R338, R340, R343, R344). -/
def State.trySend (s : State) (tag : Nat) : State :=
  match s.net.reqs.find? (fun r => r.pkt.tag == tag) with
  | none => s
  | some r =>
    let dst := r.pkt.dst
    let before := s.net.reqs.takeWhile (fun q => q.pkt.tag ≠ tag)
    if r.phase = .sent ∨ r.done.isSome ∨ (r.who = .serve ∧ s.serveOut ≥ 1024)
        ∨ (r.pkt.cls = 0 ∧ before.any (fun q => q.who == r.who && q.pkt.dst == dst && q.phase ≠ .sent && q.done.isNone)) then s
    else if r.pkt.tagged then
      let d := s.destOf dst
      if !d.known then
        let s := s.modReq tag (fun q => { q with phase := .waitQuery })
        if d.query.isNone then s.sendQuery dst else s
      else if s.tagFree dst then
        let k := { r.pkt with atag := d.atag, sepoch := d.sepoch }
        let s := s.setDest dst { d with atag := (d.atag + 1) % 2 ^ 32 }
        (s.modReq tag (fun q => { q with phase := .sent, pkt := k, sentAt := s.now, lastAt := s.now })).route k
      else s.modReq tag (fun q => { q with phase := .waitTag })
    else (s.modReq tag (fun q => { q with phase := .sent, sentAt := s.now })).route r.pkt

/-- Try every waiting request to a destination, in order of issue. -/
def State.pump (s : State) (dst : Nat) : State :=
  ((s.net.reqs.filter (fun r => r.pkt.dst == dst && r.phase ≠ .sent)).map (·.pkt.tag)).foldl (fun s t => s.trySend t) s

/-- R340: try the requests of the serving engine that wait. -/
def State.pumpServe (s : State) : State :=
  ((s.net.reqs.filter (fun r => r.who == .serve && r.phase ≠ .sent)).map (·.pkt.tag)).foldl (fun s t => s.trySend t) s

/-- R344: the query to a destination ended other than with OK: the updates that wait for it complete REMOTE_DEAD. -/
def State.queryFlush (s : State) (dst : Nat) : State :=
  if (s.destOf dst).failed then
    let s := s.setDest dst { s.destOf dst with query := none, known := false, failed := false }
    (s.net.reqs.filter (fun r => r.pkt.dst == dst && r.pkt.tagged && r.phase ≠ .sent && r.done.isNone)).foldl (fun s r => s.deadFinish r) s
  else s

/-- R338: complete, in their order, what can be completed toward a destination. -/
def State.drainDest (s : State) (dst : Nat) : State :=
  let s := s.queryFlush dst
  let whos := (s.net.reqs.filter (fun r => r.pkt.dst == dst)).map (·.who)
  whos.eraseDups.foldl (fun s w => s.drainStream w dst (s.net.reqs.length + 1)) s

/-- Complete what can be completed toward a destination, send what that frees, and complete what then has no route. -/
def State.settle (s : State) (dst : Nat) : State := (((s.drainDest dst).pump dst).pumpServe).drainDest dst

/-- R319: complete every request that routing has ended. -/
def State.settleDone (s : State) : State :=
  let l := (s.net.reqs.filter (fun r => r.done.isSome)).map (·.pkt.dst) ++ (s.net.dest.filter (fun e => e.2.failed)).map (·.1)
  l.eraseDups.foldl (fun s d => s.settle d) s

/-- R318: try the held ordered requests again, oldest first. -/
def State.releaseHeld (s : State) : State :=
  let l := s.net.held
  (l.foldl (fun (s : State) k => s.routeAgain k) { s with net := { s.net with held := [] } }).settleDone

/-- R319: the packets that a port holds go back to the route stage ahead of every later packet. -/
def State.resubmit (s : State) (p : Nat) : State :=
  let x := s.portOf p
  let l := x.unacked.map (fun k => { k with resent := true }) ++ s.queuedPkts p
  let s := if l.isEmpty then s else s.recover
  let e := 32 + p
  let s := s.setPort p { x with replay := [], usable := false }
  let s := (List.range 8).foldl (fun s i => s.setTmQ e i { s.tmQ e i with items := [] }) s
  let oldInb := s.tm.inb.filter (fun x => x.1 ≠ e)
  let oldHeld := s.net.held
  let s := { s with tm := { s.tm with inb := [] }, net := { s.net with held := [] } }
  let s := l.foldl (fun s k => s.routeAgain k) s
  ({ s with tm := { s.tm with inb := s.tm.inb ++ oldInb }, net := { s.net with held := s.net.held ++ oldHeld } } : State).settleDone

/-- R331: the accounting slot of a request. -/
def State.reqSlot (s : State) (r : Req) : Nat := match r.who with
  | .thread n th => (s.thr n th).slot
  | .serve => 0
  | .mover _ => r.slot

/-- R340: requests outstanding at the remote-access engine of an array. -/
def State.engineOut (s : State) (n : Nat) : Nat :=
  (s.net.reqs.filter (fun r => match r.who with
    | .thread a _ => a == n
    | .mover k => decide (k < 1024) && k / 16 == n
    | .serve => false)).length

/-- R40, R341, R344: issue a request to another chip. It is refused while no image is applied, completes at once
toward a dead peer, and is sent as soon as the rules let it. -/
def State.issueReq (s : State) (r : Req) : State :=
  let t := s.freshTag
  let relaxed : Bool := match r.who with
    | .mover _ => true
    | _ => false
  let r := { r with pkt := { s.ownCheck r.pkt with tag := t, src := s.chipId, cls := if relaxed then 1 else 0 }, phase := .waitTag }
  let s := { s with net := { s.net with nextTag := (t + 1) % 65536, reqs := s.net.reqs ++ [r] } }
  let s := match r.who with
    | .thread n th => s.onThr n th (fun x => { x with rmtOut := x.rmtOut ++ [t] })
    | _ => s
  let s := if !s.valid then s.markDone t 8 0 false (List.replicate r.pkt.count 0)
    else if s.peerDead r.pkt.dst then s.deadFinish { r with phase := .sent }
    else (s.account (s.reqSlot r) (if relaxed then 5 else 4) (16 * r.pkt.units)).trySend t
  s.settle r.pkt.dst

end Sys2Proof.Machine
end

