-- ==== Sys2Proof/Machine/SigThreads.lean ====
section
/-! DEFINITION. Operations over threads of the signal cores: registers, waits, faults, transfers and the completions of the
radio accelerators (R364 to R370, R380 to R385). -/
namespace Sys2Proof.Machine
open Sys2Proof

def State.sigThr (s : State) (c t : Nat) : SigThr := sget {} s.sig.thr (8 * c + t)
def State.setSigThr (s : State) (c t : Nat) (x : SigThr) : State :=
  { s with sig := { s.sig with thr := sset {} s.sig.thr (8 * c + t) x } }
def State.onSig (s : State) (c t : Nat) (f : SigThr → SigThr) : State := s.setSigThr c t (f (s.sigThr c t))

/-- R369: scalar register r; x0 reads as 0. -/
def SigThr.sr (x : SigThr) (r : Nat) : Nat := if r = 0 then 0 else sget 0 x.x r % 2 ^ 32
/-- R369: write a scalar register; x0 ignores it. -/
def SigThr.setX (x : SigThr) (r v : Nat) : SigThr := if r = 0 then x else { x with x := sset 0 x.x r (v % 2 ^ 32) }
/-- Component q (0 I, 1 Q) of lane l of c(r), signed. -/
def SigThr.cget (x : SigThr) (r l q : Nat) : Int := toSigned 24 (sget 0 x.c (32 * r + 2 * l + q))
def SigThr.cset (x : SigThr) (r l q : Nat) (v : Int) : SigThr := { x with c := sset 0 x.c (32 * r + 2 * l + q) (ofSigned 24 v) }
/-- Component q of lane l of an accumulator, signed. -/
def SigThr.aget (x : SigThr) (r l q : Nat) : Int := toSigned 56 (sget 0 x.acc (32 * r + 2 * l + q))
def SigThr.aset (x : SigThr) (r l q : Nat) (v : Int) : SigThr := { x with acc := sset 0 x.acc (32 * r + 2 * l + q) (ofSigned 56 v) }
def SigThr.orFlags (x : SigThr) (f : Nat) : SigThr := { x with flags := x.flags ||| f }
/-- R368: a thread that waited goes on; a parked one will. -/
def SigThr.wake (x : SigThr) : SigThr := { x with st := if x.st = .wait then .ready else x.st, prev := .ready, why := .none, wJob := none, wXfer := none }

/-- R365, R368: the thread starts with zeroed registers and flags; its binding, and what it still has outstanding, stay. -/
def SigThr.restart (x : SigThr) (pc : Nat) : SigThr :=
  { st := .ready, radio := x.radio, job := x.job, prio := x.prio, tenant := x.tenant, slot := x.slot, part := x.part, pc := pc
    outst := x.outst, xfers := x.xfers, kind := x.kind }

/-- R366: the lease part a core is in; core c is resource 0x100 + c. -/
def coreRes (c : Nat) : Nat := 0x100 + c
def State.coreLease (s : State) (c : Nat) : LeasePhase := s.leaseOf (coreRes c)

/-- R364: base die of a logical core. -/
def State.coreDie (s : State) (c : Nat) : Nat := c / (if s.grade56 then 22 else 24)

/-- R366, R380: whether local bytes [off, off + len) lie in the region of a thread. -/
def State.localOk (s : State) (c : Nat) (radio : Bool) (off len : Nat) : Bool :=
  let k := s.get (f_SIG_MEM_SPLIT_RADIO_16K c) * 0x4000
  if radio then decide (off + len ≤ k) else decide (k ≤ off) && decide (off + len ≤ 0x80000)

/-- R384: a thread enters FAULTED for a kind. A tenant thread stops its job; a radio-bound one takes every radio-bound thread of its
core with it. -/
def State.sigStop (s : State) (c t kind : Nat) : State :=
  let x := s.sigThr c t
  let s := s.setSigThr c t { x with st := .faulted, why := .none, kind := kind }
  let s := s.status f_SIG_STATUS_FAULT
  if x.radio then
    (List.range 8).foldl (fun s u => s.onSig c u (fun y => if y.radio then { y with st := .faulted, why := .none } else y)) s
  else (s.stopJob x.job).jobFault x.job

/-- R384: a thread faults: the fault is raised, and the thread is FAULTED. -/
def State.sigFault (s : State) (c t kind addr : Nat) : State :=
  (s.raise (srcCore (s.physCore c)) kind addr t).sigStop c t kind

/-- R185, R384: a load of a thread met an uncorrectable error of local memory, which the memory has reported: the thread stops at its
bundle. DEDUCED 84: it records the kind MEM_UNCORR. -/
def State.sigLoadStop (s : State) (c t pc : Nat) : State :=
  (s.onSig c t (fun x => { x with pc := pc })).sigStop c t 0x29

/-- R148: change the thread that submitted a job or a transfer, while it is bound to the job that it was bound to then. -/
def State.onSubmitter (s : State) (c t job : Nat) (f : SigThr → SigThr) : State :=
  s.onSig c t (fun x => if x.job = job then f x else x)

/-- R382: a completion word. -/
def accWord (seq status kind eng : Nat) (radio reissued : Bool) : Nat :=
  seq % 2 ^ 32 + status % 16 * 2 ^ 32 + kind % 8 * 2 ^ 36 + eng % 8 * 2 ^ 39 + (if radio then 2 ^ 42 else 0)
    + (if reissued then 2 ^ 43 else 0) + 2 ^ 63

/-- Write a completion to x(d) and x(d + 1). -/
def SigThr.takeComp (x : SigThr) (d w : Nat) : SigThr := (x.setX d w).setX (d + 1) (w / 2 ^ 32)

/-- R382: a completion reaches its thread: one that waits in `jwait` takes it. A nonzero status sets JOB_ERR. -/
def State.sigComplete (s : State) (c t job word : Nat) : State :=
  s.onSubmitter c t job (fun x =>
    let x := if bits word 35 32 ≠ 0 then x.orFlags 16 else x
    let x := { x with outst := x.outst - 1 }
    if x.why = .jwait then x.wake.takeComp x.wD word else { x with comps := x.comps ++ [word] })

/-- R381, R385: a transfer of a thread ends. -/
def State.xferDone (s : State) (c t job : Nat) (err : Bool) : State :=
  s.onSubmitter c t job (fun x =>
    let x := { (if err then x.orFlags 16 else x) with xfers := x.xfers - 1 }
    if x.why = .xwait ∧ x.xfers = 0 then x.wake else x)

/-- R188: the arbiter input of a master for a bank. -/
def State.arbInput (s : State) (master : Nat) (radio : Bool) (bank : Nat) : Nat :=
  match s.img with
  | some g => ((g.arb.find? (fun e => e.1 == master && e.2.1 == radio && e.2.2.1 == bank)).map (·.2.2.2)).getD 0
  | none => 0

end Sys2Proof.Machine
end

