-- ==== Sys2Proof/Machine/Movers.lean ====
section
/-! DEFINITION. The data movers: the stage-memory bank arbiters, LPDDR6 refresh and scrub, the array DMA, and the bulk
movers (R187 to R208). -/
namespace Sys2Proof.Machine
open Sys2Proof

/-! Stage-memory banks (R187 to R192). -/

def State.bankOf (s : State) (b : Nat) : Bank := sget {} s.ms.bank b
def State.setBank (s : State) (b : Nat) (x : Bank) : State := { s with ms := { s.ms with bank := sset {} s.ms.bank b x } }

/-- R187: a transfer names 1 to 64 lines of its bank. -/
def Transfer.ok (x : Transfer) : Bool := decide (x.input < 16) && decide (1 ≤ x.beats) && decide (x.beats ≤ 64) && decide (x.line + x.beats ≤ 8192)

/-- The device-physical address of a transfer's first line. -/
def Transfer.addr (b : Nat) (x : Transfer) : Nat := stageBase + b * 0x80000 + x.line * 64

/-- The first k beats of a transfer take place: the bytes of a read, and how it ended. A read by an `xfer` arrives in local memory. -/
def State.moveBeats (s : State) (b : Nat) (x : Transfer) (k : Nat) : State × List Byte × Acc :=
  if k = 0 then (s, [], .ok)
  else if x.write then
    let (s, st) := s.store x.master (x.addr b + x.skip) (x.data.take (64 * k - x.skip))
    (s, [], st)
  else
    let (s, bs, st) := s.load x.master (x.addr b) (64 * k)
    match x.xfer with
    | some (c, _, off) => ((s.store x.master (sigBase c + off) bs).1, bs, st)
    | none => (s, bs, st)

/-- R293: the accounting slot of a data mover. -/
def State.slotOfTenant (s : State) (tenant : Nat) : Option Nat :=
  match s.img with
  | some g => (g.slots.find? (fun x => x.2 == tenant)).map (·.1)
  | none => none

def State.dmaCh (s : State) (n c : Nat) : DmaCh := sget {} s.ms.dma (16 * n + c)

def State.bulkQ (s : State) (m q : Nat) : List BulkDesc := sget [] s.ms.bulkQ (4 * m + q)

/-- The descriptor that a bulk mover serves. -/
def State.bulkDesc (s : State) (m : Nat) : Option BulkDesc :=
  match sget 0 s.ms.bulkCur m with
  | 0 => none
  | q + 1 => (s.bulkQ m q).head?

/-- R205: whether the serving engine submitted a descriptor. -/
def BulkDesc.engine (d : BulkDesc) : Bool := match d.sub with
  | .radio | .cmd _ _ => false
  | _ => true

def State.mvSlot (s : State) (k : Nat) : Nat :=
  if k < 1024 then (s.dmaCh (k / 16) (k % 16)).acct
  else match s.bulkDesc (k - 1024) with
    | some d => if d.engine then 0 else (s.slotOfTenant d.tenant).getD 0
    | none => 0

/-- R204, R207: a transfer that a mover waits for has ended; one that it no longer waits for changes nothing. -/
def State.bankDone (s : State) (k id a : Nat) (bs : List Byte) (st : Acc) : State :=
  let v := s.mvOf k
  match v.wait with
  | .bank read i skip n =>
    if i ≠ id then s
    else if st = .ok then (s.acctMem (s.mvSlot k) a n).setMv k (v.got read n ((bs.drop skip).take n))
    else s.setMv k (v.fails (if read then .srcBad else .dstBad))
  | _ => s

/-- R185, R381: the requester of a transfer that has ended: an `xfer`, a data mover, or a thread of a thread engine. -/
def State.transferEnds (s : State) (b : Nat) (x : Transfer) (bs : List Byte) (st : Acc) : State :=
  let s := match x.xfer with
    | some (c, t, _) => s.xferDone c t x.job (decide (st ≠ .ok))
    | none => s
  let s := match x.mv with
    | some (k, id) => s.bankDone k id (x.addr b) bs st
    | none => s
  match x.te with
  | some (n, t) => if st = .uncorr ∧ x.write = false then s.loadStop n t else s
  | none => s

/-- All beats of a transfer take place and it is complete. -/
def State.moveAll (s : State) (b : Nat) (x : Transfer) : State :=
  let (s, bs, st) := s.moveBeats b x x.beats
  let s := match x.xfer with
    | some (c, t, _) => let y := s.sigThr c t; s.account (if y.radio then 0 else y.slot) 3 (64 * x.beats)
    | none => s
  s.transferEnds b x bs st

/-- R190: the transfer that a free bank grants: the highest input, the oldest of it. -/
def bestOf (l : List Transfer) : Option Transfer :=
  let hi := l.foldl (fun h x => max h x.input) 0
  l.find? (fun x => x.input == hi)

/-- R190, R191: freed entries go to the requesters that wait for one, in their order. -/
def Bank.fill (x : Bank) : Bank :=
  let room := 8 - x.pend.length - (if x.cur.isSome then 1 else 0)
  { x with pend := x.pend ++ x.stall.take room, stall := x.stall.drop room }

/-- R190: a free bank grants; the granted transfer keeps its entry. -/
def Bank.grant (x : Bank) : Bank :=
  let x := x.fill
  match x.cur, bestOf x.pend with
  | none, some g => { x with cur := some g, pend := x.pend.erase g }
  | _, _ => x

/-- STAGE_TRANSFER_REQUEST (R189 to R192): `moved` is how many beats the holder has moved when the request's cycle ends; 0 when the
holder was granted in that cycle. A requester that finds no entry, or others that wait for one, waits. -/
def State.stageRequest (s : State) (b : Nat) (x : Transfer) (moved : Nat) : State :=
  let k := s.bankOf b
  let (s, k) : State × Bank := match k.cur with
    | some c => if moved ≥ c.beats then (s.moveAll b c, ({ k with cur := none } : Bank).fill) else (s, k)
    | none => (s, k)
  if !k.stall.isEmpty || decide (k.pend.length + (if k.cur.isSome then 1 else 0) ≥ 8) then s.setBank b ({ k with stall := k.stall ++ [x] } : Bank).grant
  else
    match k.cur with
    | none => s.setBank b ({ k with pend := k.pend ++ [x] } : Bank).grant
    | some c =>
      if x.input ≤ c.input then s.setBank b { k with pend := k.pend ++ [x] }
      else if moved = 0 then s.setBank b { k with cur := some x, pend := c :: k.pend }
      else ((s.moveBeats b c moved).1.bump (f_MEM_ARB_REVOKE_COUNT c.input)).setBank b { k with cur := some x, pend := c :: k.pend }

/-- R188: a transfer enters at the input that ARBITER_MAP gives its master for the bank. -/
def State.atInput (s : State) (b : Nat) (x : Transfer) : Transfer := { x with input := s.arbInput x.master x.radio b % 16 }

def execStageTransferRequest (b : Fin 512) (x : Transfer) (moved : Fin 65) (s : State) : Host.Outcome State Fault Refusal :=
  .next (whenLive s (fun s => if x.ok then s.stageRequest b (s.atInput b x) moved else s))

/-- STAGE_BANK_GRANT (R189, R190), but for what a data mover does then: the holder's last beat moves and the bank grants the next
transfer. -/
def State.bankGrant (s : State) (b : Nat) : State :=
  let k := s.bankOf b
  match k.cur with
  | some c => (s.moveAll b c).setBank b ({ k with cur := none } : Bank).grant
  | none => s.setBank b k.grant

/-- STAGE_ARB_TMO (R191), but for what a data mover does then: the oldest transfer that waits for an entry completes with error status,
and its requester goes on as for an uncorrectable error (R185). -/
def State.arbTmo (s : State) (b : Nat) : State :=
  let k := s.bankOf b
  match k.stall with
  | x :: rest =>
    let s := (s.setBank b { k with stall := rest }).status f_MEM_STATUS_ARB_TMO
    let s := s.raise (srcStage (b / 128)) 0x2A (x.addr b) 0
    s.transferEnds b x [] .uncorr
  | [] => s

/-! LPDDR6 refresh and scrub (R197, R198). -/

/-- REFRESH_RATE_READ (R197): the indication of every package; a rate above the budget is reported by its controller. -/
def State.refreshRead (s : State) (rates : List (Fin 24 × Fin 3)) : State :=
  rates.foldl (fun s r =>
    let s := { s with ms := { s.ms with refRate := sset 0 s.ms.refRate r.1 r.2 } }
    if r.2.val > s.get f_MEM_LP_CFG_REF_BUDGET then (s.status f_MEM_STATUS_REF_OVER).raise (srcLp r.1) 0x2C 0 0 else s) s

def execRefreshRateRead (rates : List (Fin 24 × Fin 3)) (s : State) : Host.Outcome State Fault Refusal :=
  .next (whenLive s (fun s => s.refreshRead rates))

/-- LPDDR_REFRESH (R197): a refresh command is issued, or postponed behind radio-lease requests. -/
def execLpddrRefresh (c : Fin 24) (postponed : Bool) (s : State) : Host.Outcome State Fault Refusal :=
  .next (whenLive s (fun s =>
    let k := sget 0 s.ms.refPost c
    let ovr := sget 0 s.ms.refRate c > s.get f_MEM_LP_CFG_REF_BUDGET
    { s with ms := { s.ms with refPost := sset 0 s.ms.refPost c (if postponed && ovr then k + 1 else k - 1) } }))

/-- REFRESH_FORCED (R197): the postponement limit is reached; the postponed refreshes are issued regardless. -/
def execRefreshForced (c : Fin 24) (s : State) : Host.Outcome State Fault Refusal :=
  .next (whenLive s (fun s =>
    if sget 0 s.ms.refPost c = 0 then s
    else ({ s with ms := { s.ms with refPost := sset 0 s.ms.refPost c 0 } } : State).status f_MEM_STATUS_REF_FORCED))

/-- PATROL_SCRUB (R198): the next populated line is read, corrected and reported under R185. -/
def State.patrolScrub (s : State) : State :=
  if s.flag f_MEM_SCRUB_CFG_ENABLE && decide (0 < s.lpBytes) then
    let a := 64 * (s.ms.scrub % (s.lpBytes / 64))
    let (s, _, _) := s.load (s.memSource a) a 64
    { s with ms := { s.ms with scrub := (a / 64 + 1) % (s.lpBytes / 64) } }
  else s

def execPatrolScrub (s : State) : Host.Outcome State Fault Refusal := .next (whenLive s (fun s => s.patrolScrub))

/-! Host apertures (R464). -/

/-- The port, PASID (none for the manager region) and host address that [a, a + len) of a host aperture reaches; none
where it is unmapped. -/
def State.hostAddr (s : State) (a len : Nat) : Option (Nat × Option Nat × Nat) :=
  let port := if a < 0x500000000000 then 0 else 1
  let o := a - (if port = 0 then 0x400000000000 else 0x500000000000)
  let j := o / 2 ^ 37
  if o ≥ 2 ^ 44 ∨ len = 0 then none
  else if j < 64 then
    let w := 64 * port + j
    let off := o % 2 ^ 37
    if s.flag (f_TWN_CFG_EXISTS w) ∧ off + len ≤ s.get (f_TWN_APT_LIMIT_GIB w) * 2 ^ 30 then
      some (port, some (s.get (f_TWN_PASID_PASID w)), (s.reg64 (r_TWN_APT_BASE_LO w) + off) % 2 ^ 64)
    else none
  else if port = s.get f_HST_ROLE_MGR_PORT ∧ o + len ≤ 2 ^ 44 then some (port, none, o - 2 ^ 43)
  else none

/-! What a data mover moves (R187, R203, R207, R208). -/

/-- What a mover moves: a row of an array DMA, or a bulk descriptor. A fixed side stays at its line. -/
structure MJob where
  src : MEnd := .zero
  dst : MEnd := .zero
  sFix : Bool := false
  dFix : Bool := false
  len : Nat := 0
  deriving DecidableEq, Repr

/-- The source number of a mover. -/
def State.mvUnit (s : State) (k : Nat) : Nat := if k < 1024 then srcTe (s.physFor (k / 16)) else srcBulk (k - 1024)

/-- R199: whether a mover moves for the radio program. -/
def State.mvRadio (s : State) (k : Nat) : Bool := decide (k < 1024) && (s.dmaCh (k / 16) (k % 16)).radio

/-- R336: array DMA splits its remote rows at 256-byte boundaries; a bulk mover sends 64-byte requests. -/
def mvStep (k : Nat) : Nat := if k < 1024 then 256 else 64

/-- R187, R336: the most bytes that a side takes at offset i of what is moved, in one beat, transfer or request. -/
def State.mvChunk (s : State) (k : Nat) (e : MEnd) (fixed : Bool) (i left : Nat) : Nat :=
  match e with
  | .zero => min left 4096
  | .host _ => left
  | .far _ a => if fixed then min left 64 else min left (mvStep k - (a + i) % mvStep k)
  | .loc a =>
    let x := a + i
    if fixed then min left 64
    else if s.region x = .stage then min left (min (4096 - x % 64) (0x80000 - (x - stageBase) % 0x80000))
    else min left (64 - x % 64)

/-- R207: the address of offset i of a side. -/
def sideAt (fixed : Bool) (a i : Nat) : Nat := if fixed then a + i % 64 else a + i

/-- R208: the whole lines that a row touches. -/
def linesOf (a len : Nat) : Nat × Nat := (a / 64 * 64, ceilDiv (a + len) 64 * 64 - a / 64 * 64)

/-- Whether a side is read or written in the mover's own beat: it waits for no bank, chip or host. -/
def State.mvNow (s : State) (e : MEnd) (fixed : Bool) (i : Nat) : Bool :=
  match e with
  | .zero => true
  | .loc a => s.region (sideAt fixed a i) ≠ .stage
  | _ => false

/-- Send a transfer of a mover to a bank. How many beats the bank's holder has moved then is not stated: a free value. -/
def State.mvBank (s : State) (k a n : Nat) (write : Bool) (bs : List Byte) : State :=
  let (la, ll) := linesOf a n
  let b := (la - stageBase) / 0x80000
  let id := s.ms.mvId
  let x : Transfer := { line := (la - stageBase) % 0x80000 / 64, beats := ll / 64, write := write, data := bs, master := s.mvUnit k
                        radio := s.mvRadio k, skip := a - la, mv := some (k, id) }
  let (s, v) := s.freeW
  let s := { s with ms := { s.ms with mvId := id + 1 } }
  let held := match (s.bankOf b).cur with
    | some c => c.beats
    | none => 0
  (s.setMv k { s.mvOf k with wait := .bank (!write) id (a - la) n }).stageRequest b (s.atInput b x) (v % (held + 1))

/-- R338, R340: send a request of a mover to another chip. -/
def State.mvFar (s : State) (k chip a n : Nat) (write : Bool) (bs : List Byte) : State :=
  let (la, ll) := linesOf a n
  let p : Pkt := if write then { dst := chip, op := 2, addr := a, count := n, data := bs, bulk := decide (1024 ≤ k) }
    else { dst := chip, op := 1, addr := la, count := ll, bulk := decide (1024 ≤ k) }
  (s.setMv k { s.mvOf k with wait := .far (!write) s.freshTag (a - la) n }).issueReq { who := .mover k, slot := s.mvSlot k, pkt := p }

/-- Read n bytes of a source at offset i, in the mover's own beat: whole lines of this chip's memory, or zeros. -/
def State.mvRead (s : State) (k : Nat) (j : MJob) (i n : Nat) : State × List Byte × Option MErr :=
  match j.src with
  | .loc a =>
    let x := sideAt j.sFix a i
    let (la, ll) := linesOf x n
    let (s, bs, st) := s.load (s.mvUnit k) la ll
    match st with
    | .ok => (s.acctMem (s.mvSlot k) x n, (bs.drop (x - la)).take n, none)
    | .uncorr => (s, [], some .srcBad)
    | _ => (s, [], some .srcGone)
  | _ => (s, List.replicate n 0, none)

/-- Ask for the next bytes of a source that answers later. -/
def State.mvFetch (s : State) (k : Nat) (j : MJob) : State :=
  let v := s.mvOf k
  let i := v.wr + v.buf.length
  let n := s.mvChunk k j.src j.sFix i (j.len - i)
  match j.src with
  | .loc a => s.mvBank k (sideAt j.sFix a i) n false []
  | .far chip a => s.mvFar k chip (sideAt j.sFix a i) n false []
  | .host a =>
    match s.hostAddr a (if j.sFix then 64 else n) with
    | some (port, pasid, h) => (s.hostR (s.mvSlot k) port (pasid.getD 0) h (if j.sFix then 64 else n)).setMv k { v with wait := .host n }
    | none => (s.raise (s.mvUnit k) 0x16 a 0).setMv k (v.fails .srcGone)
  | .zero => s

/-- Write bytes at the mover's place in its destination. -/
def State.mvWrite (s : State) (k : Nat) (j : MJob) (bs : List Byte) : State :=
  let v := s.mvOf k
  let n := bs.length
  match j.dst with
  | .loc a =>
    let x := sideAt j.dFix a v.wr
    if s.region x = .stage then s.mvBank k x n true bs
    else
      let (s, st) : State × Acc := match s.region x with
        | .acc _ => (s, .unmapped)
        | _ => s.store (s.mvUnit k) x bs
      match st with
      | .ok => (s.acctMem (s.mvSlot k) x n).setMv k (v.got false n [])
      | .uncorr => s.setMv k (v.fails .dstBad)
      | _ => s.setMv k (v.fails .dstGone)
  | .far chip a => s.mvFar k chip (sideAt j.dFix a v.wr) n true bs
  | .host a =>
    match s.hostAddr (sideAt j.dFix a v.wr) n with
    | some (port, pasid, h) => (s.hostW (s.mvSlot k) port (pasid.getD 0) h bs).setMv k (v.got false n [])
    | none => (s.raise (s.mvUnit k) 0x16 a 0).setMv k (v.fails .dstGone)
  | .zero => s

/-- One turn of a mover: it asks for the next bytes of a source that answers later, or writes the next piece of its destination: a
line, a transfer of a bank, a request to another chip. -/
def State.mvTurn (s : State) (k : Nat) (j : MJob) : State :=
  let v := s.mvOf k
  let n := s.mvChunk k j.dst j.dFix v.wr (j.len - v.wr)
  if s.mvNow j.src j.sFix v.wr then
    match s.mvRead k j v.wr n with
    | (s, bs, none) => s.mvWrite k j bs
    | (s, _, some e) => s.setMv k (v.fails e)
  else if v.buf.length < min n (if j.dFix then 64 else 1) then s.mvFetch k j
  else (s.setMv k { v with buf := v.buf.drop n }).mvWrite k j (v.buf.take n)

/-- What a mover has read and not yet written is discarded, and what it waits for no longer concerns it (R215). -/
def State.mvStop (s : State) (k : Nat) : State := s.setMv k { s.mvOf k with buf := [], wait := .none }

/-! Array DMA (R199 to R204). -/

def State.setDmaCh (s : State) (n c : Nat) (x : DmaCh) : State :=
  let bit (k : Nat) (b : Bool) (v : Nat) := setBits v k k (if b then 1 else 0)
  let s := { s with ms := { s.ms with dma := sset {} s.ms.dma (16 * n + c) x } }
  s.setReg (r_ARR_DMA_STATE n) (BitVec.ofNat 32 (bit c x.busy (bit (16 + c) (x.job.isSome || x.radio) (s.reg (r_ARR_DMA_STATE n)).toNat)))

/-- R200: ring memory of array n, by offset from array-store offset 0x40_0000. -/
def State.ringRead (s : State) (n off k : Nat) : Nat := leNat ((List.range k).map (fun i => sget 0 s.ms.ring (0x4000 * n + off + i)))
def State.ringWrite (s : State) (n off : Nat) (bs : List Byte) : State :=
  { s with ms := { s.ms with ring := bs.zipIdx.foldl (fun m (b, i) => sset 0 m (0x4000 * n + off + i) b) s.ms.ring } }

def slotOff (c slot : Nat) : Nat := c * 0x400 + slot * 64

/-- R201: the descriptor in a slot of a ring. -/
def State.dmaDesc (s : State) (n c slot : Nat) : DmaDesc :=
  let f (o k : Nat) := s.ringRead n (slotOff c slot + o) k
  let sg (o : Nat) : Int := toSigned 32 (f o 4)
  { ctrl := f 0 4, len := f 4 4 % 2 ^ 24, src := f 8 8, dst := f 0x10 8, n0 := f 0x18 2, n1 := f 0x1A 2, n2 := f 0x1C 2
    ss := [sg 0x20, sg 0x24, sg 0x28], ds := [sg 0x2C, sg 0x30, sg 0x34], seq := f 0x38 4
    rsv := bits (f 0 4) 31 8 ≠ 0 || f 7 1 ≠ 0 || f 0x3C 4 ≠ 0 }

/-- The descriptor that a channel moves: as it stood when GO was set (R200). -/
def DmaCh.desc (x : DmaCh) : DmaDesc := ((x.go.find? (fun e => e.1 == x.slot)).map (·.2)).getD {}

/-- R200: the channel starts the descriptor of the slot that it serves, if GO is set there. -/
def DmaCh.start (x : DmaCh) : DmaCh := { x with busy := x.go.any (fun e => e.1 == x.slot), row := 0, code := 0 }

/-- DMA_DESCRIPTOR_GO (R200): CTRL is stored. A write that sets GO holds the fields written before it, and starts the descriptor
when the channel serves its slot. -/
def State.dmaGo (s : State) (n c slot ctrl : Nat) : State :=
  let s := s.ringWrite n (slotOff c slot) (leBytes 4 ctrl)
  let x := s.dmaCh n c
  if (x.job.isSome || x.radio) && !(x.busy && x.slot == slot) then
    let rest := x.go.filter (fun e => e.1 ≠ slot)
    let y := { x with go := if bitAt ctrl 0 then rest ++ [(slot, s.dmaDesc n c slot)] else rest }
    if x.busy then s.setDmaCh n c y else (s.setDmaCh n c y.start).setMv (16 * n + c) {}
  else s

def execDmaDescriptorGo (n : Fin 64) (c slot : Fin 16) (ctrl : BitVec 32) (s : State) : Host.Outcome State Fault Refusal :=
  .next (whenLive s (fun s => if s.hasArray n then s.dmaGo n c slot ctrl.toNat else s))

/-- R199, R380: whether a channel reaches local bytes [off, off + len) of core k: those of its partition in the open region, those that
the image gives to radio in the radio region for a channel of the radio program. -/
def State.dmaCore (s : State) (ch : DmaCh) (k off len : Nat) : Bool :=
  ((!ch.radio && (s.partCfg ch.part).sigCores.contains k) || (s.imgList (·.radioCores)).contains k) && s.localOk k ch.radio off len

/-- R199: reach of a channel within this chip; the accumulator store is only read (R186). -/
def State.dmaReach (s : State) (n : Nat) (ch : DmaCh) (write : Bool) (a len : Nat) : Bool :=
  match s.region a with
  | .store m => m == n && s.storeOk n ch.radio (a - storeBase n) len
  | .acc m => !write && m == n && s.region (a + len - 1) == .acc n
      && s.rowsOk n ch.radio ((a - accBase n) / 5120) ((a + len - 1 - accBase n) / 5120 - (a - accBase n) / 5120 + 1)
  | .sigmem k => s.dmaCore ch k (a - sigBase k) len
  | .stage | .lpddr => s.partReach ch.part ch.radio a len && !(write && (s.guardedAt a || s.guardedAt (a + len - 1)))
  | _ => false

/-- Where a row's address leads. -/
def State.dmaSide (s : State) (glob : Bool) (x : Nat) : MEnd :=
  if !glob then .loc x else if s.globalChip x = s.chipId then .loc (x % 2 ^ 48) else .far (s.globalChip x) (x % 2 ^ 48)

/-- R331, R333: whether the reach table denies a row's global address. -/
def State.dmaDenied (s : State) (ch : DmaCh) (glob write : Bool) (x len : Nat) : Bool :=
  glob && bits x 63 60 == 0 && (s.globalChip x == s.chipId || remoteRange (x % 2 ^ 48) len)
    && !(s.reachOk ch.acct 0 (if write then 27 else 26) (s.globalChip x) (x % 2 ^ 48) len)

/-- R34, R199, R331: whether one side of a row lies within the channel's reach. -/
def State.dmaMay (s : State) (n : Nat) (ch : DmaCh) (glob write : Bool) (x len : Nat) : Bool :=
  let a := x % 2 ^ 48
  if !glob then decide (x < 2 ^ 48) && s.dmaReach n ch write x len
  else bits x 63 60 == 0 && !(s.dmaDenied ch glob write x len)
    && (if s.globalChip x = s.chipId then
          s.dmaReach n ch write a len || (remoteRange a len && !(write && (s.guardedAt a || s.guardedAt (a + len - 1))))
        else remoteRange a len)

/-- R202: how many rows a descriptor moves, and source and destination of row i. -/
def DmaDesc.rows (d : DmaDesc) : Nat := d.n2 * d.n1 * d.n0
def DmaDesc.rowAt (d : DmaDesc) (i : Nat) : Nat × Nat :=
  let off (l : List Int) : Int := ((i % d.n0 : Nat) : Int) * l.getD 0 0 + ((i / d.n0 % d.n1 : Nat) : Int) * l.getD 1 0 + ((i / (d.n0 * d.n1) : Nat) : Int) * l.getD 2 0
  (ofSigned 64 ((d.src : Int) + off d.ss), ofSigned 64 ((d.dst : Int) + off d.ds))

/-- R204: a reserved bit is not 0, or LEN or a count is 0. -/
def DmaDesc.bad (d : DmaDesc) : Bool := d.rsv || d.len == 0 || d.rows == 0

/-- The row that a channel moves now. -/
def State.dmaJob (s : State) (ch : DmaCh) : MJob :=
  let d := ch.desc
  let (a, b) := d.rowAt ch.row
  { src := s.dmaSide (bitAt d.ctrl 1) a, dst := s.dmaSide (bitAt d.ctrl 2) b, len := d.len }

/-- R204: the code of an error in a row. For a destination of this chip that cannot be written in part no code is stated: a free one
(Assumption 58). -/
def MErr.dmaCode (e : MErr) (d : DmaDesc) (fv : Nat) : Nat := match e with
  | .srcBad => 3
  | .dstBad => fv % 4 + 1
  | .srcGone => if bitAt d.ctrl 1 then 4 else 2
  | .dstGone => if bitAt d.ctrl 2 then 4 else 2
  | .srcFar | .dstFar _ => 4

/-- R204: the descriptor in progress has ended: in an error, or with its last row. -/
def DmaCh.over (x : DmaCh) : Bool := x.code ≠ 0 || (!x.desc.bad && decide (x.desc.rows ≤ x.row))

/-- R481: whether a channel's row would touch a region of its own array that a spill has yet to save. -/
def State.dmaStalls (s : State) (n : Nat) (ch : DmaCh) : Bool :=
  let a := s.arrOf n
  let d := ch.desc
  let (x, y) := d.rowAt ch.row
  !a.spills.isEmpty &&
    ((s.region x == .store n && a.unsaved false (x - storeBase n) d.len) || (s.region y == .store n && a.unsaved false (y - storeBase n) d.len)
    || (s.region x == .acc n && a.unsaved true (x - accBase n) d.len))

/-- R340: whether the row's next request finds the array's remote-access engine full. -/
def State.dmaFull (s : State) (n : Nat) (j : MJob) : Bool :=
  let far (e : MEnd) : Bool := match e with
    | .far _ _ => true
    | _ => false
  (far j.src || far j.dst) && decide (512 ≤ s.engineOut n)

/-- R203: a channel has a beat ready. -/
def State.dmaReady (s : State) (n c : Nat) : Bool :=
  let ch := s.dmaCh n c
  ch.busy && !ch.stop && !ch.over && (s.mvOf (16 * n + c)).wait == .none && !(s.dmaStalls n ch) && !(s.dmaFull n (s.dmaJob ch))

/-- R202 to R204: a turn of a channel: its row is checked as it begins, moves a beat, transfer or request, and ends. -/
def State.dmaTurn (s : State) (n c : Nat) : State :=
  let k := 16 * n + c
  let ch := s.dmaCh n c
  let d := ch.desc
  let (x, y) := d.rowAt ch.row
  let v := s.mvOf k
  let g1 := bitAt d.ctrl 1
  let g2 := bitAt d.ctrl 2
  if d.bad then s.setDmaCh n c { ch with code := 1 }
  else if d.len ≤ v.wr then (s.setDmaCh n c { ch with row := ch.row + 1 }).setMv k {}
  else if v = {} && !(s.dmaMay n ch g1 false x d.len && s.dmaMay n ch g2 true y d.len) then
    (if s.dmaDenied ch g1 false x d.len || s.dmaDenied ch g2 true y d.len then s.reachDeny else s).setDmaCh n c { ch with code := 2 }
  else match v.err with
    | some e => let (s, fv) := s.freeW; s.setDmaCh n c { ch with code := e.dmaCode d fv }
    | none => s.mvTurn k (s.dmaJob ch)

/-- The first channel after one, going round a class. -/
def roundAfter (l : List Nat) (last : Nat) : Option Nat :=
  match l.find? (fun c => decide (last < c)) with
  | some c => some c
  | none => l.head?

/-- R199, R203: the channel that moves the next beat of an array's data path: of channels 12 to 15 if one of them has a beat ready, in
round robin within the class. -/
def State.dmaPick (s : State) (n : Nat) : Option Nat :=
  match roundAfter ([12, 13, 14, 15].filter (fun c => s.dmaReady n c)) (sget 0 s.ms.dmaLast (2 * n + 1)) with
  | some c => some c
  | none => roundAfter ((List.range 12).filter (fun c => s.dmaReady n c)) (sget 0 s.ms.dmaLast (2 * n))

/-- R203: the data path of an array moves beats, until channel `stop` has ended its descriptor or no channel has a beat ready. -/
def State.dmaRun (s : State) (n : Nat) (stop : Option Nat) : Nat → State
  | 0 => s
  | fuel + 1 =>
    if stop.any (fun c => (s.dmaCh n c).over) then s
    else
      match s.dmaPick n with
      | some c =>
        let s : State := { s with ms := { s.ms with dmaLast := sset 0 s.ms.dmaLast (2 * n + (if c < 12 then 0 else 1)) c } }
        (s.dmaTurn n c).dmaRun n stop fuel
      | none => s

/-- More turns than the descriptors in progress of an array take. -/
def State.dmaFuel (s : State) (n : Nat) : Nat :=
  ((List.range 16).map (fun c => let d := (s.dmaCh n c).desc; d.rows * (2 * d.len + 2) + 2)).sum

/-- R203: the data path goes on until no channel has a beat ready. -/
def State.dmaFlow (s : State) (n : Nat) : State := s.dmaRun n none (s.dmaFuel n)

/-- R204: the end of a channel's descriptor: STATUS is written and GO cleared, the message queued, an error recorded; the channel goes on
with the next slot. -/
def State.dmaFinish (s : State) (n c : Nat) : State :=
  let ch := s.dmaCh n c
  let d := ch.desc
  let off := slotOff c ch.slot
  let mq := bits d.ctrl 7 4
  let st := if ch.code = 0 then 1 else 0x8000 + ch.code
  let s := (s.ringWrite n (off + 0x1E) (leBytes 2 st)).ringWrite n off (leBytes 4 (d.ctrl - d.ctrl % 2))
  let s := if bitAt d.ctrl 3 then (s.setMq n mq (s.mqOf n mq ++ [d.seq + st * 2 ^ 32 + c * 2 ^ 48])).mqServe n mq else s
  let s := if ch.code = 0 then s
    else ((s.put (f_ARR_DMA_ERR_CODE n) ch.code).put (f_ARR_DMA_ERR_CHANNEL n) c).put (f_ARR_DMA_ERR_SEQ n) (d.seq % 2 ^ 16)
  let x : DmaCh := { ch with slot := (ch.slot + 1) % 16, go := ch.go.filter (fun e => e.1 ≠ ch.slot) }
  (s.setDmaCh n c x.start).setMv (16 * n + c) {}

/-- DMA_DESCRIPTOR_END (R202 to R204): the array's data path moves beats until the channel's descriptor has ended, and the end takes
place. A descriptor that waits, for a bank, another chip, a region that a spill saves or the channel's stop, has not ended; a message
waits for room in its queue, and the end with it. `ns` is the time base then. -/
def State.dmaEnd (s : State) (n c ns : Nat) : State :=
  if !(s.dmaCh n c).busy then s
  else
    let s := (s.atNs ns).dmaRun n (some c) (s.dmaFuel n)
    let ch := s.dmaCh n c
    if !ch.over || ch.stop || (bitAt ch.desc.ctrl 3 && decide ((s.mqOf n (bits ch.desc.ctrl 7 4)).length ≥ 128)) then s else s.dmaFinish n c

def execDmaDescriptorEnd (n : Fin 64) (c : Fin 16) (ns : Nat) (s : State) : Host.Outcome State Fault Refusal :=
  .next (whenLive s (fun s => s.dmaEnd n c ns))

/-! Bulk movers (R205 to R208). -/

def State.setBulkQ (s : State) (m q : Nat) (l : List BulkDesc) : State :=
  let s := { s with ms := { s.ms with bulkQ := sset [] s.ms.bulkQ (4 * m + q) l } }
  let f := f_MEM_BM_STATE_QUEUES m
  s.put f (setBits (s.get f) q q (if l.isEmpty then 0 else 1))

/-- R205, R483: an idle mover starts the oldest descriptor of its highest queue. How many of its requests are outstanding at an
instant is not stated: a free value up to 2,048. -/
def State.bulkStart (s : State) (m : Nat) : State :=
  if sget 0 s.ms.bulkCur m ≠ 0 then s
  else
    match [3, 2, 1, 0].find? (fun q => !(s.bulkQ m q).isEmpty) with
    | some q =>
      let s := match s.bulkQ m q with
        | d :: _ => (match d.sub with
            | .cmd _ _ => s.account ((s.slotOfTenant d.tenant).getD 0) 8 (s.now - d.ns)
            | _ => s)
        | [] => s
      let (s, v) := s.freeW
      let s := { s with ms := { s.ms with bulkCur := sset 0 s.ms.bulkCur m (q + 1) } }
      (s.put (f_MEM_BM_STATE_BUSY m) 1).put (f_MEM_BM_STATE_OUTSTANDING m) (v % 2049)
    | none => (s.put (f_MEM_BM_STATE_BUSY m) 0).put (f_MEM_BM_STATE_OUTSTANDING m) 0

/-- BULK_SUBMIT (R205, R206): the descriptor enters the queue with the submitter's tenant. -/
def State.bulkSubmit (s : State) (m q : Nat) (d : BulkDesc) (tenant : Nat) : State :=
  (s.setBulkQ m q (s.bulkQ m q ++ [{ d with tenant := tenant }])).bulkStart m

def execBulkSubmit (m : Fin 8) (q : Fin 4) (d : BulkDesc) (tenant : BitVec 16) (s : State) : Host.Outcome State Fault Refusal :=
  .next (whenLive s (fun s => s.bulkSubmit m q { d with sub := .radio } tenant.toNat))

/-- R206, R207: whether a descriptor is well formed. -/
def BulkDesc.ok (d : BulkDesc) : Bool :=
  let op := bits d.ctrl 3 0
  let fix (b : Nat) (a : Nat) := !bitAt d.ctrl b || (a % 64 == 0 && d.len % 64 == 0)
  (op == 1 || op == 2) && bits d.ctrl 31 7 == 0 && d.rsv == 0 && d.len ≠ 0 && (op == 2 || fix 4 d.src) && fix 5 d.dst
  && (op == 2 || bits d.src 63 60 == 0) && bits d.dst 63 60 == 0

/-- The span of addresses that a side of a descriptor touches. -/
def BulkDesc.span (d : BulkDesc) (fixed : Nat) : Nat := if bitAt d.ctrl fixed then 64 else d.len

/-- Where a global address of a bulk descriptor leads. -/
def State.bulkSide (s : State) (g : Nat) : MEnd :=
  let a := g % 2 ^ 48
  if s.globalChip g ≠ s.chipId then .far (s.globalChip g) a
  else match s.region a with
    | .hostA | .hostB => .host a
    | _ => .loc a

/-- What a bulk descriptor moves. -/
def State.bulkJob (s : State) (d : BulkDesc) : MJob :=
  { src := if bits d.ctrl 3 0 = 2 then .zero else s.bulkSide d.src, dst := s.bulkSide d.dst, sFix := bitAt d.ctrl 4 && bits d.ctrl 3 0 ≠ 2
    dFix := bitAt d.ctrl 5, len := d.len }

/-- R206, R331: whether the reach table allows one side. A descriptor of the serving engine is checked against slot 0, and only where it
leaves the chip (Assumption 65). -/
def State.bulkMay (s : State) (d : BulkDesc) (perm g n : Nat) : Bool :=
  if d.engine then s.globalChip g == s.chipId || s.reachOk 0 0 perm (s.globalChip g) (g % 2 ^ 48) n
  else match s.slotOfTenant d.tenant with
    | some k => s.reachOk k 0 perm (s.globalChip g) (g % 2 ^ 48) n
    | none => false

/-- R34: a side that another chip holds lies whole in a region that a remote request may reach. -/
def State.bulkFarOk (s : State) (g n : Nat) : Bool := s.globalChip g == s.chipId || remoteRange (g % 2 ^ 48) n

/-- R207: the status that a descriptor ends with before anything moves: one that is malformed, denied, or aimed at a region that another
chip does not give, is a reach violation (Assumption 58). -/
def State.bulkCheck (s : State) (d : BulkDesc) : State × Bool :=
  let zero := bits d.ctrl 3 0 == 2
  if !d.ok then (s, false)
  else if !(s.bulkMay d 27 d.dst (d.span 5)) || (!zero && !(s.bulkMay d 26 d.src (d.span 4))) then (s.reachDeny, false)
  else (s, s.bulkFarOk d.dst (d.span 5) && (zero || s.bulkFarOk d.src (d.span 4)))

/-- The mover goes on until the descriptor has ended or it waits. -/
def State.bulkRun (s : State) (m : Nat) (j : MJob) : Nat → State
  | 0 => s
  | fuel + 1 =>
    let v := s.mvOf (1024 + m)
    if v.err.isSome ∨ v.wait ≠ .none ∨ j.len ≤ v.wr then s else (s.mvTurn (1024 + m) j).bulkRun m j fuel

def State.bulkFlow (s : State) (m : Nat) (d : BulkDesc) : State := s.bulkRun m (s.bulkJob d) (2 * d.len + 2)

/-- R460: the host answers a mover's read, or does not. -/
def State.hostAnswers (s : State) (m : Nat) (d : BulkDesc) (data : Option (List Byte)) : State :=
  let v := s.mvOf (1024 + m)
  match v.wait, data with
  | .host n, some bs => s.setMv (1024 + m) (v.got true n ((List.range n).map (fun i => bs.getD (if bitAt d.ctrl 4 then i % 64 else i) 0)))
  | .host _, none => s.setMv (1024 + m) (v.fails .srcBad)
  | _, _ => s

/-- R207, R341: the status of a descriptor that ended. A destination of this chip that cannot be written is a reach violation
(Assumption 58). -/
def MErr.bulkStatus : Option MErr → Nat
  | none => 0
  | some .srcBad | some .srcGone => 2
  | some .dstBad | some .dstGone => 1
  | some .srcFar | some (.dstFar false) => 3
  | some (.dstFar true) => 4

/-- R205: the completion FIFO of a submitter. -/
def BulkDesc.fifo (d : BulkDesc) : Nat := match d.sub with
  | .radio => 2
  | .cmd _ _ => 1
  | _ => 0

/-- R207: a descriptor ends: it leaves its queue, its completion enters the submitter's FIFO, and the next one starts. A COPY or FILL
command takes its completion at once. -/
def State.bulkFinish (s : State) (m q : Nat) (d : BulkDesc) (code n : Nat) : State :=
  let s := (s.setBulkQ m q ((s.bulkQ m q).drop 1)).fifoTake (0x2000 + 4 * m + q) 5
  let s := ({ s with ms := { s.ms with bulkCur := sset 0 s.ms.bulkCur m 0 } } : State).setMv (1024 + m) {}
  let s := if (code ≠ 0 || bitAt d.ctrl 6) && d.fifo ≠ 1 then
      { s with ms := { s.ms with bulkCpl := sset [] s.ms.bulkCpl d.fifo (sget [] s.ms.bulkCpl d.fifo ++ [{ seq := d.seq, status := code, bytes := n, sub := d.sub }]) } }
    else s
  s.bulkStart m

/-- BULK_COMPLETE but for the command that submitted it: the descriptor's effect and its end; `data` is what the host answered to a
read, none if it did not. A descriptor that waits for a bank or another chip has not ended. Answers the descriptor, its status and the
bytes written. -/
def State.bulkDone (s : State) (m : Nat) (data : Option (List Byte)) : State × Option (BulkDesc × Nat × Nat) :=
  match s.bulkDesc m with
  | none => (s, none)
  | some d =>
    let q := sget 0 s.ms.bulkCur m - 1
    let fresh := s.mvOf (1024 + m) == {}
    let (s, ok) := if fresh then s.bulkCheck d else (s, true)
    if !ok then (s.bulkFinish m q d 1 0, some (d, 1, 0))
    else
      let s := ((s.bulkFlow m d).hostAnswers m d data).bulkFlow m d
      let v := s.mvOf (1024 + m)
      if v.err.isSome ∨ d.len ≤ v.wr then
        (s.bulkFinish m q d (MErr.bulkStatus v.err) v.wr, some (d, MErr.bulkStatus v.err, v.wr))
      else (s, none)

/-- R203, R207: a mover whose wait has ended goes on. -/
def State.mvResume (s : State) (k : Nat) : State :=
  if k < 1024 then s.dmaFlow (k / 16)
  else match s.bulkDesc (k - 1024) with
    | some d => s.bulkFlow (k - 1024) d
    | none => s

/-- The movers that waited for another chip in a state and no longer do go on. -/
def State.mvAnswered (old s : State) : State :=
  let far (v : Move) : Bool := match v.wait with
    | .far _ _ _ _ => true
    | _ => false
  (old.ms.mv.filter (fun e => far (old.mvOf e.1))).foldl (fun s e => if (s.mvOf e.1).wait = .none then s.mvResume e.1 else s) s

def execStageBankGrant (b : Fin 512) (s : State) : Host.Outcome State Fault Refusal :=
  .next (whenLive s (fun s =>
    match (s.bankOf b).cur.bind (·.mv) with
    | some (k, _) => (s.bankGrant b).mvResume k
    | none => s.bankGrant b))

def execStageArbTmo (b : Fin 512) (s : State) : Host.Outcome State Fault Refusal := .next (whenLive s (fun s => s.arbTmo b))

end Sys2Proof.Machine
end

