-- ==== Sys2Proof/Machine/Links.lean ====
section
/-! DEFINITION. Asivipin ports: training, retraining, flits and replay, rerouting and time beacons (R302 to R325). -/
namespace Sys2Proof.Machine
open Sys2Proof

/-- Enter a port state (R313). -/
def State.enterPort (s : State) (p st : Nat) : State := s.put (f_AVL_PORT_STATE_STATE p) st

/-- Start training: the link begins a new session. -/
def State.startTraining (s : State) (p : Nat) : State :=
  let x := s.portOf p
  let s := (s.enterPort p 1).put (f_AVL_PORT_STATE_LANES p) 0
  s.setPort p { listed := x.listed, nbrChip := x.nbrChip, nbrPort := x.nbrPort, since := s.now }

/-- R313: the port goes DOWN for a reason, and gives back what it held. -/
def State.enterDown (s : State) (p why kind : Nat) : State :=
  let s := ((s.enterPort p 4).put (f_AVL_PORT_STATE_DOWN_WHY p) why).put (f_AVL_PORT_STATE_LANES p) 0
  let s := (s.status (f_AVL_PORT_STATUS_DOWN p)).status f_AVL_STATUS_PORT_DOWN
  (s.raise (srcPort p) kind 0 0).resubmit p

/-- R306: the code of TYPE; 7 stands for every reserved one. -/
def FlitType.code : FlitType → Nat
  | .data => 0 | .idle => 1 | .beacon => 2 | .pdelayReq => 3 | .pdelayResp => 4 | .capability => 5 | .safe => 6 | .reserved => 7

/-- R307: the payload of a DATA flit that this chip sends: whole packets, or the first 15 or the later units of one; unused units are 0. -/
def Flit.payload (f : Flit) : List Byte :=
  padTo 240 (f.pkts.flatMap (fun k => if k.units > 15 then k.bytes.drop 240 else k.bytes) ++ (f.head.map (fun k => k.bytes.take 240)).getD [])

/-- R305: the bytes of a flit that this chip sends. R305 does not say which polynomial its CRC-64 has: an opaque constant. -/
def Flit.bytes (f : Flit) : List Byte :=
  let b := leBytes 2 (f.fseq % 4096 + f.typ.code * 4096) ++ leBytes 2 (f.ack % 4096 + (if f.nak then 4096 else 0))
    ++ leBytes 4 (f.credVc % 8 + f.credits % 8192 * 8) ++ f.payload
  b ++ leBytes 8 (Config.crc64 b).toNat

/-- R321: the payload of a BEACON flit. -/
def Beacon.payload (b : Beacon) : List Byte :=
  let ns := b.ts / 65536
  padTo 240 (leBytes 2 (b.origin % 4096) ++ leBytes 2 b.seq ++ leBytes 1 b.depth ++ leBytes 3 0 ++ leBytes 6 (ns / 1000000000)
    ++ leBytes 4 (ns % 1000000000) ++ leBytes 2 (b.ts % 65536) ++ leBytes 4 0 ++ leBytes 8 (ofSigned 64 b.corr))

/-- R314: the payload of a CAPABILITY flit that a port sends: chip, port, count of good lanes. -/
def capability (chip port lanes : Nat) : List Byte := padTo 240 (leBytes 2 chip ++ leBytes 1 port ++ leBytes 1 lanes)

/-- R306, R309: put a DATA flit on a port; a packet of more than 15 units takes two flits and travels with the last. -/
def State.sendFlit (s : State) (p : Nat) (k : Pkt) : State :=
  let x := s.portOf p
  let n := x.txNext
  let one (seq : Nat) (head : Option Pkt) (ks : List Pkt) : Flit :=
    { typ := .data, fseq := seq, ack := (x.rxNext + 4095) % 4096, head := head, pkts := ks }
  let fl := if k.units > 15 then [one n (some k) [], one ((n + 1) % 4096) none [k]] else [one n none [k]]
  let vc := if k.cls = 2 then 3 + k.hops else k.hops
  let s := s.setPort p { x with txNext := (n + fl.length) % 4096, replay := x.replay ++ fl
                                ackAt := if x.replay.isEmpty then s.now else x.ackAt
                                credit := sset 0 x.credit vc (sget 0 x.credit vc + k.units) }
  let s := s.bump64 (r_AVL_TX_FLITS_LO p) fl.length
  { s with out := s.out ++ fl.map (fun f => .flit p f) }

/-- R308, R309: whether a port may send a packet now: it is UP, the replay buffer has room for its flits, and the packet's VC has
credits for all of it. -/
def State.maySend (s : State) (p : Nat) (k : Pkt) : Bool :=
  let x := s.portOf p
  let vc := if k.cls = 2 then 3 + k.hops else k.hops
  s.portSt p == 2 && decide (x.replay.length + (if k.units > 15 then 2 else 1) ≤ 1024) && decide (sget 0 x.credit vc + k.units ≤ 1024)

/-- R311: resend the unacknowledged DATA flits in order, ahead of any new one. -/
def State.resend (s : State) (p : Nat) : State :=
  let x := s.portOf p
  match x.replay with
  | [] => s
  | f :: _ =>
    let n := if x.resendSeq = f.fseq then min 63 (x.resends + 1) else 1
    let s := s.setPort p { x with resendSeq := f.fseq, resends := n, ackAt := s.now }
    let s := (s.bump (f_AVL_REPLAYS_COUNT p)).status (f_AVL_PORT_STATUS_RETRY p)
    { s with out := s.out ++ x.replay.map (fun f => .flit p f) }

/-- R309: an ACK of FSEQ a takes the flits up to it from the replay buffer. -/
def State.ackFlits (s : State) (p a : Nat) : State :=
  let x := s.portOf p
  let covered (f : Flit) : Bool := decide ((a + 4096 - f.fseq) % 4096 < 2048)
  let rest := x.replay.dropWhile covered
  if rest.length < x.replay.length then
    s.setPort p { x with replay := rest, lastAck := a, resends := 0, ackAt := s.now }
  else s

/-- The first bad lane among 0 to 7, or 15. -/
def firstBad (good : Nat) : Nat := ((List.range 8).find? (fun l => !bitAt good l)).getD 15

/-- R304, R314: lanes in use and the lane that the spare carries, from the good lanes. -/
def State.setLanes (s : State) (p good : Nat) : State :=
  let s := if popCount 9 good ≥ 8 then
      let b := firstBad good
      let was := s.get (f_AVL_PORT_STATE_SPARE_FOR p)
      let s := (s.put (f_AVL_PORT_STATE_LANES p) 8).put (f_AVL_PORT_STATE_SPARE_FOR p) b
      if b ≠ 15 ∧ was ≠ b then s.status (f_AVL_PORT_STATUS_LANE_SWAP p) else s
    else
      let s := (s.put (f_AVL_PORT_STATE_LANES p) 4).put (f_AVL_PORT_STATE_SPARE_FOR p) 15
      let s := (s.status (f_AVL_PORT_STATUS_DEGRADED p)).status f_AVL_STATUS_DEGRADED
      s.raise (srcPort p) 0x41 0 0
  let x := s.portOf p
  s.setPort p { x with lanesBad := 511 - good, laneWin := [] }

/-- LINK_TRAINING_COMPLETE (R313, R314): `good` marks the good physical lanes, `chip` and `port` come from the
neighbour's CAPABILITY flit. -/
def State.trainingComplete (s : State) (p good chip port : Nat) : State :=
  if s.portSt p ≠ 1 then s
  else if popCount 9 good < 4 then s.enterDown p 1 0x40
  else
    let s := (s.put (f_AVL_PORT_STATE_NBR_CHIP p) chip).put (f_AVL_PORT_STATE_NBR_PORT p) port
    let x := s.portOf p
    if x.nbrChip ≠ chip ∨ x.nbrPort ≠ port then
      let s := ((s.enterPort p 6).status (f_AVL_PORT_STATUS_MISWIRE p)).status f_AVL_STATUS_MISWIRE
      s.raise (srcPort p) 0x42 0 0
    else
      let s := (s.enterPort p 2).setLanes p good
      let x := s.portOf p
      s.setPort p { x with fresh := true, usable := false, pdDue := true, delays := [] }

def execLinkTrainingComplete (p : Fin 24) (good : BitVec 9) (chip : BitVec 12) (port : BitVec 5) (s : State) :
    Host.Outcome State Fault Refusal :=
  .next (whenLive s (fun s => s.trainingComplete p good.toNat chip.toNat port.toNat))

/-- LINK_TRAIN_TIMEOUT (R313): training ran for TRAIN_TMO_MS. -/
def State.trainTimeout (s : State) (p : Nat) : State :=
  if s.portSt p = 1 ∧ s.reached (s.portOf p).since (s.get (f_AVL_PORT_CFG_TRAIN_TMO_MS p) * 1000000) = true then s.enterDown p 1 0x40 else s

def execLinkTrainTimeout (p : Fin 24) (s : State) : Host.Outcome State Fault Refusal :=
  .next (whenLive s (fun s => s.mvAnswered (s.trainTimeout p)))

/-- R313: whether an UP port must retrain: a loss of signal or alignment, RETRY_LIMIT resends of one FSEQ, or a lane's
symbol errors above LANE_THR in the window. -/
def State.mustRetrain (s : State) (p : Nat) (loss : Bool) : Bool :=
  let x := s.portOf p
  s.portSt p == 2 && (loss || decide (x.resends ≥ s.get (f_AVL_PORT_CFG_RETRY_LIMIT p))
    || x.laneWin.any (fun e => decide (e.2 > s.get (f_AVL_PORT_CFG2_LANE_THR p))))

/-- LINK_RETRAIN (R313, R347). -/
def State.linkRetrain (s : State) (p : Nat) (loss : Bool) : State :=
  if s.mustRetrain p loss then
    let x := s.portOf p
    let ordered := (x.unacked ++ s.queuedPkts p).any (fun k => k.cls == 0)
    let s := ((s.enterPort p 3).status (f_AVL_PORT_STATUS_RETRAIN p)).bump (f_AVL_RETRAINS_COUNT p)
    let s := s.setPort p { x with since := s.now, usable := false }
    if ordered then s.recover else s
  else s

def execLinkRetrain (p : Fin 24) (loss : Bool) (s : State) : Host.Outcome State Fault Refusal :=
  .next (whenLive s (fun s => s.linkRetrain p loss))

/-- RETRAIN_COMPLETE (R304, R313): the port returns to UP, usable at once, and resends from the last ACK. -/
def State.retrainComplete (s : State) (p good : Nat) : State :=
  if s.portSt p = 3 ∧ popCount 9 good ≥ 4 then
    let s := (s.enterPort p 2).setLanes p good
    let x := s.portOf p
    let s := s.setPort p { x with usable := true, resends := 0, pdDue := true, delays := [] }
    (s.resend p).releaseHeld
  else s

def execRetrainComplete (p : Fin 24) (good : BitVec 9) (s : State) : Host.Outcome State Fault Refusal :=
  .next (whenLive s (fun s => s.mvAnswered (s.retrainComplete p good.toNat)))

/-- RETRAIN_TIMEOUT (R313, R319): retraining ran for RETRAIN_TMO_US. -/
def State.retrainTimeout (s : State) (p : Nat) : State :=
  if s.portSt p = 3 ∧ s.reached (s.portOf p).since (s.get (f_AVL_PORT_CFG2_RETRAIN_TMO_US p) * 1000) = true then s.enterDown p 2 0x40 else s

def execRetrainTimeout (p : Fin 24) (s : State) : Host.Outcome State Fault Refusal :=
  .next (whenLive s (fun s => s.mvAnswered (s.retrainTimeout p)))

/-- R313: a SAFE flit on an UP port. -/
def State.safeFlit (s : State) (p : Nat) : State :=
  if s.portSt p = 2 then
    let s := (s.status (f_AVL_PORT_STATUS_PEER_SAFE p)).status f_AVL_STATUS_PEER_SAFE
    s.enterDown p 3 0x43
  else s

/-- SAFE_FLIT_RECEIVED (R313). -/
def execSafeFlitReceived (p : Fin 24) (s : State) : Host.Outcome State Fault Refusal :=
  .next (whenLive s (fun s => s.mvAnswered (s.safeFlit p)))

/-- PORT_RETRAIN_CMD (R313, R329): RETRAIN written 1. -/
def execPortRetrainCmd (p : Fin 24) (s : State) : Host.Outcome State Fault Refusal :=
  .next (whenLive s (fun s => if s.portSt p = 4 ∨ s.portSt p = 6 then s.startTraining p else s))

/-- UNQUARANTINE (R313, R329): UNQUARANTINE written 1. -/
def execUnquarantine (p : Fin 24) (s : State) : Host.Outcome State Fault Refusal :=
  .next (whenLive s (fun s => if s.portSt p = 5 then s.startTraining p else s))

/-- R313, R329: DISABLE is written; 1 disables the port, which gives back what it held; 0 lets a DISABLED port that ROUTES lists train
(DEDUCED 65). -/
def State.portDisable (s : State) (p : Nat) (v : Bool) : State :=
  let s := s.putB (f_AVL_PORT_CTL_DISABLE p) v
  if v && s.portSt p ≠ 7 then ((s.enterPort p 0).put (f_AVL_PORT_STATE_LANES p) 0).resubmit p
  else if !v && s.portSt p = 0 && s.valid && (s.portOf p).listed then s.startTraining p
  else s

/-- PORT_DISABLE (R313, R329). -/
def execPortDisable (p : Fin 24) (v : Bool) (s : State) : Host.Outcome State Fault Refusal :=
  .next (whenLive s (fun s => s.mvAnswered (s.portDisable p v)))

/-- R313: the fault collector quarantines a port. -/
def State.quarantine (s : State) (p : Nat) : State :=
  if s.portSt p = 0 ∨ s.portSt p = 7 then s
  else ((s.enterPort p 5).status (f_AVL_PORT_STATUS_QUARANTINE p)).resubmit p

/-- R336: whether OP, and the AOP of an ATOMIC or the SOP of a SYNC, has a value that the table gives (DEDUCED 65). -/
def Pkt.opKnown (k : Pkt) : Bool :=
  [1, 2, 5, 8, 9, 10, 11, 16].contains k.op || (k.op == 3 && decide (k.aop ≤ 5)) || (k.op == 4 && decide (k.aop ≤ 4))

/-- R316, R319: a packet received in transit or for this chip. A packet of a dead chip is dropped (R512), and so is one for this chip with
a reserved operation (R336). -/
def State.receivePkt (s : State) (k : Pkt) : State :=
  if s.peerDead k.src then s.bump f_FLT_PEER_DROP_COUNT
  else if k.dst = s.chipId then (if k.opKnown then s.route k else s)
  else if !s.valid then s
  else if k.hops ≥ 2 then
    let s := ((s.status f_AVL_STATUS_HOP_LIMIT).raise srcRoute 0x44 0 0).noRouteReport
    if k.cls = 2 then s else s.respond k 5 0 false (List.replicate k.count 0)
  else s.route { k with hops := k.hops + 1 }

/-- R310: NAK once for a gap or a CRC failure. -/
def State.sendNak (s : State) (p : Nat) : State :=
  let x := s.portOf p
  if x.nakSent then s
  else (s.setPort p { x with nakSent := true }).emit (.flit p { typ := .idle, ack := (x.rxNext + 4095) % 4096, nak := true })

/-- R308, R311: the ACK, NAK and CREDIT fields of a DATA or IDLE flit. -/
def State.flitControl (s : State) (p : Nat) (f : Flit) : State :=
  let s := s.ackFlits p f.ack
  let x := s.portOf p
  let s := s.setPort p { x with credit := sset 0 x.credit f.credVc (sget 0 x.credit f.credVc - f.credits) }
  if f.nak then s.resend p else s

/-- R305, R306, R308: the IDLE flits that follow an accepted DATA flit: each acknowledges it, and gives one packet's units back to its
VC. DEDUCED 65. -/
def State.giveCredit (s : State) (p : Nat) (ks : List Pkt) : State :=
  let ack := ((s.portOf p).rxNext + 4095) % 4096
  let l : List Flit := if ks.isEmpty then [{ typ := .idle, ack := ack }]
    else ks.map (fun k => { typ := .idle, ack := ack, credVc := if k.cls = 2 then 3 + k.hops else k.hops, credits := k.units })
  { s with out := s.out ++ l.map (fun f => .flit p f) }

/-- R310: a DATA flit. -/
def State.dataFlit (s : State) (p : Nat) (f : Flit) : State :=
  let x := s.portOf p
  if f.fseq = x.rxNext then
    let s := s.setPort p { x with rxNext := (f.fseq + 1) % 4096, nakSent := false }
    let s := s.bump64 (r_AVL_RX_FLITS_LO p) 1
    f.pkts.foldl (fun s k => s.receivePkt k) (s.giveCredit p f.pkts)
  else if 1 ≤ (x.rxNext + 4096 - f.fseq) % 4096 ∧ (x.rxNext + 4096 - f.fseq) % 4096 ≤ 2048 then s
  else s.sendNak p

/-- R303, R314: what the physical layer counted with a flit: codewords corrected and not correctable, and symbol errors
per physical lane. -/
def State.phyCounts (s : State) (p corr uncorr : Nat) (lanes : List Nat) : State :=
  let s := (s.bumpBy (f_AVL_FEC_CORR_COUNT p) corr).bumpBy (f_AVL_FEC_UNCORR_COUNT p) uncorr
  (lanes.take 9).zipIdx.foldl (fun s (n, l) =>
    let s := s.bumpBy ⟨r_AVL_LANE_ERR_0 p + 4 * l, 31, 0⟩ n
    let x := s.portOf p
    s.setPort p { x with laneWin := sset 0 x.laneWin l (sget 0 x.laneWin l + n) }) s

/-- R310, R313: a flit arrives. Only an UP port accepts one. -/
def State.flitReceive (s : State) (p : Nat) (f : Flit) (corr uncorr : Nat) (lanes : List Nat) : State :=
  if s.portSt p ≠ 2 then s
  else
    let s := s.phyCounts p corr uncorr lanes
    if !f.crcOk || f.typ == .reserved then (s.bump (f_AVL_CRC_ERR_COUNT p)).sendNak p
    else
      match f.typ with
      | .data => (s.flitControl p f).dataFlit p f
      | .idle => s.flitControl p f
      | .safe => s.safeFlit p
      | _ => s

/-- FLIT_RECEIVE (R303, R306, R308 to R312, R315, R316). A beacon or delay message is handled by its own row. -/
def execFlitReceive (p : Fin 24) (f : Flit) (corr uncorr : Nat) (lanes : List Nat) (s : State) : Host.Outcome State Fault Refusal :=
  .next (whenLive s (fun s => s.mvAnswered (s.flitReceive p f corr uncorr lanes)))

/-- NAK_RECEIVED (R311): the flits up to the ACK are done with, the others are resent. -/
def execNakReceived (p : Fin 24) (ack : BitVec 12) (s : State) : Host.Outcome State Fault Refusal :=
  .next (whenLive s (fun s => if s.portSt p = 2 then (s.ackFlits p ack.toNat).resend p else s))

/-- ACK_TIMEOUT (R311): no ACK advanced for ACK_TMO_US while flits are unacknowledged. -/
def State.ackTimeout (s : State) (p : Nat) : State :=
  if s.portSt p = 2 ∧ s.reached (s.portOf p).ackAt (s.get (f_AVL_PORT_CFG_ACK_TMO_US p) * 1000) = true then s.resend p else s

def execAckTimeout (p : Fin 24) (s : State) : Host.Outcome State Fault Refusal :=
  .next (whenLive s (fun s => s.ackTimeout p))

/-- ORDERED_REROUTE (R318): held ordered requests for a destination go on once the old path has drained. -/
def State.orderedReroute (s : State) (dst : Nat) : State :=
  let (mine, rest) := s.net.held.partition (fun k => k.dst == dst)
  let s := { s with net := { s.net with held := rest } }
  (mine.foldl (fun s k => s.routeAgain k) s).settleDone

def execOrderedReroute (dst : BitVec 12) (s : State) : Host.Outcome State Fault Refusal :=
  .next (whenLive s (fun s => s.mvAnswered (s.orderedReroute dst.toNat)))

/-! Time beacons (R321 to R325). -/

/-- Ports that beacons leave by: UP and marked in `AVL_BCN_FWD`. -/
def State.bcnPorts (s : State) : List Nat :=
  (bitList 24 (s.get f_AVL_BCN_FWD_PORTS)).filter (fun p => s.portSt p == 2)

/-- Send a beacon on every marked UP port; the port's PHY adds `res p` to CORRECTION as it leaves. -/
def State.beaconOut (s : State) (b : Beacon) (res : Nat → Nat) : State :=
  { s with out := s.out ++ s.bcnPorts.map (fun p => .beacon p { b with corr := b.corr + res p }) }

/-- BEACON_SEND (R322): a LOCKED root sends a beacon stamped `ts`, in units of 2^−16 ns, PER_EXP of them in an exposure, evenly spaced
from the shutter. -/
def State.beaconSend (s : State) (ts : Nat) : State :=
  let sent := if s.net.bcnAt = s.tim.expo then s.net.bcnSent else 0
  if s.flag f_AVL_BCN_CFG_ROOT && s.get f_CLK_TIME_STATE_STATE == 2 && decide (sent ≤ s.get f_AVL_BCN_CFG_PER_EXP_M1) then
    let s' := (s.atNs (s.tim.tb + sent * s.periodNs / (s.get f_AVL_BCN_CFG_PER_EXP_M1 + 1))).beaconOut { origin := s.chipId, seq := s.net.bcnSeq, ts := ts } (fun _ => 0)
    { s' with net := { s'.net with bcnSeq := (s.net.bcnSeq + 1) % 65536, bcnAt := s.tim.expo, bcnSent := sent + 1 } }
  else s

def execBeaconSend (ts : Nat) (s : State) : Host.Outcome State Fault Refusal :=
  .next (whenLive s (fun s => s.beaconSend ts))

/-- The active parent port (R325). -/
def State.parentPort (s : State) : Option Nat :=
  if s.flag f_AVL_BCN_CFG_ON_BACKUP then (if s.flag f_AVL_BCN_CFG_BACKUP_VALID then some (s.get f_AVL_BCN_CFG_BACKUP) else none)
  else if s.flag f_AVL_BCN_CFG_PRIMARY_VALID then some (s.get f_AVL_BCN_CFG_PRIMARY) else none

/-- R324: the mean of a port's last measurements, in 2^−16 ns. -/
def Port.delay (x : Port) : Option Nat := if x.delays.isEmpty then none else some (x.delays.foldl (· + ·) 0 / x.delays.length)

/-- R322, R323: an accepted beacon gives the offset of its ingress stamp from its true arrival time, and is resent with
DEPTH + 1 and the link delay and residence added. -/
def State.beaconReceive (s : State) (p : Nat) (b : Beacon) (ingress : Nat) (residence : List Nat) : State :=
  if s.portSt p ≠ 2 then s
  else
    let x := s.portOf p
    match x.delay with
    | none => s
    | some d =>
      let since := match x.bcnExpo with
        | some e => if s.tim.expo ≤ e + 1 then x.bcnSince else s.tim.expo
        | none => s.tim.expo
      let s := s.setPort p { x with bcnExpo := some s.tim.expo, bcnSince := since }
      let s := if s.flag f_AVL_BCN_CFG_ON_BACKUP ∧ s.flag f_AVL_BCN_CFG_PRIMARY_VALID ∧ p = s.get f_AVL_BCN_CFG_PRIMARY
          ∧ s.tim.expo - since ≥ s.get f_AVL_BCN_CFG_LOSS_EXP then s.putB f_AVL_BCN_CFG_ON_BACKUP false else s
      if s.parentPort = some p then
        let true' : Int := (b.ts : Int) + b.corr + d
        let s := { s with tim := { s.tim with srcOff := (ingress : Int) - true' } }
        s.beaconOut { b with depth := (b.depth + 1) % 256, corr := b.corr + d } (fun q => residence.getD q 0)
      else s

/-- BEACON_RECEIVE (R323): `ingress` is the stamp of the beacon and entry q of `residence` its time in this chip as it leaves by port q, in
2^−16 ns. -/
def execBeaconReceive (p : Fin 24) (b : Beacon) (ingress : Nat) (residence : List Nat) (s : State) : Host.Outcome State Fault Refusal :=
  .next (whenLive s (fun s => s.beaconReceive p b ingress residence))

/-- Whether a port has delivered a beacon within LOSS_EXP exposures. -/
def State.bcnFresh (s : State) (p : Nat) : Bool :=
  match (s.portOf p).bcnExpo with
  | some e => decide (s.tim.expo - e < s.get f_AVL_BCN_CFG_LOSS_EXP)
  | none => false

/-- R45: the time source is lost. -/
def State.sourceLost (s : State) : State :=
  let st := s.get f_CLK_TIME_STATE_STATE
  let s := { s with tim := { s.tim with srcValid := false, stepPend := false, refused := false } }
  if st = 1 ∨ st = 2 then
    let s := (s.put f_CLK_TIME_STATE_STATE 3).status f_CLK_SHT_STATUS_HOLDOVER
    { s with tim := { s.tim with holdStart := s.now, holdDone := false, lockRun := 0 } }
  else s

/-- BEACON_LOSS (R325): no beacon from the active parent for LOSS_EXP exposures: the backup takes over when it delivers,
else the source is lost. -/
def State.beaconLoss (s : State) : State :=
  match s.parentPort with
  | none => s
  | some p =>
    if s.bcnFresh p || !s.tim.srcValid then s
    else if !(s.flag f_AVL_BCN_CFG_ON_BACKUP) && s.flag f_AVL_BCN_CFG_BACKUP_VALID && s.bcnFresh (s.get f_AVL_BCN_CFG_BACKUP) then
      s.putB f_AVL_BCN_CFG_ON_BACKUP true
    else ((s.status f_AVL_STATUS_BEACON_LOSS).raise srcTime 0x51 0 0).sourceLost

def execBeaconLoss (s : State) : Host.Outcome State Fault Refusal :=
  .next (whenLive s (fun s => s.beaconLoss))

/-- PDELAY_MEASURE (R324): an UP port sends PDELAY_REQ, stamped t1, on entering UP and every 8,192 exposures. -/
def State.pdelayMeasure (s : State) (p t1 : Nat) : State :=
  let x := s.portOf p
  if s.portSt p = 2 ∧ (x.pdDue = true ∨ s.tim.expo - x.lastPd ≥ 8192) then
    (s.setPort p { x with t1 := some t1, lastPd := s.tim.expo, pdDue := false }).emit (.pdelay p none)
  else s

def execPdelayMeasure (p : Fin 24) (t1 : Nat) (s : State) : Host.Outcome State Fault Refusal :=
  .next (whenLive s (fun s => s.pdelayMeasure p t1))

/-- PDELAY_REQ_RECEIVE (R324): the request is stamped t2 and answered at t3. -/
def execPdelayReqReceive (p : Fin 24) (t2 t3 : Nat) (s : State) : Host.Outcome State Fault Refusal :=
  .next (whenLive s (fun s => if s.portSt p = 2 then s.emit (.pdelay p (some (t2, t3))) else s))

/-- PDELAY_RESP_RECEIVE (R324): ((t4 − t1) − (t3 − t2)) / 2 joins the last 16 measurements, whose mean is reported in
units of 1/16 ns. -/
def State.pdelayResp (s : State) (p t2 t3 t4 : Nat) : State :=
  let x := s.portOf p
  match x.t1 with
  | none => s
  | some t1 =>
    let d : Int := (((t4 : Int) - t1) - ((t3 : Int) - t2)) / 2
    let l := x.delays ++ [d.toNat]
    let x' := { x with t1 := none, delays := l.drop (l.length - 16) }
    (s.setPort p x').put (f_AVL_PORT_DELAY_DELAY p) (x'.delay.getD 0 / 4096 % 2 ^ 24)

def execPdelayRespReceive (p : Fin 24) (t2 t3 t4 : Nat) (s : State) : Host.Outcome State Fault Refusal :=
  .next (whenLive s (fun s => if s.portSt p = 2 then s.pdelayResp p t2 t3 t4 else s))

end Sys2Proof.Machine
end

