-- ==== Sys2Proof/Machine/TeCompute.lean ====
section
/-! DEFINITION. Thread-engine instructions that compute in registers: control flow, scalar, vector, conversion,
reduction and random (R153, R155 to R158, R167, R168). -/
namespace Sys2Proof.Machine
open Sys2Proof

/-! Control (R151, R155, R161). -/

/-- PC + IMM × 4, from the branch's own address. -/
def branchTarget (pc : Nat) (imm : Int) : Nat := ofSigned 48 ((pc : Int) + imm * 4)

/-- TE_CONTROL_FLOW: nop, br.eq, br.ne, br.lt, br.ge, jmp, call, ret (Assumption 23 on the order compared and on the
link register of call and ret). -/
def State.doControl (s : State) (n t : Nat) (i : TeWord) : State :=
  s.onThr n t (fun x =>
    let a := x.sr i.a
    let b := x.sr i.b
    let here := ofSigned 48 ((x.pc : Int) - i.len)
    let go := { x with pc := branchTarget here i.imm }
    match i.func with
    | 1 => if a = b then go else x
    | 2 => if a ≠ b then go else x
    | 3 => if toSigned 64 a < toSigned 64 b then go else x
    | 4 => if toSigned 64 a ≥ toSigned 64 b then go else x
    | 5 => go
    | 6 => go.setS i.d x.pc
    | 7 => { x with pc := a / 4 * 4 % 2 ^ 48 }
    | _ => x)

def execTeControlFlow (n t : Fin 64) (w : BitVec 64) (s : State) : Host.Outcome State Fault Refusal :=
  .next (whenLive s (fun s => s.teRow n t w (fun i => i.op == 0 && decide (i.func ≤ 7)) noFault (fun s i => s.doControl n t i)))

/-- TE_FENCE (R161, R346): the thread goes on at once when everything in the fence's reach has completed, and waits
otherwise. -/
def State.doFence (s : State) (n t : Nat) (i : TeWord) : State :=
  let reach := (i.imm % 4).toNat
  s.onThr n t (fun x => if x.fenceMet reach then x else { x with st := .wait, why := .fence, wB := reach })

def execTeFence (n t : Fin 64) (w : BitVec 64) (s : State) : Host.Outcome State Fault Refusal :=
  .next (whenLive s (fun s => s.teRow n t w (fun i => i.op == 0 && i.func == 9) noFault (fun s i => s.doFence n t i)))

/-- R153: the value of a control register. -/
def State.csrValue (s : State) (n t cyc : Nat) (x : Thr) (k : Nat) : Nat :=
  match k with
  | 0 => t + n * 2 ^ 6 + s.get f_ID_CHIP_CHIP_ID * 2 ^ 12
  | 1 => x.fpflags
  | 2 => x.tstat
  | 3 => s.tim.tick
  | 4 => cyc
  | _ => x.job + x.prio * 2 ^ 32 + x.tenant * 2 ^ 35 + x.part * 2 ^ 51 + (if x.radio then 2 ^ 55 else 0)

/-- TE_CSRR (R153): D takes the control register that IMM names (Assumption 24); `cyc` is the cycle since the shutter
at which the instruction issues. -/
def execTeCsrr (n t : Fin 64) (w : BitVec 64) (cyc : BitVec 64) (s : State) : Host.Outcome State Fault Refusal :=
  .next (whenLive s (fun s => s.teRow n t w (fun i => i.op == 0 && i.func == 10) noFault (fun s i =>
    s.onThr n t (fun x => x.setS i.d (s.csrValue n t cyc.toNat x i.imm.toNat)))))

/-- TE_CSRW (R153): FPFLAGS or TSTAT takes the value of scalar A; a read-only register keeps its value. -/
def execTeCsrw (n t : Fin 64) (w : BitVec 64) (s : State) : Host.Outcome State Fault Refusal :=
  .next (whenLive s (fun s => s.teRow n t w (fun i => i.op == 0 && i.func == 11) noFault (fun s i =>
    s.onThr n t (fun x =>
      let v := x.sr i.a
      if i.imm = 1 then { x with fpflags := v % 32 } else if i.imm = 2 then { x with tstat := v % 8 } else x))))

/-! Scalar class (R156). -/

/-- A scalar result; none where the spec states none: a shift by 64 or more (Assumption 25). -/
def scalarResult (k a b : Nat) (imm : Int) : Option Nat :=
  let m := 2 ^ 64
  let sa := toSigned 64 a
  let sb := toSigned 64 b
  match k with
  | 0 => some ((a + b) % m)
  | 1 => some ((a + m - b) % m)
  | 2 => some (a * b % m)
  | 3 => some (a &&& b)
  | 4 => some (a ||| b)
  | 5 => some (a ^^^ b)
  | 6 => if b < 64 then some (a * 2 ^ b % m) else none
  | 7 => if b < 64 then some (a / 2 ^ b) else none
  | 8 => if b < 64 then some (ofSigned 64 (sa / (2 ^ b : Nat))) else none
  | 9 => some (if sa < sb then 1 else 0)
  | 10 => some (if a < b then 1 else 0)
  | 11 => some (if sa ≤ sb then a else b)
  | 12 => some (if sa ≥ sb then a else b)
  | _ => some (ofSigned 64 imm)

def State.doScalar (s : State) (n t : Nat) (i : TeWord) : State :=
  let x := s.thr n t
  match scalarResult i.func (x.sr i.a) (x.sr i.b) i.imm with
  | some v => s.setThr n t (x.setS i.d v)
  | none => let (s, v) := s.freeW; s.setThr n t (x.setS i.d v)

/-- TE_SCALAR_OP (R152, R156). -/
def execTeScalarOp (n t : Fin 64) (w : BitVec 64) (s : State) : Host.Outcome State Fault Refusal :=
  .next (whenLive s (fun s => s.teRow n t w (fun i => i.op == 1) noFault (fun s i => s.doScalar n t i)))

/-! Vector floating point (R135 to R137, R156). -/

/-- The conversion code of a vector floating-point type. -/
def vfpCode : Nat → Nat
  | 0 => 1 | 1 => 2 | 2 => 3 | _ => 0

/-- A lane of a floating-point vector: a pair at FP64, bits [15:0] at BF16 and FP16. -/
def Thr.fpLane (x : Thr) (code r l : Nat) : Nat :=
  if code = 0 then x.pair r l else x.lane r l % 2 ^ codeWidth code

def Thr.setFpLane (x : Thr) (code r l v : Nat) : Thr :=
  if code = 0 then x.setPair r l v else x.setLane r l v

/-- Result and flags of an operation that writes a vector. -/
def vfpResult (f : Fmt) (k : Nat) (a b c : Nat) : Nat × Nat :=
  let x := f.decode a
  let y := f.decode b
  match k with
  | 0 => f.fadd x y
  | 1 => f.fadd x y.negate
  | 2 => f.fmul x y
  | 3 => f.ffma x y (f.decode c)
  | 4 => f.fminmax true x y
  | 5 => f.fminmax false x y
  | 6 => f.fdiv x y
  | 7 => f.fsqrt x
  | 8 => f.frsqrt x
  | 9 => f.fexp2 x
  | 10 => f.flog2 x
  | 11 => if x.isNan then (f.qnan, 0) else (a % 2 ^ (f.eb + f.mb), 0)
  | _ => if x.isNan then (f.qnan, 0) else ((a + 2 ^ (f.eb + f.mb)) % 2 ^ (f.eb + f.mb + 1), 0)

/-- Write bit l of predicate register r. -/
def Thr.setPbit (x : Thr) (r l : Nat) (b : Bool) : Thr := x.setP r (setBits (x.pr r) l l (if b then 1 else 0))

def State.doVfp (s : State) (n t : Nat) (i : TeWord) : State :=
  s.onThr n t (fun x =>
    let code := vfpCode (i.func / 32)
    let f := fmtOf code
    let k := i.func % 32
    (x.lanes i.pr).foldl (fun y l =>
      let a := x.fpLane code i.a l
      let b := x.fpLane code i.b l
      if k ≥ 13 then
        let (r, fl) := fcompare (k - 13) (f.decode a) (f.decode b)
        (y.setPbit i.d l r).orFlags fl
      else
        let (r, fl) := vfpResult f k a b (x.fpLane code i.c l)
        (y.setFpLane code i.d l r).orFlags fl) x)

/-- TE_VECTOR_FP_OP (R135 to R137, R156). -/
def execTeVectorFpOp (n t : Fin 64) (w : BitVec 64) (s : State) : Host.Outcome State Fault Refusal :=
  .next (whenLive s (fun s => s.teRow n t w (fun i => i.op == 2) noFault (fun s i => s.doVfp n t i)))

/-! Vector integer (R156). -/

/-- An INT32 lane result; none where the spec states none: a shift by 32 or more (Assumption 25). -/
def vintResult (k a b c : Nat) : Option Nat :=
  let m := 2 ^ 32
  let sa := toSigned 32 a
  let sb := toSigned 32 b
  match k with
  | 0 => some ((a + b) % m)
  | 1 => some ((a + m - b) % m)
  | 2 => some (a * b % m)
  | 3 => some ((a * b + c) % m)
  | 4 => some (a &&& b)
  | 5 => some (a ||| b)
  | 6 => some (a ^^^ b)
  | 7 => if b < 32 then some (a * 2 ^ b % m) else none
  | 8 => if b < 32 then some (a / 2 ^ b) else none
  | 9 => if b < 32 then some (ofSigned 32 (sa / (2 ^ b : Nat))) else none
  | 10 => some (if sa ≤ sb then a else b)
  | _ => some (if sa ≥ sb then a else b)

/-- One lane of a vector integer instruction: reads from x, the thread before it. -/
def State.vintLane (s : State) (n t : Nat) (x : Thr) (i : TeWord) (l : Nat) : State :=
  let a := x.lane i.a l
  let b := x.lane i.b l
  let put (v : Nat) := s.onThr n t (fun y => y.setLane i.d l v)
  match i.func with
  | 12 => s.onThr n t (fun y => y.setPbit i.d l (decide (toSigned 32 a < toSigned 32 b)))
  | 13 => s.onThr n t (fun y => y.setPbit i.d l (a == b))
  | 14 => put (if bitAt (x.pr i.c) l then a else b)
  | 15 => put (x.sr i.a)
  | 16 => put l
  | k =>
    match vintResult k a b (x.lane i.c l) with
    | some v => put v
    | none => let (s, v) := s.freeW; s.onThr n t (fun y => y.setLane i.d l v)

def State.doVint (s : State) (n t : Nat) (i : TeWord) : State :=
  let x := s.thr n t
  (x.lanes i.pr).foldl (fun s l => s.vintLane n t x i l) s

/-- TE_VECTOR_INT_OP (R156; Assumption 26 on select, minimum and maximum). -/
def execTeVectorIntOp (n t : Fin 64) (w : BitVec 64) (s : State) : Host.Outcome State Fault Refusal :=
  .next (whenLive s (fun s => s.teRow n t w (fun i => i.op == 3) noFault (fun s i => s.doVint n t i)))

/-! Conversion (R127, R619). -/

/-- A lane as a datum of a conversion code. -/
def Thr.cvtLane (x : Thr) (code r l : Nat) : Nat := if code = 0 then x.pair r l else x.lane r l % 2 ^ codeWidth code

def State.doConvert (s : State) (n t : Nat) (i : TeWord) : State :=
  s.onThr n t (fun x =>
    let dst := i.func % 16
    let src := i.func / 16
    (x.lanes i.pr).foldl (fun y l =>
      let (r, fl) := convertTo dst (decodeCode src (x.cvtLane src i.a l)) false
      (y.setFpLane dst i.d l r).orFlags fl) x)

/-- TE_CONVERT (R127, R156, R619). -/
def execTeConvert (n t : Fin 64) (w : BitVec 64) (s : State) : Host.Outcome State Fault Refusal :=
  .next (whenLive s (fun s => s.teRow n t w (fun i => i.op == 4) noFault (fun s i => s.doConvert n t i)))

/-! Reductions (R158). -/

/-- Combine adjacent results of a tree level; a lane that its predicate leaves out contributes nothing. -/
def treeLevel (f : Nat → Nat → Nat × Nat) : List (Option Nat) → List (Option Nat) × Nat
  | a :: b :: rest =>
    let (r, fl) := treeLevel f rest
    match a, b with
    | some x, some y => let (v, g) := f x y; (some v :: r, fl ||| g)
    | some x, none => (some x :: r, fl)
    | none, y => (y :: r, fl)
  | l => (l, 0)

/-- The fixed tree of R158 over k levels. -/
def treeReduce (f : Nat → Nat → Nat × Nat) : Nat → List (Option Nat) → Option Nat × Nat
  | 0, l => ((l.head?).join, 0)
  | k + 1, l =>
    let (l', fl) := treeLevel f l
    let (v, g) := treeReduce f k l'
    (v, fl ||| g)

/-- R158: the combination of a reduction at FP32. -/
def redFn (k : Nat) (a b : Nat) : Nat × Nat :=
  let f := fmtOf 1
  if k = 0 then f.fadd (f.decode a) (f.decode b) else f.fminmax (k == 2) (f.decode a) (f.decode b)

/-- R158: a scan adds the enabled lanes one at a time in lane order. -/
def State.doScan (s : State) (n t : Nat) (i : TeWord) : State :=
  s.onThr n t (fun x =>
    let r := (x.lanes i.pr).foldl (fun (r : Thr × Option Nat) l =>
      let v := x.lane i.a l
      match r.2 with
      | none => (r.1.setLane i.d l v, some v)
      | some c => let (v', fl) := redFn 0 c v; ((r.1.setLane i.d l v').orFlags fl, some v')) (x, none)
    r.1)

def State.doReduce (s : State) (n t : Nat) (i : TeWord) : State :=
  if i.func = 3 then s.doScan n t i
  else
    let x := s.thr n t
    let l := (List.range 32).map (fun l => if bitAt (x.pr i.pr) l then some (x.lane i.a l) else none)
    match treeReduce (redFn i.func) 5 l with
    | (some v, fl) => s.setThr n t ((x.setS i.d v).orFlags fl)
    | (none, _) => let (s, v) := s.freeW; s.setThr n t (x.setS i.d v)

/-- TE_REDUCTION (R158): redsum, redmax and redmin of the FP32 lanes of vector A to scalar D, scan to vector D
(Assumption 27). -/
def execTeReduction (n t : Fin 64) (w : BitVec 64) (s : State) : Host.Outcome State Fault Refusal :=
  .next (whenLive s (fun s => s.teRow n t w (fun i => i.op == 5 && decide (i.func ≤ 3)) noFault (fun s i => s.doReduce n t i)))

/-! Random (R167, R168). -/

def rotl32 (x k : Nat) : Nat := (x * 2 ^ k + x / 2 ^ (32 - k)) % 2 ^ 32

/-- The state of a call: x0 to x3, k0, k1. -/
structure RngSt where
  x0 : Nat
  x1 : Nat
  x2 : Nat
  x3 : Nat
  k0 : Nat
  k1 : Nat
  deriving DecidableEq, Repr

/-- One of the twelve rounds of R167. -/
def rngRound (r : RngSt) : RngSt :=
  let m := 2 ^ 32
  let x0 := (r.x0 + (r.x1 ^^^ r.k0)) % m
  let x3 := rotl32 (r.x3 ^^^ x0) 16
  let x2 := (r.x2 + (x3 ^^^ r.k1)) % m
  let x1 := rotl32 (r.x1 ^^^ x2) 12
  let x0 := (x0 + x1) % m
  let x3 := rotl32 (x3 ^^^ x0) 8
  let x2 := (x2 + x3) % m
  let x1 := rotl32 (x1 ^^^ x2) 7
  ⟨x0, x1, x2, x3, (r.k0 + 0x9e3779b9) % m, (r.k1 + 0x7f4a7c15) % m⟩

def rngRounds : Nat → RngSt → RngSt
  | 0, r => r
  | k + 1, r => rngRounds k (rngRound r)

/-- R167: the four words of a call. -/
def rngCall (seed ctx pos draw : Nat) : List Nat :=
  let m := 2 ^ 32
  let r := rngRounds 12 ⟨pos % m, draw % m, ctx % 2 ^ 18, 0x47524e31, seed % m, seed / m % m⟩
  [r.x0 ^^^ r.k0, r.x1 ^^^ r.k1, (r.x2 + r.k0) % m, (r.x3 + r.k1) % m]

/-- The call that an instruction of the class makes with draw index C + l. -/
def Thr.rng (x : Thr) (i : TeWord) (l : Nat) : List Nat :=
  let b := x.sr i.b
  rngCall (x.sr i.a) (b % 2 ^ 18) (b / 2 ^ 32) ((x.sr i.c + l) % 2 ^ 32)

/-- RNG_S (R168): out[1]:out[0] to D and out[3]:out[2] to D + 1. -/
def execRngS (n t : Fin 64) (w : BitVec 64) (s : State) : Host.Outcome State Fault Refusal :=
  .next (whenLive s (fun s => s.teRow n t w (fun i => i.op == 16 && i.func == 0) noFault (fun s i =>
    s.onThr n t (fun x =>
      let o := x.rng i 0
      (x.setS i.d (o.getD 0 0 + 2 ^ 32 * o.getD 1 0)).setS (i.d + 1) (o.getD 2 0 + 2 ^ 32 * o.getD 3 0)))))

/-- Write f(out[j]) of lane l to lane l of v(D + j) for the enabled lanes. -/
def Thr.rngLanes (x : Thr) (i : TeWord) (f : Nat → Nat) : Thr :=
  (x.lanes i.pr).foldl (fun y l =>
    let o := x.rng i l
    (List.range 4).foldl (fun y j => y.setLane (i.d + j) l (f (o.getD j 0))) y) x

/-- RNG_V (R168). -/
def execRngV (n t : Fin 64) (w : BitVec 64) (s : State) : Host.Outcome State Fault Refusal :=
  .next (whenLive s (fun s => s.teRow n t w (fun i => i.op == 16 && i.func == 1) noFault (fun s i =>
    s.onThr n t (fun x => x.rngLanes i id))))

/-- RNG_U24 (R168): the FP32 uniforms (out[j] >> 8) × 2^−24, which are exact. -/
def execRngU24 (n t : Fin 64) (w : BitVec 64) (s : State) : Host.Outcome State Fault Refusal :=
  .next (whenLive s (fun s => s.teRow n t w (fun i => i.op == 16 && i.func == 2) noFault (fun s i =>
    s.onThr n t (fun x => x.rngLanes i (fun o => ((fmtOf 1).round false (o / 2 ^ 8) (-24) false).1)))))

/-- RNG_U53 (R168): one FP64 uniform per lane, ((out[1]:out[0]) >> 11) × 2^−53. -/
def execRngU53 (n t : Fin 64) (w : BitVec 64) (s : State) : Host.Outcome State Fault Refusal :=
  .next (whenLive s (fun s => s.teRow n t w (fun i => i.op == 16 && i.func == 3) noFault (fun s i =>
    s.onThr n t (fun x => (x.lanes i.pr).foldl (fun y l =>
      let o := x.rng i l
      let v := (o.getD 0 0 + 2 ^ 32 * o.getD 1 0) / 2 ^ 11
      y.setPair i.d l ((fmtOf 0).round false v (-53) false).1) x))))

end Sys2Proof.Machine
end

