-- ==== Sys2Proof/Machine/TeMemory.lean ====
section
/-! DEFINITION. Thread-engine instructions over memory and over the array: halt, loads, stores, local atomics, pass issue
and completions, message queues, greedy selection and sampling, tree-walk, exponent pre-scan, Slice-64 and AP128
(R96, R125, R129, R131 to R133, R151, R159 to R175). -/
namespace Sys2Proof.Machine
open Sys2Proof

/-- TE_HALT (R151, R505): the thread goes IDLE. When the last thread of a serving job halts for the step, a remote error
or unknown outcome in any of them is a step fault. -/
def State.doHalt (s : State) (n t : Nat) : State :=
  let x := s.thr n t
  let s := s.setThr n t { x with st := .idle, why := .none }
  match s.servedBy x.job with
  | some p =>
    let mine := s.te.thr.filter (fun e => e.2.job == x.job)
    if mine.all (fun e => e.2.st == .idle) && mine.any (fun e => bitAt e.2.tstat 0 || bitAt e.2.tstat 1) then s.stepFault p else s
  | none => s

def execTeHalt (n t : Fin 64) (w : BitVec 64) (s : State) : Host.Outcome State Fault Refusal :=
  .next (whenLive s (fun s => s.teRow n t w (fun i => i.op == 0 && i.func == 8) noFault (fun s _ => s.doHalt n t)))

/-! Loads, stores, local atomics (R159, R160). -/

/-- Element size of an access. -/
def TeWord.size (i : TeWord) : Nat := i.func / 4 % 8

/-- The elements of a load or store: lane (none for a scalar), instruction address and length (R159). A 128-byte access
is aligned to 128 bytes and moves 4 bytes per enabled lane. The 32-bit offset of a gather's or scatter's lane is unsigned (DESIGN
CHOICE 54: R159 does not say). -/
def Thr.elems (x : Thr) (i : TeWord) : List (Nat × Nat × Nat) :=
  let base := teAddr (x.sr i.a) i.imm
  match i.size with
  | 0 => [(32, base, 1)]
  | 1 => [(32, base, 2)]
  | 2 => [(32, base, 4)]
  | 3 => [(32, base, 8)]
  | 4 => (x.lanes i.pr).map (fun l => (l, base + 4 * l, 4))
  | 5 => (x.lanes i.pr).map (fun l => (l, (base + x.lane i.c l) % 2 ^ 64, 4))
  | _ => (x.lanes i.pr).map (fun l => (l, (base + x.lane i.c l) % 2 ^ 64, 8))

def TeWord.accBit (i : TeWord) : Bool := i.func / 32 % 2 == 1

/-- R200: whether an element of an access to the array's store lies in the ring memory. -/
def TeWord.inRing (i : TeWord) (addr : Nat) : Bool := i.op == 8 && !i.accBit && decide (0x400000 ≤ addr) && decide (addr < 0x404000)

/-- R200: a thread reads every ring, and writes only the rings of channels bound to its job. -/
def State.ringFault (s : State) (n : Nat) (x : Thr) (write : Bool) (addr len : Nat) : Option (Nat × Nat) :=
  let ch := s.dmaCh n ((addr - 0x400000) / 0x400)
  if addr % len ≠ 0 then some (0x12, storeBase n + addr)
  else if write && !(if x.radio then ch.radio else ch.job == some x.job) then some (0x13, storeBase n + addr)
  else none

/-- R200: a store to ring memory; a write of a slot's CTRL word sets or clears GO. -/
def State.ringStore (s : State) (n addr : Nat) (bs : List Byte) : State :=
  let off := addr - 0x400000
  let s := s.ringWrite n off bs
  if off % 64 = 0 then s.dmaGo n (off / 0x400) (off / 64 % 16) (s.ringRead n off 4) else s

/-- R481: whether an access of a thread meets a region of its array that a spill has yet to save. -/
def State.accessStalls (s : State) (n t : Nat) (i : TeWord) : Bool :=
  let a := s.arrOf n
  let x := s.thr n t
  !a.spills.isEmpty && i.op == 8 && !x.radio
    && (x.elems i).any (fun e => a.unsaved i.accBit e.2.1 e.2.2)

/-- The first fault of a load's or store's elements. -/
def State.accessFault (s : State) (n t : Nat) (write : Bool) (i : TeWord) : Option (Nat × Nat) :=
  let x := s.thr n t
  let base := teAddr (x.sr i.a) i.imm
  if i.size = 4 ∧ base % 128 ≠ 0 then some (0x12, elemAddr n i.op i.accBit base)
  else firstFault ((x.elems i).map (fun e =>
    if i.inRing e.2.1 then s.ringFault n x write e.2.1 e.2.2 else s.elemFault n x i.op i.accBit write e.2.1 e.2.2 e.2.2))

/-- Put a loaded element into its register. A scalar of fewer than 8 bytes is zero-extended, and so is the old value of a 4-byte atomic
(DESIGN CHOICE 54: R159 does not say). -/
def Thr.putElem (x : Thr) (i : TeWord) (lane v : Nat) : Thr :=
  if lane = 32 then x.setS i.d v else if i.size = 6 then x.setPair i.d lane v else x.setLane i.d lane v

def State.doLoad (s : State) (n t : Nat) (i : TeWord) : State :=
  ((s.thr n t).elems i).foldl (fun s e =>
    let a := elemAddr n i.op i.accBit e.2.1
    if i.inRing e.2.1 then s.onThr n t (fun x => x.putElem i e.1 (s.ringRead n (e.2.1 - 0x400000) e.2.2))
    else
      let (s, bs) := s.teRead n t a e.2.2
      (s.acctMem (s.thr n t).slot a e.2.2).onThr n t (fun x => x.putElem i e.1 (leNat bs))) s

/-- Whether a word is a load, store or atomic (0, 1, 2) of the classes 0x08 to 0x0A. -/
def TeWord.isAccess (i : TeWord) (kind : Nat) : Bool := decide (8 ≤ i.op) && decide (i.op ≤ 10) && i.func % 4 == kind

/-- TE_LOAD (R117, R159, R160, R185). -/
def execTeLoad (n t : Fin 64) (w : BitVec 64) (s : State) : Host.Outcome State Fault Refusal :=
  .next (whenLive s (fun s => s.teRow n t w (fun i => i.isAccess 0 && !(s.accessStalls n t i)) (fun s i => s.accessFault n t false i) (fun s i => s.doLoad n t i)))

def State.doStore (s : State) (n t : Nat) (i : TeWord) : State :=
  let x := s.thr n t
  (x.elems i).foldl (fun s e =>
    let v := if e.1 = 32 then x.sr i.b else if i.size = 6 then x.pair i.b e.1 else x.lane i.b e.1
    let a := elemAddr n i.op false e.2.1
    if i.inRing e.2.1 then s.ringStore n e.2.1 (leBytes e.2.2 v)
    else (s.teWrite n a (leBytes e.2.2 v)).acctMem x.slot a e.2.2) s

/-- TE_STORE (R159, R160, R209, R228). -/
def execTeStore (n t : Fin 64) (w : BitVec 64) (s : State) : Host.Outcome State Fault Refusal :=
  .next (whenLive s (fun s => s.teRow n t w (fun i => i.isAccess 1 && !(s.accessStalls n t i)) (fun s i => s.accessFault n t true i) (fun s i => s.doStore n t i)))

/-- The new value of an atomic of w bits: add, min, max, swap, compare-and-swap, fetch-add (R159). -/
def atomicNew (op w : Nat) (signed : Bool) (old b c : Nat) : Nat :=
  let b := b % 2 ^ w
  let lt (x y : Nat) : Bool := if signed then decide (toSigned w x < toSigned w y) else decide (x < y)
  match op with
  | 0 | 5 => (old + b) % 2 ^ w
  | 1 => if lt b old then b else old
  | 2 => if lt old b then b else old
  | 3 => b
  | _ => if old = c % 2 ^ w then b else old

def TeWord.atomBytes (i : TeWord) : Nat := if i.func / 4 % 2 = 0 then 4 else 8
def TeWord.atomOp (i : TeWord) : Nat := i.func / 8 % 8
def TeWord.atomSigned (i : TeWord) : Bool := i.func / 64 == 1

def State.atomicFault (s : State) (n t : Nat) (i : TeWord) : Option (Nat × Nat) :=
  let x := s.thr n t
  s.elemFault n x i.op false true (teAddr (x.sr i.a) i.imm) i.atomBytes i.atomBytes

/-- R159: a local atomic is whole at the address's atomic unit; D takes the old value, but for add. -/
def State.doAtomic (s : State) (n t : Nat) (i : TeWord) : State :=
  let x := s.thr n t
  let a := teAddr (x.sr i.a) i.imm
  let unit := srcTe (s.physFor n)
  let (s, bs, st) := s.load unit a i.atomBytes
  let s := if st = .uncorr then s.loadStop n t else if st = .ok then (s.store unit a (leBytes i.atomBytes
      (atomicNew i.atomOp (8 * i.atomBytes) i.atomSigned (leNat bs) (x.sr i.b) (x.sr i.c)))).1 else s
  if i.atomOp = 0 then s else s.onThr n t (fun x => x.setS i.d (leNat bs))

/-- TE_ATOMIC (R159, R160, R339). -/
def execTeAtomic (n t : Fin 64) (w : BitVec 64) (s : State) : Host.Outcome State Fault Refusal :=
  .next (whenLive s (fun s => s.teRow n t w (fun i => i.isAccess 2) (fun s i => s.atomicFault n t i) (fun s i => s.doAtomic n t i)))

/-! Passes (R85, R96, R163 to R165). -/

/-- R85: a descriptor from its 64 bytes, with JOB_ID, PRIO and THREAD from the thread's binding. -/
def descOf (bs : List Byte) (x : Thr) (t : Nat) : Desc :=
  let f (o k : Nat) := leNat ((bs.drop o).take k)
  { ctrl := f 0 4, m := f 4 2, anchor := f 6 2, actAddr := f 8 4, actStride := f 0xC 4, wgtAddr := f 0x10 4
    scaleAddr := f 0x14 4, tileRow := f 0x18 2, outStride := f 0x1A 2, outAddr := f 0x1C 4, maskAddr := f 0x20 4
    seq := f 0x24 4, job := x.job, prio := f 0x2C 1 / 8 * 8 + x.prio % 8, thread := t, rsv := f 0x2E 2
    radAct := f 0x30 8, radWgt := f 0x38 8 }

/-- R160, R163: the descriptor lies in the thread's region. Its offset may have any alignment (DESIGN CHOICE 54: R163 states none). -/
def State.pissueFault (s : State) (n t : Nat) (i : TeWord) : Option (Nat × Nat) :=
  let x := s.thr n t
  s.storeFault n x (x.sr i.a) 64 1

/-- R96, R163: the descriptor enters the queue and D takes 0; on a full queue, or past 32 outstanding passes, the thread
is held. A descriptor that cannot be read stops the thread (R185), and nothing is issued. -/
def State.doPissue (s : State) (n t : Nat) (i : TeWord) : State :=
  let x := s.thr n t
  let (s, bs) := s.teRead n t (storeBase n + x.sr i.a) 64
  let radio := bitAt i.func 0
  let p : Pass := { d := descOf bs x t, cpl := bitAt i.func 1 }
  if (s.thr n t).st = .faulted then s
  else if s.issueFull n t radio then
    s.onThr n t (fun x => { x with st := .wait, why := .issue, wD := i.d, wA := if radio then 1 else 0, wHeld := some p, wSince := s.tim.expo })
  else (s.onThr n t (fun x => x.setS i.d 0)).enqueuePass n t radio p

/-- PISSUE (R86, R96, R163). -/
def execPissue (n t : Fin 64) (w : BitVec 64) (s : State) : Host.Outcome State Fault Refusal :=
  .next (whenLive s (fun s => s.teRow n t w (fun i => i.op == 12 && i.num == 0) (fun s i => s.pissueFault n t i) (fun s i => s.doPissue n t i)))

/-- ISSUE_TIMEOUT (R96): ISSUE_TMO exposures after the hold began, D takes 0xB and the descriptor is discarded. -/
def State.issueTimeout (s : State) (n t : Nat) : State :=
  let x := s.thr n t
  if x.why = .issue ∧ s.tim.expo - x.wSince ≥ s.get (f_ARR_CTRL_ISSUE_TMO n) then
    s.setThr n t { (x.setS x.wD 0xB).wake with wHeld := none }
  else s

def execIssueTimeout (n t : Fin 64) (s : State) : Host.Outcome State Fault Refusal :=
  .next (whenLive s (fun s => s.issueTimeout n t))

/-- Take the thread's oldest completion into D (R165). -/
def Thr.takeComp (x : Thr) (d : Nat) : Option Thr :=
  match x.comps with
  | c :: rest => some { (x.setS d c) with comps := rest, outst := x.outst - 1 }
  | [] => none

/-- PWAIT (R165, R176). -/
def execPwait (n t : Fin 64) (w : BitVec 64) (s : State) : Host.Outcome State Fault Refusal :=
  .next (whenLive s (fun s => (s.teRow n t w (fun i => i.op == 12 && i.num == 1) noFault (fun s i =>
    s.onThr n t (fun x => match x.takeComp i.d with
      | some y => y
      | none => { x with st := .wait, why := .pwait, wD := i.d }))).retryIssues n))

/-- PPOLL (R165). -/
def execPpoll (n t : Fin 64) (w : BitVec 64) (s : State) : Host.Outcome State Fault Refusal :=
  .next (whenLive s (fun s => (s.teRow n t w (fun i => i.op == 12 && i.num == 2) noFault (fun s i =>
    s.onThr n t (fun x => match x.takeComp i.d with
      | some y => y
      | none => x.setS i.d 0))).retryIssues n))

/-! Message queues (R166). -/

/-- R166: a queue belongs to the partition of its engine's array. -/
def State.msendFault (s : State) (n t : Nat) (i : TeWord) : Option (Nat × Nat) :=
  let x := s.thr n t
  let a := x.sr i.a
  let m := bits a 21 16
  if bitAt a 63 then none
  else if s.hasArray m && (m == n || s.partOfArr m == some x.part) then none
  else some (0x13, a)

def State.doMsend (s : State) (n t : Nat) (i : TeWord) : State :=
  let x := s.thr n t
  let a := x.sr i.a
  let m := bits a 21 16
  let q := a % 16
  let l := s.mqOf m q
  if l.length ≥ 128 then s.setThr n t { x with st := .wait, why := .msend, wD := i.d, wA := a, wB := x.sr i.b }
  else ((s.setMq m q (l ++ [x.sr i.b])).onThr n t (fun x => x.setS i.d 0)).mqServe m q

/-- Whether a word is a message instruction on a queue, not on a sync object (R350). -/
def State.isMsg (s : State) (n t : Nat) (k : Nat) (i : TeWord) : Bool := i.op == 13 && i.func == k && !bitAt ((s.thr n t).sr i.a) 63

/-- MSEND (R166). -/
def execMsend (n t : Fin 64) (w : BitVec 64) (s : State) : Host.Outcome State Fault Refusal :=
  .next (whenLive s (fun s => s.teRow n t w (s.isMsg n t 0) (fun s i => s.msendFault n t i) (fun s i => s.doMsend n t i)))

/-- R212: take the oldest word, or 0 with VALID clear. -/
def State.doMrecv (s : State) (n t : Nat) (i : TeWord) : State :=
  let q := (s.thr n t).sr i.a % 16
  match s.mqOf n q with
  | v :: rest => ((s.mqTake n q rest).onThr n t (fun x => (x.setS i.d v).setS (i.d + 1) 1)).mqRefill n q
  | [] => s.onThr n t (fun x => (x.setS i.d 0).setS (i.d + 1) 0)

/-- MRECV (R166, R212). -/
def execMrecv (n t : Fin 64) (w : BitVec 64) (s : State) : Host.Outcome State Fault Refusal :=
  .next (whenLive s (fun s => s.teRow n t w (s.isMsg n t 1) noFault (fun s i => s.doMrecv n t i)))

def State.doMwait (s : State) (n t : Nat) (i : TeWord) : State :=
  let a := (s.thr n t).sr i.a
  if (s.mqOf n (a % 16)).isEmpty then s.onThr n t (fun x => { x with st := .wait, why := .mwait, wD := i.d, wA := a })
  else s.doMrecv n t i

/-- MWAIT (R166, R176). -/
def execMwait (n t : Fin 64) (w : BitVec 64) (s : State) : Host.Outcome State Fault Refusal :=
  .next (whenLive s (fun s => s.teRow n t w (s.isMsg n t 2) noFault (fun s i => s.doMwait n t i)))

/-! Greedy selection and sampling (R169). -/

/-- Whether an element count lies in the stated range; outside it the spec states no result (Assumption 28). -/
def countOk (k : Nat) : Bool := decide (1 ≤ k) && decide (k ≤ 2 ^ 20)

/-- The fault of a read of k elements of w bytes at an array-store offset. -/
def State.vecFault (s : State) (n t off k w : Nat) : Option (Nat × Nat) :=
  if countOk k then s.storeFault n (s.thr n t) off (k * w) w else none

/-- R169: −1, 0, 1 order with NaN below −infinity. -/
def argLess (a b : Fv) : Bool := if b.isNan then false else if a.isNan then true else decide (fcmp false a b < 0)

/-- R169: the lowest index of the largest element; 0 when every element is NaN. -/
def argmaxOf (l : List Nat) : Nat :=
  let f := fmtOf 1
  (l.zipIdx.foldl (fun (r : Option (Fv × Nat)) (v, k) =>
    let x := f.decode v
    match r with
    | none => some (x, k)
    | some (m, _) => if argLess m x then some (x, k) else r) none).elim 0 (·.2)

def State.doArgmax (s : State) (n t : Nat) (i : TeWord) : State :=
  let x := s.thr n t
  let k := x.sr i.b
  if countOk k then
    let (s, bs) := s.teRead n t (storeBase n + x.sr i.a) (4 * k)
    s.onThr n t (fun x => x.setS i.d (argmaxOf (chunks 4 k bs)))
  else let (s, v) := s.freeW; s.onThr n t (fun x => x.setS i.d v)

/-- ARGMAX (R169). -/
def execArgmax (n t : Fin 64) (w : BitVec 64) (s : State) : Host.Outcome State Fault Refusal :=
  .next (whenLive s (fun s => s.teRow n t w (fun i => i.op == 5 && i.func == 4)
    (fun s i => s.vecFault n t ((s.thr n t).sr i.a) ((s.thr n t).sr i.b) 4) (fun s i => s.doArgmax n t i)))

/-- R169: the partial sums of a list and the flags of their rounding. -/
def partialSums : Option Nat → List Nat → List Nat × Nat
  | _, [] => ([], 0)
  | none, v :: vs => let (r, fl) := partialSums (some v) vs; (v :: r, fl)
  | some c, v :: vs =>
    let (c', g) := redFn 0 c v
    let (r, fl) := partialSums (some c') vs
    (c' :: r, fl ||| g)

/-- R169: the index sampled with uniform u, and the flags set. -/
def sampleOf (l : List Nat) (u : Nat) : Nat × Nat :=
  let f := fmtOf 1
  let bad (v : Nat) : Bool := match f.decode v with
    | .nan _ => true
    | .inf neg => neg
    | .fin neg m _ => neg && m ≠ 0
  let pos (v : Nat) : Bool := match f.decode v with
    | .nan _ => false
    | .inf neg => !neg
    | .fin neg m _ => !neg && m ≠ 0
  if l.any bad then (0, flInvalid)
  else
    let (c, fl) := partialSums none l
    let (t, g) := f.fmul (f.decode u) (f.decode (c.getLastD 0))
    match c.zipIdx.find? (fun e => (fcompare 0 (f.decode t) (f.decode e.1)).1) with
    | some (_, k) => (k, fl ||| g)
    | none =>
      match (l.zipIdx.filter (fun e => pos e.1)).getLast? with
      | some (_, k) => (k, fl ||| g)
      | none => (0, fl ||| g ||| flInvalid)

def State.doSample (s : State) (n t : Nat) (i : TeWord) : State :=
  let x := s.thr n t
  let k := x.sr i.b
  if countOk k then
    let (s, bs) := s.teRead n t (storeBase n + x.sr i.a) (4 * k)
    let (v, fl) := sampleOf (chunks 4 k bs) (x.sr i.c % 2 ^ 32)
    s.onThr n t (fun x => (x.setS i.d v).orFlags fl)
  else let (s, v) := s.freeW; s.onThr n t (fun x => x.setS i.d v)

/-- SAMPLE (R169). -/
def execSample (n t : Fin 64) (w : BitVec 64) (s : State) : Host.Outcome State Fault Refusal :=
  .next (whenLive s (fun s => s.teRow n t w (fun i => i.op == 5 && i.func == 5)
    (fun s i => s.vecFault n t ((s.thr n t).sr i.a) ((s.thr n t).sr i.b) 4) (fun s i => s.doSample n t i)))

/-! Tree-walk (R170, R171). -/

/-- What one lane does in one step: it stays, goes to a node, or raises a fault. -/
inductive WalkStep where
  | stay
  | move (node : Nat)
  | bad (kind addr : Nat)
  deriving DecidableEq, Repr

/-- R170: whether the node record at an address has a reserved bit set. -/
def State.nodeRsv (s : State) (a : Nat) : Bool := s.readLE (a + 6) 1 / 8 ≠ 0 || s.readLE (a + 7) 1 ≠ 0

/-- R171: one step of one lane at node k of the table. -/
def State.walkOne (s : State) (n : Nat) (x : Thr) (table feat k : Nat) : WalkStep :=
  let a := teAddr table (16 * (k : Int))
  match s.memFault x 0x09 false a 16 16 with
  | some (kd, ad) => .bad kd ad
  | none =>
    let bs := s.readBytes a 16
    let f (o w : Nat) := leNat ((bs.drop o).take w)
    let fl := f 6 1
    if s.nodeRsv a ∨ bitAt fl 0 then .stay
    else
      let fo := feat + 4 * f 4 2
      match s.storeFault n x fo 4 4 with
      | some (kd, ad) => .bad kd ad
      | none =>
        let v := (fmtOf 1).decode (s.readLE (storeBase n + fo) 4)
        let th := (fmtOf 1).decode (f 0 4)
        if v.isNan then .move (if bitAt fl 1 then f 0xC 4 else f 8 4)
        else if (fcompare (if bitAt fl 2 then 1 else 0) v th).1 then .move (f 8 4)
        else .move (f 0xC 4)

/-- R171, R185: the memory that a lane reads in a step: its node and, where it moves on, its feature. -/
def State.walkReads (s : State) (n t : Nat) (table feat k : Nat) : State :=
  let a := teAddr table (16 * (k : Int))
  let (s, bs) := s.teRead n t a 16
  if s.nodeRsv a ∨ bitAt (leNat ((bs.drop 6).take 1)) 0 then s
  else (s.teRead n t (storeBase n + feat + 4 * leNat ((bs.drop 4).take 2)) 4).1

/-- R171: a lane at node k sets the flag invalid where the node can be read and has a reserved bit set. -/
def State.nodeFlag (s : State) (n t : Nat) (table k : Nat) : State :=
  let a := teAddr table (16 * (k : Int))
  if (s.memFault (s.thr n t) 0x09 false a 16 16).isNone && s.nodeRsv a then s.onThr n t (fun x => x.orFlags flInvalid) else s

/-- R171: one step of the lanes of a thread; stops at the first fault, and when a read has stopped the thread. -/
def State.walkStep (s : State) (n t : Nat) (i : TeWord) (lanes : List Nat) : State × Option (Nat × Nat) :=
  lanes.foldl (fun (r : State × Option (Nat × Nat)) l =>
    let x := r.1.thr n t
    let table := x.sr i.a
    let feat := (x.sr i.b + x.lane i.c l) % 2 ^ 64
    if r.2.isSome || x.st == .faulted then r
    else
      match r.1.walkOne n x table feat (x.lane i.d l) with
      | .bad kd ad => (r.1, some (kd, ad))
      | .stay => ((r.1.walkReads n t table feat (x.lane i.d l)).nodeFlag n t table (x.lane i.d l), none)
      | .move k =>
        let s := r.1.walkReads n t table feat (x.lane i.d l)
        (if (s.thr n t).st = .faulted then s else (s.onThr n t (fun x => x.setLane i.d l k)).nodeFlag n t table k, none)) (s, none)

/-- R171: k whole steps, then a last step of the lanes of `cut` when the wait expired in it (R176). -/
def State.walkSteps (s : State) (n t : Nat) (i : TeWord) (cut : List Nat) : Nat → State × Option (Nat × Nat)
  | 0 => s.walkStep n t i cut
  | k + 1 =>
    match s.walkStep n t i ((s.thr n t).lanes i.pr) with
    | (s', none) => s'.walkSteps n t i cut k
    | r => r

/-- R176: an expired wait of a thread. -/
def State.waitExpired (s : State) (n t : Nat) : State :=
  let s := s.onThr n t (fun x => { x with tstat := x.tstat ||| 4 })
  (s.status (f_TE_STATUS_WAIT_TMO n)).bump ⟨r_TE_TMO_CNT n, 31, 0⟩

/-- R171, R176: a whole `twalk`. A fault leaves the thread's registers as they were before it. `tmo` says that the wait
expired in a step: how many steps were whole and which lanes had completed the next. -/
def State.doTwalk (s : State) (n t : Nat) (i : TeWord) (tmo : Option (Fin 16 × BitVec 32)) : State :=
  let steps := (i.imm % 16).toNat + 1
  let x := s.thr n t
  match tmo with
  | some (k, m) =>
    if k.val < steps then
      match s.walkSteps n t i ((x.lanes i.pr).filter (fun l => bitAt m.toNat l)) k.val with
      | (s', none) => s'.waitExpired n t
      | (_, some (kd, ad)) => (s.setThr n t x).lateFault n t i kd ad
    else s
  | none =>
    match s.walkSteps n t i [] steps with
    | (s', none) => s'
    | (_, some (kd, ad)) => (s.setThr n t x).lateFault n t i kd ad

/-- TWALK (R171, R176). -/
def execTwalk (n t : Fin 64) (w : BitVec 64) (tmo : Option (Fin 16 × BitVec 32)) (s : State) : Host.Outcome State Fault Refusal :=
  .next (whenLive s (fun s => s.teRow n t w (fun i => i.op == 14 && i.func == 0) noFault (fun s i => s.doTwalk n t i tmo)))

/-- The table address of the nodes of `twleaf`: scalar B holds the table base (Assumption 29). -/
def State.leafFault (s : State) (n t : Nat) (i : TeWord) : Option (Nat × Nat) :=
  let x := s.thr n t
  firstFault ((x.lanes i.pr).map (fun l => s.memFault x 0x09 false (teAddr (x.sr i.b) (16 * (x.lane i.a l : Int))) 16 16))

def State.doTwleaf (s : State) (n t : Nat) (i : TeWord) : State :=
  let x := s.thr n t
  (x.lanes i.pr).foldl (fun s l =>
    let (s, bs) := s.teRead n t (teAddr (x.sr i.b) (16 * (x.lane i.a l : Int))) 16
    if bitAt (leNat ((bs.drop 6).take 1)) 0 then s.onThr n t (fun y => y.setLane i.d l (leNat (bs.take 4)))
    else s.onThr n t (fun y => (y.setLane i.d l 0x7FC00000).orFlags flInvalid)) s

/-- TWLEAF (R171). -/
def execTwleaf (n t : Fin 64) (w : BitVec 64) (s : State) : Host.Outcome State Fault Refusal :=
  .next (whenLive s (fun s => s.teRow n t w (fun i => i.op == 14 && i.func == 1) (fun s i => s.leafFault n t i) (fun s i => s.doTwleaf n t i)))

/-! Exponent pre-scan (R125, R172). -/

/-- Element bits of a pre-scan format code. -/
def scanBits (c : Nat) : Nat := if c = 8 then 32 else if c = 9 then 64 else elemBits c

/-- The conversion code of a pre-scan format code. -/
def scanCode (c : Nat) : Nat := if c = 8 then 1 else if c = 9 then 0 else fmtCode c

/-- Bytes of k elements of a pre-scan format. -/
def scanBytes (c k : Nat) : Nat := (k * scanBits c + 7) / 8

/-- R172: the bound e of the elements with their scales; none for a NaN, an infinity or scale 0xFF. -/
def scanBound (c : Nat) (els : List Nat) (scale : Nat → Option Int) : Option Int :=
  let zero : Int := if c = 9 then -1074 else -32768
  let r := els.zipIdx.foldl (fun (r : Option (Option Int)) (v, k) =>
    match r with
    | none => none
    | some m =>
      match decodeCode (scanCode c) v, scale k with
      | .fin _ mag e, some x =>
        match boundExp mag (e + x) with
        | none => some m
        | some b => some (some (match m with
            | some y => max y b
            | none => b))
      | _, _ => none) (some none)
  match r with
  | none => none
  | some none => some zero
  | some (some b) => some b

/-- Saturate at the limits of a signed 16-bit value. -/
def sat16 (x : Int) : Int := max (-32768) (min 32767 x)

/-- ceil(log2 k) for k ≥ 1. For 0, whose logarithm R125 leaves without a value, it is 0 (DESIGN CHOICE 28). -/
def ceilLog2 (k : Nat) : Nat := if k ≤ 1 then 0 else Nat.log2 (k - 1) + 1

def State.pscanFault (s : State) (n t : Nat) (i : TeWord) : Option (Nat × Nat) :=
  let x := s.thr n t
  let c := i.func % 16
  let k := x.sr i.b
  if countOk k then
    firstFault [s.storeFault n x (x.sr i.a) (scanBytes c k) (max 1 (scanBits c / 8)),
      if bitAt i.func 4 then s.storeFault n x (ofSigned 64 (i.imm * 64)) (ceilDiv k 32) 1 else none]
  else none

/-- R172: e, or the anchor of R125, saturated. A NaN, an infinity or a scale 0xFF makes e 32,767 and sets the flag invalid. -/
def State.doPscan (s : State) (n t : Nat) (i : TeWord) : State :=
  let x := s.thr n t
  let c := i.func % 16
  let k := x.sr i.b
  if countOk k then
    let (s, bs) := s.teRead n t (storeBase n + x.sr i.a) (scanBytes c k)
    let (s, sc) := if bitAt i.func 4 then s.teRead n t (storeBase n + ofSigned 64 (i.imm * 64)) (ceilDiv k 32) else (s, [])
    let v := leNat bs
    let w := scanBits c
    let els := (List.range k).map (fun j => v / 2 ^ (w * j) % 2 ^ w)
    let scale (j : Nat) : Option Int := if bitAt i.func 4 then scaleVal (sc.getD (j / 32) 0).toNat else some 0
    let b := scanBound c els scale
    let e := b.getD 32767
    let g := x.sr i.c
    let r := if bitAt i.func 5 then e + toSigned 16 g + ceilLog2 (bits g 47 16) - 35 else e
    s.onThr n t (fun x => (x.setS i.d (ofSigned 64 (sat16 r))).orFlags (if b.isNone then flInvalid else 0))
  else let (s, v) := s.freeW; s.onThr n t (fun x => x.setS i.d v)

/-- PSCAN (R125, R172). -/
def execPscan (n t : Fin 64) (w : BitVec 64) (s : State) : Host.Outcome State Fault Refusal :=
  .next (whenLive s (fun s => s.teRow n t w (fun i => i.op == 15) (fun s i => s.pscanFault n t i) (fun s i => s.doPscan n t i)))

/-! Slice-64 (R131 to R133, R173, R174). -/

/-- R131: the seven balanced base-256 digits s_0 to s_6 of X; none when they cannot write it. -/
def splitDigits : Nat → Int → List Int → Option (List Int)
  | 0, x, acc => if x = 0 then some acc else none
  | k + 1, x, acc =>
    let r := toSigned 8 (ofSigned 8 x)
    splitDigits k ((x - r) / 256) (r :: acc)

/-- R131, R173: the digits of one element with exponent E, and whether flag invalid is set. -/
def split64 (x : Nat) (e : Int) : List Int × Bool :=
  let zeros := List.replicate 7 (0 : Int)
  if e = 32767 then (zeros, false)
  else
    match (fmtOf 0).decode x with
    | .fin neg m q =>
      let k := q + 54 - e
      let mag : Nat := if k ≥ 0 then (if k > 2200 then m * 2 ^ 2200 else m * 2 ^ k.toNat) else (rnePow m (-k).toNat).1
      match splitDigits 7 (if neg then -(mag : Int) else mag) [] with
      | some l => (l, false)
      | none => (zeros, true)
    | _ => (zeros, true)

/-- E of lane l: scalar C, or lane l of vector C (R173). -/
def Thr.splitE (x : Thr) (i : TeWord) (l : Nat) : Int :=
  if bitAt i.func 0 then toSigned 32 (x.lane i.c l) else toSigned 64 (x.sr i.c)

def splitAddr (x : Thr) (i : TeWord) (j l : Nat) : Nat := teAddr (x.sr i.a) (i.imm * j + l)

def State.splitFault (s : State) (n t : Nat) (i : TeWord) : Option (Nat × Nat) :=
  let x := s.thr n t
  firstFault ((List.range 7).flatMap (fun j => (x.lanes i.pr).map (fun l => s.storeFault n x (splitAddr x i j l) 1 1)))

def State.doSplit (s : State) (n t : Nat) (i : TeWord) : State :=
  let x := s.thr n t
  (x.lanes i.pr).foldl (fun s l =>
    let (ds, inv) := split64 (x.pair i.b l) (x.splitE i l)
    let s := ds.zipIdx.foldl (fun s (v, j) => s.teWrite n (storeBase n + splitAddr x i j l) [BitVec.ofNat 8 (ofSigned 8 v)]) s
    if inv then s.onThr n t (fun x => x.orFlags flInvalid) else s) s

/-- S64SPLIT (R131, R173). -/
def execS64split (n t : Fin 64) (w : BitVec 64) (s : State) : Host.Outcome State Fault Refusal :=
  .next (whenLive s (fun s => s.teRow n t w (fun i => i.op == 7 && i.num == 0) (fun s i => s.splitFault n t i) (fun s i => s.doSplit n t i)))

/-- R133: the recombined binary64 of seven diagonal sums, and the flags. -/
def comb64 (ds : List Nat) (ea ew : Int) : Nat × Nat :=
  let f := fmtOf 0
  if ea = 32767 ∨ ew = 32767 ∨ ds.any (· == sat128) = true then (f.qnan, flInvalid)
  else
    let sum := ds.zipIdx.foldl (fun (r : Int) (v, d) => r + 2 ^ (8 * (12 - d)) * toSigned 128 v) 0
    f.round (decide (sum < 0)) sum.natAbs (ea + ew - 108) false

def combAddr (x : Thr) (i : TeWord) (d l : Nat) : Nat := teAddr (x.sr i.a) (i.imm * d + 16 * l)

def State.combFault (s : State) (n t : Nat) (i : TeWord) : Option (Nat × Nat) :=
  let x := s.thr n t
  firstFault ((List.range 7).flatMap (fun d => (x.lanes i.pr).map (fun l => s.storeFault n x (combAddr x i d l) 16 16)))

def State.doComb (s : State) (n t : Nat) (i : TeWord) : State :=
  let x := s.thr n t
  (x.lanes i.pr).foldl (fun s l =>
    let (s, ds) := (List.range 7).foldl (fun (r : State × List Nat) d =>
      let (s, bs) := r.1.teRead n t (storeBase n + combAddr x i d l) 16
      (s, r.2 ++ [leNat bs])) (s, [])
    let (v, fl) := comb64 ds (toSigned 64 (x.sr i.b)) (toSigned 32 (x.lane i.c l))
    s.onThr n t (fun y => (y.setPair i.d l v).orFlags fl)) s

/-- S64COMB (R133, R174). -/
def execS64comb (n t : Fin 64) (w : BitVec 64) (s : State) : Host.Outcome State Fault Refusal :=
  .next (whenLive s (fun s => s.teRow n t w (fun i => i.op == 7 && i.num == 1) (fun s i => s.combFault n t i) (fun s i => s.doComb n t i)))

/-! AP128 arithmetic (R128, R129, R175). -/

/-- R129: AP128 addition: the sum, and whether it produced SAT from operands that were not SAT. -/
def apAdd (a b : Nat) : Nat × Bool :=
  if a = sat128 ∨ b = sat128 then (sat128, false)
  else
    let x := toSigned 128 a + toSigned 128 b
    if x.natAbs > 2 ^ 127 - 1 then (sat128, true) else (ofSigned 128 x, false)

/-- The fault of an AP128 instruction's regions: each is (offset, bytes per value, alignment). -/
def State.apFault (s : State) (n t : Nat) (k : Nat) (l : List (Nat × Nat × Nat)) : Option (Nat × Nat) :=
  firstFault (l.map (fun r => s.storeFault n (s.thr n t) r.1 (k * r.2.1) r.2.2))

def State.doApadd (s : State) (n t : Nat) (i : TeWord) : State :=
  let x := s.thr n t
  let k := i.imm.toNat
  let (s, as) := s.teRead n t (storeBase n + x.sr i.a) (16 * k)
  let (s, bs) := s.teRead n t (storeBase n + x.sr i.b) (16 * k)
  let r := ((chunks 16 k as).zip (chunks 16 k bs)).map (fun p => apAdd p.1 p.2)
  let s := s.teWrite n (storeBase n + x.sr i.c) (r.flatMap (fun e => leBytes 16 e.1))
  let s := s.onThr n t (fun x => x.setS i.d (r.filter (fun e => e.1 == sat128)).length)
  if r.any (·.2) then s.raise (srcTe (s.physFor n)) 0x03 0 0 else s

/-- APADD (R129, R175). -/
def execApadd (n t : Fin 64) (w : BitVec 64) (s : State) : Host.Outcome State Fault Refusal :=
  .next (whenLive s (fun s => s.teRow n t w (fun i => i.op == 6 && i.num == 0)
    (fun s i => let x := s.thr n t; s.apFault n t i.imm.toNat [(x.sr i.a, 16, 16), (x.sr i.b, 16, 16), (x.sr i.c, 16, 16)])
    (fun s i => s.doApadd n t i)))

/-- R175: a value on an anchor raised by k, rounded ties to even (R113). -/
def apRescale (k v : Nat) : Nat :=
  if v = sat128 then sat128
  else
    let x := toSigned 128 v
    let (q, _) := rnePow x.natAbs k
    ofSigned 128 (if x < 0 then -(q : Int) else q)

/-- R175: an amount outside 0 to 127 leaves the result unstated (Assumption 28). -/
def State.doAprescale (s : State) (n t : Nat) (i : TeWord) : State :=
  let x := s.thr n t
  let k := i.imm.toNat
  let b := x.sr i.b
  let (s, as) := s.teRead n t (storeBase n + x.sr i.a) (16 * k)
  if b ≤ 127 then s.teWrite n (storeBase n + x.sr i.c) ((chunks 16 k as).flatMap (fun v => leBytes 16 (apRescale b v)))
  else s.freeRange (storeBase n + x.sr i.c) (16 * k)

/-- APRESCALE (R175). -/
def execAprescale (n t : Fin 64) (w : BitVec 64) (s : State) : Host.Outcome State Fault Refusal :=
  .next (whenLive s (fun s => s.teRow n t w (fun i => i.op == 6 && i.num == 1)
    (fun s i => let x := s.thr n t; s.apFault n t i.imm.toNat [(x.sr i.a, 16, 16), (x.sr i.c, 16, 16)])
    (fun s i => s.doAprescale n t i)))

/-- R127, R175: one AP value on an anchor converted to a code; AP80 when `ap80`. -/
def apConvert (ap80 : Bool) (anchor : Int) (code v : Nat) : Nat × Nat :=
  let sat := if ap80 then v == sat80 else v == sat128
  if sat then convertTo code (.nan false) true
  else
    let x := toSigned (if ap80 then 80 else 128) v
    convertTo code (.fin (decide (x < 0)) x.natAbs (anchor - 44)) false

def TeWord.apSrc (i : TeWord) : Nat := if bitAt i.func 4 then 10 else 16

def State.doApcvt (s : State) (n t : Nat) (i : TeWord) : State :=
  let x := s.thr n t
  let k := i.imm.toNat
  let code := i.func % 16
  let (s, as) := s.teRead n t (storeBase n + x.sr i.a) (i.apSrc * k)
  let r := (chunks i.apSrc k as).map (apConvert (bitAt i.func 4) (toSigned 16 (x.sr i.b)) code)
  let s := s.teWrite n (storeBase n + x.sr i.c) (r.flatMap (fun e => leBytes (codeWidth code / 8) e.1))
  s.onThr n t (fun x => x.orFlags (r.foldl (fun f e => f ||| e.2) 0))

/-- APCVT (R127, R175, R619). -/
def execApcvt (n t : Fin 64) (w : BitVec 64) (s : State) : Host.Outcome State Fault Refusal :=
  .next (whenLive s (fun s => s.teRow n t w (fun i => i.op == 6 && i.num == 2)
    (fun s i => let x := s.thr n t
      let ob := codeWidth (i.func % 16) / 8
      s.apFault n t i.imm.toNat [(x.sr i.a, i.apSrc, if bitAt i.func 4 then 2 else 16), (x.sr i.c, ob, ob)])
    (fun s i => s.doApcvt n t i)))

end Sys2Proof.Machine
end

