-- ==== Sys2Proof/Machine/Remote.lean ====
section
/-! DEFINITION. Remote accesses and sync operations of threads, what a target does with requests, responses, resends and
the dead-target bound, and the end of a thread's waits (R162, R176, R336 to R353). -/
namespace Sys2Proof.Machine
open Sys2Proof

/-! Threads (R162, R350). -/

/-- The elements of a remote access: lane, global address, bytes. A whole 128-byte access is one request (R336). -/
def Thr.rmtElems (x : Thr) (i : TeWord) : List (Nat × Nat × Nat) :=
  if i.func % 4 = 2 then [(32, teAddr (x.sr i.a) i.imm, i.atomBytes)]
  else if i.size = 4 ∧ (x.lanes i.pr).length = 32 then [(33, teAddr (x.sr i.a) i.imm, 128)]
  else x.elems i

/-- CTRL bit of the permission that a remote access needs (R332). -/
def TeWord.perm (i : TeWord) : Nat := match i.func % 4 with
  | 0 => 26
  | 1 => 27
  | _ => 28

/-- R159: an element is aligned to its size; a 128-byte access, whatever its lanes, to 128 bytes. -/
def State.rmtFault (s : State) (n t : Nat) (i : TeWord) : Option (Nat × Nat) :=
  let x := s.thr n t
  let base := teAddr (x.sr i.a) i.imm
  if i.func % 4 ≠ 2 ∧ i.size = 4 ∧ base % 128 ≠ 0 then some (0x12, base)
  else firstFault ((x.rmtElems i).map (fun e => if e.2.1 % (if e.1 = 33 then 128 else e.2.2) ≠ 0 then some (0x12, e.2.1) else none))

/-- R33, R34: a global address that the sender rejects. -/
def badGlobal (g : Nat) : Bool := bits g 63 60 ≠ 0 || !remoteRegion (g % 2 ^ 48)

/-- The request of one element. -/
def Thr.rmtReq (x : Thr) (n t : Nat) (i : TeWord) (dst : Nat) (e : Nat × Nat × Nat) : Req :=
  let kind := i.func % 4
  let v := if e.1 = 32 then leBytes e.2.2 (x.sr i.b)
    else if e.1 = 33 then (List.range 32).flatMap (fun l => leBytes 4 (x.lane i.b l))
    else leBytes e.2.2 (if i.size = 6 then x.pair i.b e.1 else x.lane i.b e.1)
  { who := .thread n t, reg := i.d, lane := e.1
    kind := if kind = 0 then 0 else if kind = 1 then 1 else if i.atomOp = 0 then 3 else 2
    pkt := { dst := dst, op := kind + 1, addr := e.2.1 % 2 ^ 48, count := e.2.2, data := if kind = 1 then v else []
             aop := if kind = 2 then i.atomOp else 0, wide := i.atomBytes = 8, sgn := kind = 2 && i.atomSigned
             operand := if kind = 2 then x.sr i.b else 0, compare := if kind = 2 then x.sr i.c else 0 } }

/-- R33, R160: whether a load or store that names this chip reaches the thread's own stores. -/
def State.ownStores (s : State) (n : Nat) (x : Thr) (i : TeWord) (a len : Nat) : Bool :=
  match s.region a with
  | .store m => m == n && decide (i.func % 4 ≤ 1) && s.storeOk n x.radio (a - storeBase n) len
  | .acc m => m == n && i.func % 4 == 0 && s.region (a + len - 1) == .acc n
      && s.rowsOk n x.radio ((a - accBase n) / 5120) ((a + len - 1 - accBase n) / 5120 - (a - accBase n) / 5120 + 1)
  | _ => false

/-- R33, R34: whether the sender rejects a request to a global address: its reserved bits, or a region that no request to another
chip may reach. A request to this chip also reaches the thread's own stores. -/
def State.badReq (s : State) (n t : Nat) (i : TeWord) (g len : Nat) : Bool :=
  badGlobal g && !(bits g 63 60 == 0 && s.valid && s.globalChip g == s.chipId && s.ownStores n (s.thr n t) i (g % 2 ^ 48) len)

/-- A request to this chip itself is applied at once (R331). -/
def State.selfReq (s : State) (n t : Nat) (r : Req) : State :=
  let k := { r.pkt with src := s.chipId, tag := 65536 }
  match k.op with
  | 1 => let (s, st, bs) : State × Nat × List Byte := if remoteRegion k.addr then s.targetLoad k.addr k.count
           else (let (s, bs, c) := s.load (srcTe (s.physFor n)) k.addr k.count; (s, c.status, bs))
         s.finishThread n t { r with pkt := k, done := some (st, 0, false), bytes := bs }
  | 2 => let (s, st) : State × Nat := if remoteRegion k.addr then s.targetStore k.addr k.data
           else (let (s, c) := s.store (srcTe (s.physFor n)) k.addr k.data; (s, c.status))
         s.finishThread n t { r with pkt := k, done := some (st, 0, false) }
  | _ => let (s, st, old) := s.targetAtomic k
         s.finishThread n t { r with pkt := k, done := some (st, old, false) }

/-- R162: one element of a remote access. -/
def State.rmtElem (s : State) (n t : Nat) (i : TeWord) (e : Nat × Nat × Nat) : State :=
  let x := s.thr n t
  let g := e.2.1
  let r := x.rmtReq n t i (s.globalChip g) e
  if s.badReq n t i g e.2.2 then s.finishThread n t { r with pkt := { r.pkt with tag := 65536 }, done := some (1, 0, false), bytes := List.replicate e.2.2 0 }
  else if s.globalChip g = s.chipId ∧ s.valid = true then s.selfReq n t r
  else s.issueReq r

/-- R333, R338: the elements in order, unless the reach table denies one. -/
def State.doRemote (s : State) (n t : Nat) (i : TeWord) : State :=
  let x := s.thr n t
  let l := x.rmtElems i
  let bad := l.find? (fun e => !(s.badReq n t i e.2.1 e.2.2) && !(s.reachOk x.slot 0 i.perm (s.globalChip e.2.1) (e.2.1 % 2 ^ 48) e.2.2))
  match bad with
  | some e => s.reachDeny.lateFault n t i 0x14 (e.2.1 % 2 ^ 48)
  | none => l.foldl (fun s e => s.rmtElem n t i e) s

/-- TE_REMOTE_ACCESS (R33, R34, R159, R162, R331 to R340). An engine with no room for the requests holds the access. -/
def execTeRemoteAccess (n t : Fin 64) (w : BitVec 64) (s : State) : Host.Outcome State Fault Refusal :=
  .next (whenLive s (fun s =>
    if s.engineOut n + ((s.thr n t).rmtElems (teWord w)).length > 512 then s
    else s.teRow n t w (fun i => i.op == 11) (fun s i => s.rmtFault n t i) (fun s i => s.doRemote n t i)))

/-- R350: whether a sync operation may travel with an instruction of the class. -/
def syncLegal (func sop : Nat) (own : Bool) (a : Nat) : Bool :=
  bits a 62 28 == 0 && (match func with
    | 0 => decide (sop ≤ 1)
    | 1 => sop == 3 && own
    | _ => decide (2 ≤ sop) && decide (sop ≤ 4))

/-- R332: the permission of a sync operation. -/
def syncPerm (sop : Nat) : Nat := match sop with
  | 1 => 27
  | 3 | 4 => 26
  | _ => 28

/-- R349, R350: a sync operation on an object of this chip. -/
def State.syncOwn (s : State) (n t : Nat) (i : TeWord) (o sop operand cyc : Nat) : State :=
  if sop = 4 then
    let (s, st, v) := s.syncApply o 3 0 s.chipId cyc
    if st ≠ 0 then s.finishThread n t { kind := 5, reg := i.d, pkt := { aop := 4, tag := 65536 }, done := some (st, v, false) }
    else if operand ≤ v then s.onThr n t (fun x => (x.setS i.d v).setS (i.d + 1) 1)
    else
      let s := s.onThr n t (fun x => { x with st := .wait, why := .mwait, wD := i.d, wA := 2 ^ 63 })
      { s with net := { s.net with waits := s.net.waits ++ [(o, operand, thrKey n t, none)] } }
  else
    let (s, st, v) := s.syncApply o sop operand s.chipId cyc
    let s := s.syncWake o
    if i.func = 0 then
      (s.onThr n t (fun x => x.setS i.d 0)).finishThread n t { kind := 4, pkt := { aop := sop, tag := 65536 }, done := some (st, v, false) }
    else s.finishThread n t { kind := 5, reg := i.d, pkt := { aop := sop, tag := 65536 }, done := some (st, v, false) }

/-- R350: a sync operation on an object of another chip. -/
def State.syncFar (s : State) (n t : Nat) (i : TeWord) (dst o sop operand : Nat) : State :=
  let k : Pkt := { dst := dst, op := 4, addr := o, aop := sop, operand := operand, wide := true, count := 8 }
  if i.func = 0 then
    (s.onThr n t (fun x => x.setS i.d 0)).issueReq { who := .thread n t, kind := 4, pkt := k }
  else
    let tag := s.freshTag
    let s := s.onThr n t (fun x => { x with st := .wait, why := .mwait, wD := i.d, wA := tag + 2 ^ 63 })
    s.issueReq { who := .thread n t, kind := 5, reg := i.d, pkt := k }

def State.doSyncIssue (s : State) (n t : Nat) (i : TeWord) (cyc : Nat) : State :=
  let x := s.thr n t
  let a := x.sr i.a
  let o := a % 8192
  let sop := bits a 27 25
  let dst := let c := bits a 24 13; if c = 0xFFF then s.chipId else c
  if !(syncLegal i.func sop (dst == s.chipId) a) then s.lateFault n t i 0x10 (ofSigned 48 ((x.pc : Int) - i.len))
  else if !(s.reachOk x.slot 1 (syncPerm sop) dst o 1) then s.reachDeny.lateFault n t i 0x14 o
  else if dst = s.chipId then s.syncOwn n t i o sop (x.sr i.b) cyc
  else s.syncFar n t i dst o sop (x.sr i.b)

/-- R340: whether a sync operation on an object of another chip finds the array's remote-access engine full. -/
def State.syncFull (s : State) (n t : Nat) (i : TeWord) : Bool :=
  let c := bits ((s.thr n t).sr i.a) 24 13
  decide (512 ≤ s.engineOut n) && c ≠ 0xFFF && c ≠ s.chipId

/-- SYNC_OP_ISSUE (R332, R333, R340, R349, R350); `cyc` is the cycle of the exposure. An engine with no room holds the access. -/
def execSyncOpIssue (n t : Fin 64) (w : BitVec 64) (cyc : BitVec 21) (s : State) : Host.Outcome State Fault Refusal :=
  .next (whenLive s (fun s => if s.syncFull n t (teWord w) then s else s.teRow n t w (fun i => i.op == 13 && bitAt ((s.thr n t).sr i.a) 63) noFault
    (fun s i => s.doSyncIssue n t i cyc.toNat)))

/-- R176: the result that an expired wait leaves. -/
def State.waitTimeout (s : State) (n t : Nat) : State :=
  let x := s.thr n t
  if x.st ≠ .wait then s
  else
    match x.why with
    | .pwait => (s.setThr n t (x.setS x.wD 0).wake).waitExpired n t
    | .mwait =>
      let s := s.setThr n t ((x.setS x.wD 0).setS (x.wD + 1) 0).wake
      let s := { s with net := { s.net with
        waits := s.net.waits.filter (fun w => !(w.2.2.1 == thrKey n t && w.2.2.2.isNone))
        reqs := s.net.reqs.map (fun (r : Req) => if r.who = Requester.thread n t ∧ r.kind = 5 then { r with kind := 6 } else r) } }
      s.waitExpired n t
    | .msend => (s.setThr n t (x.setS x.wD 1).wake).waitExpired n t
    | .fence => (s.setThr n t x.wake).waitExpired n t
    | _ => s

/-- TE_WAIT_TIMEOUT (R176): the wait reached WAIT_TMO × 1,024 cycles. -/
def execTeWaitTimeout (n t : Fin 64) (s : State) : Host.Outcome State Fault Refusal :=
  .next (whenLive s (fun s => s.waitTimeout n t))

/-! Targets (R331, R336 to R345). -/

/-- The oldest delivered request of a source with an operation, in the order of the source's ordered requests (R338). -/
def State.takeReq (s : State) (src op : Nat) (p : Pkt → Bool) : Option (Pkt × State) :=
  match s.net.inbox.find? (fun k => k.src == src && k.op == op && p k) with
  | none => none
  | some k =>
    let before := s.net.inbox.takeWhile (fun q => q ≠ k)
    if k.cls = 0 ∧ before.any (fun q => q.src == src && q.cls == 0) then none
    else some (k, { s with net := { s.net with inbox := s.net.inbox.erase k } })

/-- Apply the next request of a source, if one is due; a chip with no image answers NOT_READY (R40). -/
def State.serveReq (s : State) (src op : Nat) (p : Pkt → Bool) (f : State → Pkt → State) : State :=
  match s.takeReq src op p with
  | none => s
  | some (k, s) => if s.valid then f s k else s.respond k 8 0 false (List.replicate k.count 0)

/-- REMOTE_LOAD (R331, R336). -/
def execRemoteLoad (src : BitVec 12) (s : State) : Host.Outcome State Fault Refusal :=
  .next (whenLive s (fun s => s.serveReq src.toNat 1 (fun _ => true) (fun s k =>
    let (s, st, bs) := s.targetLoad k.addr k.count
    s.respond k st 0 false bs)))

/-- R345: the dedupe entry of a source's slot. -/
def State.dedupAt (s : State) (src slot : Nat) : Nat := s.reg64 r_AVL_DEDUP_BASE_LO + src * 8192 + slot * 32

/-- R344: a tagged request whose SEPOCH is not the source's current one clears the source's entries. -/
def State.dedupEpoch (s : State) (src e : Nat) : State :=
  let b := s.dedupAt src 0
  if s.readLE (b + 0x1A) 1 % 2 = 1 ∧ s.readLE (b + 0x18) 2 = e then s
  else
    let s := (List.range 256).foldl (fun s i =>
      let a := s.dedupAt src i + 6
      s.writeLE a 1 (s.readLE a 1 % 128)) s
    (s.writeLE (b + 0x18) 2 e).writeLE (b + 0x1A) 1 1

/-- R343: apply a tagged request at most once, and respond. -/
def State.dedupe (s : State) (k : Pkt) (apply : State → State × Nat × Nat) : State :=
  let s := s.dedupEpoch k.src k.sepoch
  let a := s.dedupAt k.src (k.atag % 256)
  let f := s.readLE (a + 6) 1
  let same := bitAt f 7 && s.readLE (a + 4) 2 == k.sepoch
  let old := s.readLE a 4
  if same && old == k.atag then
    (s.bump f_AVL_DEDUP_HIT_CNT_COUNT).respond k (f % 16) (s.readLE (a + 0x10) 8) false []
  else if same && decide (toSigned 32 (k.atag + 2 ^ 32 - old) < 0) then
    (s.bump f_AVL_DUP_LATE_CNT_COUNT).respond k 6 0 false []
  else
    let (s, st, v) := apply s
    let s := (((s.writeLE a 4 k.atag).writeLE (a + 4) 2 k.sepoch).writeLE (a + 6) 1 (128 + st % 16)).writeLE (a + 0x10) 8 v
    s.respond k st v false []

/-- REMOTE_ATOMIC (R339, R343, R345). -/
def execRemoteAtomic (src : BitVec 12) (s : State) : Host.Outcome State Fault Refusal :=
  .next (whenLive s (fun s => s.serveReq src.toNat 3 (fun k => !k.own) (fun s k => s.dedupe k (fun s => s.targetAtomic k))))

/-- A tagged sync operation from a source; ARRIVE of a dead chip is discarded (R512). -/
def State.syncTagged (s : State) (src sop cyc : Nat) : State :=
  s.serveReq src 4 (fun k => k.aop == sop) (fun s k =>
    if sop = 2 ∧ s.peerDead k.src = true then s
    else (s.dedupe k (fun s => s.syncApply k.addr sop k.operand k.src cyc)).syncWake k.addr)

/-- SYNC_SIGNAL (R343, R349). -/
def execSyncSignal (src : BitVec 12) (s : State) : Host.Outcome State Fault Refusal :=
  .next (whenLive s (fun s => s.syncTagged src.toNat 0 0))

/-- SYNC_SET (R343, R349). -/
def execSyncSet (src : BitVec 12) (s : State) : Host.Outcome State Fault Refusal :=
  .next (whenLive s (fun s => s.syncTagged src.toNat 1 0))

/-- SYNC_ARRIVE (R343, R351, R352) in cycle `cyc` of the exposure. -/
def execSyncArrive (src : BitVec 12) (cyc : BitVec 21) (s : State) : Host.Outcome State Fault Refusal :=
  .next (whenLive s (fun s => s.syncTagged src.toNat 2 cyc.toNat))

/-- SYNC_READ (R349). -/
def execSyncRead (src : BitVec 12) (s : State) : Host.Outcome State Fault Refusal :=
  .next (whenLive s (fun s => s.serveReq src.toNat 4 (fun k => k.aop == 3) (fun s k =>
    let (s, st, v) := s.syncApply k.addr 3 0 k.src 0
    s.respond k st v false [])))

/-- R350: a WAIT_GE of another chip is answered at once when its condition holds or 4,096 remote waits are held. -/
def State.remoteWait (s : State) (k : Pkt) : State :=
  let (s, st, v) := s.syncApply k.addr 3 0 k.src 0
  if st ≠ 0 then s.respond k st v false []
  else if k.operand ≤ v then s.respond k 0 v true []
  else if (s.net.waits.filter (fun w => w.2.2.2.isSome)).length ≥ 4096 then
    (s.status f_SYN_STATUS_RWAIT_FULL).respond k 0 v false []
  else { s with net := { s.net with waits := s.net.waits ++ [(k.addr, k.operand, s.now, some k)] } }

/-- SYNC_WAIT_GE (R349, R350). -/
def execSyncWaitGe (src : BitVec 12) (s : State) : Host.Outcome State Fault Refusal :=
  .next (whenLive s (fun s => s.serveReq src.toNat 4 (fun k => k.aop == 4) (fun s k => s.remoteWait k)))

/-- REMOTE_WAIT_EXPIRY (R350): a remote WAIT_GE held for RWAIT_US is answered with MET 0. -/
def State.waitExpiry (s : State) (src tag : Nat) : State :=
  let mine (w : Nat × Nat × Nat × Option Pkt) : Bool := match w.2.2.2 with
    | some k => k.src == src && k.tag == tag
    | none => false
  match s.net.waits.find? mine with
  | some (o, _, at', some k) =>
    if s.reached at' (s.get f_SYN_CFG_RWAIT_US * 1000) = false then s
    else ({ s with net := { s.net with waits := s.net.waits.filter (fun w => !(mine w)) } }).respond k 0 (s.synVal o) false []
  | _ => s

def execRemoteWaitExpiry (src : BitVec 12) (tag : BitVec 16) (s : State) : Host.Outcome State Fault Refusal :=
  .next (whenLive s (fun s => s.waitExpiry src.toNat tag.toNat))

/-- EPOCH_QUERY (R344): CUR_SEPOCH and CUR_VALID of the source. -/
def execEpochQuery (src : BitVec 12) (s : State) : Host.Outcome State Fault Refusal :=
  .next (whenLive s (fun s => s.serveReq src.toNat 5 (fun _ => true) (fun s k =>
    let b := s.dedupAt k.src 0
    s.respond k 0 (s.readLE (b + 0x18) 2 + s.readLE (b + 0x1A) 1 % 2 * 65536) false [])))

/-! Requesters (R338, R341 to R344). -/

/-- R344: the query to a destination ended other than with OK: the updates that wait for it complete REMOTE_DEAD. -/
def State.queryFail (s : State) (dst : Nat) : State :=
  (s.setDest dst { s.destOf dst with query := none, failed := true }).settle dst

/-- R344: the answer to a query fixes the destination's SEPOCH. -/
def State.queryDone (s : State) (dst v : Nat) : State :=
  let base := s.get f_AVL_RMT_STATE_SEPOCH
  let e := if bitAt v 16 ∧ v % 65536 = base then (base + 1) % 65536 else base
  (s.setDest dst { s.destOf dst with query := none, known := true, sepoch := e }).settle dst

/-- R338, R343: a response that carries the TAG of an outstanding request or query. -/
def State.takeResponse (s : State) (k : Pkt) : State :=
  match s.net.dest.find? (fun e => e.2.query == some k.tag && e.1 == k.src) with
  | some (dst, _) => if k.status = 0 then s.queryDone dst k.operand else s.queryFail dst
  | none =>
    match s.net.reqs.find? (fun r => r.pkt.tag == k.tag && r.pkt.dst == k.src) with
    | some r => (s.markDone k.tag k.status k.operand k.met (if r.pkt.op = 1 then k.data else [])).settle k.src
    | none => s

/-- REMOTE_RESPONSE (R338, R343, R344). -/
def execRemoteResponse (src : BitVec 12) (tag : BitVec 16) (s : State) : Host.Outcome State Fault Refusal :=
  .next (whenLive s (fun s =>
    match s.net.inbox.find? (fun k => k.src == src.toNat && k.op == 0x10 && k.tag == tag.toNat) with
    | some k => s.mvAnswered (({ s with net := { s.net with inbox := s.net.inbox.erase k } }).takeResponse k)
    | none => s))

/-- DEAD_TARGET_TIMEOUT (R341, R344): the request, or epoch query, with a TAG had no response within DEAD_US of its
first send. -/
def State.deadTimeout (s : State) (tag : Nat) : State :=
  let lim := s.get f_AVL_RMT_CFG_DEAD_US * 1000
  match s.net.dest.find? (fun e => e.2.query == some tag) with
  | some (dst, d) => if s.reached d.queryAt lim then s.queryFail dst else s
  | none =>
    match s.net.reqs.find? (fun r => r.pkt.tag == tag && r.phase == .sent && r.done.isNone) with
    | some r => if s.reached r.sentAt lim then (s.deadFinish r).settle r.pkt.dst else s
    | none => s

def execDeadTargetTimeout (tag : BitVec 16) (s : State) : Host.Outcome State Fault Refusal :=
  .next (whenLive s (fun s => s.mvAnswered (s.deadTimeout tag.toNat)))

/-- ATOMIC_RESEND (R343): a tagged update without a response is sent again unchanged, with RESENT set. -/
def State.atomicResend (s : State) (tag : Nat) : State :=
  match s.net.reqs.find? (fun r => r.pkt.tag == tag && r.phase == .sent && r.done.isNone && r.pkt.tagged) with
  | some r =>
    let us := s.get f_AVL_RMT_CFG_RETRY_US
    if us ≥ s.get f_AVL_RMT_CFG_DEAD_US ∨ s.reached r.lastAt (us * 1000) = false then s
    else
      let s := s.account (s.reqSlot r) 4 (16 * r.pkt.units)
      (((s.modReq tag (fun q => { q with resends := true, lastAt := s.now })).recover).route { r.pkt with resent := true }).settleDone
  | none => s

def execAtomicResend (tag : BitVec 16) (s : State) : Host.Outcome State Fault Refusal :=
  .next (whenLive s (fun s => s.mvAnswered (s.atomicResend tag.toNat)))

/-- R342: whether a request has waited at this chip longer than DEAD_US at a time, resubmissions included. -/
def State.aged (s : State) (k : Pkt) (now : Nat) : Bool := k.cls ≠ 2 && decide (now ≤ s.tim.nextEdge) && decide (s.get f_AVL_RMT_CFG_DEAD_US * 1000 < now - k.ts)

/-- REQUEST_AGED (R342): the first aged request of an egress queue, or of those on their way into it, or of the route stage, is discarded;
`now` is the time base in ns. -/
def State.requestAged (s : State) (q : Option (Fin 24 × Fin 8)) (now : Nat) : State :=
  let count (s : State) := (s.bump f_AVL_AGED_CNT_COUNT).status f_AVL_RMT_STATUS_AGED
  match q with
  | some (p, i) =>
    let x := s.tmQ (32 + p) i
    match x.items.find? (fun it => it.pkt?.any (fun k => s.aged k now)) with
    | some it => count (s.setTmQ (32 + p) i { x with items := x.items.erase it })
    | none => match s.tm.inb.find? (fun e => e.1 == 32 + p.val && e.2.1 == i.val && e.2.2.pkt?.any (fun k => s.aged k now)) with
      | some e => count { s with tm := { s.tm with inb := s.tm.inb.erase e } }
      | none => s
  | none =>
    match s.net.held.find? (fun k => s.aged k now) with
    | some k => count { s with net := { s.net with held := s.net.held.erase k } }
    | none => s

def execRequestAged (q : Option (Fin 24 × Fin 8)) (now : Nat) (s : State) : Host.Outcome State Fault Refusal :=
  .next (whenLive s (fun s => s.requestAged q now))

/-- R347: whether the conditions to leave RECOVERING hold at this shutter. -/
def State.mayRecover (s : State) : Bool :=
  let resub (k : Pkt) := k.resent
  !((List.range 24).any (fun p => s.portSt p == 3 || ((s.portOf p).unacked ++ s.queuedPkts p).any resub))
  && !(s.net.held.any resub) && !(s.net.reqs.any (fun r => r.resends && r.done.isNone))
  && s.tim.subNs == 0 && decide (s.now ≥ s.net.recT + 4000 * s.get f_AVL_RMT_CFG_DEAD_US)

/-- RECOVERY_DONE (R347). -/
def State.recoveryDone (s : State) : State :=
  if s.flag f_AVL_RMT_STATE_RECOVERING && s.mayRecover then
    ((s.putB f_AVL_RMT_STATE_RECOVERING false).status f_AVL_RMT_STATUS_RECOVERY_DONE).raise srcRemote 0x80 0 0
  else s

def execRecoveryDone (s : State) : Host.Outcome State Fault Refusal :=
  .next (whenLive s (fun s => s.recoveryDone))

/-! Host access to sync objects (R349, R353, R362). -/

/-- SYN_OBJ_SIGNAL (R349, R362): a host write signals the object with the value, zero-extended. -/
def State.synSignal (s : State) (o v : Nat) : State := ((s.syncApply o 0 v s.chipId 0).1).syncWake o

def execSynObjSignal (o : Fin 8192) (v : BitVec 32) (s : State) : Host.Outcome State Fault Refusal :=
  .next (whenLive s (fun s => s.synSignal o v.toNat))

/-- SYN_OBJ_CONFIG (R353, R362): the configuration is written, ARRIVED is 0 and the arrival record is clear. -/
def State.synConfig (s : State) (o v : Nat) : State :=
  let s := ((s.put (f_SYN_OBJ_CFG_ENABLE o) (bits v 0 0)).put (f_SYN_OBJ_CFG_BARRIER o) (bits v 1 1)).put (f_SYN_OBJ_CFG_EXPECT o) (bits v 21 2)
  s.setSynObj o {}

def execSynObjConfig (o : Fin 8192) (v : BitVec 32) (s : State) : Host.Outcome State Fault Refusal :=
  .next (whenLive s (fun s => s.synConfig o v.toNat))

end Sys2Proof.Machine
end

