-- ==== Sys2Proof/Machine/AuditLog.lean ====
section
/-! DEFINITION. The audit log: records, their queue, blocks, the flash rings and the mirror (R532 to R543). -/
namespace Sys2Proof.Machine
open Sys2Proof


/-- R532: chip ID that a record carries. -/
def State.audChip (s : State) : Nat := if s.valid then s.chipId else 0xFFF

/-- R532: a record from its kind, flags, tick and body; `n` is LEN. -/
def auditRecord (kind flags tick chip seq n : Nat) (body : List Byte) : List Byte :=
  leBytes 1 kind ++ leBytes 1 flags ++ leBytes 2 n ++ leBytes 4 0 ++ leBytes 8 seq ++ leBytes 8 tick ++ leBytes 2 chip ++ leBytes 6 0
    ++ padTo (n - 32) body

/-- R540: bytes of records that a block holds. -/
def blockRoom : Nat := 0x8000 - 0x200

/-- R540: records enter the open block while they fit and none waits before them. -/
def placeRecords : Nat → List (List Byte) → List (List Byte) → List (List Byte) × List (List Byte)
  | 0, blk, q => (blk, q)
  | _ + 1, blk, [] => (blk, [])
  | n + 1, blk, r :: q =>
    if (blk.map List.length).sum + r.length ≤ blockRoom then placeRecords n (blk ++ [r]) q else (blk, r :: q)

/-- R548: place what can be placed and show the queue's depth. -/
def State.audPlace (s : State) : State :=
  let a := s.aud
  let r := placeRecords a.q.length a.blk a.q
  let s := { s with aud := { a with blk := r.1, blkAt := if a.blk.isEmpty then s.now else a.blkAt, q := r.2 } }
  ((s.put f_AUD_QUEUE_DEPTH r.2.length)).setReg64 r_AUD_SEQ_LO (a.seq % 2 ^ 64)

/-- R534, R538, R539: a record is created. With the queue full it is lost and counted; the next that finds room is
preceded by a GAP record. DESIGN CHOICE 37: room for both is needed then. -/
def State.audit (s : State) (kind flags tick n : Nat) (body : List Byte) : State :=
  let a := s.aud
  match a.lost with
  | none =>
    if a.q.length ≥ 4096 then
      let s := { s with aud := { a with lost := some (1, a.seq), seq := a.seq + 1 } }
      let s := ((s.bump f_AUD_LOST_CNT_COUNT).status f_AUD_STATUS_LOST).audPlace
      s.raise srcAud 0x6A 0 0
    else
      ({ s with aud := { a with q := a.q ++ [auditRecord kind flags tick s.audChip a.seq n body], seq := a.seq + 1 } } : State).audPlace
  | some (k, first) =>
    if a.q.length + 2 > 4096 then
      (({ s with aud := { a with lost := some (k + 1, first), seq := a.seq + 1 } } : State).bump f_AUD_LOST_CNT_COUNT).audPlace
    else
      let gap := auditRecord 0x0D 0 s.tim.tick s.audChip a.seq 48 (leBytes 4 k ++ leBytes 4 0 ++ leBytes 8 first)
      ({ s with aud := { a with
          q := a.q ++ [gap, auditRecord kind flags tick s.audChip (a.seq + 1) n body], seq := a.seq + 2, lost := none } } : State).audPlace

/-- R548: flash slots that may be written: with the mirror enabled, those whose block is acknowledged. -/
def State.audFree (s : State) : Nat :=
  if s.get f_AUD_MIRROR_CFG_SLOTS = 0 then 2048
  else 2048 - min 2048 ((s.get f_AUD_MIRROR_PI_PI + 2 ^ 32 - s.get f_AUD_MIRROR_CI_CI) % 2 ^ 32)

/-- Show FREE. -/
def State.audShow (s : State) : State := s.put f_AUD_FLASH_FREE s.audFree

/-- R541: the uncompressed SEC1 form of the device identity public key. -/
def idPublicKey : List Byte := 4 :: (List.range 96).map Config.idKey

/-- R540: whether the open block closes: the next record does not fit, CLOSE_MS has passed since its first record, or the safelight
state has been entered and its SAFELIGHT record has been placed. -/
def State.closeDue (s : State) : Bool :=
  let a := s.aud
  !a.blk.isEmpty && (!a.q.isEmpty || s.reached a.blkAt (s.get f_AUD_CFG_CLOSE_MS * 1000000)
    || (s.flt.safeL && !a.q.any (fun r => r.head? == some 0x0A)))

/-- AUDIT_BLOCK_CLOSE (R540, R541, R543): the open block is closed, signed and waits to be written. The signature is a
free value. A block that has no slot to go to does not close. -/
def State.auditClose (s : State) : State :=
  let a := s.aud
  if !s.closeDue then s
  else if a.closed.length ≥ s.audFree then s.status f_AUD_STATUS_RING_HELD
  else
    let first := a.blk.headD []
    let recs := a.blk.flatten
    let h0 := leBytes 4 0x42445541 ++ leBytes 2 1 ++ leBytes 2 s.audChip ++ leBytes 8 a.next ++ (first.drop 8).take 8
      ++ leBytes 2 a.blk.length ++ leBytes 2 0 ++ leBytes 4 recs.length ++ (first.drop 16).take 8 ++ leBytes 8 s.tim.tick
      ++ padTo 48 a.prev ++ sha384 (a.blk.flatMap sha384) ++ sha384 idPublicKey
    let sig := (List.range 96).map (fun i => Config.freeByte (s.free + i))
    let hdr := h0 ++ sig ++ List.replicate 216 0 ++ leBytes 8 a.next
    let d := sha384 (h0 ++ sig)
    ({ s with
      free := s.free + 96
      aud := { a with blk := [], next := a.next + 1, prev := d, closed := a.closed ++ [{ seq := a.next, bytes := hdr ++ recs, digest := d }] } } : State).audPlace

def execAuditBlockClose (s : State) : Host.Outcome State Fault Refusal := .next s.auditClose

/-- R543: copy a committed block to the mirror, COMMIT last, and advance PI. -/
def State.audMirror (s : State) (b : AudBlk) : State :=
  let n := s.get f_AUD_MIRROR_CFG_SLOTS
  if n = 0 then s
  else
    let pi := s.get f_AUD_MIRROR_PI_PI
    let a := s.reg64 r_AUD_MIRROR_BASE_LO + 0x8000 * (pi % n)
    let port := s.get f_HST_ROLE_MGR_PORT
    let s := s.hostW 0 port 0 (a + 0x200) (b.bytes.drop 0x200)
    let s := s.hostW 0 port 0 a (b.bytes.take 0x1F8)
    let s := s.hostW 0 port 0 (a + 0x1F8) ((b.bytes.drop 0x1F8).take 8)
    (s.emit (.mirror b.seq)).put f_AUD_MIRROR_PI_PI ((pi + 1) % 2 ^ 32)

/-- AUDIT_BLOCK_COMMIT (R542): the oldest closed block is written to its slot of flash A and then of flash B; it is
committed once one of them holds it. With both writes failed it waits and is written again (Assumption 37). -/
def State.auditCommit (s : State) (failA failB : Bool) : State :=
  match s.aud.closed with
  | [] => s
  | b :: rest =>
    let slot := b.seq % 2048
    let s := ((s.putB f_AUD_FLASH_FAIL_A failA).putB f_AUD_FLASH_FAIL_B failB)
    let s := if failA then (s.status f_AUD_STATUS_FLASH).raise srcAud 0x6B 0 0 else s
    let s := if failB then (s.status f_AUD_STATUS_FLASH).raise srcAud 0x6B 0 0 else s
    let a := s.aud
    let ringA := if failA then sdel a.ringA slot else sset {} a.ringA slot b
    let ringB := if failB then sdel a.ringB slot else sset {} a.ringB slot b
    let s := { s with aud := { a with ringA := ringA, ringB := ringB } }
    if failA && failB then s
    else
      let s := { s with aud := { s.aud with closed := rest, newest := some b } }
      ((s.audMirror b).audPlace).audShow

def execAuditBlockCommit (failA failB : Bool) (s : State) : Host.Outcome State Fault Refusal := .next (s.auditCommit failA failB)

/-- MIRROR_ACK (R543): the manager writes AUD_MIRROR_CI. -/
def State.mirrorAck (s : State) (ci : Nat) : State := (s.put f_AUD_MIRROR_CI_CI ci).audShow

def execMirrorAck (ci : BitVec 32) (s : State) : Host.Outcome State Fault Refusal := .next (whenLive s (fun s => s.mirrorAck ci.toNat))

/-! Records that several blocks write (R533). -/

/-- R536: whether a window is audited. -/
def State.winAudited (s : State) (w : Nat) : Bool := decide (w < 128) && bitAt (s.reg (r_AUD_WIN (w / 32))).toNat (w % 32)
/-- R526: whether a window carries LOG_TICK. -/
def State.winReplay (s : State) (w : Nat) : Bool := decide (w < 128) && bitAt (s.reg (r_AUD_RPL_WIN (w / 32))).toNat (w % 32)
/-- R523: whether a partition is audited. -/
def State.partAudited (s : State) (p : Nat) : Bool := bitAt (s.get f_AUD_PART_AUDITED) p
/-- R525: whether a partition replays. -/
def State.partReplay (s : State) (p : Nat) : Bool := bitAt (s.get f_AUD_PART_REPLAY) p

/-- FLAGS of a record of a partition or window (R532). -/
def rplFlag (b : Bool) : Nat := if b then 1 else 0

/-- WINDOW record: 1 enable, 2 reset, 3 remove, 4 error, 5 forced. -/
def State.auditWindow (s : State) (w action : Nat) : State :=
  s.audit 0x01 (rplFlag (s.winReplay w)) s.tim.tick 64
    (leBytes 1 w ++ leBytes 1 action ++ leBytes 2 (s.get (f_TWN_TENANT_TENANT w)) ++ leBytes 4 (s.get (f_TWN_PASID_PASID w))
      ++ leBytes 4 (s.get (f_TWN_CTX_CTX_BASE w)) ++ leBytes 4 (s.get (f_TWN_CTX_COUNT_CTX_COUNT w)) ++ leBytes 2 (s.get (f_TWN_PARTS_PARTS w))
      ++ leBytes 1 (s.get (f_TWN_TENANT_SLOT w)) ++ leBytes 1 ((if s.winAudited w then 1 else 0) + (if s.winReplay w then 2 else 0)))

/-- MANAGER record (R463): 1 lapse, 2 failover. -/
def State.auditManager (s : State) (cause : Nat) : State :=
  s.audit 0x09 0 s.tim.tick 48 (leBytes 1 cause ++ leBytes 1 (s.get f_HST_ROLE_MGR_PORT))

/-- PIPELINE record of an audited partition (R62). -/
def State.auditPipeline (s : State) (p base : Nat) : State :=
  if s.partAudited p then
    s.audit 0x0C (rplFlag (s.partReplay p)) s.tim.tick 48
      (leBytes 1 p ++ leBytes 1 (s.get (f_SRV_PIPE_CFG_PERIOD p)) ++ leBytes 6 0 ++ leBytes 8 base)
  else s

/-- COMPOSITION record: 1 ACTIVE, 2 OVERLAP, 3 DOWN. -/
def State.auditComposition (s : State) (comp st epoch : Nat) (desc : List Byte) : State :=
  s.audit 0x08 0 s.tim.tick 96 (leBytes 1 comp ++ leBytes 1 st ++ leBytes 2 epoch ++ leBytes 4 0 ++ sha384 desc)

end Sys2Proof.Machine
end

