-- ==== Sys2Proof/Machine/Signal.lean ====
section
/-! DEFINITION. The signal cores: bundles, complex arithmetic, address generation, transfers and the work handed to the
radio accelerators (R366 to R385, R399 to R405). -/
namespace Sys2Proof.Machine
open Sys2Proof

/-! Bundle words (R371). -/

/-- R371, R382: whether a bundle is legal. LAR and SAR conflict only where both slots act (Assumption 31); a `jwait` or `jpoll` of an odd
XD, which R382 wants even, is illegal (DESIGN CHOICE 28). -/
def bundleLegal (b : Nat) : Bool :=
  let xop := bits b 93 88
  bits b 23 21 == 0 && bits b 47 45 == 0 && bits b 87 68 == 0 && decide (bits b 3 0 ≤ 4) && decide (bits b 27 24 ≤ 4)
  && decide (bits b 53 48 ≤ 0xA) && decide (xop ≤ 27) && !(bitAt b 16 && bitAt b 20) && !(bitAt b 40 && bitAt b 44)
  && !(bits b 3 0 ≠ 0 && bits b 27 24 ≠ 0 && bits b 11 8 == bits b 35 32)
  && !((xop == 23 || xop == 24) && bits b 97 94 % 2 == 1)

def bundleImm (b : Nat) : Int := toSigned 22 (bits b 127 106)

/-- Reverse the low 19 bits. -/
def rev19 (x : Nat) : Nat := (List.range 19).foldl (fun v i => v + bits x i i * 2 ^ (18 - i)) 0

/-- R378: an address register after its slot's access. -/
def SigThr.postMod (x : SigThr) (ar o : Nat) (modulo rev : Bool) (ml : Nat) : Nat :=
  let a := sget 0 x.ar ar
  let d := toSigned 20 (sget 0 x.ofs o)
  let base := sget 0 x.ml (2 * ml)
  let len := sget 0 x.ml (2 * ml + 1)
  if modulo then (base + (((a : Int) - base + d) % (len : Int)).toNat) % 2 ^ 19
  else if rev then rev19 ((rev19 a + rev19 (sget 0 x.ofs o % 2 ^ 19)) % 2 ^ 19)
  else ofSigned 19 ((a : Int) + d)

/-- R372, R378, R380: the fault of a memory slot: its local offset. -/
def State.slotFault (s : State) (c : Nat) (x : SigThr) (ar len al : Nat) (modulo : Bool) (ml : Nat) : Option Nat :=
  let a := sget 0 x.ar ar
  let base := sget 0 x.ml (2 * ml)
  let ln := sget 0 x.ml (2 * ml + 1)
  if a % al ≠ 0 || (modulo && (ln == 0 || decide (a < base) || decide (base + ln < a + len))) || !(s.localOk c x.radio a len) then some a
  else none

/-- Element bytes and length of a load or a store: operations 0x1 to 0x4. -/
def loadSize (op vl : Nat) : Nat × Nat := match op with
  | 1 => (8, 8 * vl)
  | 2 => (4, 4 * vl)
  | 3 => (4, 4)
  | _ => (8, 8)
def storeSize (op vl : Nat) : Nat × Nat := match op with
  | 1 | 3 => (8, 8 * vl)
  | 2 => (4, 4 * vl)
  | _ => (4, 4)

/-- R372: put what a load read into its register. -/
def SigThr.putLoad (x : SigThr) (op d : Nat) (bs : List Byte) : SigThr :=
  let word (i n : Nat) := leNat ((bs.drop i).take n)
  match op with
  | 3 => x.setX d (word 0 4)
  | 2 => (List.range x.vl).foldl (fun x l =>
      (x.cset d l 0 (toSigned 16 (word (4 * l) 2) * 256)).cset d l 1 (toSigned 16 (word (4 * l + 2) 2) * 256)) x
  | _ => (List.range x.vl).foldl (fun x l =>
      let o := if op = 1 then 8 * l else 0
      (x.cset d l 0 (toSigned 24 (word o 3))).cset d l 1 (toSigned 24 (word (o + 4) 3))) x

/-- R113: a signed number over 2^k to the nearest integer, ties to even. -/
def rneInt (v : Int) (k : Nat) : Int := let r : Int := (rnePow v.natAbs k).1; if v < 0 then -r else r

/-- R377: what a store writes of an accumulator component, and the flags it sets. -/
def storeComp (x : SigThr) (v : Int) (w : Nat) : Int × Nat :=
  let y := rneInt v (x.rnd % 64 + (24 - w))
  let lim : Int := 2 ^ (w - 1)
  if y ≥ lim ∨ y < -lim then (if bitAt x.rnd 6 then (satSigned w y, 1) else (toSigned w (ofSigned w y), 2)) else (y, 0)

/-- R372, R377: the bytes of a store, and the flags. -/
def SigThr.storeData (x : SigThr) (op src : Nat) : List Byte × Nat :=
  let comp (l q : Nat) : Int × Nat := match op with
    | 1 => storeComp x (x.aget (src % 4) l q) 24
    | 2 => storeComp x (x.aget (src % 4) l q) 16
    | _ => (x.cget src l q, 0)
  if op = 4 then (leBytes 4 (x.sr src), 0)
  else
    (List.range x.vl).foldl (fun r l =>
      let i := comp l 0
      let q := comp l 1
      let n := if op = 2 then 2 else 4
      (r.1 ++ leBytes n (ofSigned (8 * n) i.1) ++ leBytes n (ofSigned (8 * n) q.1), r.2 ||| i.2 ||| q.2)) ([], 0)

/-! Complex arithmetic (R373, R376). -/

/-- R376: an accumulator component, limited to 56 bits; and whether it was limited. -/
def limit56 (v : Int) : Int × Bool := let y := satSigned 56 v; (y, y ≠ v)

/-- One lane of a complex operation on accumulators: the new I and Q. -/
def macLane (op : Nat) (ai aq bi bq ci cq : Int) : Int × Int :=
  match op with
  | 1 => (ai * bi - aq * bq, ai * bq + aq * bi)
  | 2 => (ai * bi + aq * bq, aq * bi - ai * bq)
  | 3 => (ci + (ai * bi - aq * bq), cq + (ai * bq + aq * bi))
  | 4 => (ci + (ai * bi + aq * bq), cq + (aq * bi - ai * bq))
  | 5 => (ci - (ai * bi - aq * bq), cq - (ai * bq + aq * bi))
  | 6 => (ci + ai * bi, cq + aq * bi)
  | 7 => (ci + (ai * ai + aq * aq), cq)
  | _ => (0, 0)

/-- R373: the complex slot, on the registers `y` that the bundle found; the result and the flags. -/
def SigThr.mop (x y : SigThr) (op a b acc d : Nat) : SigThr × Nat :=
  (List.range y.vl).foldl (fun r l =>
    let (x, fl) := r
    let ai := y.cget a l 0
    let aq := y.cget a l 1
    let bi := y.cget b l 0
    let bq := y.cget b l 1
    if op = 8 ∨ op = 9 then
      let i := if op = 8 then ai + bi else ai - bi
      let q := if op = 8 then aq + bq else aq - bq
      let i' := satSigned 24 i
      let q' := satSigned 24 q
      ((x.cset d l 0 i').cset d l 1 q', fl ||| (if i' ≠ i ∨ q' ≠ q then 1 else 0))
    else if op = 0 then r
    else
      let v := macLane op ai aq bi bq (y.aget acc l 0) (y.aget acc l 1)
      let i := limit56 v.1
      let q := limit56 v.2
      ((x.aset acc l 0 i.1).aset acc l 1 q.1, fl ||| (if i.2 || q.2 then 4 else 0))) (x, 0)

/-- R374: the scalar operations on registers and the branches. `y` holds the registers that the bundle found; a shift by
32 or more gives the free value `fv` (Assumption 25); csrr and csrw take VL, RND, FLAGS as 0, 1, 2 in IMM
(Assumption 32). `set` holds the FLAGS bits that the bundle sets. -/
def SigThr.xop (x y : SigThr) (b set fv : Nat) : SigThr :=
  let d := bits b 97 94
  let p := y.sr (bits b 101 98)
  let q := y.sr (bits b 105 102)
  let imm := bundleImm b
  let go (x : SigThr) : SigThr := { x with pc := ofSigned 48 ((y.pc : Int) + imm * 16) }
  match bits b 93 88 with
  | 1 => x.setX d (p + q)
  | 2 => x.setX d (p + 2 ^ 32 - q)
  | 3 => x.setX d (p &&& q)
  | 4 => x.setX d (p ||| q)
  | 5 => x.setX d (p ^^^ q)
  | 6 => x.setX d (if q < 32 then p * 2 ^ q else fv)
  | 7 => x.setX d (if q < 32 then p / 2 ^ q else fv)
  | 8 => x.setX d (if q < 32 then ofSigned 32 (toSigned 32 p / 2 ^ q) else fv)
  | 9 => x.setX d (ofSigned 32 imm)
  | 10 => if p = q then go x else x
  | 11 => if p ≠ q then go x else x
  | 12 => if toSigned 32 p < toSigned 32 q then go x else x
  | 13 => go x
  | 14 => (go x).setX d (y.pc + 16)
  | 15 => { x with pc := y.pc / 2 ^ 32 * 2 ^ 32 + p / 16 * 16 }
  | 17 => x.setX d (match imm with | 0 => y.vl | 1 => y.rnd | 2 => y.flags | _ => 0)
  | 18 => (match imm with
      | 0 => if 1 ≤ p % 32 ∧ p % 32 ≤ 16 then { x with vl := p % 32 } else x
      | 1 => if p % 64 ≤ 32 then { x with rnd := p % 128 } else x
      | 2 => { x with flags := p % 32 ||| set }
      | _ => x)
  | 19 => { x with ar := sset 0 x.ar d (p % 2 ^ 19) }
  | 20 => { x with ofs := sset 0 x.ofs d (p % 2 ^ 20) }
  | 21 => { x with ml := sset 0 (sset 0 x.ml (2 * (d % 8)) (p % 2 ^ 19)) (2 * (d % 8) + 1) (q % 2 ^ 19) }
  | _ => x

/-- R366: whether thread t of core c is ready in the core's present lease part. -/
def State.sigReady (s : State) (c t : Nat) : Bool :=
  let x := s.sigThr c t
  x.st == .ready && (if x.radio then s.coreLease c == .radio else s.coreLease c == .openLease)

/-- R366: a thread's rank: radio-bound threads are of equal rank, tenant threads rank by bound priority. -/
def SigThr.rank (x : SigThr) : Nat := if x.radio then 0 else x.prio

/-- R366: the thread that issues next on a core: of the ready threads of the highest rank, the first after the one that issued last. -/
def State.sigNext (s : State) (c : Nat) : Option Nat :=
  let l := (List.range 8).filter (fun t => s.sigReady c t)
  let hi := l.foldl (fun h t => max h (s.sigThr c t).rank) 0
  let l := l.filter (fun t => (s.sigThr c t).rank == hi)
  let last := sget 0 s.sig.last c
  match l.find? (fun t => decide (last < t)) with
  | some t => some t
  | none => l.head?

/-- R366: whether a thread may issue a bundle now. -/
def State.sigMayRun (s : State) (c t : Nat) : Bool :=
  s.hasCore c && !(s.flag (f_SIG_CORE_ISOLATED c)) && s.sigNext c == some t

/-- R371, R384: whether the fetch of a bundle fails; the locked radio program never misses. -/
def State.sigFetchBad (s : State) (x : SigThr) : Bool :=
  !x.radio && (s.region x.pc ≠ .lpddr || s.region (x.pc + 15) ≠ .lpddr || !(touched s.ms.uncorr x.pc 16).isEmpty)

/-- The address that `jsub` or `xfer` reads, if it faults (R381, R382). -/
def State.handFault (s : State) (c : Nat) (x : SigThr) (b : Nat) : Option Nat :=
  let p := x.sr (bits b 101 98)
  let q := x.sr (bits b 105 102)
  let n := 64 * (bits b 111 106 + 1)
  match bits b 93 88 with
  | 22 => if p % 64 ≠ 0 || !(s.localOk c x.radio p 64) then some p else none
  | 25 =>
    if p % 64 ≠ 0 || !(s.localOk c x.radio p n) then some p
    else if q % 64 ≠ 0 || decide (2 ^ 28 < q + n) || !(s.partReach x.part x.radio (stageBase + q) n) then some (stageBase + q)
    else none
  | _ => none

/-- R371 to R378, R384: thread t of core c issues the bundle `w`, whose scalar operation is one of a row's. A load that meets an
uncorrectable error stops the thread (R185). The load reads
before the store writes, the slots take the registers as the bundle found them, and `hand` does what the scalar slot
hands to another unit. A load and an operation that write one register leave it open: a free value. -/
def State.sigRow (s : State) (c t : Nat) (w : BitVec 128) (mine : Nat → Bool) (hand : State → Nat → State) : State :=
  let b := w.toNat
  let y := s.sigThr c t
  let lop := bits b 3 0
  let sop := bits b 27 24
  let (lal, ll) := loadSize lop y.vl
  let (sal, sl) := storeSize sop y.vl
  if !s.sigMayRun c t then s
  else if s.sigFetchBad y then s.sigFault c t 0x19 y.pc
  else if !(bundleLegal b) || y.pc % 16 ≠ 0 then s.sigFault c t 0x18 y.pc
  else if !(mine (bits b 93 88)) then s
  else if y.ecc = 2 then s.sigFault c t 0x1B y.pc
  else
    let s := if y.ecc = 1 then (s.onSig c t (fun x => { x with ecc := 0 })).status f_SIG_STATUS_REG_CORR else s
    let bad := firstFault [if lop = 0 then none else (s.slotFault c y (bits b 11 8) ll lal (bitAt b 16) (bits b 19 17)).map (fun a => (0, a)),
      if sop = 0 then none else (s.slotFault c y (bits b 35 32) sl sal (bitAt b 40) (bits b 43 41)).map (fun a => (0, a)),
      (s.handFault c y b).map (fun a => (0, a))]
    match bad with
    | some (_, a) => s.sigFault c t 0x1A a
    | none =>
      let unit := srcCore (s.physCore c)
      let (s, lbs, lst) : State × List Byte × Acc :=
        if lop = 0 then (s, [], .ok) else s.load unit (sigBase c + sget 0 y.ar (bits b 11 8)) ll
      let (sbs, f1) := y.storeData sop (bits b 31 28)
      let f1 := if sop = 0 then 0 else f1
      let s := if sop = 0 then s else (s.store unit (sigBase c + sget 0 y.ar (bits b 35 32)) sbs).1
      let (s, fv) := s.freeW
      let x := { y with pc := (y.pc + 16) % 2 ^ 48, ecc := 0 }
      let x := if lop = 0 then x else { x.putLoad lop (bits b 7 4) lbs with ar := sset 0 x.ar (bits b 11 8) (y.postMod (bits b 11 8) (bits b 15 12) (bitAt b 16) (bitAt b 20) (bits b 19 17)) }
      let x := if sop = 0 then x else { x with ar := sset 0 x.ar (bits b 35 32) (y.postMod (bits b 35 32) (bits b 39 36) (bitAt b 40) (bitAt b 44) (bits b 43 41)) }
      let mop := bits b 53 48
      let (x, f2) := x.mop y mop (bits b 57 54) (bits b 61 58) (bits b 63 62) (bits b 67 64)
      let x := x.orFlags (f1 ||| f2)
      let x := x.xop y b (f1 ||| f2) fv
      let clashC := (lop = 1 ∨ lop = 2 ∨ lop = 4) ∧ (mop = 8 ∨ mop = 9) ∧ bits b 7 4 = bits b 67 64
      let clashX := lop = 3 ∧ bits b 7 4 = bits b 97 94 ∧ [1, 2, 3, 4, 5, 6, 7, 8, 9, 14, 17].contains (bits b 93 88)
      let x := if clashC then (List.range y.vl).foldl (fun x l =>
          let v (q : Nat) := toSigned 24 (Config.freeWord (s.free + 2 * l + q)).toNat
          (x.cset (bits b 67 64) l 0 (v 0)).cset (bits b 67 64) l 1 (v 1)) x
        else if clashX then x.setX (bits b 97 94) (Config.freeWord s.free).toNat else x
      let s := { s with free := s.free + 32, sig := { s.sig with last := sset 0 s.sig.last c t } }
      let s := s.setSigThr c t x
      let fl := f1 ||| f2
      let s := if bitAt fl 0 then s.status f_SIG_STATUS_SAT else s
      let s := if bitAt fl 1 then s.status f_SIG_STATUS_WRAP else s
      let s := if bitAt fl 2 then s.status f_SIG_STATUS_ACC_OVF else s
      let s := s.bump64 (r_SIG_BUNDLE_CNT_LO c) 1
      let s := s.account (if y.radio then 0 else y.slot) 1 1
      if lst = .uncorr then s.sigLoadStop c t y.pc else hand s b

/-- Whether a scalar operation belongs to the row SIG_BUNDLE: none of those that have a row of their own. -/
def plainXop (x : Nat) : Bool := !(x == 16 || (decide (22 ≤ x) && decide (x ≤ 26)))

/-- SIG_BUNDLE (R371 to R380); `fence` orders accesses that each complete in the step that issues them. -/
def execSigBundle (c : Fin 96) (t : Fin 8) (w : BitVec 128) (s : State) : Host.Outcome State Fault Refusal :=
  .next (whenLive s (fun s => s.sigRow c t w plainXop (fun s _ => s)))

/-! Halting, waiting, re-running (R367, R368, R383, R385). -/

/-- R364, R489: how many engines of a kind a base die holds. -/
def engCount (kind : Nat) : Nat := match kind with
  | 0 | 1 => 8
  | 2 | 3 => 2
  | 4 | 5 => 4
  | _ => 0

def State.engOf (s : State) (r : Nat) : Eng := sget {} s.sig.eng r
def State.setEng (s : State) (r : Nat) (e : Eng) : State := { s with sig := { s.sig with eng := sset {} s.sig.eng r e } }

/-- R368: tenant threads of a core are parked; one that waits stops its timer. -/
def State.parkCore (s : State) (c : Nat) : State :=
  (List.range 8).foldl (fun s u => s.onSig c u (fun x =>
    if !x.radio && (x.st == .ready || x.st == .wait) then { x with st := .parked, prev := x.st } else x)) s

/-- R368: parked threads of a core return to their state before; one whose wait ended meanwhile is READY. -/
def State.resumeCore (s : State) (c : Nat) : State :=
  (List.range 8).foldl (fun s u => s.onSig c u (fun x =>
    if x.st = .parked then { x with st := if x.why = .none then .ready else x.prev } else x)) s

def State.setLease (s : State) (r : Nat) (l : LeasePhase) : State := { s with tim := { s.tim with lease := sset .openLease s.tim.lease r l } }

/-- R367, R387: a core enters or leaves its radio lease. -/
def State.setCoreLease (s : State) (c : Nat) (l : LeasePhase) : State :=
  (s.setLease (coreRes c) l).putB (f_SIG_CORE_IN_RADIO c) (l = .radio)

/-- R367: the radio program's entry for a core. -/
def State.radioEntry (s : State) (c : Nat) : Nat :=
  match s.img with
  | some g => ((g.radioEntry.find? (fun e => e.1 == c)).map (·.2)).getD 0
  | none => 0

/-- R367, R383: restart every radio-bound thread of core r at the entry of core c's radio program. -/
def State.restartRadio (s : State) (r c : Nat) : State :=
  (List.range 8).foldl (fun s u => s.onSig r u (fun x => if x.radio then { x.restart (s.radioEntry c) with tid := c } else x)) s

/-- R55: the lowest usable engine of the same kind on a base die other than engine r. -/
def State.otherEngine (s : State) (kind die r : Nat) : Option Nat :=
  ((List.range (engCount kind)).map (srcEngine kind die)).find? (fun q => q ≠ r && !(s.engOf q).isolated)

/-- SIG_HALT (R57, R367, R368, R383): the thread goes IDLE, and the task of a radio-bound one is complete. When the last radio-bound
thread of a re-run halts, the failed core's radio work is complete, and the re-run core's open lease may resume. -/
def State.sigHalt (s : State) (c t : Nat) : State :=
  let f := sget 0 s.sig.rerun c
  let s := if (s.sigThr c t).radio then s.workDone (coreRes (if f ≠ 0 then f - 1 else c)) t else s
  let s := s.onSig c t (fun x => { x with st := .idle, why := .none })
  let busy := (List.range 8).any (fun u => let x := s.sigThr c u; x.radio && x.st ≠ .idle && x.st ≠ .faulted)
  if f ≠ 0 ∧ !busy then
    { s with sig := { s.sig with rerun := sset 0 s.sig.rerun c 0 }, tim := { s.tim with radioWork := s.tim.radioWork.filter (fun w => w.res ≠ coreRes (f - 1)) } }
  else s

def execSigHalt (c : Fin 96) (t : Fin 8) (w : BitVec 128) (s : State) : Host.Outcome State Fault Refusal :=
  .next (whenLive s (fun s => s.sigRow c t w (fun x => x == 16) (fun s _ => s.sigHalt c t)))

/-- R54: the re-run core of a base die. -/
def State.rerunCore (s : State) (b : Nat) : Nat :=
  s.get (match b with | 0 => f_SIG_RERUN_CORE_0 | 1 => f_SIG_RERUN_CORE_1 | 2 => f_SIG_RERUN_CORE_2 | _ => f_SIG_RERUN_CORE_3)

/-- R56: a re-run is noted. -/
def State.noteRerun (s : State) : State := (s.status f_CLK_SHT_STATUS_RERUN).bump f_CLK_RERUN_CNT_COUNT

/-- SIG_RERUN (R55, R56, R383): core c's radio-bound threads have faulted in its radio lease; the die's re-run core ends its
open lease, parks its tenant threads and runs c's radio task from its start. -/
def State.sigRerun (s : State) (c : Nat) : State :=
  let r := s.rerunCore (s.coreDie c)
  let failed := s.coreLease c = .radio ∧ (List.range 8).any (fun u => let x := s.sigThr c u; x.radio && x.st == .faulted)
  if failed ∧ r < 96 ∧ r ≠ c ∧ sget 0 s.sig.rerun r = 0 ∧ s.hasCore r ∧ !(s.flag (f_SIG_CORE_ISOLATED r)) then
    let s := ((s.parkCore r).setCoreLease r .radio).restartRadio r c
    let s := { s with sig := { s.sig with rerun := sset 0 s.sig.rerun r (c + 1) } }
    (s.status f_SIG_STATUS_RERUN).noteRerun
  else s

def execSigRerun (c : Fin 96) (s : State) : Host.Outcome State Fault Refusal := .next (whenLive s (fun s => s.sigRerun c))

/-! Transfers (R381). -/

/-- The transfers of an `xfer`, split at bank boundaries (R187), each with its bank. -/
def State.xferParts (s : State) (c t : Nat) (b : Nat) : List (Nat × Transfer) :=
  let x := s.sigThr c t
  let off := x.sr (bits b 101 98)
  let st := x.sr (bits b 105 102)
  let n := bits b 111 106 + 1
  let wr := bitAt b 112
  let k := min n ((0x80000 - st % 0x80000) / 64)
  let unit := srcCore (s.physCore c)
  let mk (i m : Nat) : Nat × Transfer :=
    let bank := (st + 64 * i) / 0x80000
    (bank, { input := s.arbInput unit x.radio bank, line := (st + 64 * i) % 0x80000 / 64, beats := m, write := wr, master := unit, job := x.job
             data := if wr then s.readBytes (sigBase c + off + 64 * i) (64 * m) else [], xfer := some (c, t, off + 64 * i) })
  if k < n then [mk 0 k, mk k (n - k)] else [mk 0 n]

/-- Send transfers to their banks' arbiters. -/
def State.sendXfers (s : State) (c t moved : Nat) (l : List (Nat × Transfer)) : State :=
  l.foldl (fun s p => (s.onSig c t (fun x => { x with xfers := x.xfers + 1 })).stageRequest p.1 p.2 moved) s

/-- R185: a transfer to stage memory reads local memory; whether an uncorrectable error, which is then reported, ends it. -/
def State.xferLoad (s : State) (c t b : Nat) : State × Bool :=
  if bitAt b 112 then
    let (s, _, st) := s.load (srcCore (s.physCore c)) (sigBase c + (s.sigThr c t).sr (bits b 101 98)) (64 * (bits b 111 106 + 1))
    (s, st ≠ .ok)
  else (s, false)

/-- R381, R385: an `xfer` issues, or waits when four are outstanding. `moved` is the holder's beats in its bank. -/
def State.doXfer (s : State) (c t moved : Nat) (b : Nat) : State :=
  let r := s.xferLoad c t b
  let s := r.1
  if r.2 then s.onSig c t (fun x => x.orFlags 16) else
  let l := s.xferParts c t b
  if (s.sigThr c t).xfers < 4 then s.sendXfers c t moved l
  else match l with
    | (bank, x) :: _ => s.onSig c t (fun y => { y with st := .wait, why := .xfer, wXfer := some { x with beats := bits b 111 106 + 1 }, wBank := bank })
    | [] => s

/-- A waiting `xfer` goes on once fewer than four are outstanding. -/
def State.resumeXfer (s : State) (c t moved : Nat) : State :=
  let x := s.sigThr c t
  match x.wXfer with
  | some p =>
    if x.why = .xfer ∧ x.xfers < 4 then
      let k := min p.beats (8192 - p.line)
      let l := if k < p.beats then
          [(x.wBank, { p with beats := k, data := p.data.take (64 * k) }),
           (x.wBank + 1, { p with line := 0, beats := p.beats - k, data := p.data.drop (64 * k), xfer := p.xfer.map (fun e => (e.1, e.2.1, e.2.2 + 64 * k)) })]
        else [(x.wBank, p)]
      (s.onSig c t (fun y => y.wake)).sendXfers c t moved l
    else s
  | none => s

/-- XFER (R381). -/
def execXfer (c : Fin 96) (t : Fin 8) (w : BitVec 128) (moved : Fin 65) (s : State) : Host.Outcome State Fault Refusal :=
  .next (whenLive s (fun s =>
    if (s.sigThr c t).why = .xfer then s.resumeXfer c t moved
    else s.sigRow c t w (fun x => x == 25) (fun s b => s.doXfer c t moved b)))

/-- XWAIT (R381): the thread goes on at once when it has no transfer outstanding. -/
def execXwait (c : Fin 96) (t : Fin 8) (w : BitVec 128) (s : State) : Host.Outcome State Fault Refusal :=
  .next (whenLive s (fun s => s.sigRow c t w (fun x => x == 26) (fun s _ =>
    s.onSig c t (fun x => if x.xfers = 0 then x else { x with st := .wait, why := .xwait }))))

/-! Jobs of the radio accelerators (R382). -/

/-- The engine that a job names, as a resource number. -/
def State.jobEng (s : State) (j : AccJob) : Nat := srcEngine j.kind (s.coreDie j.core) j.eng

def State.engFull (s : State) (j : AccJob) : Bool :=
  let e := s.engOf (s.jobEng j)
  (if j.radio then decide (32 ≤ e.radioQ.length) else decide (64 ≤ e.openQ.length)) || decide (16 ≤ (s.sigThr j.core j.thr).outst)

/-- A job enters its engine's queue. -/
def State.enqueueAcc (s : State) (j : AccJob) : State :=
  let r := s.jobEng j
  let e := s.engOf r
  let s := s.setEng r (if j.radio then { e with radioQ := e.radioQ ++ [j] } else { e with openQ := e.openQ ++ [j] })
  (s.onSig j.core j.thr (fun x => { x with outst := x.outst + 1 })).bump (f_SIG_JOB_CNT_COUNT j.core)

/-- The job that `jsub` reads: the descriptor at x(XA), for the engine in x(XB). -/
def State.accJobAt (s : State) (c t b : Nat) : AccJob :=
  let x := s.sigThr c t
  let a := sigBase c + x.sr (bits b 101 98)
  let q := x.sr (bits b 105 102)
  { core := c, thr := t, job := x.job, part := x.part, radio := x.radio, kind := bits q 2 0, eng := bits q 5 3, ctrl := s.readLE a 4
    seq := s.readLE (a + 4) 4, src := s.readLE (a + 8) 8, dst := s.readLE (a + 16) 8, inLen := s.readLE (a + 0x18) 4
    outLen := s.readLE (a + 0x1C) 4, param := s.readBytes (a + 0x20) 32, prio := x.prio }

/-- JSUB (R382): the job enters its queue, or the thread waits while the queue is full. An engine that the die does not hold
completes the job with status 0x1. A descriptor that cannot be read stops the thread, as any load does (R185). -/
def State.doJsub (s : State) (c t b : Nat) : State :=
  let j := s.accJobAt c t b
  let x := s.sigThr c t
  let (s, _, st) := s.load (srcCore (s.physCore c)) (sigBase c + x.sr (bits b 101 98)) 64
  if st = .uncorr then s.sigLoadStop c t ((x.pc + 2 ^ 48 - 16) % 2 ^ 48)
  else if j.eng ≥ engCount j.kind then
    (s.onSig c t (fun x => { x with outst := x.outst + 1 })).sigComplete c t j.job (accWord j.seq 1 j.kind j.eng j.radio false)
  else if s.engFull j then s.onSig c t (fun x => { x with st := .wait, why := .jsub, wJob := some j })
  else s.enqueueAcc j

def execJsub (c : Fin 96) (t : Fin 8) (w : BitVec 128) (s : State) : Host.Outcome State Fault Refusal :=
  .next (whenLive s (fun s => s.sigRow c t w (fun x => x == 22) (fun s b => s.doJsub c t b)))

/-- A `ld.x` of the bundle that writes a register which its scalar slot writes with a completion leaves it open: a free value
(Assumption 56). -/
def State.compClash (s : State) (c t b : Nat) : State :=
  let d := bits b 97 94
  let l := bits b 7 4
  if bits b 3 0 = 3 ∧ (l = d ∨ l = d + 1) ∧ (s.sigThr c t).st = .ready then
    let (s, v) := s.freeW
    s.onSig c t (fun x => x.setX l v)
  else s

/-- JWAIT (R382): the oldest completion, or a wait for one. -/
def execJwait (c : Fin 96) (t : Fin 8) (w : BitVec 128) (s : State) : Host.Outcome State Fault Refusal :=
  .next (whenLive s (fun s => s.sigRow c t w (fun x => x == 23) (fun s b =>
    (s.onSig c t (fun x => match x.comps with
      | v :: rest => { x.takeComp (bits b 97 94) v with comps := rest }
      | [] => { x with st := .wait, why := .jwait, wD := bits b 97 94 })).compClash c t b)))

/-- JPOLL (R382): the oldest completion, or a word with VALID 0. -/
def execJpoll (c : Fin 96) (t : Fin 8) (w : BitVec 128) (s : State) : Host.Outcome State Fault Refusal :=
  .next (whenLive s (fun s => s.sigRow c t w (fun x => x == 24) (fun s b =>
    (s.onSig c t (fun x => match x.comps with
      | v :: rest => { x.takeComp (bits b 97 94) v with comps := rest }
      | [] => x.takeComp (bits b 97 94) 0)).compClash c t b)))

/-- SIG_WAIT_TIMEOUT (R385): a wait of a thread that is not parked reaches its limit. -/
def State.sigTimeout (s : State) (c t : Nat) : State :=
  let x := s.sigThr c t
  if x.st ≠ .wait then s
  else
    let s := s.status f_SIG_STATUS_WAIT_TMO
    let y := x.wake.orFlags 8
    match x.why with
    | .jwait => s.setSigThr c t (y.takeComp x.wD 0)
    | .jsub => (match x.wJob with
        | some j => (s.setSigThr c t { y with outst := y.outst + 1 }).sigComplete c t j.job (accWord j.seq 4 j.kind j.eng j.radio false)
        | none => s.setSigThr c t y)
    | _ => s.setSigThr c t y

def execSigWaitTimeout (c : Fin 96) (t : Fin 8) (s : State) : Host.Outcome State Fault Refusal :=
  .next (whenLive s (fun s => s.sigTimeout c t))

/-! What the engines do with a job (R380, R382, R399 to R405). -/

/-- Whether an address range is within a job's reach: stage memory of its kind, or local memory of its region. -/
def State.jobReach (s : State) (j : AccJob) (a len : Nat) : Bool :=
  let n := max len 1
  match s.region a with
  | .stage => s.partReach j.part j.radio a n
  | .sigmem c => s.region (a + n - 1) == .sigmem c && s.localOk c j.radio (a - sigBase c) n
      && (j.radio || decide (s.flag (f_SIG_CORE_PART_VALID c) ∧ s.get (f_SIG_CORE_PARTITION c) = j.part))
  | _ => false

/-- R403: 12 × 2^a × 3^b × 5^c up to 3,276. -/
def dftSize (m : Nat) : Bool :=
  m % 12 == 0 && decide (0 < m) && decide (m ≤ 3276)
  && (let r (p : Nat) (x : Nat) := (List.range 12).foldl (fun x _ => if x % p = 0 then x / p else x) x
      r 5 (r 3 (r 2 (m / 12))) == 1)

/-- R403: the sizes of an FFT. -/
def fftSize (n : Nat) : Bool := [128, 256, 512, 1024, 2048, 4096].contains n

/-- R399, TS 38.212 as R388 cites it: the lifting sizes: 2, 3, 5, 7, 9, 11, 13 or 15 times a power of two, up to 384. -/
def liftSize (z : Nat) : Bool :=
  decide (2 ≤ z) && decide (z ≤ 384)
  && [2, 3, 5, 7, 9, 11, 13, 15].any (fun a => (List.range 8).any (fun j => decide (z = a * 2 ^ j)))

/-- R404: whether the engine accepts a job's parameters, and whether its reserved bits are 0. -/
def AccJob.params (j : AccJob) : Bool × Bool :=
  let f (o n : Nat) : Nat := leNat ((j.param.drop (o - 0x20)).take n)
  let z (o n : Nat) := f o n == 0
  match j.kind with
  | 0 | 1 =>
    (liftSize (f 0x20 2) && (j.kind == 1 || (decide (1 ≤ f 0x23 1) && decide (f 0x23 1 ≤ 32) && f 0x30 8 % 64 == 0))
      && decide (f 0x2C 1 ≤ 3) && [1, 2, 4, 6, 8, 10].contains (f 0x2D 1),
     bits (f 0x22 1) 7 5 == 0 && z 0x38 8)
  | 2 =>
    let enc := bitAt (f 0x28 1) 0
    let down := bitAt (f 0x28 1) 1
    let k := f 0x22 2
    ([32, 64, 128, 256, 512, 1024].contains (f 0x20 2) && decide (k ≤ f 0x20 2)
      && (if down then decide (12 ≤ k) && decide (k ≤ 164) else decide (18 ≤ k) && decide (k ≤ 1023))
      && (enc || [1, 2, 4, 8].contains (f 0x29 1)),
     bits (f 0x28 1) 7 2 == 0 && z 0x2C 20)
  | 3 =>
    let turbo := bitAt (f 0x22 1) 2
    let tail := bitAt (f 0x22 1) 1
    ((if turbo then f 0x20 1 == 4 else decide (3 ≤ f 0x20 1) && decide (f 0x20 1 ≤ 9)) && (f 0x21 1 == 2 || f 0x21 1 == 3)
      && (if turbo then decide (1 ≤ f 0x23 1) && decide (f 0x23 1 ≤ 8)
        else (!tail || (decide (1 ≤ f 0x23 1) && decide (f 0x23 1 ≤ 4)))
          && decide (f 0x28 2 < 512) && decide (f 0x2A 2 < 512) && (if f 0x21 1 = 2 then z 0x2C 2 else decide (f 0x2C 2 < 512))),
     bits (f 0x22 1) 7 3 == 0 && z 0x30 16)
  | 4 =>
    ((if bits (f 0x22 1) 1 0 ≤ 1 then fftSize (f 0x20 2) else dftSize (f 0x20 2)) && decide (1 ≤ f 0x23 1) && decide (f 0x23 1 ≤ 14),
     bits (f 0x22 1) 7 3 == 0 && z 0x2A 22)
  | _ =>
    (bits (f 0x20 1) 1 0 ≠ 3 && [1, 2, 4, 6, 8, 10].contains (f 0x21 1) && decide (1 ≤ f 0x22 1) && decide (f 0x22 1 ≤ 64) && decide (1 ≤ f 0x23 1) && decide (f 0x23 1 ≤ 14)
      && decide (-8 ≤ toSigned 8 (f 0x26 1)) && decide (toSigned 8 (f 0x26 1) ≤ 7),
     bits (f 0x20 1) 7 4 == 0)

/-- R405: whether a job writes a result header. -/
def AccJob.header (j : AccJob) : Bool :=
  j.kind == 0 || j.kind == 4 || ((j.kind == 2 || j.kind == 3) && !bitAt (leNat ((j.param.drop (if j.kind = 2 then 8 else 2)).take 1)) 0)

/-- R404: n bytes of a job's parameters at offset o of the descriptor. -/
def AccJob.par (j : AccJob) (o n : Nat) : Nat := leNat ((j.param.drop (o - 0x20)).take n)

/-- R399, R406: what a job writes beside its output: the soft buffer of an LDPC decode, the report block of an estimation or
equalisation. -/
def AccJob.side (j : AccJob) : Nat × Nat := match j.kind with
  | 0 => (j.par 0x30 8, j.par 0x28 4)
  | 5 => (j.par 0x38 8, 32)
  | _ => (0, 0)

/-- R404: the other addresses that a job's parameters give: the reference sequence of an estimation, and its taps. -/
def AccJob.refs (j : AccJob) : List (Nat × Nat) :=
  if j.kind = 5 ∧ bits (j.par 0x20 1) 1 0 = 0 then (j.par 0x30 8, 1) :: (if bitAt (j.par 0x20 1) 3 then [(j.par 0x28 8, 32)] else [])
  else []

/-- R399, R404, R406: what a job reads: its input, its taps, and what it adds to: the soft buffer with COMBINE set, the report
block. -/
def AccJob.reads (j : AccJob) : List (Nat × Nat) :=
  ((j.src, j.inLen) :: j.refs.filter (fun p => p.2 ≠ 1))
  ++ (if j.kind = 5 ∨ (j.kind = 0 ∧ bitAt (j.par 0x22 1) 2 = true) then [j.side] else [])

/-- R382: the status with which a job that no hardware fault struck ends. Status 0x2 takes in every address that the
parameters give (Assumption 33). -/
def State.jobStatus (s : State) (j : AccJob) : Nat :=
  let (ok, rsv) := j.params
  if bits j.ctrl 31 4 ≠ 0 || bits j.ctrl 2 0 ≠ j.kind || !rsv then 1
  else if !(((j.src, j.inLen) :: (j.dst, j.outLen) :: (j.refs ++ (if j.kind = 0 ∨ j.kind = 5 then [j.side] else []))).all
      (fun p => s.jobReach j p.1 p.2)) then 2
  else if !ok then 5
  else 0

/-- R400 to R403: the cycles that a job lasts at most, from its parameters; none for an estimation. An LDPC job is held to the bound for
all columns of its base graph. -/
def AccJob.maxCycles (j : AccJob) : Option Nat :=
  let n := j.par 0x20 2
  let cols := if bitAt (j.par 0x22 1) 0 then 50 else 66
  let enc (o : Nat) : Bool := bitAt (j.par o 1) 0
  match j.kind with
  | 0 => some (32 + j.par 0x23 1 * ceilDiv (cols * n) 96)
  | 1 => some (42 + ceilDiv (cols * n) 40)
  | 2 => some (64 + ceilDiv (n * Nat.log2 n * max 1 (j.par 0x29 1)) 64)
  | 3 =>
    let bs := j.par 0x24 4
    if bitAt (j.par 0x22 1) 2 then some (32 + (if enc 0x22 then ceilDiv bs 16 else ceilDiv (bs * j.par 0x23 1) 32))
    else some (32 + (if enc 0x22 then bs else bs * max 1 (j.par 0x23 1) * max 1 (2 ^ (j.par 0x20 1 - 1) / 64)))
  | 4 =>
    let k := Nat.log2 (n - 1) + 1
    some (j.par 0x23 1 * (16 * 256 + 2 ^ k * k) / 256)
  | _ => none

/-- R400 to R403: whether a job may last so many cycles. -/
def AccJob.inTime (j : AccJob) (cyc : Nat) : Bool := j.maxCycles.all (fun m => decide (cyc ≤ m))

/-- A byte that is a log-likelihood ratio: from −127 to 127 (R397, R399). -/
def llrByte (b : Byte) : Byte := if b = 0x80#8 then 0x81#8 else b

/-- R405: the first byte of a result header: the iterations or passes that a job used, where the job fixes them; of an LDPC
decode that may stop early, at most MAX_ITER. -/
def AccJob.usedByte (j : AccJob) (b : Byte) : Byte := match j.kind with
  | 0 => if bitAt (j.par 0x22 1) 1 then BitVec.ofNat 8 (b.toNat % max 1 (j.par 0x23 1) + 1) else BitVec.ofNat 8 (j.par 0x23 1)
  | 3 => if bitAt (j.par 0x22 1) 1 || bitAt (j.par 0x22 1) 2 then BitVec.ofNat 8 (j.par 0x23 1) else b
  | _ => b

/-- R397, R405: byte i of a job's output, from a free byte: the header's reserved bits are 0, SAT is a transform's, and a soft
bit is never −128. -/
def AccJob.outByte (j : AccJob) (b : Byte) (i : Nat) : Byte :=
  if j.header then
    if i = 0 then j.usedByte b else if i = 1 then (if j.kind = 4 then b &&& 7 else b &&& 3) else if i < 8 then 0 else b
  else if j.kind = 5 ∧ bits (j.par 0x20 1) 1 0 ≠ 0 then llrByte b
  else b

/-- n bytes that a job writes, the free bytes from the next one on made to fit, stored at an address. -/
def State.putFree (s : State) (unit a n : Nat) (fit : Byte → Nat → Byte) : State :=
  if n = 0 then s
  else (({ s with free := s.free + n } : State).store unit a ((List.range n).map (fun i => fit (Config.freeByte (s.free + i)) i))).1

/-- A job reads its input, and writes OUT_LEN bytes that the spec's coding documents fix and the spec does not state
(Assumption 33): free bytes within what R397 and R405 say of them; and so the soft buffer or the report block. -/
def State.jobOutput (s : State) (j : AccJob) : State :=
  let unit := srcEngine j.kind (s.coreDie j.core) j.eng
  let s := j.reads.foldl (fun s p => if p.2 = 0 then s else (s.load unit p.1 p.2).1) s
  let s := s.putFree unit j.dst j.outLen j.outByte
  s.putFree unit j.side.1 j.side.2 (fun b _ => if j.kind = 0 then llrByte b else b)

/-- R385: a `jsub` that waits for room goes on, in thread order of the die's cores. -/
def State.retryJsub (s : State) (r : Nat) : State :=
  match s.sig.thr.find? (fun e => e.2.why == .jsub && (match e.2.wJob with | some j => s.jobEng j == r && !s.engFull j | none => false)) with
  | some (k, x) => (match x.wJob with
      | some j => (s.onSig (k / 8) (k % 8) (fun y => y.wake)).enqueueAcc j
      | none => s)
  | none => s

/-- R382: the open job that an engine serves: the oldest of the highest priority. -/
def bestAcc (l : List AccJob) : Option AccJob :=
  let hi := l.foldl (fun h j => max h j.prio) 0
  l.find? (fun j => j.prio == hi)

/-- ACCEL_JOB_COMPLETE (R52, R55, R56, R382, R400 to R403): the job an engine serves ends after `cyc` cycles, within its bound. `hw` is 1 where a hardware
fault struck it, 2 where it also struck the reissue on another engine of the die. -/
def State.accelComplete (s : State) (r : Nat) (radio : Bool) (hw cyc : Nat) : State :=
  let e := s.engOf r
  let pick := if radio then e.radioQ.head? else bestAcc e.openQ
  match pick with
  | none => s
  | some j =>
    if e.isolated || (if radio then s.leaseOf r ≠ .radio else s.leaseOf r = .radio || (s.leaseOf r = .guard && !e.guard)) || (s.jobStatus j == 0 && !j.inTime cyc) then s
    else
      let e := if radio then { e with radioQ := e.radioQ.erase j } else { e with openQ := e.openQ.erase j, guard := false }
      let s := s.setEng r { e with jobs := satAdd 32 e.jobs 1, busy := satAdd 32 e.busy cyc }
      let st := s.jobStatus j
      let fault := hw ≠ 0
      let s := if fault then s.raise r 0x21 0 0 else s
      let again := fault && radio && !j.re && (s.otherEngine j.kind (s.coreDie j.core) r).isSome
      let s := if again then ((s.status f_RAD_STATUS_REISSUE).bump f_RAD_REISSUE_CNT_COUNT).noteRerun else s
      let lost := fault ∧ (hw = 2 ∨ again = false)
      let st := if lost then 3 else st
      let s := if st = 0 then s.jobOutput j else s
      let s := if !radio then s else if lost then s.workLost r 0 else s.workDone r 0
      (s.sigComplete j.core j.thr j.job (accWord j.seq st j.kind j.eng j.radio (j.re || again))).retryJsub r

def execAccelJobComplete (kind : Fin 6) (die : Fin 4) (e : Fin 8) (radio : Bool) (hw : Fin 3) (cyc : BitVec 32) (s : State) :
    Host.Outcome State Fault Refusal :=
  .next (whenLive s (fun s => if e.val < engCount kind then s.accelComplete (srcEngine kind die e) radio hw cyc.toNat else s))

end Sys2Proof.Machine
end

