-- ==== Sys2Proof/Machine/HostIo.lean ====
section
/-! DEFINITION. The writing side of the tenant windows: completion entries, interrupt messages and errors (R459, R464 to
R466, R474 to R479). Window 128 is the admin ring. -/
namespace Sys2Proof.Machine
open Sys2Proof

def admWin : Nat := 128

/-- R458: the Device ID of every link's function; the class code is 0x12_0000. -/
def State.deviceId (s : State) : Nat := if s.grade56 then 0x0938 else 0x0940

def State.winOf (s : State) (w : Nat) : Win := sget {} s.hst.win w
def State.setWin (s : State) (w : Nat) (x : Win) : State := { s with hst := { s.hst with win := sset {} s.hst.win w x } }

/-- R462: port of a window; the admin ring is on the manager port. -/
def State.winPort (s : State) (w : Nat) : Nat := if w = admWin then s.get f_HST_ROLE_MGR_PORT else w / 64

/-- R459: the link whose function a window belongs to: PA0, PA1, PB0, PB1 as 0 to 3. -/
def State.winLink (s : State) (w : Nat) : Nat :=
  let p := s.winPort w
  let x8 := s.flag (if p = 0 then f_HST_ROLE_PA_X8 else f_HST_ROLE_PB_X8)
  2 * p + (if x8 ∧ w ≠ admWin ∧ w % 64 ≥ 32 then 1 else 0)

def State.winPasid (s : State) (w : Nat) : Nat := if w = admWin then 0 else s.get (f_TWN_PASID_PASID w)
def State.winRcb (s : State) (w : Nat) : Nat := if w = admWin then s.reg64 r_HST_ADM_RCB_LO else s.reg64 (r_TWN_RCB_LO w)
def State.winSq (s : State) (w : Nat) : Nat := if w = admWin then s.reg64 r_HST_ADM_SQ_LO else s.reg64 (r_TWN_SQ_LO w)
def State.winCq (s : State) (w : Nat) : Nat := if w = admWin then s.reg64 r_HST_ADM_CQ_LO else s.reg64 (r_TWN_CQ_LO w)
/-- R466: entries of the rings. -/
def State.sqSize (s : State) (w : Nat) : Nat := 2 ^ (6 + s.get (if w = admWin then f_HST_ADM_CFG_SQ_LOG2 else f_TWN_CFG_SQ_LOG2 w))
def State.cqSize (s : State) (w : Nat) : Nat := 2 ^ (6 + s.get (if w = admWin then f_HST_ADM_CFG_CQ_LOG2 else f_TWN_CFG_CQ_LOG2 w))
def State.winSlot (s : State) (w : Nat) : Nat := if w = admWin then 0 else s.get (f_TWN_TENANT_SLOT w)
def State.winTenant (s : State) (w : Nat) : Nat := if w = admWin then 0 else s.get (f_TWN_TENANT_TENANT w)
def State.winRadio (s : State) (w : Nat) : Bool := decide (w < admWin) && s.flag (f_TWN_CFG_RADIO w)

/-- State codes of R479; ERROR has the code 6 (Assumption 34). -/
def State.winSt (s : State) (w : Nat) : Nat := if w = admWin then (if s.flag f_HST_ADM_CFG_ENABLE then 1 else 0) else s.get (f_TWN_STATE_STATE w)
def State.enterWin (s : State) (w st : Nat) : State :=
  if w = admWin then s
  else (s.put (f_TWN_STATE_STATE w) st).setWin w { s.winOf w with stAt := s.tim.expo }

/-! MSI-X (R478). -/

/-- Word i of vector v of a link; a vector is masked from reset (Assumption 30). -/
def State.msixWord (s : State) (l v i : Nat) : Nat := sget (if i = 3 then 1 else 0) s.hst.msix (1024 * l + 4 * v + i)

/-- R478: send the message of a vector, or hold it while the vector is masked. -/
def State.fire (s : State) (l v : Nat) : State :=
  if bitAt (s.msixWord l v 3) 0 then
    if s.hst.pba.contains (l, v) then s else { s with hst := { s.hst with pba := s.hst.pba ++ [(l, v)] } }
  else s.emit (.msix (l / 2) (s.msixWord l v 0 + 2 ^ 32 * s.msixWord l v 1) (s.msixWord l v 2))

/-- R478: the completion vector of a window. -/
def State.fireCpl (s : State) (w : Nat) : State :=
  if w = admWin then s else s.fire (s.winLink w) (s.get (f_TWN_VEC_BASE w))

/-- R478: the event vector of a window. -/
def State.fireEvent (s : State) (w : Nat) : State :=
  if w = admWin then s
  else s.fire (s.winLink w) (s.get (f_TWN_VEC_BASE w) + (if s.get (f_TWN_VEC_COUNT w) = 2 then 1 else 0))

/-- R478: coalescing after an entry is committed. -/
def State.coalesce (s : State) (w : Nat) : State :=
  let x := s.winOf w
  if x.since + 1 ≥ s.get (f_TWN_COAL_COUNT w) then (s.setWin w { x with since := 0, coalAt := none }).fireCpl w
  else s.setWin w { x with since := x.since + 1, coalAt := some (x.coalAt.getD s.now) }

/-! The completion writer (R477). -/

def Win.room (x : Win) (size : Nat) : Nat := size - (x.cqPi + 2 ^ 32 - x.cqCi) % 2 ^ 32

/-- Write one entry and commit it. -/
def State.commit (s : State) (w : Nat) (e : List Byte) : State :=
  let x := s.winOf w
  let port := s.winPort w
  let pasid := s.winPasid w
  let s := s.hostW (s.winSlot w) port pasid (s.winCq w + 32 * (x.cqPi % s.cqSize w)) e
  let pi := (x.cqPi + 1) % 2 ^ 32
  let s := s.hostW (s.winSlot w) port pasid (s.winRcb w + 0xC) (leBytes 4 pi)
  (s.setWin w { x with cqPi := pi }).coalesce w

/-- R477: write the waiting entries of a window for which there is room, oldest first. -/
def State.flushCpl (s : State) (w : Nat) : Nat → State
  | 0 => s
  | fuel + 1 =>
    let x := s.winOf w
    match x.cpl with
    | [] => s.setWin w { x with fullAt := none }
    | e :: rest =>
      if x.room (s.cqSize w) = 0 then s.setWin w { x with fullAt := some (x.fullAt.getD s.tim.expo) }
      else ((s.setWin w { x with cpl := rest, fullAt := none }).commit w e).flushCpl w fuel

def State.flush (s : State) (w : Nat) : State := s.flushCpl w ((s.winOf w).cpl.length + 1)

/-- R477, R479: an entry arises; a window in ERROR, or one that no longer runs, discards and counts it. -/
def State.post (s : State) (w : Nat) (e : List Byte) : State :=
  let st := s.winSt w
  if st = 0 ∨ st = 5 ∨ st = 6 then (if w = admWin then s else s.bump (f_TWN_CPL_DROP_COUNT w))
  else (s.setWin w { s.winOf w with cpl := (s.winOf w).cpl ++ [e] }).flush w

/-- R474: a completion entry of kind 0x03 or 0x04. -/
def cplEntry (kind status op ctx result arrival tag : Nat) : List Byte :=
  leBytes 1 kind ++ leBytes 1 status ++ leBytes 1 op ++ leBytes 1 0 ++ leBytes 4 ctx ++ leBytes 8 result ++ leBytes 4 arrival
    ++ leBytes 4 tag ++ leBytes 8 0

/-- R470: the context word of a context command. -/
def Cmd.ctxWord (c : Cmd) : Nat := if 0x10 ≤ c.op ∧ c.op ≤ 0x16 then leNat ((c.body.drop 0x10).take 4) else 0

/-- R469, R474: a command completes: it leaves its window; its entry is written on error, and on success when CPL asks. -/
def State.complete (s : State) (w : Nat) (c : Cmd) (status result : Nat) : State :=
  let x := s.winOf w
  let s := s.setWin w { x with cmds := x.cmds.filter (fun d => d.pos ≠ c.pos) }
  if status ≠ 0 ∨ bitAt c.flags 0 then s.post w (cplEntry 3 status c.op c.ctxWord result (c.arrival % 2 ^ 32) c.tag) else s

/-- R483: the wait of a command ends. -/
def State.waited (s : State) (w ns : Nat) : State := s.account (s.winSlot w) 8 (s.now - ns)

/-- R479: an error of an enabled window: ERR is recorded, fetching stops, what waits is discarded and counted. -/
def State.winError (s : State) (w code : Nat) : State :=
  let st := s.winSt w
  if w = admWin ∨ st = 0 ∨ st = 5 ∨ st = 6 then s
  else
    let x := s.winOf w
    let s := (s.put (f_TWN_STATE_STATE w) 6).put (f_TWN_STATE_ERR w) code
    let s := s.status f_HST_STATUS_WIN_ERROR
    let s := s.bumpBy (f_TWN_CPL_DROP_COUNT w) x.cpl.length
    ((s.setWin w { x with cpl := [], fullAt := none }).auditWindow w 4).fireEvent w

/-- CQ_FULL_TIMEOUT (R477): the ring has stayed full for TMO exposures. -/
def State.cqFullTimeout (s : State) (w : Nat) : State :=
  match (s.winOf w).fullAt with
  | some e => if s.tim.expo - e ≥ s.get (f_TWN_QTMO_TMO w) then s.winError w 3 else s
  | none => s

def execCqFullTimeout (w : Fin 128) (s : State) : Host.Outcome State Fault Refusal := .next (whenLive s (fun s => s.cqFullTimeout w))

/-- COALESCE_TIMER (R478): TWN_COAL.US after the first entry since the last message. -/
def State.coalTimer (s : State) (w : Nat) : State :=
  let x := s.winOf w
  if x.since ≠ 0 ∧ s.get (f_TWN_COAL_US w) ≠ 0 ∧ s.reached (x.coalAt.getD 0) (s.get (f_TWN_COAL_US w) * 1000) then (s.setWin w { x with since := 0, coalAt := none }).fireCpl w else s

def execCoalesceTimer (w : Fin 128) (s : State) : Host.Outcome State Fault Refusal := .next (whenLive s (fun s => s.coalTimer w))

/-- VECTOR_UNMASK (R478): the mask bit of a vector is cleared, and a message it held is sent. -/
def State.unmask (s : State) (l v : Nat) : State :=
  let s := { s with hst := { s.hst with msix := sset 1 s.hst.msix (1024 * l + 4 * v + 3) 0 } }
  if s.hst.pba.contains (l, v) then ({ s with hst := { s.hst with pba := s.hst.pba.filter (· ≠ (l, v)) } } : State).fire l v else s

def execVectorUnmask (l : Fin 4) (v : Fin 256) (s : State) : Host.Outcome State Fault Refusal := .next (s.unmask l v)

end Sys2Proof.Machine
end

