-- ==== Sys2Proof/Machine/Jobs.lean ====
section
/-! DEFINITION. Job scheduling: pending jobs, their start, pre-emption with spill and reload, and their end; the window
commands on jobs and the bulk commands (R95, R214 to R218, R470, R471, R480 to R483). -/
namespace Sys2Proof.Machine
open Sys2Proof

/-! Commands of a window. -/

/-- The little-endian number of n bytes at an offset of a command's entry. -/
def Cmd.at (c : Cmd) (off n : Nat) : Nat := leNat ((c.body.drop off).take n)

/-- R469: whether FENCE lets a command start: every earlier command of the window has completed. -/
def Win.fenceOk (x : Win) (c : Cmd) : Bool := !bitAt c.flags 1 || (x.cmds.head?.map (·.pos)) == some c.pos

/-- The oldest command of an opcode that has not begun and may. -/
def State.frontCmd (s : State) (w op : Nat) : Option Cmd :=
  let x := s.winOf w
  x.cmds.find? (fun c => c.op == op && !c.begun && x.fenceOk c)

/-- The command at a ring position, while it is not complete. -/
def State.cmdAt (s : State) (w pos : Nat) : Option Cmd := (s.winOf w).cmds.find? (fun c => c.pos == pos)

/-- Mark a command begun. -/
def State.beginCmd (s : State) (w : Nat) (c : Cmd) : State :=
  let x := s.winOf w
  s.setWin w { x with cmds := x.cmds.map (fun d => if d.pos = c.pos then { d with begun := true } else d) }

/-- Run an effect on the oldest command of an opcode. -/
def State.onCmd (s : State) (w op : Nat) (f : State → Cmd → State) : State :=
  match s.frontCmd w op with
  | some c => f s c
  | none => s

/-- NOP (R470): completes at fetch. -/
def execNop (w : Fin 129) (s : State) : Host.Outcome State Fault Refusal :=
  .next (whenLive s (fun s => s.onCmd w 0 (fun s c => s.complete w c 0 0)))

/-! Jobs. -/

def State.jobOf (s : State) (id : Nat) : Option Job := s.hst.jobs.find? (fun j => j.id == id)
def State.modJob (s : State) (id : Nat) (f : Job → Job) : State :=
  { s with hst := { s.hst with jobs := s.hst.jobs.map (fun j => if j.id = id then f j else j) } }
def State.dropJob (s : State) (id : Nat) : State := { s with hst := { s.hst with jobs := s.hst.jobs.filter (fun j => j.id ≠ id) } }

/-- R471: the arrays of a job in ascending order. -/
def Job.arrayList (j : Job) : List Nat := bitList 64 j.arrays
/-- R471: position of an array among a job's arrays. -/
def Job.ordOf (j : Job) (n : Nat) : Nat := popCount n j.arrays
/-- R471: the save area of a job on an array. -/
def Job.saveAt (j : Job) (n : Nat) : Nat := j.save + j.ordOf n * 0x6D0000

/-- R480: the order in which pending jobs are evaluated. -/
def Job.before (a b : Job) : Bool :=
  decide (b.prio < a.prio) || (a.prio == b.prio && (decide (a.arrival < b.arrival)
    || (a.arrival == b.arrival && (decide (a.win < b.win) || (a.win == b.win && decide (a.pos < b.pos))))))

/-- R471: the job that a JOB_START body describes; `sh` shifts the offsets from 0x14 on, as PART_MODEL does. -/
def Cmd.toJob (c : Cmd) (id w sh : Nat) (part prio threads sig slot tenant : Nat) (serve : Option Nat) (now : Nat) : Job :=
  { id := id, win := w, tag := c.tag, cpl := bitAt c.flags 0, arrival := c.arrival, pos := c.pos, ns := c.ns, since := now
    part := part, prio := prio, threads := threads, sig := sig
    arrays := c.at (0x14 + sh) 8, dma := c.at (0x1C + sh) 2, store := c.at (0x20 + sh) 8, acc := c.at (0x28 + sh) 4
    entry := c.at (0x30 + sh) 8, arg := c.at (0x38 + sh) 8, save := c.at (0x40 + sh) 8, cores := c.at (0x48 + sh) 12
    slot := slot, tenant := tenant, serve := serve }

/-- R471: a window's next JOB_ID, and the state that has counted it. -/
def State.nextJobId (s : State) (w : Nat) : State × Nat :=
  let x := s.winOf w
  let k := (x.jobs + 1) % 2 ^ 24
  (s.setWin w { x with jobs := k }, (if w = admWin then 0xFF else w) * 2 ^ 24 + k)

/-- JOB_START (R471, R480): a command that passed its checks at fetch becomes a pending job. -/
def State.jobStart (s : State) (w : Nat) : State :=
  s.onCmd w 1 (fun s c =>
    let (s, id) := s.nextJobId w
    let j := c.toJob id w 0 (c.at 0x10 1 % 16) (c.at 0x11 1 % 8) (c.at 0x12 1) (c.at 0x13 1) (s.winSlot w) (s.winTenant w) none s.tim.expo
    { s.beginCmd w c with hst := { (s.beginCmd w c).hst with jobs := (s.beginCmd w c).hst.jobs ++ [j] } })

def execJobStart (w : Fin 129) (s : State) : Host.Outcome State Fault Refusal := .next (whenLive s (fun s => s.jobStart w))

/-- The JOB_START command of a job completes. A serving job's command has completed before (R470). -/
def State.endStart (s : State) (j : Job) (status result : Nat) : State :=
  match j.serve, s.cmdAt j.win j.pos with
  | none, some c => if c.op = 1 && c.begun then s.complete j.win c status result else s
  | _, _ => s

/-! Resources on an array (R480). -/

/-- Threads of an array that no job and no radio work holds. -/
def State.freeThreads (s : State) (n : Nat) : List Nat :=
  (List.range 64).filter (fun t => let x := s.thr n t; x.job == 0 && !x.radio)
/-- Threads of an array bound to a job. -/
def State.jobThreads (s : State) (n id : Nat) : List Nat := (List.range 64).filter (fun t => (s.thr n t).job == id)
/-- Tenant threads of a core that no job holds. -/
def State.freeSig (s : State) (c : Nat) : List Nat := (List.range 8).filter (fun t => let x := s.sigThr c t; x.job == 0 && !x.radio)

/-- The record of a job's spill on an array, while its spill or its reload is not complete. -/
def Arr.spillOf (a : Arr) (id : Nat) : Option Spill := a.spills.find? (fun v => v.job == id)

/-- Row blocks and store regions that a started job holds in the array itself: what a completed spill saved it no longer holds. -/
def State.heldBy (s : State) (n : Nat) (j : Job) : Nat × Nat :=
  if j.st = .pending ∨ !(bitAt j.arrays n) then (0, 0)
  else
    match (s.arrOf n).spillOf j.id with
    | some v => if v.back then (j.acc, j.store) else (j.acc - (j.acc &&& v.acc), j.store - (j.store &&& v.store))
    | none => (j.acc, j.store)

/-- R480, R482: what of array n stands in the way of job j for the sake of started job k: what k holds there, and of a spilled job of
equal or higher priority also what it reloads to. -/
def State.claimsOn (s : State) (n : Nat) (j k : Job) : Nat × Nat :=
  if k.begun.contains n ∧ j.prio ≤ k.prio then (k.acc, k.store) else s.heldBy n k

/-- Whether a job's regions on an array overlap those that another holds. -/
def State.regionsClash (s : State) (n : Nat) (j k : Job) : Bool :=
  let h := s.claimsOn n j k
  (j.acc &&& h.1) ≠ 0 || (j.store &&& h.2) ≠ 0

/-- R480: whether a job's DMA channels are free on an array. -/
def State.dmaFree (s : State) (n : Nat) (j : Job) : Bool :=
  (bitList 16 j.dma).all (fun c => let ch := s.dmaCh n c; ch.job.isNone && !ch.radio)

/-- Started jobs on an array that a job may pre-empt, in the order of R481: lowest priority first, then most recently
started; only jobs that are not spilled there and have run for MIN_RUN exposures. -/
def State.preemptable (s : State) (n : Nat) (j : Job) : List Job :=
  let l := s.hst.jobs.filter (fun k =>
    k.begun.contains n && decide (k.prio < j.prio) && ((s.arrOf n).spillOf k.id).isNone
    && decide (s.tim.expo - sget 0 k.run n ≥ s.get f_HST_SCHED_CFG_MIN_RUN))
  l.mergeSort (fun a b => decide (a.prio < b.prio) || (a.prio == b.prio && decide (b.order ≤ a.order)))

/-- Victims whose threads make up a shortage, taken from a list in its order. -/
def State.threadVictims (s : State) (n : Nat) : Nat → List Job → Option (List Nat)
  | 0, _ => some []
  | _ + 1, [] => none
  | k + 1, v :: l => (s.threadVictims n (k + 1 - (s.jobThreads n v.id).length) l).map (fun r => v.id :: r)

/-- R480, R481: the jobs to pre-empt on array n so that job j can start there: none when it cannot start, an empty list
when nothing stands in its way. -/
def State.victims (s : State) (n : Nat) (j : Job) : Option (List Nat) :=
  if !s.dmaFree n j then none
  else
    let can := s.preemptable n j
    let clash := s.hst.jobs.filter (fun k => k.id ≠ j.id && s.regionsClash n j k)
    if clash.all (fun k => can.any (fun v => v.id == k.id)) then
      let fixed := clash.map (·.id)
      let free := (s.freeThreads n).length + (fixed.map (fun v => (s.jobThreads n v).length)).sum
      match s.threadVictims n (j.threads - free) (can.filter (fun v => !fixed.contains v.id)) with
      | some more => some (can.filterMap (fun v => if fixed.contains v.id || more.contains v.id then some v.id else none))
      | none => none
    else none

/-! Start of a job on an array. -/

/-- Bind job j's threads on array n to the lowest free numbers; a serving job's threads wait IDLE for a step (R240). -/
def State.bindArray (s : State) (j : Job) (n : Nat) : State :=
  let park := s.leaseOf n ≠ .openLease
  let ts := (s.freeThreads n).take j.threads
  let k := j.ordOf n
  let s := (List.range ts.length).foldl (fun s i =>
    let x : Thr := { st := if j.serve.isSome then .idle else if park then .parked else .ready, kind := (s.thr n (ts.getD i 0)).kind
                     job := j.id, prio := j.prio, tenant := j.tenant, slot := j.slot, part := j.part, pc := j.entry }
    s.setThr n (ts.getD i 0) ((x.setS 1 j.arg).setS 2 (k * j.threads + i))) s
  let s := (bitList 16 j.dma).foldl (fun s c => s.setDmaCh n c { job := some j.id, part := j.part, acct := j.slot }) s
  s.modJob j.id (fun j => { j with begun := j.begun ++ [n], run := sset 0 j.run n s.tim.expo })

/-- Bind job j's threads on its signal cores; their index goes on after those of the arrays. -/
def State.bindCores (s : State) (j : Job) : State :=
  let cores := bitList 96 j.cores
  let base := j.arrayList.length * j.threads
  (List.range cores.length).foldl (fun s k =>
    let c := cores.getD k 0
    let ts := (s.freeSig c).take j.sig
    (List.range ts.length).foldl (fun s i =>
      let x : SigThr := { st := if j.serve.isSome then .idle else if s.coreLease c ≠ .openLease then .parked else .ready
                          job := j.id, prio := j.prio, tenant := j.tenant, slot := j.slot, part := j.part, pc := j.entry }
      s.setSigThr c (ts.getD i 0) ((x.setX 1 j.arg).setX 2 (base + k * j.sig + i))) s) s

/-- R474, R480, R483: the first threads of a job are READY: it has started and its JOB_START completes. -/
def State.noteStarted (s : State) (j : Job) : State :=
  let s := s.modJob j.id (fun j => { j with st := .started, order := s.hst.starts + 1 })
  let s := { s with hst := { s.hst with starts := s.hst.starts + 1 } }
  (s.account j.slot 8 (s.now - j.ns)).endStart j 0 j.id

/-- R214: a thread's record in a save area. -/
def Thr.record (x : Thr) : List Byte :=
  (List.range 32).flatMap (fun r => (List.range 32).flatMap (fun l => leBytes 4 (x.lane r l)))
    ++ (List.range 32).flatMap (fun r => leBytes 8 (x.sr r)) ++ (List.range 8).flatMap (fun r => leBytes 8 (x.pr r))
    ++ leBytes 8 x.pc ++ leBytes 8 x.fpflags ++ leBytes 8 x.tstat
    ++ List.replicate (4608 - 4440) 0

/-- Save one thread of a victim: its record goes to the save area, its slot is free. -/
def State.saveThread (s : State) (n : Nat) (v : Spill) (t : Nat) : State × Spill :=
  let x := s.thr n t
  let s := s.writeBytes (v.base + 0x1000 + t * 4608) x.record
  (s.setThr n t { kind := x.kind }, { v with thr := setBits v.thr t t 1, thrs := v.thrs ++ [(t, x)] })

/-- R151, R215: the victims of job j on array n spill: all their threads there go SPILLED, a waiting one at the boundary before the
instruction that waits, as many as the incoming job
needs are saved, highest-numbered first, their chain stays open and their DMA channels stop. -/
def State.beginSpills (s : State) (j : Job) (n : Nat) : State :=
  let mine (v : Spill) : Bool := v.inc == j.id && !v.begun
  let vs := (s.arrOf n).spills.filter mine
  let ids := vs.map (·.job)
  let s := (List.range 64).foldl (fun s t =>
    let x := s.thr n t
    if ids.contains x.job && (x.st == .ready || x.st == .wait || x.st == .parked) then
      s.setThr n t (if x.why = .none then { x with st := .spilled } else { x with st := .spilled, why := .none, pc := x.ipc, wHeld := none })
    else s) s
  let s := (List.range 16).foldl (fun s c =>
    let ch := s.dmaCh n c
    if ch.job.any (fun k => ids.contains k) then (s.setDmaCh n c { ch with stop := true }).mvStop (16 * n + c) else s) s
  let r := vs.foldl (fun (a : State × Nat × List Spill) v =>
    let (s, need, done) := a
    let ts := ((s.jobThreads n v.job).reverse).take need
    let (s, v) := ts.foldl (fun (b : State × Spill) t => b.1.saveThread n b.2 t) (s, v)
    (s, need - ts.length, done ++ [{ v with begun := true }])) (s, j.threads - (s.freeThreads n).length, [])
  let s := r.1
  let a := s.arrOf n
  s.setArr n { a with
    spills := a.spills.filter (fun v => !mine v) ++ r.2.2
    cur := if a.cur.any (fun k => ids.contains k) then none else a.cur }

/-- R215, R481: whether the pass boundary has come on array n for every victim of job j: none of their passes is running,
and the remote requests of their threads have been answered (Assumption 38). -/
def State.spillReady (s : State) (j : Job) (n : Nat) : Bool :=
  let ids := ((s.arrOf n).spills.filter (fun v => v.inc == j.id && !v.begun)).map (·.job)
  (ids.isEmpty || s.leaseOf n ≠ .radio) && (s.arrOf n).run.all (fun p => p.d.radio || !ids.contains p.d.job)
  && (List.range 64).all (fun t => let x := s.thr n t
      !ids.contains x.job || (x.rmtOut.isEmpty && s.net.waits.all (fun w => w.2.2.2.isSome || w.2.2.1 ≠ thrKey n t)))

/-- Whether job j can begin on array n once its victims there have spilled. -/
def State.canBegin (s : State) (j : Job) (n : Nat) : Bool :=
  let ids := ((s.arrOf n).spills.filter (fun v => v.inc == j.id && !v.begun)).map (·.job)
  s.dmaFree n j && s.spillReady j n
  && decide ((s.freeThreads n).length + (ids.map (fun v => (s.jobThreads n v).length)).sum ≥ j.threads)
  && s.hst.jobs.all (fun k => k.id == j.id || ids.contains k.id || !s.regionsClash n j k)

/-- Start job j on the arrays where nothing holds it back any more. -/
def State.beginArrays (s : State) (id : Nat) : State :=
  (List.range 64).foldl (fun s n =>
    match s.jobOf id with
    | some j =>
      if bitAt j.arrays n && !j.begun.contains n && s.canBegin j n then
        let s := (s.beginSpills j n).bindArray j n
        if j.order = 0 then s.noteStarted j else s
      else s
    | none => s) s

/-- R481: note a pre-emption of job v by job j on array n, counted in the victim's slot. -/
def State.addSpill (s : State) (n : Nat) (j : Job) (v : Job) : State :=
  let a := s.arrOf n
  let r : Spill := { job := v.id, inc := j.id, base := v.saveAt n, acc := v.acc &&& j.acc, store := v.store &&& j.store
                     accLeft := v.acc &&& j.acc, storeLeft := v.store &&& j.store }
  (s.setArr n { a with spills := a.spills ++ [r] }).account v.slot 9 1

/-- R480: whether a job's signal cores have threads for it. -/
def State.coresFree (s : State) (j : Job) : Bool := (bitList 96 j.cores).all (fun c => decide ((s.freeSig c).length ≥ j.sig))

/-- R480: whether a pending job could start now. -/
def State.couldStart (s : State) (j : Job) : Bool := s.coresFree j && j.arrayList.all (fun n => (s.victims n j).isSome)

/-- R480: whether a pending job may be started before another: none that is evaluated earlier names one of its arrays, or would
start now on one of its signal cores. -/
def State.firstInLine (s : State) (j : Job) : Bool :=
  s.hst.jobs.all (fun k => k.id == j.id || k.order ≠ 0 || k.st ≠ .pending || !(k.before j)
    || ((k.arrays &&& j.arrays) == 0 && ((k.cores &&& j.cores) == 0 || !s.couldStart k)))

/-- JOB_LAUNCH (R480, R481): the scheduler starts a pending job, pre-empting where only lower-priority jobs stand in its way,
or goes on with the start of one whose victims have reached their pass boundary. -/
def State.jobLaunch (s : State) (id : Nat) : State :=
  match s.jobOf id with
  | none => s
  | some j =>
    if j.stop then s
    else if j.st = .started then s.beginArrays id
    else if !s.firstInLine j || !s.coresFree j then s
    else
      let plan := j.arrayList.map (fun n => (n, s.victims n j))
      if plan.any (fun p => p.2.isNone) then s
      else
        let s := plan.foldl (fun s p => (p.2.getD []).foldl (fun s v =>
          match s.jobOf v with
          | some k => s.addSpill p.1 j k
          | none => s) s) s
        let s := s.modJob id (fun j => { j with st := .started })
        let s := if j.sig ≠ 0 && j.cores ≠ 0 || j.arrays = 0 || j.threads = 0 then (s.bindCores j).noteStarted j else s
        s.beginArrays id

def execJobLaunch (job : BitVec 32) (s : State) : Host.Outcome State Fault Refusal := .next (whenLive s (fun s => s.jobLaunch job.toNat))

/-- R480: remove a job that never started. -/
def State.cancelJob (s : State) (j : Job) (status : Nat) : State :=
  let s := (s.endStart j status 0).dropJob j.id
  match j.serve with
  | some p => { s with sp := smod {} s.sp p (fun (x : SrvPart) => if x.job = some j.id then { x with job := none } else x) }
  | none => s

/-- JOB_START_TIMEOUT (R480): a job is still pending START_TMO × 1,024 exposures after it arose. -/
def State.startTimeout (s : State) (id : Nat) : State :=
  match s.jobOf id with
  | some j =>
    if j.st = .pending && decide (s.tim.expo - j.since ≥ s.get f_HST_SCHED_CFG_START_TMO * 1024) then
      (s.cancelJob j 8).status f_HST_STATUS_START_TMO
    else s
  | none => s

def execJobStartTimeout (job : BitVec 32) (s : State) : Host.Outcome State Fault Refusal :=
  .next (whenLive s (fun s => s.startTimeout job.toNat))

/-! Saving and reloading (R214 to R218). -/

/-- Zero in a save area what the source's unreadable words and lines hold. -/
def State.zeroBad (s : State) (bad : List Nat) (src dst n : Nat) : State :=
  bad.foldl (fun s g => (List.range 64).foldl (fun s i =>
    let a := g / 64 * 64 + i
    if src ≤ a ∧ a < src + n then s.writeBytes (dst + (a - src)) [0] else s) s) s

/-- Copy a region to the save area; with an uncorrectable error the unreadable lines are saved as zero. Answers whether
that happened. -/
def State.saveRegion (s : State) (src dst n : Nat) : State × Bool :=
  let bad := touched s.ms.uncorr src n
  let s := (touched s.ms.corr src n).foldl (fun s g => s.reportCorr g) s
  let s := bad.foldl (fun s g => s.reportUncorr g) s
  let s := s.copyRange dst src n
  let s := { s with ms := { s.ms with uncorr := coveredBy s.ms.uncorr dst n, corr := coveredBy s.ms.corr dst n } }
  (s.zeroBad bad src dst n, !bad.isEmpty)

/-- R214: the header of a save area. -/
def State.saveHeader (s : State) (n : Nat) (v : Spill) : List Byte :=
  let a := s.arrOf n
  let ch := a.chainOf false v.job
  let tenant := (s.jobOf v.job).map (·.tenant)
  leBytes 4 0x45564153 ++ leBytes 4 v.job ++ leBytes 2 (tenant.getD 0) ++ leBytes 1 n
    ++ leBytes 1 ((if v.poison then 1 else 0) + (if ch.isSome then 2 else 0)) ++ leBytes 4 ((ch.bind (·.last)).getD 0)
    ++ leBytes 8 v.store ++ leBytes 4 v.acc ++ leBytes 4 0 ++ leBytes 8 v.thr ++ leBytes 24 0

def State.modSpill (s : State) (n job : Nat) (f : Spill → Spill) : State :=
  let a := s.arrOf n
  s.setArr n { a with spills := a.spills.map (fun v => if v.job = job then f v else v) }

/-- The lowest bit set of a map of 64 bits. -/
def lowBit (m : Nat) : Option Nat := (bitList 64 m).head?

/-- One region of a spill, or its header once all are saved. -/
def State.saveNext (s : State) (n : Nat) (v : Spill) : State :=
  let slot := ((s.jobOf v.job).map (·.slot)).getD 0
  match lowBit v.accLeft, lowBit v.storeLeft with
  | some j, _ =>
    let (s, bad) := s.saveRegion (accBase n + j * 81920) (v.base + 0x50000 + j * 81920) 81920
    (s.account slot 2 81920).modSpill n v.job (fun v => { v with accLeft := setBits v.accLeft j j 0, poison := v.poison || bad })
  | none, some r =>
    let (s, bad) := s.saveRegion (storeBase n + r * 0x10000) (v.base + 0x2D0000 + r * 0x10000) 0x10000
    (s.account slot 2 0x10000).modSpill n v.job (fun v => { v with storeLeft := setBits v.storeLeft r r 0, poison := v.poison || bad })
  | none, none =>
    let s := s.writeBytes v.base (s.saveHeader n v)
    let s := (s.freeRange (v.base + 0x40) 1024).zeroRange (v.base + 0x440) 3008
    let s := if v.poison then s.status f_MEM_STATUS_SAVE_POISON else s
    s.modSpill n v.job (fun v => { v with hdr := true })

/-- SPILL_REGION_SAVED (R215, R217): the next region of the oldest spill in progress on the array is saved; the header comes
last. The save path pauses in a radio lease. -/
def State.spillSaved (s : State) (n : Nat) : State :=
  if s.leaseOf n = .radio then s
  else
    match (s.arrOf n).spills.find? (fun v => v.begun && !v.hdr) with
    | some v => s.saveNext n v
    | none => s

def execSpillRegionSaved (n : Fin 64) (s : State) : Host.Outcome State Fault Refusal := .next (whenLive s (fun s => s.spillSaved n))

/-- R482: whether nothing holds what a spilled job held on the array: no job its regions, none its saved threads. -/
def State.reloadFree (s : State) (n : Nat) (v : Spill) : Bool :=
  s.hst.jobs.all (fun k => k.id == v.job || (let h := s.heldBy n k; (v.acc &&& h.1) == 0 && (v.store &&& h.2) == 0))
  && v.thrs.all (fun e => let x := s.thr n e.1; x.job == 0 && !x.radio)

/-- RELOAD_START (R482): a spilled job is eligible and first among those that are: its reload begins. -/
def State.reloadStart (s : State) (n job : Nat) : State :=
  let a := s.arrOf n
  let ok (v : Spill) : Bool := v.hdr && !v.back && s.reloadFree n v && !((s.jobOf v.job).any (·.stop))
  let prioOf (v : Spill) : Nat := ((s.jobOf v.job).map (·.prio)).getD 0
  let l := a.spills.filter ok
  let hi := l.foldl (fun h v => max h (prioOf v)) 0
  match l.find? (fun v => prioOf v == hi) with
  | some v => if v.job = job then s.modSpill n job (fun v => { v with back := true, accLeft := v.acc, storeLeft := v.store }) else s
  | none => s

def execReloadStart (n : Fin 64) (job : BitVec 32) (s : State) : Host.Outcome State Fault Refusal :=
  .next (whenLive s (fun s => s.reloadStart n job.toNat))

/-- R151, R216, R218: a thread of a reloaded job is READY; FAULTED from a poisoned save area or in a job that has faulted. -/
def Thr.resumed (x : Thr) (bad : Bool) : Thr := { x with st := if bad then .faulted else .ready, why := .none }

/-- R214: the registers of a thread from its record in a save area. -/
def Thr.ofRecord (x : Thr) (bs : List Byte) : Thr :=
  let f (o k : Nat) := leNat ((bs.drop o).take k)
  let x := (List.range 32).foldl (fun (x : Thr) r => (List.range 32).foldl (fun (x : Thr) l => x.setLane r l (f (128 * r + 4 * l) 4)) x) { x with v := [] }
  let x := (List.range 32).foldl (fun (x : Thr) r => x.setS r (f (4096 + 8 * r) 8)) { x with s := [] }
  let x := (List.range 8).foldl (fun (x : Thr) r => x.setP r (f (4352 + 8 * r) 8)) { x with p := [] }
  { x with pc := f 4416 8 % 2 ^ 48, fpflags := f 4424 8, tstat := f 4432 8 }

/-- R185, R216: read bytes of a save area for the save path, and whether with an error. -/
def State.readSaved (s : State) (n a k : Nat) : State × List Byte × Bool :=
  let (s, bs, st) := s.load (srcTe (s.physFor n)) a k
  (s, bs, st ≠ .ok)

/-- RELOAD_COMPLETE (R214, R216, R218): every region that the header names has returned; the threads are restored from their records
and the DMA channels resume. -/
def State.reloadComplete (s : State) (n : Nat) : State :=
  match (s.arrOf n).spills.find? (fun v => v.back) with
  | none => s
  | some v =>
    if s.leaseOf n = .radio then s
    else
      let slot := ((s.jobOf v.job).map (·.slot)).getD 0
      let (s, hd, e0) := s.readSaved n v.base 64
      let h (o k : Nat) := leNat ((hd.drop o).take k)
      let one (a : State × Bool) (src dst k : Nat) : State × Bool :=
        let (s, bad) := a.1.saveRegion src dst k
        (s.account slot 2 k, a.2 || bad)
      let r := (bitList 32 (h 0x18 4)).foldl (fun a j => one a (v.base + 0x50000 + j * 81920) (accBase n + j * 81920) 81920) (s, e0 || bitAt (h 0xB 1) 0)
      let r := (bitList 64 (h 0x10 8)).foldl (fun a j => one a (v.base + 0x2D0000 + j * 0x10000) (storeBase n + j * 0x10000) 0x10000) r
      let r := (v.thrs.filter (fun e => bitAt (h 0x20 8) e.1)).foldl (fun (a : State × Bool) e =>
        let (s, bs, bad) := a.1.readSaved n (v.base + 0x1000 + e.1 * 4608) 4608
        (s.setThr n e.1 (({ e.2 with st := if e.2.st = .idle then .idle else .spilled } : Thr).ofRecord bs), a.2 || bad)) r
      let s := r.1
      let sick := (List.range 64).any (fun t => let x := s.thr n t; x.job == v.job && x.st == .faulted)
      let bad := r.2 || sick
      let s := (List.range 64).foldl (fun s t =>
        let x := s.thr n t
        if x.job = v.job ∧ x.st = .spilled then s.setThr n t (x.resumed bad) else s) s
      let s := (List.range 16).foldl (fun s c =>
        let ch := s.dmaCh n c
        if ch.job = some v.job then s.setDmaCh n c { ch with stop := false } else s) s
      let a := s.arrOf n
      let s := s.setArr n { a with spills := a.spills.filter (fun w => w.job ≠ v.job) }
      let s := s.modJob v.job (fun j => { j with run := sset 0 j.run n s.tim.expo, fault := if r.2 then 0x29 else j.fault })
      if r.2 then s.jobFault v.job else s

def execReloadComplete (n : Fin 64) (s : State) : Host.Outcome State Fault Refusal := .next (whenLive s (fun s => s.reloadComplete n))

/-! Ends (R474, R482). -/

/-- Whether a thread state counts as ended; a faulted thread does once the job has faulted. -/
def endedSt (st : ThrSt) : Bool := st == .idle || st == .faulted

/-- The threads of a job, on every engine and core. -/
def State.jobSts (s : State) (id : Nat) : List (ThrSt × Nat) :=
  (s.te.thr.filter (fun e => e.2.job == id)).map (fun e => (e.2.st, e.2.kind))
    ++ (s.sig.thr.filter (fun e => e.2.job == id && !e.2.radio)).map (fun e => (e.2.st, e.2.kind))

/-- Whether a job has ended: its threads have, and the passes that they issued have run to the end of their chains (R178). -/
def State.jobDone (s : State) (j : Job) : Bool :=
  let sts := s.jobSts j.id
  let bad := sts.any (fun x => x.1 == .faulted)
  let early := j.stop || bad
  j.st == .started && (early || (j.serve.isNone && j.arrayList.all (fun n => j.begun.contains n)))
  && sts.all (fun x => endedSt x.1) && !(j.serve.isSome && !j.stop)
  && j.arrayList.all (fun n =>
    let a := s.arrOf n
    a.run.all (fun p => p.d.radio || p.d.job ≠ j.id) && a.openQ.all (fun p => p.d.job ≠ j.id)
    && (j.stop || a.spills.all (fun v => v.job ≠ j.id))
    && (early || (bitList 16 j.dma).all (fun c => !(s.dmaCh n c).busy)))

/-- R151: a thread is released: it is IDLE and bound to no job. The kind of its last fault stays (R182). -/
def Thr.released (x : Thr) : Thr := { kind := x.kind }

/-- R482: a job's resources are freed. A chain that it left open takes no more passes. -/
def State.freeJob (s : State) (id : Nat) : State :=
  let s := s.dropWaits id
  let s := { s with
    te := { s.te with thr := smapv {} s.te.thr (fun x => if x.job = id ∧ x.radio = false then x.released else x) }
    sig := { s.sig with thr := smapv {} s.sig.thr (fun x => if x.job = id ∧ x.radio = false then { kind := x.kind } else x) } }
  (List.range 64).foldl (fun s n =>
    let a := s.arrOf n
    let s := s.setArr n ({ a with
      chains := a.chains.map (fun c => if !c.radio && c.job == id then { c with ending := true } else c)
      spills := a.spills.filter (fun v => v.job ≠ id)
      cur := if a.cur = some id then none else a.cur } : Arr).purge
    let s := (List.range 16).foldl (fun s c => if (s.dmaCh n c).job = some id then (s.setDmaCh n c {}).setMv (16 * n + c) {} else s) s
    s.retryIssues n) s

/-- JOB_END (R482): every thread of the job has ended; its resources are freed and its JOB_END entry is written. -/
def State.jobEnd (s : State) (id : Nat) : State :=
  match s.jobOf id with
  | none => s
  | some j =>
    if !s.jobDone j then s
    else
      let sts := s.jobSts id
      let bad := sts.any (fun x => x.1 == .faulted)
      let kind := if j.fault ≠ 0 then j.fault else ((sts.find? (fun x => x.1 == .faulted && x.2 ≠ 0)).map (·.2)).getD 0
      let status := if bad then 0x0B else if j.stop then 0x0C else 0
      let s := (s.freeJob id).dropJob id
      let s := match j.serve with
        | some p => { s with sp := smod {} s.sp p (fun (x : SrvPart) => if x.job = some j.id then { x with job := none } else x) }
        | none => s
      s.post j.win (cplEntry 4 status 1 0 (id + (if bad then kind * 2 ^ 32 else 0)) (j.arrival % 2 ^ 32) j.tag)

def execJobEnd (job : BitVec 32) (s : State) : Host.Outcome State Fault Refusal := .next (whenLive s (fun s => s.jobEnd job.toNat))

/-- R470: stop a job: its threads go IDLE at the instruction boundary they are at; what it saved is discarded. -/
def State.stopThreads (s : State) (j : Job) : State :=
  let s := s.dropWaits j.id
  let s : State := { s with
    te := { s.te with thr := s.te.thr.map (fun e =>
      (e.1, if e.2.job = j.id ∧ e.2.st ≠ .faulted then { e.2 with st := .idle, why := .none, wHeld := none } else e.2)) }
    sig := { s.sig with thr := s.sig.thr.map (fun e =>
      (e.1, if e.2.job = j.id ∧ !e.2.radio ∧ e.2.st ≠ .faulted then { e.2 with st := .idle, why := .none, wJob := none, wXfer := none } else e.2)) } }
  let s := j.arrayList.foldl (fun s n =>
    let a := s.arrOf n
    if a.spills.any (fun v => v.job == j.id) then
      s.setArr n { a with
        spills := a.spills.filter (fun v => v.job ≠ j.id)
        openQ := if a.spills.any (fun v => v.job == j.id && v.begun) then a.openQ.filter (fun p => p.d.job ≠ j.id) else a.openQ }
    else s) s
  s.modJob j.id (fun j => { j with stop := true })

/-- R470: stop a job, or cancel one that has not started. -/
def State.stopOf (s : State) (j : Job) : State := if j.st = .pending then s.cancelJob j 0x0C else s.stopThreads j

/-- R470: the job that a JOB_STOP or JOB_PRIO names; one of another window is outside its grants. -/
def State.namedJob (s : State) (w : Nat) (c : Cmd) (f : State → Job → State) : State :=
  let id := c.at 0x10 4
  if id / 2 ^ 24 ≠ (if w = admWin then 0xFF else w) then s.complete w c 5 0
  else
    match s.jobOf id with
    | some j => (f s j).complete w c 0 0
    | none => s.complete w c 6 0

/-- JOB_STOP (R470). -/
def State.jobStop (s : State) (w : Nat) : State := s.onCmd w 2 (fun s c => s.namedJob w c (fun s j => s.stopOf j))

def execJobStop (w : Fin 129) (s : State) : Host.Outcome State Fault Refusal := .next (whenLive s (fun s => s.jobStop w))

/-- JOB_PRIO (R470, R480): the job and its threads take the new priority. -/
def State.setPrio (s : State) (j : Job) (p : Nat) : State :=
  let s := s.modJob j.id (fun j => { j with prio := p })
  { s with
    te := { s.te with thr := s.te.thr.map (fun e => (e.1, if e.2.job = j.id then { e.2 with prio := p } else e.2)) }
    sig := { s.sig with thr := s.sig.thr.map (fun e => (e.1, if e.2.job = j.id ∧ !e.2.radio then { e.2 with prio := p } else e.2)) } }

def execJobPrio (w : Fin 129) (s : State) : Host.Outcome State Fault Refusal :=
  .next (whenLive s (fun s => s.onCmd w 3 (fun s c => s.namedJob w c (fun s j => s.setPrio j (c.at 0x14 1 % 8)))))

/-! COPY and FILL (R470). -/

/-- R464: the device-physical address of an address word of a command: with bit 63 a host address of the window's slice (the
manager region for the admin ring). -/
def State.cmdAddr (s : State) (w word : Nat) : Nat :=
  if bitAt word 63 then
    if w = admWin then (if s.winPort w = 0 then 0x400000000000 else 0x500000000000) + 0x80000000000 + word % 2 ^ 43
    else (if s.winPort w = 0 then 0x400000000000 else 0x500000000000) + (w % 64) * 2 ^ 37 + word % 2 ^ 37
  else word % 2 ^ 63

/-- Submit a bulk command to queue 2 of a mover. -/
def State.bulkCmd (s : State) (w m op : Nat) (c : Cmd) : State :=
  let loc (a : Nat) : Nat := a + 0xFFF * 2 ^ 48
  let d : BulkDesc := { ctrl := op, len := c.at 0x20 4, src := if op = 1 then loc (s.cmdAddr w (c.at 0x10 8)) else 0
                        dst := loc (s.cmdAddr w (c.at 0x18 8)), seq := c.tag, sub := .cmd w c.pos, ns := c.ns }
  (s.beginCmd w c).bulkSubmit m 2 d (s.winTenant w)

/-- COPY: a bulk copy on queue 2. -/
def execCopy (w : Fin 129) (m : Fin 8) (s : State) : Host.Outcome State Fault Refusal :=
  .next (whenLive s (fun s => s.onCmd w 4 (fun s c => s.bulkCmd w m 1 c)))

/-- FILL: a bulk zero fill on queue 2. -/
def execFill (w : Fin 129) (m : Fin 8) (s : State) : Host.Outcome State Fault Refusal :=
  .next (whenLive s (fun s => s.onCmd w 5 (fun s c => s.bulkCmd w m 2 c)))

/-- BULK_COMPLETE (R207): the descriptor ends, at ns of the time base; a COPY or FILL command that submitted it completes. -/
def State.bulkComplete (s : State) (m : Nat) (data : Option (List Byte)) (ns : Nat) : State :=
  match (if (s.bulkDesc m).isSome then s.atNs ns else s).bulkDone m data with
  | (s, some (d, code, n)) =>
    match d.sub with
    | .cmd w pos =>
      match s.cmdAt w pos with
      | some c => s.complete w c (match code with | 0 => 0 | 2 => 1 | _ => 0x0A) n
      | none => s
    | _ => s
  | (s, none) => s

def execBulkComplete (m : Fin 8) (data : List Byte) (ok : Bool) (ns : Nat) (s : State) : Host.Outcome State Fault Refusal :=
  .next (whenLive s (fun s => s.bulkComplete m (if ok then some data else none) ns))

/-! Substitution data errors (R101). -/

/-- R101, R178: stop the jobs whose store regions or row blocks hold an address of array n. -/
def State.stopHolders (s : State) (n addr : Nat) : State :=
  s.hst.jobs.foldl (fun s j =>
    let held := j.begun.contains n && (match s.region addr with
      | .store _ => bitAt j.store ((addr - storeBase n) / 0x10000)
      | .acc _ => bitAt j.acc ((addr - accBase n) / 81920)
      | _ => false)
    if held then ((s.stopJob j.id).modJob j.id (fun j => { j with fault := 5 })).jobFault j.id else s) s

/-- ARRAY_SWAP_DATA (R101): while a copy to the spare runs, its source cannot be read at an address. -/
def execArraySwapData (n : Fin 64) (addr : BitVec 48) (s : State) : Host.Outcome State Fault Refusal :=
  .next (whenLive s (fun s =>
    let a := addr.toNat
    if (s.arrOf n).map = .copying && (s.region a == .store n || s.region a == .acc n) then (s.swapData n a).stopHolders n a else s))

end Sys2Proof.Machine
end

