-- ==== Sys2Proof/Machine/SrvPool.lean ====
section
/-! DEFINITION. The serving engine's data: context entries, models, KV pools, page handles and page tables (R227 to R239,
R522). -/
namespace Sys2Proof.Machine
open Sys2Proof

/-! Context entries (R231). -/

def CtxSt.code : CtxSt → Nat
  | .free => 0 | .queued => 1 | .prefill => 2 | .decode => 3 | .pausing => 4 | .paused => 5 | .expired => 6

def CtxSt.ofCode : Nat → CtxSt
  | 1 => .queued | 2 => .prefill | 3 => .decode | 4 => .pausing | 5 => .paused | 6 => .expired | _ => .free

def State.ctx (s : State) (n : Nat) : Ctx := sget {} s.srv.ctx n
/-- Store an entry and note that the step or the command changed it (R228). -/
def State.setCtx (s : State) (n : Nat) (c : Ctx) : State :=
  { s with srv := { s.srv with ctx := sset {} s.srv.ctx n c, dirty := if s.srv.dirty.contains n then s.srv.dirty else s.srv.dirty ++ [n] } }
/-- R232: a context that ended is FREE. Its entry keeps what it held, as LAST_REASON, until an open writes it. -/
def Ctx.closed (c : Ctx) : Ctx :=
  { c with st := .free, resume := false, away := false, hand := false, rel := false, acq := 0, cancel := false, cancelCur := false
           late := false, lat := [], latCur := [], pt := [], leaf := [], root := 0, ptNew := [], leaving := false, reloading := 0 }
def State.modCtx (s : State) (n : Nat) (f : Ctx → Ctx) : State := s.setCtx n (f (s.ctx n))

/-- Whether this chip is the home of a context it holds an entry of (R280). -/
def State.isHome (s : State) (c : Ctx) : Bool := c.home == s.chipId

/-- PRIO byte of R231. -/
def Ctx.prioByte (c : Ctx) : Nat :=
  c.prio + (if c.sampled then 8 else 0) + (if c.autoResume then 16 else 0) + (if c.resume then 32 else 0) + (if c.resumeDecode then 64 else 0)

/-- R231: the 256 bytes of an entry; `units` is UNITS_FIXED. -/
def Ctx.bytes (c : Ctx) (units : Nat) : List Byte :=
  leBytes 1 c.st.code ++ leBytes 1 c.prioByte ++ leBytes 2 c.tenant ++ leBytes 4 c.model ++ leBytes 8 c.seed
    ++ leBytes 4 (c.rng + c.part * 2 ^ 18) ++ leBytes 4 c.pos ++ leBytes 4 c.promptLen ++ leBytes 4 c.promptDone
    ++ leBytes 4 c.genLimit ++ leBytes 4 c.genCount ++ leBytes 8 c.arrival ++ leBytes 8 c.root ++ leBytes 4 units
    ++ leBytes 2 c.resv ++ leBytes 2 c.latent ++ leBytes 2 c.chunk ++ leBytes 1 c.win ++ leBytes 1 c.tier ++ leBytes 4 c.ttl
    ++ leBytes 8 c.expiry ++ leBytes 8 c.archAddr ++ leBytes 4 c.archUnits ++ leBytes 1 c.reason ++ leBytes 3 0
    ++ leBytes 1 c.src ++ leBytes 1 c.depth ++ leBytes 1 c.depthMax ++ leBytes 1 c.width ++ leBytes 1 c.nodesMax
    ++ leBytes 1 c.zeroRun ++ leBytes 1 c.backoff ++ leBytes 1 0 ++ leBytes 8 c.hostTree ++ padTo 48 c.loupe
    ++ leBytes 8 c.userTag ++ leBytes 4 c.temp ++ leBytes 4 c.topP ++ leBytes 4 c.topK
    ++ (List.range 4).flatMap (fun i => leBytes 4 (c.stop.getD i 0)) ++ leBytes 2 c.home ++ leBytes 2 c.epoch
    ++ leBytes 8 c.tokIn ++ leBytes 8 c.tokOut ++ leBytes 8 c.unitTicks ++ leBytes 4 c.steps ++ leBytes 4 c.pauses
    ++ leBytes 4 c.last ++ List.replicate 20 0

/-- Read an entry's fields from its 256 bytes; the page table and the guest map stay. -/
def Ctx.ofBytes (c : Ctx) (b : List Byte) : Ctx :=
  let at' (o n : Nat) : Nat := leNat ((b.drop o).take n)
  let p := at' 1 1
  { c with
    st := .ofCode (at' 0 1), prio := p % 8, sampled := bitAt p 3, autoResume := bitAt p 4, resume := bitAt p 5, resumeDecode := bitAt p 6
    tenant := at' 2 2, model := at' 4 4, seed := at' 8 8, rng := at' 0x10 4 % 2 ^ 18, part := bits (at' 0x10 4) 21 18
    pos := at' 0x14 4, promptLen := at' 0x18 4, promptDone := at' 0x1C 4, genLimit := at' 0x20 4, genCount := at' 0x24 4
    arrival := at' 0x28 8, root := at' 0x30 8, resv := at' 0x3C 2, latent := at' 0x3E 2, chunk := at' 0x40 2, win := at' 0x42 1
    tier := at' 0x43 1 % 4, ttl := at' 0x44 4, expiry := at' 0x48 8, archAddr := at' 0x50 8, archUnits := at' 0x58 4, reason := at' 0x5C 1
    src := at' 0x60 1 % 4, depth := at' 0x61 1, depthMax := at' 0x62 1, width := at' 0x63 1, nodesMax := at' 0x64 1
    zeroRun := at' 0x65 1, backoff := at' 0x66 1, hostTree := at' 0x68 8, loupe := (b.drop 0x70).take 48
    userTag := at' 0xA0 8, temp := at' 0xA8 4, topP := at' 0xAC 4, topK := at' 0xB0 4
    stop := (List.range 4).map (fun i => at' (0xB4 + 4 * i) 4), home := at' 0xC4 2, epoch := at' 0xC6 2
    tokIn := at' 0xC8 8, tokOut := at' 0xD0 8, unitTicks := at' 0xD8 8, steps := at' 0xE0 4, pauses := at' 0xE4 4, last := at' 0xE8 4 }

/-! Models (R234, R235, R522). -/

def State.model (s : State) (slot : Nat) : Model := sget {} s.srv.model slot
/-- R234: handle of a loaded slot. -/
def State.modelHandle (s : State) (slot : Nat) : Nat := slot + 64 * (s.model slot).count
/-- R234: the descriptor that a handle names, while it matches. -/
def State.modelOf (s : State) (h : Nat) : Option Model :=
  let m := s.model (h % 64)
  if m.loaded ∧ m.count = h / 64 then some m else none

def Model.at (m : Model) (o n : Nat) : Nat := leNat ((m.desc.drop o).take n)
def Model.pageLog2 (m : Model) : Nat := m.at 0x38 1
def Model.groups (m : Model) : Nat := m.at 0x39 1
def Model.batchMax (m : Model) : Nat := m.at 0x3A 2
def Model.chunkMax (m : Model) : Nat := m.at 0x3C 2
def Model.prefillMax (m : Model) : Nat := m.at 0x3E 2
def Model.maxCtx (m : Model) : Nat := m.at 0x40 4
def Model.vocab (m : Model) : Nat := m.at 0x44 4
def Model.anchorKind (m : Model) : Nat := m.at 0x48 1
def Model.specSrc (m : Model) : Nat := m.at 0x49 1
/-- R239: units of a page. -/
def Model.pageUnits (m : Model) : Nat := 2 ^ (m.pageLog2 - 12)

/-- R235, R258, R521: whether every field of a descriptor is in range. -/
def Model.ok (m : Model) : Bool :=
  let gen := m.groups
  decide (12 ≤ m.pageLog2) && decide (m.pageLog2 ≤ 20) && decide (1 ≤ gen) && decide (1 ≤ m.batchMax) && decide (m.batchMax ≤ 512)
  && m.chunkMax % 16 == 0 && decide (16 ≤ m.chunkMax) && decide (m.chunkMax ≤ 8192)
  && m.prefillMax % 16 == 0 && decide (m.chunkMax ≤ m.prefillMax) && decide (m.prefillMax ≤ 65520)
  && m.maxCtx % 16 == 0 && decide (16 ≤ m.maxCtx) && decide (m.maxCtx ≤ 1048576 / gen)
  && decide (2 ≤ m.vocab) && decide (m.vocab ≤ 2 ^ 20) && decide (m.anchorKind ≤ 2) && decide (m.specSrc < 8)
  && decide (m.at 0x4A 1 ≤ 1) && m.at 0x4B 1 == 0 && m.at 0x50 24 == 0 && m.at 0x68 24 == 0
  && !(bitAt m.specSrc 0 && m.at 0x4C 4 == 0xFFFFFFFF)

/-- R522: the model digest. -/
def Model.digest (m : Model) : List Byte :=
  let z (i : Nat) : Bool := (decide (0x30 ≤ i) && decide (i ≤ 0x37)) || (decide (0x3A ≤ i) && decide (i ≤ 0x3F)) || i == 0x49 || (decide (0x4C ≤ i) && decide (i ≤ 0x4F))
  sha384 ((List.range 128).map (fun i => if z i then 0 else m.desc.getD i 0))

/-! Pools (R239). -/

/-- The PARTITIONS entry of a partition. -/
def State.pcfg (s : State) (p : Nat) : PartCfg :=
  match s.img with
  | some g => (g.parts.find? (fun x => x.id == p)).getD {}
  | none => {}

def State.kvBase (s : State) : Nat := s.reg64 r_SRV_KV_BASE_LO
def State.unitAddr (s : State) (u : Nat) : Nat := s.kvBase + u * 4096
def State.genOf (s : State) (u : Nat) : Nat := sget 0 s.srv.gen u

/-- Whether a run of units overlaps one of a table of runs. -/
def runHits (m : SMap Nat) (st len : Nat) : Bool := m.any (fun e => decide (e.1 < st + len) && decide (st < e.1 + e.2))

/-- R239: the free count F of a partition: its capacity less the units that contexts hold or have reserved. -/
def State.poolFree (s : State) (p : Nat) : Nat :=
  let g := s.pcfg p
  s.get (f_SRV_PART_QUOTA_QUOTA p) - ((s.srv.used.filter (fun e => decide (g.kvBase ≤ e.1) && decide (e.1 < g.kvBase + g.kvUnits))).map (·.2)).sum

/-- The first aligned run at or after candidate k, of cnt candidates, going round, that overlaps none of some runs. -/
def scanRun (busy : List (Nat × Nat)) (first len cnt k : Nat) : Nat → Option Nat
  | 0 => none
  | fuel + 1 =>
    let st := first + (k % cnt) * len
    if runHits busy st len then scanRun busy first len cnt (k + 1) fuel else some st

/-- R239: hand out a run of units of a partition's pool, aligned to its length: one whose zero fill is complete if there is one, else one
that a step holds for (R240). Which one, and which where the pool is so fragmented that none is free, is not stated: a free value
(Assumption 39). -/
def State.allocRun (s : State) (p len : Nat) : State × Nat :=
  let g := s.pcfg p
  let first := ceilDiv g.kvBase len * len
  let cnt := (g.kvBase + g.kvUnits - first) / len
  let (s, v) := s.freeW
  let ready := scanRun (s.srv.used ++ s.srv.zero ++ s.srv.leave) first len cnt v cnt
  let st := (ready.orElse (fun _ => scanRun s.srv.used first len cnt v cnt)).getD (first + v % cnt * len)
  ({ s with srv := { s.srv with used := sset 0 s.srv.used st len } }, st)

/-- R205, R239: submit the zero fill of a run of this chip's pool. Which mover and queue it takes is the model's choice (Assumption 39). -/
def State.fillRun (s : State) (st len : Nat) : State :=
  s.bulkSubmit (st % 8) 0 { ctrl := 2 + 64, len := len * 4096, dst := 0xFFF * 2 ^ 48 + s.unitAddr st, seq := st % 2 ^ 32, sub := .zero st } 0

/-- A run waits for its zero fill, which is submitted. -/
def State.zeroRun (s : State) (st len : Nat) : State :=
  ({ s with srv := { s.srv with zero := s.srv.zero ++ [(st, len)] } } : State).fillRun st len

/-- R237, R239: a run is released: it is free at once, the generation of its units advances, and it awaits its zero fill, or first the
archive copy of what it holds. -/
def State.freeRun (s : State) (st : Nat) (copy : Bool) : State :=
  let len := sget 0 s.srv.used st
  if len = 0 then s
  else
    let v := s.srv
    let s : State := { s with srv := { v with
        used := sdel v.used st
        gen := (List.range len).foldl (fun g i => sset 0 g (st + i) ((sget 0 g (st + i) + 1) % 65536)) v.gen } }
    if copy then { s with srv := { s.srv with leave := s.srv.leave ++ [(st, len)] } } else s.zeroRun st len

/-- R239, R252: a run whose archive copy has ended awaits its zero fill. -/
def State.leaveRun (s : State) (st : Nat) : State :=
  match s.srv.leave.find? (fun e => e.1 == st) with
  | some e => ({ s with srv := { s.srv with leave := s.srv.leave.erase e } } : State).zeroRun e.1 e.2
  | none => s

/-- R240: whether a run awaits no zero fill and no archive copy. -/
def State.runReady (s : State) (st len : Nat) : Bool := !runHits s.srv.zero st len && !runHits s.srv.leave st len

/-- Units of a partition's pool that are free and not yet zero-filled (R256). -/
def State.zeroing (s : State) (p : Nat) : Nat :=
  let g := s.pcfg p
  let l := ((s.srv.zero ++ s.srv.leave).flatMap (fun e => (List.range e.2).map (fun i => e.1 + i))).eraseDups
  (l.filter (fun u => decide (g.kvBase ≤ u) && decide (u < g.kvBase + g.kvUnits) && !runHits s.srv.used u 1)).length

/-- R256: show the units that await their zero fill. -/
def State.showZeroing (s : State) : State := (List.range 16).foldl (fun s p => s.put (f_SRV_PART_ZERO_ZEROING p) (s.zeroing p)) s

/-! The serving engine's bulk descriptors (R205, R207, R252). -/

/-- Whether a descriptor of a submitter waits in a mover's queue or is served. -/
def State.bulkWaits (s : State) (sub : BulkSub) : Bool := s.ms.bulkQ.any (fun e => e.2.any (fun d => d.sub == sub))

/-- The completions of a submitter in the serving engine's FIFO, and the FIFO without them. -/
def State.bulkTake (s : State) (sub : BulkSub) : State × List BulkCpl :=
  let l := sget [] s.ms.bulkCpl 0
  ({ s with ms := { s.ms with bulkCpl := sset [] s.ms.bulkCpl 0 (l.filter (fun c => c.sub ≠ sub)) } }, l.filter (fun c => c.sub == sub))

/-- Withdraw the descriptors and completions of a submitter; a mover that serves one stops and goes on with its next. -/
def State.bulkDrop (s : State) (sub : BulkSub) : State :=
  let s := (s.bulkTake sub).1
  (List.range 8).foldl (fun s m =>
    if (List.range 4).any (fun q => (s.bulkQ m q).any (fun d => d.sub == sub)) then
      let mine := (s.bulkDesc m).any (fun d => d.sub == sub)
      let s := if mine then (({ s with ms := { s.ms with bulkCur := sset 0 s.ms.bulkCur m 0 } } : State).setMv (1024 + m) {}) else s
      let s := (List.range 4).foldl (fun s q => s.setBulkQ m q ((s.bulkQ m q).filter (fun d => d.sub ≠ sub))) s
      s.bulkStart m
    else s) s

/-! Page handles and page tables (R236 to R238). -/

/-- R237: the handle of a page of this chip. -/
def State.handle (s : State) (u log2 : Nat) : Nat :=
  s.chipId + u * 2 ^ 12 + s.genOf u * 2 ^ 40 + 2 ^ 56 + (log2 - 12) * 2 ^ 58
def hHome (h : Nat) : Nat := bits h 11 0
def hUnit (h : Nat) : Nat := bits h 39 12

/-- Allocate a page from a partition's pool. -/
def State.newPage (s : State) (p : Nat) (m : Model) : State × Nat :=
  let (s, u) := s.allocRun p m.pageUnits
  (s, s.handle u m.pageLog2)

/-- Release a page of this chip; one of another chip is left to its own. -/
def State.freePage (s : State) (h : Nat) (copy : Bool) : State := if hHome h = s.chipId then s.freeRun (hUnit h) copy else s

def PtEnt.bytes (e : PtEnt) : List Byte := leBytes 8 e.h ++ (List.range 16).flatMap (fun i => leBytes 1 (e.map.getD i 0)) ++ leBytes 8 0

/-- The unit number of an address of this chip's pool. -/
def State.unitOf (s : State) (a : Nat) : Nat := (a - s.kvBase) / 4096

/-- R238: write bytes of a page-table unit. While the unit awaits a zero fill or an archive copy, the table is written once that is
complete. -/
def State.ptWrite (s : State) (unit off : Nat) (bs : List Byte) : State :=
  if s.runReady (s.unitOf unit) 1 then s.writeBytes (unit + off) bs else s

/-- Take a page-table unit of a context if a number of it has none yet: number 0 is the root. -/
def State.needLeaf (s : State) (n e : Nat) : State :=
  let c := s.ctx n
  let (s, c) : State × Ctx := if c.root ≠ 0 then (s, c)
    else
      let (s, u) := s.allocRun c.part 1
      (s, { c with root := s.unitAddr u })
  let k := e / 128
  let (s, c) : State × Ctx := if sget 0 c.leaf k ≠ 0 then (s, c)
    else
      let (s, u) := s.allocRun c.part 1
      let a := s.unitAddr u
      (s.ptWrite c.root (8 * k) (leBytes 8 a), { c with leaf := sset 0 c.leaf k a })
  s.setCtx n c

/-- R238: write page-table entry e of a context: in its page table at home, else in what the next retirement update carries. -/
def State.ptPut (s : State) (n e : Nat) (x : PtEnt) : State :=
  if s.isHome (s.ctx n) then
    let s := s.needLeaf n e
    let c := s.ctx n
    (s.ptWrite (sget 0 c.leaf (e / 128)) (32 * (e % 128)) x.bytes).setCtx n { c with pt := sset {} c.pt e x }
  else
    let c := s.ctx n
    s.setCtx n { c with pt := sset {} c.pt e x, ptNew := if c.ptNew.contains e then c.ptNew else c.ptNew ++ [e] }

/-- Write the page-table units of a context that stand in a run whose zero fill has completed. -/
def State.ptFill (s : State) (n st len : Nat) : State :=
  let c := s.ctx n
  let hit (a : Nat) : Bool := a ≠ 0 && decide (st ≤ s.unitOf a) && decide (s.unitOf a < st + len)
  if !(s.isHome c) then s
  else
    let s := if hit c.root then c.leaf.foldl (fun s k => s.ptWrite c.root (8 * k.1) (leBytes 8 k.2)) s else s
    c.leaf.foldl (fun s k =>
      if hit k.2 then (c.pt.filter (fun e => e.1 / 128 == k.1)).foldl (fun s e => s.ptWrite k.2 (32 * (e.1 % 128)) e.2.bytes) s else s) s

/-- PAGE_ZERO_FILL_COMPLETE (R207, R239), but for the archive reloads that waited for it: the mover's completion of the zero fill of a released run is taken. The run may be handed out;
the page-table units that it was already handed out for are written. A fill that ended with an error is submitted again. -/
def State.zeroFilled (s : State) (u : Nat) : State :=
  let l := sget [] s.ms.bulkCpl 0
  match l.find? (fun c => c.sub == .zero u), s.srv.zero.find? (fun e => e.1 == u) with
  | some c, some e =>
    let s : State := { s with ms := { s.ms with bulkCpl := sset [] s.ms.bulkCpl 0 (l.erase c) } }
    if c.status ≠ 0 then s.fillRun e.1 e.2
    else
      let s : State := { s with srv := { s.srv with zero := s.srv.zero.erase e } }
      ((s.srv.ctx.map (·.1)).foldl (fun s n => s.ptFill n e.1 e.2) s).showZeroing
  | _, _ => s

/-- Blocks of 16 positions for which a context holds pages. -/
def Ctx.blocks (c : Ctx) (groups : Nat) : Nat :=
  max (ceilDiv c.pos 16) (c.pt.foldl (fun m e => max m (if e.2.h = 0 then 0 else e.1 / groups + 1)) 0)

/-- R244: units of pages and page-table units that a context must add to hold a number of tokens. -/
def State.growUnits (s : State) (c : Ctx) (m : Model) (tokens : Nat) : Nat :=
  let need := ceilDiv tokens 16
  let have' := c.blocks m.groups
  let pages := (need - have') * m.groups * m.pageUnits
  if s.isHome c && decide (have' < need) then pages + (ceilDiv (need * m.groups) 128 - c.leaf.length) + (if c.root = 0 then 1 else 0) else pages

/-- Reserve the pages for a number of tokens from the pool of the partition that runs the context. -/
def State.growTo (s : State) (n : Nat) (m : Model) (tokens : Nat) : State :=
  let have' := (s.ctx n).blocks m.groups
  (List.range (ceilDiv tokens 16 - have')).foldl (fun s i =>
    (List.range m.groups).foldl (fun s g =>
      let (s, h) := s.newPage (s.ctx n).owner m
      s.ptPut n ((have' + i) * m.groups + g) { h := h, map := List.replicate 16 0 }) s) s

/-- Release the pages of blocks from a number on. -/
def State.shrinkTo (s : State) (n : Nat) (m : Model) (blocks : Nat) : State :=
  let l := (s.ctx n).pt.filter (fun e => decide (blocks * m.groups ≤ e.1) && e.2.h ≠ 0)
  l.foldl (fun s e =>
    let s := (s.freePage e.2.h false).ptPut n e.1 { h := 0, map := List.replicate 16 0 }
    let c := s.ctx n
    s.setCtx n { c with pt := sdel c.pt e.1 }) s

/-- Release the latent pages of a context. -/
def State.freeLatent (s : State) (n : Nat) (cur : Bool) : State :=
  let c := s.ctx n
  let l := if cur then c.latCur else c.lat
  let s := l.flatten.foldl (fun s h => s.freePage h false) s
  s.modCtx n (fun c => if cur then { c with latCur := [] } else { c with lat := [] })

/-- R231: UNITS_FIXED: the pages with fixed entries and the page-table units that a context holds. A guest's entry counts the units of
the table that its home holds for it. -/
def State.unitsFixed (s : State) (c : Ctx) : Nat :=
  match s.modelOf c.model with
  | some m =>
    let pages := (c.pt.filter (fun e => decide (e.1 / m.groups < ceilDiv c.pos 16) && e.2.h ≠ 0 && !bitAt e.2.h 57)).length
    let table := if s.isHome c then c.leaf.length + (if c.root = 0 then 0 else 1)
      else if pages = 0 then 0 else ceilDiv (c.blocks m.groups * m.groups) 128 + 1
    pages * m.pageUnits + table
  | none => c.leaf.length + (if c.root = 0 then 0 else 1)

/-- Units of this chip's pools that a context holds or has reserved. -/
def State.unitsHeld (s : State) (c : Ctx) : Nat :=
  let u := match s.modelOf c.model with | some m => m.pageUnits | none => 1
  let mine (h : Nat) : Bool := h ≠ 0 && hHome h == s.chipId
  let pages := (c.pt.filter (fun e => mine e.2.h)).length + (c.lat.flatten.filter mine).length + (c.latCur.flatten.filter mine).length
  pages * u + (if s.isHome c then c.leaf.length + (if c.root = 0 then 0 else 1) else 0)

/-- R228: write an entry to the table. -/
def State.writeEntry (s : State) (n : Nat) : State :=
  let s := s.writeBytes (s.reg64 r_SRV_CTX_BASE_LO + n * 256) ((s.ctx n).bytes (s.unitsFixed (s.ctx n)))
  { s with srv := { s.srv with dirty := s.srv.dirty.filter (· ≠ n) } }

/-- R228: the retirement of a partition's step writes the changed entries of the contexts that the partition owns. -/
def State.writeBack (s : State) (p : Nat) : State :=
  (s.srv.dirty.filter (fun n => (s.ctx n).owner == p && !(s.ctx n).away)).foldl (fun s n => s.writeEntry n) s

/-! The context cache (R229). -/

/-- Contexts that are pinned: those of steps that have not retired. -/
def State.pinned (s : State) : List Nat :=
  (List.range 16).flatMap (fun p => let x := sget {} s.sp p; if x.phase = .idle then [] else (x.batch.filter (fun e => !e.out)).map (·.ctx))

/-- R229: look a context up in the cache, counting a hit or a miss; a full set replaces its least recently used entry that
is not pinned. -/
def State.cacheTouch (s : State) (n : Nat) (pins : List Nat) : State :=
  let k := n % 4096
  let l := sget [] s.srv.cache k
  let hit := l.contains n
  let l' := l.filter (· ≠ n)
  let l' := if l'.length ≥ 8 then
      match l'.reverse.find? (fun x => !pins.contains x) with
      | some v => l'.filter (· ≠ v)
      | none => l'.take 7
    else l'
  let s := { s with srv := { s.srv with cache := sset [] s.srv.cache k (n :: l') } }
  if hit then s.bump f_SRV_CACHE_HIT_COUNT else s.bump f_SRV_CACHE_MISS_COUNT

end Sys2Proof.Machine
end

