-- ==== Sys2Proof/Machine/SrvTree.lean ====
section
/-! DEFINITION. Speculative generation: trees, their placement, the tree record, acceptance, fixing and depth (R257 to R270). -/
namespace Sys2Proof.Machine
open Sys2Proof

/-- R260: the planned node count of a context. -/
def State.planNodes (s : State) (c : Ctx) : Nat :=
  if s.flag f_SPC_CFG_ENABLE && c.src ≠ 0 && c.depth ≠ 0 && c.backoff == 0 then min c.nodesMax (1 + c.width * c.depth) else 1

/-- R260: latent pages, in each group, that a tree of N nodes takes. -/
def latentPages (n : Nat) : Nat := ceilDiv (n - 1) 16

/-- R259: the spine shape: node i's parent and depth, the root first. -/
def spineNode (w i : Nat) : Nat × Nat :=
  if i = 0 then (0xFF, 0)
  else
    let d := (i - 1) / w + 1
    (if d = 1 then 0 else 1 + (d - 2) * w, d)

/-- Depth of node i of a parent list. -/
def depthOf (par : List Nat) : Nat → Nat → Nat
  | 0, _ => 0
  | fuel + 1, i => if i = 0 then 0 else depthOf par fuel (par.getD i 0) + 1

/-- Whether node a is node i or an ancestor of it. -/
def isAnc (par : List Nat) (a : Nat) : Nat → Nat → Bool
  | 0, i => a == i
  | fuel + 1, i => a == i || (i ≠ 0 && isAnc par a fuel (par.getD i 0))

/-- R257, R259: a host-tree payload that breaks no rule: its parents and its tokens. -/
def readHostTree (b : List Byte) : Option (List Nat × List Nat) :=
  let byte (o : Nat) : Nat := (b.getD o 0).toNat
  let n := byte 4
  let par := (List.range n).map (fun i => byte (8 + i))
  let toks := (List.range n).map (fun i => leNat ((b.drop (0x48 + 4 * i)).take 4))
  let below := (List.range n).all (fun i => i == 0 || decide (par.getD i 0 < i))
  if 1 ≤ n ∧ n ≤ 64 ∧ byte 5 = 0 ∧ byte 6 = 0 ∧ byte 7 = 0 ∧ par.getD 0 0 = 0xFF ∧ below = true
      ∧ (List.range n).all (fun i => decide (depthOf par 64 i ≤ 16)) = true
      ∧ (List.range n).all (fun i => decide ((par.filter (· == i)).length ≤ 8)) = true then some (par, toks) else none

/-! Placement (R261). -/

/-- What placement works on: for each node kept so far its place; a node with none is not placed yet. -/
structure Plan where
  par : List Nat
  keep : List Nat
  place : SMap Nat
  deriving DecidableEq, Repr

/-- The nodes of a plan below or at node a that are kept. -/
def Plan.subtree (p : Plan) (a : Nat) : List Nat := p.keep.filter (fun i => isAnc p.par a 64 i)

/-- Drop a node with its descendants. -/
def Plan.drop (p : Plan) (a : Nat) : Plan := { p with keep := p.keep.filter (fun i => !isAnc p.par a 64 i) }

/-- Place nodes in order at the given slots of a page: page 0 is the root block, k + 1 latent page k. -/
def Plan.put (p : Plan) (page : Nat) (l : List (Nat × Nat)) : Plan :=
  { p with place := l.foldl (fun m e => sins e.1 (e.2 + 16 * page) (sdel m e.1)) p.place }

/-- The first-child chain from a node through kept nodes that a test admits. -/
def Plan.chain (p : Plan) (ok : Nat → Bool) : Nat → Nat → List Nat
  | 0, _ => []
  | fuel + 1, i =>
    match p.keep.find? (fun j => j ≠ 0 && p.par.getD j 0 == i) with
    | some j => if ok j then j :: p.chain ok fuel j else []
    | none => []

/-- Free slots of latent page k. -/
def Plan.latFree (p : Plan) (k : Nat) : List Nat := (List.range 16).filter (fun i => !p.place.any (fun e => e.2 == i + 16 * (k + 1)))

/-- R261: place a tree: `r` is the root's position, `free` the free slots of the root block's page with the root's first,
`lat` the number of latent pages, `lim` the depth limit. Answers the kept nodes with their places, how many were dropped, and how many
of them placement itself dropped. -/
def placeTree (par : List Nat) (r : Nat) (free : List Nat) (lat lim : Nat) : Plan × Nat × Nat :=
  let n := par.length
  let dep (i : Nat) : Nat := depthOf par 64 i
  let p : Plan := { par := par, keep := (List.range n).filter (fun i => decide (dep i ≤ lim)), place := [(0, free.headD 0)] }
  let before := p.keep.length
  let slots := free.drop 1
  let inRoot (i : Nat) : Bool := i ≠ 0 && (r + dep i) / 16 == r / 16
  let b0 := p.keep.filter inRoot
  let p :=
    if b0.length ≤ slots.length then p.put 0 (b0.zip slots)
    else
      let ch := p.chain inRoot 16 0
      let p := (b0.filter (fun i => !ch.contains i)).foldl (fun p i => p.drop i) p
      p.put 0 (ch.zip slots)
  let heads := p.keep.filter (fun i => i ≠ 0 && dep i == 16 - r % 16)
  let p := heads.foldl (fun (p : Plan) h =>
    let sub := p.subtree h
    match (List.range lat).find? (fun k => decide (sub.length ≤ (p.latFree k).length)) with
    | some k => p.put (k + 1) (sub.zip (p.latFree k))
    | none => p.drop h) p
  (p, n - p.keep.length, before - p.keep.length)

/-- R261: renumber the kept nodes and gather the tree. -/
def Plan.tree (p : Plan) (dropped src : Nat) (toks : Option (List Nat)) (lat : List (List Nat)) : Tree :=
  let num (i : Nat) : Nat := (p.keep.takeWhile (· ≠ i)).length
  { parent := p.keep.map (fun i => if i = 0 then 0xFF else num (p.par.getD i 0))
    depth := p.keep.map (fun i => depthOf p.par 64 i)
    place := p.keep.map (fun i => sget 0 p.place i)
    toks := toks.map (fun l => p.keep.map (fun i => l.getD i 0))
    dropped := dropped, src := src, lat := lat }

/-! The tree record (R262). -/

/-- R262: DODGE row i. -/
def Tree.row (t : Tree) (i : Nat) : Nat := (List.range t.parent.length).foldl (fun v j => if isAnc t.parent j 64 i then v + 2 ^ j else v) 0

/-- R262: BLOCKMASK: bit 4 rb + g for each block of 16 rows and 16 columns that is all zero. -/
def Tree.blockMask (t : Tree) : Nat :=
  (List.range 16).foldl (fun v k =>
    let zero := (List.range 16).all (fun i =>
      let row := k / 4 * 16 + i
      decide (t.parent.length ≤ row) || bits (t.row row) (k % 4 * 16 + 15) (k % 4 * 16) == 0)
    if zero then v + 2 ^ k else v) 0

def Tree.maxDepth (t : Tree) : Nat := t.depth.foldl max 0

/-- R262: address of the tree record at batch position b. -/
def State.treeAt (s : State) (p b : Nat) : Nat := s.reg64 (r_SPC_TREE_BASE_LO p) + b * 0x4000

/-- R262: write what the ZS9 writes of a record before the step. -/
def State.writeTree (s : State) (p b n : Nat) (c : Ctx) (t : Tree) : State :=
  let a := s.treeAt p b
  let bytes64 (l : List Nat) : List Byte := (List.range 64).flatMap (fun i => leBytes 1 (l.getD i 0))
  let s := s.writeBytes a (leBytes 4 (n + p * 2 ^ 18 + 2 ^ 31) ++ leBytes 1 t.parent.length ++ leBytes 1 t.maxDepth ++ leBytes 1 t.src
    ++ leBytes 1 t.dropped ++ leBytes 4 c.pos ++ leBytes 1 t.lat.length)
  let s := s.writeBytes (a + 0xE) (leBytes 2 t.blockMask ++ bytes64 t.parent ++ bytes64 t.depth ++ bytes64 t.place ++ leBytes 4 c.last)
  let s := match t.toks with
    | some l => s.writeBytes (a + 0xD4) ((List.range (t.parent.length - 1)).flatMap (fun i => leBytes 4 (l.getD (i + 1) 0)))
    | none => s
  let s := s.writeBytes (a + 0x2D0) ((List.range 64).flatMap (fun i => leBytes 8 (if i < t.parent.length then t.row i else 0)))
  (s.writeBytes (a + 0x4E0) (List.replicate 800 0)).writeBytes (a + 0x800) (t.lat.flatten.flatMap (fun h => leBytes 8 h))

/-! Verification (R264, R265, R267). -/

/-- R265: the walk: the path of accepted nodes. -/
def walkTree (par toks main : List Nat) (vocab : Nat) : Nat → Nat → List Nat
  | 0, _ => []
  | fuel + 1, i =>
    match (List.range par.length).find? (fun j => j ≠ 0 && par.getD j 0 == i && toks.getD j 0 == main.getD i 0 && decide (toks.getD j 0 < vocab)) with
    | some j => j :: walkTree par toks main vocab fuel j
    | none => []

/-- R267: the emitted list cut after the first stop token. -/
def cutStop (stop : List Nat) : List Nat → List Nat
  | [] => []
  | t :: ts => if stop.contains t ∧ t ≠ 0xFFFFFFFF then [t] else t :: cutStop stop ts

/-- What the verification of a DECODE context finds: the path, the tokens it emits, and whether the last MAIN is in range. -/
structure Verdict where
  path : List Nat := []
  toks : List Nat := []
  ok : Bool := true
  deriving DecidableEq, Repr

/-- R265: verify the record at batch position b. The token of the root is the context's last. -/
def State.verify (s : State) (p b : Nat) (c : Ctx) (t : Tree) (vocab : Nat) : Verdict :=
  let a := s.treeAt p b
  let n := t.parent.length
  let toks := (List.range n).map (fun i => s.readLE (a + 0xD0 + 4 * i) 4)
  let main := (List.range n).map (fun i => s.readLE (a + 0x1D0 + 4 * i) 4)
  let path := walkTree t.parent toks main vocab 17 0
  let lastMain := main.getD (path.getLastD 0) 0
  { path := path, toks := cutStop c.stop (path.map (fun i => toks.getD i 0) ++ [lastMain]), ok := decide (lastMain < vocab) }

/-! Fixing and depth (R268, R269). -/

/-- R238: byte j of a page-table entry, in every group of a block. -/
def State.setSlot (s : State) (n block j v : Nat) (m : Model) : State :=
  (List.range m.groups).foldl (fun s g =>
    let e := block * m.groups + g
    let x : PtEnt := sget {} (s.ctx n).pt e
    s.ptPut n e { x with map := (List.range 16).map (fun i => if i = j then v else x.map.getD i 0) }) s

/-- R238: slots of a block's page that no byte of its map names. -/
def freeSlots (map : List Nat) : List Nat :=
  (List.range 16).filter (fun i => !map.any (fun b => bitAt b 4 && b % 16 == i))

/-- The global address of a page. -/
def State.pageGlobal (s : State) (h : Nat) : Nat := hHome h * 2 ^ 48 + s.unitAddr (hUnit h)

/-- R236, R268: a bulk mover zero-fills slot j of a page, on whichever chip it lies. Which mover and queue it takes is the model's
choice (Assumption 39). -/
def State.zeroSlot (s : State) (h j : Nat) (m : Model) : State :=
  if h = 0 then s
  else
    let k := 2 ^ (m.pageLog2 - 4)
    s.bulkSubmit (hUnit h % 8) 0 { ctrl := 2, len := k, dst := s.pageGlobal h + j * k, seq := hUnit h % 2 ^ 32, sub := .arch } 0

/-- R240, R268: whether a zero fill of a bulk mover that has not ended touches a range of global addresses. -/
def State.fillWaits (s : State) (g len : Nat) : Bool :=
  s.ms.bulkQ.any (fun e => e.2.any (fun d => d.engine && bits d.ctrl 3 0 == 2 && decide (d.dst < g + len) && decide (g < d.dst + d.len)))

/-- R268: fix the root and the accepted nodes of k emitted tokens, adopt the latent page that holds those of the next block,
zero the other candidate slots and return the other latent pages. -/
def State.fixTree (s : State) (n : Nat) (t : Tree) (v : Verdict) (m : Model) : State :=
  let c := s.ctx n
  let r := c.pos
  let k := v.toks.length
  let fixed := 0 :: v.path.take (k - 1)
  let s := fixed.foldl (fun s i =>
    let q := r + t.depth.getD i 0
    let pl := t.place.getD i 0
    if q / 16 = r / 16 then s.setSlot n (q / 16) (q % 16) (16 + pl % 16) m else s) s
  let next := fixed.filter (fun i => (r + t.depth.getD i 0) / 16 ≠ r / 16)
  let adopt : Option Nat := (next.head?).map (fun i => t.place.getD i 0 / 16 - 1)
  let block := r / 16 + 1
  let s := match adopt with
    | none => s
    | some lp =>
      let map := (List.range 16).map (fun j =>
        match next.find? (fun i => (r + t.depth.getD i 0) % 16 == j) with
        | some i => 16 + t.place.getD i 0 % 16
        | none => 0)
      (List.range m.groups).foldl (fun s g =>
        let e := block * m.groups + g
        let old := (sget ({} : PtEnt) (s.ctx n).pt e).h
        let s := if old = 0 then s else s.freePage old false
        s.ptPut n e { h := (t.lat.getD lp []).getD g 0, map := map }) s
  -- the candidates that are not fixed
  let s := (List.range t.parent.length).foldl (fun s i =>
    if fixed.contains i then s
    else
      let pl := t.place.getD i 0
      (List.range m.groups).foldl (fun s g =>
        let h := if pl / 16 = 0 then (sget ({} : PtEnt) (s.ctx n).pt (r / 16 * m.groups + g)).h else (t.lat.getD (pl / 16 - 1) []).getD g 0
        s.zeroSlot h (pl % 16) m) s) s
  let s := (List.range t.lat.length).foldl (fun s lp => if adopt = some lp then s else (t.lat.getD lp []).foldl (fun s h => s.freePage h false) s) s
  s.modCtx n (fun c => { c with latCur := [] })

/-- R269: depth and backoff after a step, from the record's depth and the accepted count; whether backoff began. -/
def Ctx.adapt (c : Ctx) (t a zeroLimit backoff : Nat) : Ctx × Bool :=
  if c.backoff > 0 then
    ({ c with backoff := c.backoff - 1, depth := if c.backoff = 1 then 1 else c.depth }, false)
  else if t > 0 then
    if a = 0 then
      if c.zeroRun + 1 ≥ zeroLimit then ({ c with depth := 0, backoff := backoff, zeroRun := 0 }, true)
      else ({ c with zeroRun := c.zeroRun + 1, depth := max (c.depth - 1) 1 }, false)
    else
      let c := { c with zeroRun := 0 }
      if a = t then ({ c with depth := min (c.depth + 1) c.depthMax }, false)
      else if 2 * a < t then ({ c with depth := max (c.depth - 1) 1 }, false)
      else (c, false)
  else (c, false)

/-! Placement of a context's tree at a planning. -/

/-- R259, R261: the shape that a context's tree starts from: parents, tokens of a host tree, and whether a host payload was
discarded, for a field error (2) or otherwise (1). `data` is what a read of the payload answered. -/
def Ctx.shapeOf (c : Ctx) (n : Nat) (data : Option (List Byte)) : List Nat × Option (List Nat) × Nat :=
  let alone : List Nat := [0xFF]
  if c.src ≠ 3 then ((List.range n).map (fun i => (spineNode c.width i).1), none, 0)
  else if c.hostTree = 0 then (alone, none, 0)
  else
    match data with
    | none => (alone, none, 1)
    | some b =>
      match readHostTree b with
      | none => (alone, none, 2)
      | some (par, toks) => if leNat (b.take 4) ≠ c.pos then (alone, none, 1) else if n = 1 then (alone, none, 0) else (par.take n, some toks, 0)

/-- R259, R464: read a host-tree payload of 328 bytes, where `data` is what the host answered. A read that the aperture does not map, or
that another chip would have to make, fails. -/
def State.readTree (s : State) (c : Ctx) (data : Option (List Byte)) : State × Option (List Byte) :=
  if !(s.isHome c) then (s, none)
  else match s.region c.hostTree with
    | .hostA | .hostB =>
      match s.hostAddr c.hostTree 328 with
      | some (port, pasid, h) => (s.hostR (s.winSlot c.win) port (pasid.getD 0) h 328, data.map (padTo 328))
      | none => (s.raise srcServe 0x16 c.hostTree 0, none)
    | _ => let (s, bs, st) := s.load srcServe c.hostTree 328; (s, if st = .ok then some bs else none)

/-- R259 to R262, R270: plan the tree of a DECODE context at batch position b. -/
def State.planTree (s : State) (p b n : Nat) (m : Model) (data : Option (List Byte)) : State × Tree :=
  let c := s.ctx n
  let nodes := if c.cancelCur then 1 else s.planNodes c
  let reads := s.flag f_SPC_CFG_ENABLE && c.src == 3
  let (s, data) : State × Option (List Byte) := if reads && c.hostTree ≠ 0 then s.readTree c data else (s, none)
  let (par, toks, miss) := if c.src = 3 ∧ reads = false then ([0xFF], none, 0) else c.shapeOf nodes data
  let s := if miss = 0 then s else (s.bump (f_SPC_HOST_MISS_HOST_MISS p))
  let s := if miss = 2 then s.status f_SPC_STATUS_HOST_TREE else s
  let s := if reads then s.modCtx n (fun c => { c with hostTree := 0 }) else s
  let r := c.pos
  let map := (sget ({} : PtEnt) c.pt (r / 16 * m.groups)).map
  let free := freeSlots map
  let (plan, dropped, pruned) := placeTree par r free c.latCur.length (min c.depth (min (c.genLimit - c.genCount - 1) (m.maxCtx - r - 1)))
  let t := plan.tree dropped (if nodes = 1 ∨ miss ≠ 0 then 0 else c.src) toks c.latCur
  let s := s.setSlot n (r / 16) (r % 16) (16 + 32 + free.headD 0) m
  let s := if pruned = 0 then s else (s.status f_SPC_STATUS_PRUNED).bumpBy (f_SPC_DROPPED_DROPPED p) pruned
  let s := s.bumpBy (f_SPC_PROPOSED_PROPOSED p) (t.parent.length - 1)
  (s.writeTree p b n (s.ctx n) t, t)

end Sys2Proof.Machine
end

