-- ==== Sys2Proof/Machine/SrvLife.lean ====
section
/-! DEFINITION. The life of a context: step records, loupe digests, ownership records, messages of the serving engine, pause and
archive, expiry and close (R232, R247, R251 to R253, R281 to R283, R529, R530). -/
namespace Sys2Proof.Machine
open Sys2Proof

def State.spOf (s : State) (p : Nat) : SrvPart := sget {} s.sp p
def State.setSp (s : State) (p : Nat) (x : SrvPart) : State := { s with sp := sset {} s.sp p x }
def State.modSp (s : State) (p : Nat) (f : SrvPart → SrvPart) : State := s.setSp p (f (s.spOf p))

/-- R273: role of a partition; one of no composition is MIXED (Assumption 40). -/
def State.role (s : State) (p : Nat) : Nat := if s.flag (f_CMP_PART_CFG_MEMBER p) then s.get (f_CMP_PART_CFG_ROLE p) else 3

/-- R273, R274: whether a partition of a role runs a context that prefills, or that decodes. -/
def roleRuns (role : Nat) (decode : Bool) : Bool := role == 3 || role == (if decode then 1 else 0)

/-! Step records (R247). -/

/-- The payload of a step record, padded to a multiple of 8. -/
def recBytes (typ reason : Nat) (toks : List Nat) (ctxWord step tick pos tag : Nat) : List Byte :=
  let b := leBytes 1 typ ++ leBytes 1 reason ++ leBytes 2 toks.length ++ leBytes 4 ctxWord ++ leBytes 8 step ++ leBytes 4 tick
    ++ leBytes 4 pos ++ leBytes 8 tag ++ toks.flatMap (leBytes 4)
  if toks.length % 2 = 0 then b else b ++ leBytes 4 0

/-- R247: the record of a context: its home's number and partition name it. -/
def Ctx.record (c : Ctx) (typ reason : Nat) (toks : List Nat) (step tick : Nat) : Rec :=
  { win := c.win, home := c.home, bytes := recBytes typ reason toks (c.homeCtx + c.part * 2 ^ 18) step (tick % 2 ^ 32) c.pos c.userTag }

/-- Give a waiting record the step and tick of the retirement that emits it. -/
def Rec.stamp (r : Rec) (step tick : Nat) : Rec :=
  { r with bytes := r.bytes.take 8 ++ leBytes 8 step ++ leBytes 4 (tick % 2 ^ 32) ++ r.bytes.drop 20 }

/-- Words of a record in the step-stream queue, its length word included (R211, R247). -/
def Rec.words (r : Rec) : Nat := 1 + r.bytes.length / 8

def SrvPart.depth (x : SrvPart) : Nat := (x.stream.map Rec.words).sum

/-- R211, R247: a record as a packet of a partition's queue: its length word is written. -/
def Rec.packet (r : Rec) (p : Nat) : Rec := { r with len := r.bytes.length / 8 % 65536 + p * 2 ^ 16 }

/-- Put records into a partition's step-stream queue. -/
def State.pushStream (s : State) (p : Nat) (l : List Rec) : State :=
  let s := s.modSp p (fun x => { x with stream := x.stream ++ l.map (fun r => r.packet p) })
  s.put (f_SRV_PART_STREAM_DEPTH p) (s.spOf p).depth

/-- R476: the completion entries of a step record. -/
def recEntries (b : List Byte) : List (List Byte) :=
  let span := ceilDiv (b.length + 8) 32
  let all := leBytes 1 0x10 ++ leBytes 1 span ++ leBytes 6 0 ++ b
  (List.range span).map (fun i => padTo 32 (all.drop (32 * i)))

/-- R248, R476, R477: the completion writer moves records to their windows' rings while there is room. A record of a window
that is disabled or quiesced is discarded and counted; one of a window in ERROR holds the queue (R461). -/
def State.drainStream1 (s : State) (p : Nat) : Nat → State
  | 0 => s
  | fuel + 1 =>
    match (s.spOf p).stream with
    | [] => s
    | r :: rest =>
      let w := r.win
      let x := s.winOf w
      let es := recEntries r.bytes
      let st := s.winSt w
      let next (s : State) : State := (s.modSp p (fun x => { x with stream := rest })).fifoTake (0x10 + p) r.words
      if st = 0 ∨ st = 5 then ((next s).bumpBy (f_TWN_CPL_DROP_COUNT w) es.length).drainStream1 p fuel
      else if st = 6 ∨ !x.cpl.isEmpty ∨ x.room (s.cqSize w) < es.length then s
      else (es.foldl (fun s e => s.commit w e) (next s)).drainStream1 p fuel

def State.drainRecords (s : State) (p : Nat) : State :=
  let s := s.drainStream1 p ((s.spOf p).stream.length + 1)
  s.put (f_SRV_PART_STREAM_DEPTH p) (s.spOf p).depth

/-! Loupe digests (R529, R530). -/

/-- R529: add one element to a digest. -/
def loupeAdd (l : List Byte) (typ reason pos tok : Nat) : List Byte :=
  sha384 (padTo 48 l ++ leBytes 1 typ ++ leBytes 1 reason ++ leBytes 2 0 ++ leBytes 4 pos ++ leBytes 4 tok ++ leBytes 4 0)

/-- R530: a LOUPE record, at the home and for an audited window: 1 leave, 2 close, 3 expiry, 4 demand, 5 home lost. -/
def State.auditLoupe (s : State) (c : Ctx) (cause : Nat) : State :=
  if s.isHome c && s.winAudited c.win then
    s.audit 6 (rplFlag (s.partReplay c.part)) s.tim.tick 96
      (leBytes 4 (c.homeCtx + c.part * 2 ^ 18) ++ leBytes 2 c.home ++ leBytes 1 c.reason ++ leBytes 1 cause ++ leBytes 4 c.pos
        ++ leBytes 4 c.genCount ++ padTo 48 c.loupe)
  else s

/-! Ownership records (R281, R282). -/

def State.ownAt (s : State) (n : Nat) : Nat := s.reg64 r_CMP_OWN_BASE_LO + n * 32
def State.ownWord (s : State) (n : Nat) : Nat := s.readLE (s.ownAt n) 8
def State.ownRelNs (s : State) (n : Nat) : Nat := s.readLE (s.ownAt n + 8) 8
def State.ownRseq (s : State) (n : Nat) : Nat := s.readLE (s.ownAt n + 0x10) 2
def State.ownComp (s : State) (n : Nat) : Nat := s.readLE (s.ownAt n + 0x12) 1

/-- R282: a STATE word; an owner or a target is chip × 16 + partition. -/
def stateWord (st owner target epoch : Nat) : Nat :=
  st + (owner / 16) * 2 ^ 2 + (owner % 16) * 2 ^ 14 + (target / 16) * 2 ^ 18 + (target % 16) * 2 ^ 30 + (epoch % 65536) * 2 ^ 34

def wState (w : Nat) : Nat := w % 4
def wOwner (w : Nat) : Nat := bits w 13 2 * 16 + bits w 17 14
def wTarget (w : Nat) : Nat := bits w 29 18 * 16 + bits w 33 30
def wEpoch (w : Nat) : Nat := bits w 49 34

/-- R282: write a record, its STATE word last. -/
def State.setOwn (s : State) (n w relNs : Nat) : State := (s.writeLE (s.ownAt n + 8) 8 relNs).writeLE (s.ownAt n) 8 w

/-- The owner word of a partition of this chip. -/
def State.me (s : State) (p : Nat) : Nat := s.chipId * 16 + p

/-! Messages of the serving engine (R336, R338). -/

/-- R331, R333: whether the reach table of slot 0 denies a load or an atomic of the serving engine; a serving message names no memory
(Assumption 65). -/
def State.serveDenied (s : State) (k : Pkt) : Bool :=
  (k.op == 1 || k.op == 3) && !(s.reachOk 0 0 (if k.op = 1 then 26 else 28) k.dst k.addr (if k.op = 1 then k.count else 8))

/-- Send a serving message, or a request of the serving engine, to another chip; one to this chip is delivered at once, and one that the
reach table denies is reported and completes with error status (R333). -/
def State.sendServe (s : State) (k : Pkt) : State :=
  if k.dst = s.chipId then { s with net := { s.net with inbox := s.net.inbox ++ [{ k with src := s.chipId }] } }
  else if s.serveDenied k then
    let s := s.reachDeny.raise srcServe 0x47 k.addr 0
    { s with net := { s.net with srvDone := s.net.srvDone ++ [{ who := .serve, pkt := k, kind := 6, done := some (18, 0, false) }] } }
  else s.issueReq { who := .serve, pkt := k, kind := 6 }

/-- R286: the retirement update of a guest entry, with its records: name, epoch, STEPS expected at home, records, changed
page-table entries and entry, in the engine's internal layout. -/
def Ctx.update (c : Ctx) (units expect : Nat) (recs : List Rec) : List Nat :=
  [c.homeCtx, c.epoch, expect, recs.length] ++ recs.flatMap (fun (r : Rec) => r.bytes.length :: r.bytes.map BitVec.toNat)
    ++ [c.ptNew.length] ++ c.ptNew.flatMap (fun e =>
      let x : PtEnt := sget {} c.pt e
      [e, x.h] ++ (List.range 16).map (fun i => x.map.getD i 0))
    ++ (c.bytes units).map BitVec.toNat

/-- R286: send a retirement update to the home. -/
def State.sendUpdate (s : State) (n expect : Nat) (recs : List Rec) : State :=
  let c := s.ctx n
  let s := s.sendServe { dst := c.home, op := 0xA, srv := c.update (s.unitsFixed c) expect recs }
  s.modCtx n (fun c => { c with ptNew := [] })

/-- R247: a change outside a step: its record waits for the next retirement of the partition that runs the context; a guest
sends it to the home with the entry. -/
def State.lateRec (s : State) (n typ reason : Nat) : State :=
  let c := s.ctx n
  let x := s.spOf c.owner
  if s.isHome c then s.modSp c.owner (fun x => { x with recs := x.recs ++ [c.record typ reason [] 0 0] })
  else s.sendUpdate n c.steps [c.record typ reason [] x.step s.tim.tick]

/-- R283: release pages of a context on the chips that hold them. -/
def State.sendPageReleases (s : State) (hs : List Nat) : State :=
  let far := hs.filter (fun h => h ≠ 0 && hHome h ≠ s.chipId)
  (far.map hHome).eraseDups.foldl (fun s chip => s.sendServe { dst := chip, op := 0xB, srv := far.filter (fun h => hHome h == chip) }) s

/-- The runs of this chip that an archive copy of a context reads: its pages and page-table units. -/
def State.copyRuns (s : State) (c : Ctx) : List Nat :=
  ((c.pt.filter (fun e => e.2.h ≠ 0 && hHome e.2.h == s.chipId && !bitAt e.2.h 57)).map (fun e => hUnit e.2.h))
    ++ (if s.isHome c then (c.leaf.map (fun e => s.unitOf e.2)) ++ (if c.root = 0 then [] else [s.unitOf c.root]) else [])

/-- An archive copy or reload of a context that is in progress is given up. -/
def State.dropMoves (s : State) (n : Nat) : State :=
  (((s.copyRuns (s.ctx n)).foldl (fun s r => s.leaveRun r) s).bulkDrop (.copy n)).bulkDrop (.reload n)

/-- R243, R283: home frees every unit of a context and asks the other chips to free theirs. -/
def State.freeAll (s : State) (n : Nat) : State :=
  let c := s.ctx n
  let s := if c.st = .pausing ∨ c.reloading ≠ 0 then s.dropMoves n else s
  let hs := (c.pt.map (fun e => e.2.h)).filter (fun h => h ≠ 0 && !bitAt h 57)
  let s := hs.foldl (fun s h => s.freePage h false) s
  let s := s.sendPageReleases hs
  let s := (c.leaf.map (·.2)).foldl (fun s a => s.freeRun (s.unitOf a) false) s
  let s := if c.root = 0 ∨ !(s.isHome c) then s else s.freeRun (s.unitOf c.root) false
  let s := (s.freeLatent n true).freeLatent n false
  s.modCtx n (fun c => { c with pt := [], leaf := [], root := 0, ptNew := [], resv := 0, latent := 0, chunk := 0, reloading := 0 })

/-- R287: a guest frees its reservations and keeps every page that the page table at home names. -/
def State.dropReservations (s : State) (n : Nat) : State :=
  let c := s.ctx n
  let s := match s.modelOf c.model with
    | some m => s.shrinkTo n m (ceilDiv c.pos 16)
    | none => s
  let s := (s.freeLatent n true).freeLatent n false
  s.modCtx n (fun c => { c with resv := 0, latent := 0, chunk := 0 })

/-- Free a guest entry (R284, R287). -/
def State.dropGuest (s : State) (n : Nat) : State :=
  (s.dropReservations n).modCtx n Ctx.closed

/-! Archive areas (R251, R252). -/

def State.archBase (s : State) (t : Nat) : Nat := s.reg64 (r_SRV_ARCH_LO t)
/-- Areas in use in a tier's range: first unit and length. -/
def State.archUsed (s : State) (t : Nat) : SMap Nat :=
  let b := s.archBase t
  let n := s.get (f_SRV_ARCH_UNITS_UNITS t)
  (s.srv.ctx.filter (fun e => e.2.archUnits ≠ 0 && decide (b ≤ e.2.archAddr) && decide (e.2.archAddr < b + n * 4096))).map
    (fun e => ((e.2.archAddr - b) / 4096, e.2.archUnits))

/-- R252: units of a tier's range that await their zero fill. -/
def State.archZero (s : State) (t : Nat) : List (Nat × Nat) :=
  let b := s.archBase t
  ((s.ms.bulkQ.flatMap (·.2)).filter (fun d => d.sub == .arch && decide (b ≤ d.dst))).map (fun d => ((d.dst - b) / 4096, ceilDiv d.len 4096))

/-- The first start at or after k, going round, at which units are free. -/
def scanArch (used : SMap Nat) (n len k : Nat) : Nat → Option Nat
  | 0 => none
  | fuel + 1 =>
    let st := k % n
    if st + len > n || runHits used st len then scanArch used n len (k + 1) fuel else some st

/-- R251: an area of a tier's range, of units that await no zero fill; which free one is not stated: a free value (Assumption 39). -/
def State.findArch (s : State) (t units : Nat) : State × Option Nat :=
  let n := s.get (f_SRV_ARCH_UNITS_UNITS t)
  if n = 0 ∨ units > n then (s, none)
  else
    let (s, v) := s.freeW
    (s, (scanArch (s.archUsed t ++ s.archZero t) n units v n).map (fun st => s.archBase t + st * 4096))

/-- Show the free units of both tiers. -/
def State.showArch (s : State) : State :=
  (List.range 2).foldl (fun s t => s.put (f_SRV_ARCH_FREE_FREE t) (s.get (f_SRV_ARCH_UNITS_UNITS t) - ((s.archUsed t).map (·.2)).sum)) s

/-- R252: free a context's archive area; tier-1 units are zero-filled by a bulk mover. -/
def State.freeArch (s : State) (n : Nat) : State :=
  let c := s.ctx n
  let a := c.archAddr
  let inT1 := decide (s.archBase 0 ≤ a) && decide (a < s.archBase 0 + s.get (f_SRV_ARCH_UNITS_UNITS 0) * 4096)
  let k := c.archUnits * 4096
  let s := if c.archUnits = 0 || !inT1 then s
    else s.bulkSubmit (n % 8) 0 { ctrl := 2, len := k, dst := a, seq := n % 2 ^ 32, sub := .arch } 0
  (s.modCtx n (fun c => { c with archAddr := 0, archUnits := 0 })).showArch

/-- Forget the archived page table of a context. -/
def State.dropArchived (s : State) (n : Nat) : State := (s.freeArch n).modCtx n (fun c => { c with pt := [], leaf := [], root := 0, ptNew := [] })

/-! Pause (R232, R245, R251, R252). -/

/-- R253: EXPIRY of a context paused at a tick. -/
def State.expiryFrom (s : State) (c : Ctx) (tick : Nat) : Nat :=
  let ttl := if c.ttl = 0 then (s.reg r_SRV_TTL_DEFAULT).toNat else c.ttl
  if ttl = 0xFFFFFFFF then 2 ^ 64 - 1 else tick + ttl

/-- R528: the tick that rules on a partition's contexts compare: the cut of the step in a replaying partition. -/
def State.partTick (s : State) (p : Nat) : Nat := if s.partReplay p then (s.spOf p).cut else s.tim.tick

/-- R232, R253: a context expires: pages and archive area are freed, the record written. -/
def State.expireCtx (s : State) (n reason : Nat) : State :=
  let s := s.dropArchived n
  let s := s.modCtx n (fun c => { c with st := .expired, reason := reason, resume := false })
  let c := s.ctx n
  (s.lateRec n 5 reason).auditLoupe c 3

/-- R251: where the pages of a paused context go in its archive area, in ascending entry order: entry and offset in units. -/
def Ctx.archMap (c : Ctx) (u : Nat) : List (Nat × Nat) := (List.range c.pt.length).map (fun i => ((c.pt.getD i (0, {})).1, i * u))

/-- R251: what an archive copy of a context moves: global address, place in the area and length, in units. Its pages come first, in
ascending entry order, then, at home, its root unit and its leaf units (Assumption 39). -/
def State.archParts (s : State) (c : Ctx) (u : Nat) : List (Nat × Nat × Nat) :=
  let k := c.pt.length * u
  let table := if s.isHome c then (if c.root = 0 then [] else [c.root]) ++ c.leaf.map (·.2) else []
  (c.archMap u).map (fun e => (s.pageGlobal (sget ({} : PtEnt) c.pt e.1).h, e.2, u))
    ++ (List.range table.length).map (fun i => (s.chipId * 2 ^ 48 + table.getD i 0, k + i, 1))

/-- Units of a page of a context. -/
def State.ctxUnits (s : State) (c : Ctx) : Nat := match s.modelOf c.model with
  | some m => m.pageUnits
  | none => 1

/-- R205, R252: submit one piece of an archive move, on bulk queue 1 with CPL. Which mover takes it is the model's choice
(Assumption 39). -/
def State.archMove (s : State) (n src dst units : Nat) (sub : BulkSub) : State :=
  s.bulkSubmit (n % 8) 1 { ctrl := 1 + 64, len := units * 4096, src := src, dst := dst, seq := n % 2 ^ 32, sub := sub } 0

/-- R232: what a pause changes in an entry. -/
def Ctx.pausing (c : Ctx) (reason : Nat) (auto : Bool) : Ctx :=
  { c with st := .pausing, reason := reason, autoResume := c.autoResume || auto, pauses := (c.pauses + 1) % 2 ^ 32
           resumeDecode := if c.resume then c.resumeDecode else c.st == .decode, resume := false, hand := false }

/-- Pages as handles that say ARCHIVED (R237). -/
def Ctx.archived (c : Ctx) : SMap PtEnt := c.pt.map (fun e => (e.1, { e.2 with h := setBits e.2.h 57 57 1 }))

/-- R232, R276: pause a context whose pages still stand in its archive area: one that waits to resume, or whose reload has not ended. The
pages that its reload took are released, and nothing is copied. -/
def State.pauseArchived (s : State) (n reason : Nat) (auto : Bool) : State :=
  let c := s.ctx n
  let s := if c.reloading = 0 then s
    else
      let s := s.dropReservations n
      let c := s.ctx n
      let s := s.bulkDrop (.reload n)
      (s.copyRuns c).foldl (fun s r => s.freeRun r false) s
  s.modCtx n (fun c => { c.pausing reason auto with pt := c.archived, leaf := [], root := if s.isHome c then 0 else c.root, reloading := 0 })

/-- R232, R245, R251: pause a running context: reservations and latent pages are released, its pages leave the pool, and the
archive copy starts; without archive room it is EXPIRED. -/
def State.pauseCtx (s : State) (n reason : Nat) (auto : Bool) : State :=
  let c := s.ctx n
  if c.resume ∨ c.reloading ≠ 0 then s.pauseArchived n reason auto
  else
    let s := (s.dropReservations n).modCtx n (fun c => c.pausing reason auto)
    let c := s.ctx n
    let u := s.ctxUnits c
    let parts := s.archParts c u
    let units := (parts.map (·.2.2)).sum
    let tiers : List Nat := match c.tier with | 0 => [0, 1] | 1 => [0] | _ => [1]
    let (s, area) : State × Option Nat := tiers.foldl (fun (r : State × Option Nat) t =>
      match r.2 with
      | some a => (r.1, some a)
      | none => r.1.findArch t (max units 1)) (s, none)
    match area with
    | none =>
      let s := (s.freeAll n).status f_SRV_STATUS_ARCH_FULL
      s.expireCtx n 7
    | some a =>
      let s := (s.copyRuns c).foldl (fun s r => s.freeRun r true) s
      let s := (s.modCtx n (fun c => { c with archAddr := a, archUnits := max units 1 })).showArch
      parts.foldl (fun s e => s.archMove n e.1 (a + e.2.1 * 4096) e.2.2 (.copy n)) s

/-! Close (R232, R283). -/

/-- R283: home closes a context's record and frees what it holds. -/
def State.closeHome (s : State) (n : Nat) : State :=
  let s := (s.freeArch n).freeAll n
  (s.setOwn n 0 0).modCtx n Ctx.closed

/-- R283: the partition that runs a context lets it go: at home the record closes; a guest asks home to close it. -/
def State.letGo (s : State) (n : Nat) : State :=
  let c := s.ctx n
  if s.isHome c then s.closeHome n
  else
    let s := s.sendServe { dst := c.home, op := 3, own := true, aop := 4, wide := true, addr := s.ownAt c.homeCtx
                           operand := 0, compare := stateWord 1 (s.me c.owner) 0 c.epoch }
    s.dropGuest n

/-- R232, R242: a context is closed by a command or an abort. One in PREFILL or DECODE releases its latent pages at once and the rest at
the next retirement of its partition; any other is let go at once. -/
def State.closeCtx (s : State) (n reason : Nat) : State :=
  let runs := (s.ctx n).st == .prefill || (s.ctx n).st == .decode
  let s := s.modCtx n (fun c => { c with reason := reason, st := .free })
  let s := (s.lateRec n 6 reason).auditLoupe (s.ctx n) 2
  if runs then ((s.freeLatent n true).freeLatent n false).modCtx n (fun c => { c with leaving := true }) else s.letGo n

/-- R242: the contexts that a partition's commands closed release their pages, ascending. -/
def State.leave (s : State) (p : Nat) : State :=
  ((s.srv.ctx.filter (fun e => e.2.leaving && e.2.owner == p)).map (·.1)).foldl (fun s n => s.letGo n) s

/-- ARCHIVE_COPY_COMPLETE (R232, R252): the movers have ended every piece of a pause's archive copy: PAUSED, or EXPIRED where a piece did
not succeed; the home pages are released and await their zero fill. A context that resumes by itself becomes QUEUED; one that an abort
closes is closed (R479). `ns` is the time base then. -/
def State.archiveCopied (s : State) (n ns : Nat) : State :=
  let c := s.ctx n
  if c.st ≠ .pausing || s.bulkWaits (.copy n) then s
  else
    let (s, l) := (s.atNs ns).bulkTake (.copy n)
    let s := (s.copyRuns c).foldl (fun s r => s.leaveRun r) s
    let far := ((c.pt.map (fun e => e.2.h)).filter (fun h => !bitAt h 57))
    if l.any (fun x => x.status ≠ 0) then
      (if s.isHome c then s.sendPageReleases far else s).expireCtx n 9
    else
      let s := s.modCtx n (fun c => { c with
        st := .paused, root := 0, leaf := [], expiry := s.expiryFrom c (s.partTick c.owner), pt := c.archived
        ptNew := if s.isHome c then [] else c.pt.map (·.1) })
      let c := s.ctx n
      let s := (s.lateRec n 3 c.reason).sendPageReleases far
      if c.late then s.closeCtx n 4
      else if c.autoResume then
        s.modCtx n (fun c => { c with st := .queued, resume := true, hand := !roleRuns (s.role c.owner) c.resumeDecode })
      else s

def execArchiveCopyComplete (n : BitVec 18) (ns : Nat) (s : State) : Host.Outcome State Fault Refusal :=
  .next (whenLive s (fun s => s.archiveCopied n.toNat ns))

/-- R239, R240: the archive reload of a context is submitted once the zero fill of every page that it writes has completed. -/
def State.reloadGo (s : State) (n : Nat) : State :=
  let c := s.ctx n
  let u := s.ctxUnits c
  if c.reloading ≠ 1 || !((s.copyRuns c).all (fun r => s.runReady r u)) then s
  else
    let l := (c.archMap u).filter (fun e => decide (e.2 + u ≤ c.archUnits))
    (l.foldl (fun s e => s.archMove n (c.archAddr + e.2 * 4096) (s.pageGlobal (sget ({} : PtEnt) c.pt e.1).h) u (.reload n)) s).modCtx n
      (fun c => { c with reloading := 2 })

/-- R232, R246: pages of a resumed context, from the pool of the partition that runs it, and the reload into them. -/
def State.takeArchived (s : State) (n : Nat) (m : Model) : State :=
  let s := (s.ctx n).pt.foldl (fun s e =>
    let (s, h) := s.newPage (s.ctx n).owner m
    s.ptPut n e.1 { e.2 with h := h }) s
  (s.modCtx n (fun c => { c with reloading := 1 })).reloadGo n

/-- ARCHIVE_RELOAD_COMPLETE (R232, R240): the movers have ended every piece of a context's reload; the archive area is freed. A reload
of which a piece did not succeed is submitted again (Assumption 60). `ns` is the time base then. -/
def State.archiveReloaded (s : State) (n ns : Nat) : State :=
  if (s.ctx n).reloading ≠ 2 || s.bulkWaits (.reload n) then s
  else
    let (s, l) := (s.atNs ns).bulkTake (.reload n)
    if l.any (fun x => x.status ≠ 0) then (s.modCtx n (fun c => { c with reloading := 1 })).reloadGo n
    else (s.modCtx n (fun c => { c with reloading := 0 })).freeArch n

def execArchiveReloadComplete (n : BitVec 18) (ns : Nat) (s : State) : Host.Outcome State Fault Refusal :=
  .next (whenLive s (fun s => s.archiveReloaded n.toNat ns))

def execPageZeroFillComplete (u : BitVec 28) (s : State) : Host.Outcome State Fault Refusal :=
  .next (whenLive s (fun s =>
    let s := s.zeroFilled u.toNat
    ((s.srv.ctx.filter (fun e => e.2.reloading == 1)).map (·.1)).foldl (fun s n => s.reloadGo n) s))

/-! Expiry (R232, R253). -/

/-- R253: whether a context expires at a tick. -/
def Ctx.expires (c : Ctx) (tick : Nat) : Bool :=
  (c.st == .paused || (c.st == .queued && c.autoResume && c.resume)) && decide (c.expiry ≤ tick)

/-- R253: expire what is due, in ascending context number. -/
def State.expireDue (s : State) (mine : Nat → Ctx → Bool) : State :=
  (s.srv.ctx.filter (fun e => mine e.1 e.2 && !e.2.away && e.2.expires (s.partTick e.2.owner))).foldl
    (fun s e => (s.expireCtx e.1 6).status f_SRV_STATUS_EXPIRED) s

end Sys2Proof.Machine
end

