-- ==== Sys2Proof/Machine/Owner.lean ====
section
/-! DEFINITION. Roles, compositions, hand-over and ownership at home, drain and accounting snapshots (R273 to R294). -/
namespace Sys2Proof.Machine
open Sys2Proof

/-! Compositions (R275 to R278). -/

def State.comp (s : State) (k : Nat) : Comp := sget {} s.own.comp k
def State.setComp (s : State) (k : Nat) (x : Comp) : State := { s with own := { s.own with comp := sset {} s.own.comp k x } }

/-- R275: the bytes of a descriptor. -/
def CompCfg.bytes (c : CompCfg) : List Byte :=
  leBytes 1 c.id ++ leBytes 1 c.members.length ++ leBytes 2 c.epoch ++ leBytes 4 c.model ++ leBytes 8 c.archAddr ++ leBytes 4 c.archUnits
    ++ leBytes 4 0 ++ c.members.flatMap (fun m => leBytes 4 (m.chip + m.part * 2 ^ 12 + m.role * 2 ^ 16 + (if m.drain then 2 ^ 18 else 0)))

/-- Code of a slot's state (R299). -/
def CompSt.code : CompSt → Nat
  | .unused => 0 | .active => 1 | .overlap => 2 | .down => 3

/-- R533: record a composition's new state. -/
def State.noteComp (s : State) (k : Nat) : State :=
  let x := s.comp k
  s.auditComposition x.cfg.id x.st.code x.cfg.epoch x.cfg.bytes

/-- R300: the composition slot of a partition. -/
def State.partComp (s : State) (p : Nat) : Option Nat :=
  if s.flag (f_CMP_PART_CFG_MEMBER p) then some (s.get (f_CMP_PART_CFG_COMP_SLOT p)) else none

/-- The slot of a composition by its identifier. -/
def State.compById (s : State) (id : Nat) : Option Nat := (List.range 16).find? (fun k => let x := s.comp k; x.st ≠ .unused && x.cfg.id == id)

/-- R276: the target of a context: entry h mod len of the decode or prompt list. -/
def CompCfg.route (c : CompCfg) (decode : Bool) (h : Nat) : Option Nat :=
  let l := c.members.filter (fun m => !m.drain && (m.role == 3 || m.role == (if decode then 1 else 0)))
  match l[h % l.length]? with
  | some m => some (m.chip * 16 + m.part)
  | none => none

/-- R277: count notices of an epoch in flight, up or down. -/
def State.inFlight (s : State) (id epoch : Nat) (up : Bool) : State :=
  match s.compById id with
  | none => s
  | some k =>
    let x := s.comp k
    let f (n : Nat) : Nat := if up then satAdd 16 n 1 else n - 1
    if x.cfg.epoch = epoch then s.setComp k { x with curIn := f x.curIn }
    else if x.old.any (fun o => o.epoch == epoch) then s.setComp k { x with oldIn := f x.oldIn }
    else s

/-- R276, R291: whether a context needs a partition that decodes. -/
def Ctx.wantsDecode (c : Ctx) : Bool := c.st == .decode || (c.st == .queued && c.resume && c.resumeDecode)

/-! Compare-and-swap on a record (R283). -/

/-- What an operation on a STATE word is, from the word it expects and the word it writes. -/
inductive OwnOp where
  | release | acquire | redirect | close
  deriving DecidableEq, Repr

def ownOp (expected new : Nat) : Option OwnOp :=
  if wState expected = 1 ∧ wState new = 2 then some .release
  else if wState expected = 2 ∧ wState new = 1 then some .acquire
  else if wState expected = 2 ∧ wState new = 2 then some .redirect
  else if wState expected = 1 ∧ new = 0 then some .close
  else none

/-- R283: apply an operation at home: the record changes only if it holds the expected word. A release and a redirect write the entry,
with its new OWN_EPOCH, to the table (R285). Answers the word found. -/
def State.ownApply (s : State) (n expected new : Nat) : State × Nat :=
  let cur := s.ownWord n
  if cur ≠ expected then (s, cur)
  else
    match ownOp expected new with
    | some .release =>
      let k := (List.range 16).find? (fun k => let x := s.comp k; x.st ≠ .unused && x.cfg.members.any (fun m => m.chip * 16 + m.part == wOwner expected))
      let s := match k with
        | some k => s.writeLE (s.ownAt n + 0x12) 1 (s.comp k).cfg.id
        | none => s
      (((s.setOwn n new s.now).modCtx n (fun c => { c with epoch := wEpoch new, away := true })).writeEntry n, cur)
    | some .redirect => (((s.setOwn n new s.now).modCtx n (fun c => { c with epoch := wEpoch new })).writeEntry n, cur)
    | some .acquire =>
      let s := (s.setOwn n new 0).bump f_CMP_HANDOVERS_COUNT
      (if wOwner new / 16 = s.chipId then s.modCtx n (fun c => { c with away := false, owner := wOwner new % 16, hand := false }) else s, cur)
    | some .close => (s.closeHome n, cur)
    | none => (s, cur)

/-- Home context number of a record's address. -/
def State.ownIndex (s : State) (a : Nat) : Nat := (a - s.reg64 r_CMP_OWN_BASE_LO) / 32

/-- Home applies an operation of a kind that arrived from a chip, at most once (R283, R343). -/
def State.ownRow (s : State) (src : Nat) (op : OwnOp) : State :=
  s.serveReq src 3 (fun k => k.own && ownOp k.compare k.operand == some op) (fun s k => s.dedupe k (fun s =>
    let r := s.ownApply (s.ownIndex k.addr) k.compare k.operand
    (r.1, 0, r.2)))

def execOwnRelease (src : BitVec 12) (s : State) : Host.Outcome State Fault Refusal := .next (whenLive s (fun s => s.ownRow src.toNat .release))
def execOwnAcquire (src : BitVec 12) (s : State) : Host.Outcome State Fault Refusal := .next (whenLive s (fun s => s.ownRow src.toNat .acquire))
def execOwnRedirect (src : BitVec 12) (s : State) : Host.Outcome State Fault Refusal := .next (whenLive s (fun s => s.ownRow src.toNat .redirect))
def execOwnClose (src : BitVec 12) (s : State) : Host.Outcome State Fault Refusal := .next (whenLive s (fun s => s.ownRow src.toNat .close))

/-! Hand-over (R284). -/

/-- What a notice carries of the entry in the engine's internal layout: the entry and its page-table entries (Assumption 63). -/
def State.noticeEntry (s : State) (c : Ctx) : List Nat :=
  (c.bytes (s.unitsFixed c)).map BitVec.toNat ++ [c.pt.length] ++ c.pt.flatMap (fun e =>
    [e.1, e.2.h] ++ (List.range 16).map (fun j => e.2.map.getD j 0))

/-- R284: send a notice: target, home, context, ownership epoch, composition and its epoch, releasing owner, entry. -/
def State.sendNotice (s : State) (target home n epoch id cepoch frm : Nat) (entry : List Nat) : State :=
  (s.inFlight id cepoch true).sendServe
    { dst := target / 16, op := 8, srv := [0, target % 16, home, n, epoch, id, cepoch, frm] ++ entry }

/-- R276: no member can take the context: it is paused as by rung 3, with reason HOST. -/
def State.noRoute (s : State) (n : Nat) : State := (s.status f_CMP_STATUS_NO_ROUTE).pauseCtx n 4 true

/-- R284: whether every write to the home has completed: nothing of this chip is outstanding to it. -/
def State.fenceHome (s : State) (home : Nat) : Bool := home == s.chipId || s.net.reqs.all (fun r => r.pkt.dst ≠ home)

/-- R284 step 4: the record is released: the notice goes out, reservations return, a guest entry is freed. -/
def State.released (s : State) (n target : Nat) : State :=
  let c := s.ctx n
  let entry := s.noticeEntry { c with hand := false, rel := false }
  let e := (c.epoch + (if s.isHome c then 0 else 1)) % 65536
  match s.partComp c.owner with
  | none => s
  | some k =>
    let x := (s.comp k).cfg
    let s := s.sendNotice target c.home c.homeCtx e x.id x.epoch (s.me c.owner) entry
    if s.isHome c then (s.dropReservations n).modCtx n (fun c => { c with hand := false, rel := false })
    else s.dropGuest n

/-- HANDOVER_RELEASE (R284): after the fence, the owner issues RELEASE; at home it applies at once. -/
def State.handRelease (s : State) (n : Nat) : State :=
  let c := s.ctx n
  if !c.hand || c.rel || c.away || c.reloading ≠ 0 || !s.fenceHome c.home then s
  else
    match (s.partComp c.owner).bind (fun k => (s.comp k).cfg.route c.wantsDecode c.homeCtx) with
    | none => s.noRoute n
    | some t =>
      let old := stateWord 1 (s.me c.owner) 0 c.epoch
      let new := stateWord 2 (s.me c.owner) t (c.epoch + 1)
      if s.isHome c then
        let (s, cur) := s.ownApply n old new
        if cur = old then s.released n t else s.modCtx n (fun c => { c with hand := false, away := true })
      else
        let s := s.sendServe { dst := c.home, op := 3, own := true, aop := 4, wide := true, addr := s.ownAt c.homeCtx, operand := new, compare := old, srv := [n, t] }
        s.modCtx n (fun c => { c with rel := true, target := t })

def execHandoverRelease (n : BitVec 18) (s : State) : Host.Outcome State Fault Refusal := .next (whenLive s (fun s => s.handRelease n.toNat))

/-- R278, R292: how a target answers a notice: 0 accepted, 1 stale route, 2 the composition is down. -/
def State.noticeCode (s : State) (id cepoch part : Nat) : Nat × Nat :=
  match s.compById id with
  | none => (1, 0)
  | some k =>
    let x := s.comp k
    if x.st = .down then (2, x.cfg.epoch)
    else if s.get (f_CMP_PART_CTL_DSTATE part) ≠ 0 then (1, x.cfg.epoch)
    else if x.cfg.epoch = cepoch || (x.old.any (fun o => o.epoch == cepoch) && !x.shut) then (0, x.cfg.epoch)
    else (1, x.cfg.epoch)

/-- R277, R278, R285: a notice reaches its target. -/
def State.takeNotice (s : State) (k : Pkt) : State :=
  let f (i : Nat) : Nat := k.srv.getD i 0
  let (code, cur) := s.noticeCode (f 5) (f 6) (f 1)
  let s := if code ≠ 0 then s
    else
      let x : Notice := { part := f 1, home := f 2, ctx := f 3, epoch := f 4, comp := f 5, cepoch := f 6, frm := f 7, tick := s.tim.tick, entry := k.srv.drop 8 }
      let s := { s with own := { s.own with notices := s.own.notices ++ [x] } }
      if k.src = s.chipId then s else s.inFlight (f 5) (f 6) true
  s.sendServe { dst := k.src, op := 9, srv := [code, cur] ++ k.srv.drop 1 }

/-- Handle the next serving message of a kind from a chip. One of this chip itself carries no tag. -/
def State.msgRow (s : State) (src op : Nat) (p : Pkt → Bool) (f : State → Pkt → State × Nat) : State :=
  s.serveReq src op p (fun s k =>
    if k.src = s.chipId then (f s k).1
    else s.dedupe k (fun s => let r := f s k; (r.1, r.2, 0)))

/-- HANDOVER_NOTICE (R277, R278, R285). -/
def execHandoverNotice (src : BitVec 12) (s : State) : Host.Outcome State Fault Refusal :=
  .next (whenLive s (fun s => s.msgRow src.toNat 8 (fun k => k.srv.getD 0 0 == 0) (fun s k => (s.takeNotice k, 0))))

/-- NOTICE_ACK (R277): an accepted notice is no longer in flight at its sender; one to this chip stays counted until its
acquisition ends. -/
def execNoticeAck (src : BitVec 12) (s : State) : Host.Outcome State Fault Refusal :=
  .next (whenLive s (fun s => s.msgRow src.toNat 9 (fun k => k.srv.getD 0 0 == 0) (fun s k =>
    (if k.src = s.chipId then s else s.inFlight (k.srv.getD 6 0) (k.srv.getD 7 0) false, 0))))

/-- R279: name a new target by a redirect and send it a notice. -/
def State.reroute (s : State) (k : Pkt) : State :=
  let f (i : Nat) : Nat := k.srv.getD (i + 1) 0
  let (home, n, e, id, frm) := (f 2, f 3, f 4, f 5, f 7)
  let c : Ctx := ({} : Ctx).ofBytes ((k.srv.drop 9).map (BitVec.ofNat 8))
  match s.compById id with
  | none => s
  | some slot =>
    let x := (s.comp slot).cfg
    match x.route c.wantsDecode n with
    | none => s.status f_CMP_STATUS_NO_ROUTE
    | some t =>
      let old := stateWord 2 frm (k.src * 16 + f 1) e
      let new := stateWord 2 frm t (e + 1)
      if home = s.chipId then
        let (s, cur) := s.ownApply n old new
        if cur = old then s.sendNotice t home n ((e + 1) % 65536) id x.epoch frm (k.srv.drop 9) else s
      else
        s.sendServe { dst := home, op := 3, own := true, aop := 4, wide := true, addr := s.ownAt n, operand := new, compare := old
                      srv := [n, t, home, id, frm] ++ k.srv.drop 9 }

/-- STALE_ROUTE_NACK (R278, R279, R298): a notice was refused. -/
def execStaleRouteNack (src : BitVec 12) (s : State) : Host.Outcome State Fault Refusal :=
  .next (whenLive s (fun s => s.msgRow src.toNat 9 (fun k => k.srv.getD 0 0 ≠ 0) (fun s k =>
    let s := s.inFlight (k.srv.getD 6 0) (k.srv.getD 7 0) false
    let s := if k.srv.getD 0 0 = 1 then (s.bump f_CMP_STALE_ROUTES_COUNT).status f_CMP_STATUS_STALE_ROUTE else s.status f_CMP_STATUS_COMP_DOWN
    (s.reroute k, 0))))

/-! Requests of an owner at home (R286). -/

/-- R286: the epoch test. -/
def State.epochOk (s : State) (n epoch src : Nat) : Bool :=
  let w := s.ownWord n
  wState w == 1 && wEpoch w == epoch && wOwner w / 16 == src

/-- R286: a request that fails the epoch test. -/
def State.staleRequest (s : State) : State := ((s.bump f_CMP_STALE_APPENDS_COUNT).status f_CMP_STATUS_STALE_APPEND).raise srcOwn 0x39 0 0

/-- Read the records of an update's body. -/
def readRecs : Nat → List Nat → List (List Byte) × List Nat
  | 0, l => ([], l)
  | k + 1, l =>
    let n := l.headD 0
    let r := readRecs k (l.drop (1 + n))
    (((l.drop 1).take n).map (BitVec.ofNat 8) :: r.1, r.2)

/-- Read the page-table entries of an update's body. -/
def readEnts : Nat → List Nat → List (Nat × PtEnt) × List Nat
  | 0, l => ([], l)
  | k + 1, l =>
    let r := readEnts k (l.drop 18)
    ((l.headD 0, { h := l.getD 1 0, map := (l.drop 2).take 16 }) :: r.1, r.2)

/-- R286: apply an update as one action; a repeat of an applied one is acknowledged and not applied again. -/
def State.applyUpdate (s : State) (k : Pkt) : State × Nat :=
  let n := k.srv.getD 0 0
  if !s.epochOk n (k.srv.getD 1 0) k.src then (s.staleRequest, 4)
  else if (s.ctx n).steps ≠ k.srv.getD 2 0 then (s, 0)
  else
    let (recs, l) := readRecs (k.srv.getD 3 0) (k.srv.drop 4)
    let (ents, l) := readEnts (l.headD 0) (l.drop 1)
    let c := s.ctx n
    let d := c.ofBytes (l.map (BitVec.ofNat 8))
    let d := { d with root := c.root, home := c.home, part := c.part, win := c.win, epoch := c.epoch, unitTicks := c.unitTicks }
    let s := s.setCtx n d
    let s := ents.foldl (fun s e => s.ptPut n e.1 e.2) s
    let s := s.pushStream c.part (recs.map (fun b => { win := c.win, home := c.home, bytes := b }))
    let s := if d.st = .expired then s.freeAll n else s
    ((if d.st = .free then s.auditLoupe d 1 else s).writeEntry n, 0)

/-- R248: whether the home's step stream has room for the records of an update. -/
def State.updateRoom (s : State) (k : Pkt) : Bool :=
  let n := k.srv.getD 0 0
  let (recs, _) := readRecs (k.srv.getD 3 0) (k.srv.drop 4)
  decide ((s.spOf (s.ctx n).part).depth + (recs.map (fun b => 1 + b.length / 8)).sum ≤ 8192)

/-- RETIREMENT_UPDATE (R286). One whose records find no room in the step stream waits. -/
def execRetirementUpdate (src : BitVec 12) (s : State) : Host.Outcome State Fault Refusal :=
  .next (whenLive s (fun s => s.msgRow src.toNat 0xA (fun k => s.updateRoom k) (fun s k => s.applyUpdate k)))

/-- The home context whose page holds an address. -/
def State.pageOwner (s : State) (a : Nat) : Option Nat :=
  let u := (a - s.kvBase) / 4096
  (s.srv.ctx.find? (fun e => s.isHome e.2 && a ≥ s.kvBase && e.2.pt.any (fun x =>
    hHome x.2.h == s.chipId && x.2.h ≠ 0 && decide (hUnit x.2.h ≤ u) && decide (u < hUnit x.2.h + 2 ^ bits x.2.h 61 58)))).map (·.1)

/-- R286, R336: a store of another chip; with OWN_CHECK only under the epoch test. -/
def State.remoteStore (s : State) (k : Pkt) : State :=
  if k.own then
    match s.pageOwner k.addr with
    | some n => if s.epochOk n k.epoch k.src then (let r := s.targetStore k.addr k.data; r.1.respond k r.2 0 false []) else s.staleRequest.respond k 4 0 false []
    | none => s.staleRequest.respond k 4 0 false []
  else let r := s.targetStore k.addr k.data; r.1.respond k r.2 0 false []

/-- REMOTE_STORE (R331, R336). -/
def execRemoteStore (src : BitVec 12) (s : State) : Host.Outcome State Fault Refusal :=
  .next (whenLive s (fun s => s.serveReq src.toNat 2 (fun _ => true) (fun s k => s.remoteStore k)))

/-- KV_APPEND (R286): a store with OWN_CHECK. -/
def execKvAppend (src : BitVec 12) (s : State) : Host.Outcome State Fault Refusal :=
  .next (whenLive s (fun s => s.serveReq src.toNat 2 (fun k => k.own) (fun s k => s.remoteStore k)))

/-- R237: whether a handle of a page of this chip is not stale. -/
def State.handleOk (s : State) (h : Nat) : Bool := hHome h == s.chipId && bitAt h 56 && bits h 55 40 == s.genOf (hUnit h)

/-- R237, R283: a chip frees the pages that handles name; a stale handle frees nothing and the release completes with error status. -/
def State.releasePages (s : State) (hs : List Nat) : State × Nat :=
  hs.foldl (fun (r : State × Nat) h => if r.1.handleOk h then (r.1.freePage h false, r.2) else (r.1, 1)) (s, 0)

/-- PAGE_RELEASE (R237, R283): a chip frees pages of a closed context. -/
def execPageRelease (src : BitVec 12) (s : State) : Host.Outcome State Fault Refusal :=
  .next (whenLive s (fun s => s.msgRow src.toNat 0xB (fun _ => true) (fun s k => s.releasePages k.srv)))

/-! Orphans (R288, R289, R292). -/

/-- R283: a record becomes ORPHANED, keeping owner, target and epoch. -/
def State.orphan (s : State) (n : Nat) : State :=
  let w := s.ownWord n
  (((s.setOwn n (w - w % 4 + 3) 0).bump f_CMP_ORPHANS_COUNT).status f_CMP_STATUS_ORPHAN).raise srcOwn 0x38 0 0

/-- HANDOVER_TIMEOUT (R288): at a shutter, a RELEASING record past its limit. -/
def State.handTimeout (s : State) (n : Nat) : State :=
  if s.isHome (s.ctx n) && wState (s.ownWord n) == 2 && decide (s.ownRelNs n + s.get f_CMP_HANDOVER_CFG_TMO_US * 1000 ≤ s.tim.tb) then s.orphan n else s

def execHandoverTimeout (n : BitVec 18) (s : State) : Host.Outcome State Fault Refusal := .next (whenLive s (fun s => s.handTimeout n.toNat))

/-- REASSIGN_GO (R289, R297): a write of CMP_REASSIGN_GO. -/
def State.reassign (s : State) (v : Nat) : State :=
  let n := v % 2 ^ 18
  let s := s.put f_CMP_REASSIGN_GO_CTX n
  if !bitAt v 31 then s
  else
    let rseq := s.get f_CMP_REASSIGN_RSEQ
    let target := s.get f_CMP_REASSIGN_TARGET_CHIP * 16 + s.get f_CMP_REASSIGN_TARGET_PART
    let w := s.ownWord n
    let c := s.ctx n
    let s := s.put f_CMP_REASSIGN_RES_RSEQ rseq
    if rseq = s.ownRseq n then s.put f_CMP_REASSIGN_RES_RESULT 1
    else if wState w = 3 then
      let e := (wEpoch w + 1) % 65536
      let s := (s.writeLE (s.ownAt n + 0x10) 2 rseq).setOwn n (stateWord 2 (s.me c.part) target e) s.now
      let s := s.modCtx n (fun c => { c with epoch := e, away := true })
      let s := s.put f_CMP_REASSIGN_RES_RESULT 0
      match (s.compById (s.ownComp n)).orElse (fun _ => s.partComp c.part) with
      | some k =>
        let x := (s.comp k).cfg
        s.sendNotice target c.home n e x.id x.epoch (s.me c.part) (s.noticeEntry (s.ctx n))
      | none => s
    else s.put f_CMP_REASSIGN_RES_RESULT 2

def execReassignGo (v : BitVec 32) (s : State) : Host.Outcome State Fault Refusal := .next (whenLive s (fun s => s.reassign v.toNat))

/-- R292: a context ends with its home, or with a page lost: what this chip holds of it is freed. -/
def State.endLost (s : State) (n : Nat) : State :=
  let c := s.ctx n
  let s := if s.isHome c then s.auditLoupe { c with reason := 9 } 5 else s
  let s := (s.freeArch n).freeAll n
  let s := if s.isHome c then s.setOwn n 0 0 else s
  ((s.modCtx n (fun c => { c.closed with reason := 9 })).status f_CMP_STATUS_HOME_LOST).raise srcOwn 0x3A 0 0

/-- R292: what a chip does at the shutter after a verdict declares chips dead. -/
def State.containDead (s : State) (dead : List Nat) : State :=
  let hit (chip : Nat) : Bool := dead.contains chip
  let s := (List.range 16).foldl (fun s k =>
    let x := s.comp k
    if x.st ≠ .unused && x.st ≠ .down && x.cfg.members.any (fun m => hit m.chip) then
      ((s.setComp k { x with st := .down }).status f_CMP_STATUS_COMP_DOWN).noteComp k
    else s) s
  let s := (s.srv.ctx.map (·.1)).foldl (fun s n =>
    let w := s.ownWord n
    if s.isHome (s.ctx n) && ((wState w == 1 && hit (wOwner w / 16)) || (wState w == 2 && hit (wTarget w / 16))) then s.orphan n else s) s
  (s.srv.ctx.map (·.1)).foldl (fun s n =>
    let c := s.ctx n
    if c.st ≠ .free && !c.away && (hit c.home || c.pt.any (fun e => e.2.h ≠ 0 && hit (hHome e.2.h))) then s.endLost n else s) s

/-! Changing a composition (R278). -/

/-- OVERLAP_EXPIRY (R278): OVERLAP exposures have passed: new notices of the old epoch are refused. -/
def State.overlapDone (s : State) (k : Nat) : State :=
  let x := s.comp k
  if x.st = .overlap ∧ s.tim.expo - x.since ≥ s.get f_CMP_EPOCH_CFG_OVERLAP then s.setComp k { x with shut := true } else s

def execOverlapExpiry (k : Fin 16) (s : State) : Host.Outcome State Fault Refusal := .next (whenLive s (fun s => s.overlapDone k))

/-- EPOCH_MAP_RETIRE (R278): no notice of the old epoch is in flight any more: its map is retired. -/
def State.retireMap (s : State) (k : Nat) : State :=
  let x := s.comp k
  if x.st = .overlap && x.shut && x.oldIn == 0 then (s.setComp k { x with st := .active, old := none, shut := false }).noteComp k else s

def execEpochMapRetire (k : Fin 16) (s : State) : Host.Outcome State Fault Refusal := .next (whenLive s (fun s => s.retireMap k))

/-! Drain (R291). -/

/-- PART_DRAIN (R291, R300): a write of 1 to DRAIN. -/
def State.startDrain (s : State) (p : Nat) : State :=
  if s.get (f_CMP_PART_CTL_DSTATE p) = 0 then
    ((s.put (f_CMP_PART_CTL_DRAIN p) 1).put (f_CMP_PART_CTL_DSTATE p) 1).modSp p (fun x => { x with drainAt := s.tim.expo, drainTmo := false })
  else s

def execPartDrain (p : Fin 16) (s : State) : Host.Outcome State Fault Refusal := .next (whenLive s (fun s => s.startDrain p))

/-- R291: whether a partition owns nothing that keeps it from being DRAINED. -/
def State.drained (s : State) (p : Nat) : Bool :=
  s.srv.ctx.all (fun e =>
    let c := e.2
    let live := c.st == .queued || c.st == .prefill || c.st == .decode || c.st == .pausing
    !(live && !c.away && c.owner == p)
    && !(s.isHome c && wState (s.ownWord e.1) == 2 && wOwner (s.ownWord e.1) == s.me p))

/-- DRAIN_COMPLETE (R291). -/
def State.drainDone (s : State) (p : Nat) : State :=
  if s.get (f_CMP_PART_CTL_DSTATE p) = 1 ∧ s.drained p = true then s.put (f_CMP_PART_CTL_DSTATE p) 2 else s

def execDrainComplete (p : Fin 16) (s : State) : Host.Outcome State Fault Refusal := .next (whenLive s (fun s => s.drainDone p))

/-- R291: pause every context that a partition still runs, with reason HOST. -/
def State.pauseRunning (s : State) (p : Nat) : State :=
  let l := (s.srv.ctx.filter (fun e => (e.2.st == .prefill || e.2.st == .decode) && !e.2.away && e.2.owner == p)).map (·.1)
  l.foldl (fun s n => s.pauseCtx n 4 true) s

/-- DRAIN_TIMEOUT (R291): every context that still runs is paused, as rung 3 does between steps. -/
def State.drainExpired (s : State) (p : Nat) : State :=
  let x := s.spOf p
  if s.get (f_CMP_PART_CTL_DSTATE p) = 1 && !x.drainTmo && decide (s.tim.expo - x.drainAt ≥ s.get f_CMP_DRAIN_CFG_TMO) then
    let s := (s.modSp p (fun x => { x with drainTmo := true })).status f_CMP_STATUS_DRAIN_TMO
    if x.phase = .idle then s.pauseRunning p else s
  else s

def execDrainTimeout (p : Fin 16) (s : State) : Host.Outcome State Fault Refusal := .next (whenLive s (fun s => s.drainExpired p))

/-! Accounting (R293, R294). -/

/-- ACCT_SNAPSHOT (R294): at a shutter whose tick asks for it, every counter is written to the buffer of the tick, TICK last. -/
def State.acctSnapshot (s : State) : State :=
  let t := s.tim.tick
  if t % 1024 ≠ 0 || s.tim.subNs ≠ 0 || s.own.acctAt == some s.tim.expo then s
  else
    let a := s.reg64 r_CMP_ACCT_BASE_LO + (t / 1024 % 2) * 0x10000
    let s := { s with own := { s.own with acctSeq := s.own.acctSeq + 1, acctAt := some s.tim.expo } }
    let s := s.writeBytes (a + 8) (leBytes 8 s.own.acctSeq)
    let tenant (k : Nat) : Nat := match s.img with
      | some g => ((g.slots.find? (fun x => x.1 == k)).map (·.2)).getD 0
      | none => 0
    let s := (List.range 256).foldl (fun s k =>
      s.writeBytes (a + 0x40 + k * 128) (leBytes 2 (tenant k) ++ leBytes 6 0
        ++ (List.range 15).flatMap (fun i => leBytes 8 (if i < 12 then sget 0 s.acct (16 * k + i) else 0)))) s
    (s.writeBytes a (leBytes 8 t)).put f_CMP_ACCT_SEQ_COUNT s.own.acctSeq

def execAcctSnapshot (s : State) : Host.Outcome State Fault Refusal := .next (whenLive s (fun s => s.acctSnapshot))

end Sys2Proof.Machine
end

