-- ==== Sys2Proof/Machine/Serve.lean ====
section
/-! DEFINITION. The serving engine's steps: completions of its requests, context commands, retirement, the ladder, admission,
planning and start (R59 to R62, R232 to R250, R256, R265 to R270, R284, R285, R525 to R528). -/
namespace Sys2Proof.Machine
open Sys2Proof

/-! Completions of the engine's own requests (R285, R287). -/

/-- The guest entry of a home context. -/
def State.guestOf (s : State) (home n : Nat) : Option Nat :=
  (s.srv.ctx.find? (fun e => e.2.home == home && e.2.homeCtx == n && e.2.st ≠ .free)).map (·.1)

/-- R277: the acquisition that a context waits for has ended: its notice is no longer in flight. -/
def State.acqEnded (s : State) (c : Ctx) : State := s.inFlight (c.target / 65536) (c.target % 65536) false

/-- R285: an acquisition failed: the context is taken out of the batch, its reservation returns and the guest entry is freed. -/
def State.acqFail (s : State) (n : Nat) : State :=
  let c := s.ctx n
  let x := s.spOf c.owner
  let s := (List.range x.batch.length).foldl (fun s b => if (x.batch.getD b {}).ctx = n then s.writeLE (s.treeAt c.owner b) 4 0 else s) s
  let s := s.modSp c.owner (fun x => { x with batch := x.batch.map (fun e => if e.ctx = n then { e with out := true } else e) })
  let s := s.put (f_SRV_PART_CTX_RUNNING c.owner) ((s.spOf c.owner).batch.filter (fun e => !e.out)).length
  let s := s.acqEnded c
  let s := if s.isHome c then s else s.dropGuest n
  (s.bump f_CMP_ACQ_FAILS_COUNT).status f_CMP_STATUS_ACQ_FAIL

/-- Take one completed request of the engine. -/
def State.srvTake (s : State) (r : Req) : State :=
  let (st, res, _) := r.done.getD (0, 0, false)
  let k := r.pkt
  let won := st == 0 && res == k.compare
  match k.op with
  | 3 =>
    match ownOp k.compare k.operand with
    | some .release =>
      let n := k.srv.getD 0 0
      if (s.ctx n).rel then (if won then s.released n (k.srv.getD 1 0) else s.dropGuest n) else s
    | some .acquire =>
      match s.guestOf k.dst (s.ownIndex k.addr) with
      | some n => if (s.ctx n).acq = 1 then (if won then s.modCtx n (fun c => { c with acq := 2 }) else s.acqFail n) else s
      | none => s
    | some .redirect =>
      let f (i : Nat) : Nat := k.srv.getD i 0
      if won then
        match s.compById (f 3) with
        | some slot => s.sendNotice (f 1) (f 2) (f 0) (wEpoch k.operand) (f 3) (s.comp slot).cfg.epoch (f 4) (k.srv.drop 5)
        | none => s
      else s
    | _ => s
  | 1 =>
    match s.guestOf k.dst (k.srv.getD 0 0) with
    | some n =>
      let c := s.ctx n
      if c.acq ≠ 2 then s
      else if st ≠ 0 then s.acqFail n
      else
        let d := c.ofBytes r.bytes
        (s.acqEnded c).setCtx n { d with acq := 0, home := c.home, root := 0, st := c.st, resume := c.resume, chunk := c.chunk, resv := c.resv, latent := c.latent, target := 0 }
    | none => s
  | 2 =>
    match s.kvPage k.dst k.addr with
    | some n => if st = 4 then s.dropGuest n else s
    | none => s
  | 0xA =>
    if st = 4 then
      match s.guestOf k.dst (k.srv.getD 0 0) with
      | some n => s.dropGuest n
      | none => s
    else if st ≠ 0 ∧ s.peerDead k.dst = false then s.sendServe { dst := k.dst, op := 0xA, srv := k.srv }
    else s
  | _ => s

/-- R470: a context command completes at the chip that took it in: its wait ends; the report of a CTX_DIGEST is written first. -/
def State.finishCtx (s : State) (w pos ns status : Nat) (report : List Nat) : State :=
  match s.cmdAt w pos with
  | none => s
  | some c =>
    let s := s.waited w ns
    let s := if report.isEmpty then s
      else
        let a := s.cmdAddr w (c.at 0x28 8)
        let bs := report.map (BitVec.ofNat 8)
        match s.region a with
        | .hostA | .hostB =>
          match s.hostAddr a 128 with
          | some (port, pasid, h) => s.hostW (s.winSlot w) port (pasid.getD 0) h bs
          | none => s.raise srcWin 0x16 a 0
        | _ => (s.store srcWin a bs).1
    s.complete w c status 0

/-- R470: a context command ends: here, or with an answer to the chip that forwarded it. -/
def State.endCtxCmd (s : State) (k : SrvCmd) (status : Nat) (report : List Nat) : State :=
  if k.home = s.chipId then s.finishCtx k.win k.pos k.ns status report
  else s.sendServe { dst := k.home, op := 8, srv := [2, k.win, k.pos, k.ns, status] ++ report }

def SrvCmd.at (k : SrvCmd) (off n : Nat) : Nat := leNat ((k.body.drop off).take n)

/-- R259, R464: HOST_TREE that a CTX_TREE writes: its window's slice of the home's aperture. -/
def SrvCmd.treeAddr (k : SrvCmd) : Nat :=
  let a := k.at 0x28 8
  if bitAt a 63 then (if k.win < 64 then 0x400000000000 else 0x500000000000) + k.win % 64 * 2 ^ 37 + a % 2 ^ 37 else a

/-- A forwarded command, or the answer to one (R470). One for HOST_TREE takes effect at once (R259). -/
def State.takeForward (s : State) (k : Pkt) : State :=
  let f (i : Nat) : Nat := k.srv.getD i 0
  if f 0 = 2 then s.finishCtx (f 1) (f 2) (f 3) (f 4) (k.srv.drop 5)
  else
    let c : SrvCmd := { win := f 1, pos := f 2, home := k.src, op := f 3, arrival := f 5, ns := f 6, log := f 7, body := (k.srv.drop 8).map (BitVec.ofNat 8) }
    match s.guestOf k.src (f 4) with
    | some n =>
      if c.op = 0x15 then (s.modCtx n (fun x => { x with hostTree := c.treeAddr })).endCtxCmd c 0 []
      else s.modSp (s.ctx n).owner (fun x => { x with cmds := x.cmds ++ [{ c with ctx := n }] })
    | none => s.endCtxCmd c 6 []

/-- The serving engine takes the completions of its requests and the commands forwarded to it; radio offers (kind 7) are not its. -/
def State.srvPump (s : State) : State :=
  let l := s.net.srvDone.filter (fun r => r.kind ≠ 7)
  let s := l.foldl (fun s r => s.srvTake r) { s with net := { s.net with srvDone := s.net.srvDone.filter (fun r => r.kind == 7) } }
  let fwd (k : Pkt) : Bool := k.srv.getD 0 0 == 1 || k.srv.getD 0 0 == 2
  let srcs := ((s.net.inbox.filter (fun k => k.op == 8 && fwd k)).map (·.src))
  srcs.foldl (fun s src => s.msgRow src 8 fwd (fun s k => (s.takeForward k, 0))) s

/-! Context commands (R232, R233, R274, R470, R472, R473, R531). -/

/-- R473: the prompt table's words of a context. -/
def State.setPrompt (s : State) (k : SrvCmd) : State :=
  s.writeBytes (s.reg64 r_HST_PROMPT_BASE_LO + k.ctx * 16) (leBytes 8 (k.at 0x28 8) ++ leBytes 4 (k.at 0x30 4) ++ leBytes 4 0)

/-- R258, R472: the checks of CTX_OPEN that rest on the model. -/
def State.openCode (s : State) (p : Nat) (k : SrvCmd) : Nat :=
  if (s.ctx k.ctx).st ≠ .free ∨ (s.ctx k.ctx).leaving = true ∨ wState (s.ownWord k.ctx) ≠ 0 then 6
  else if s.role p = 1 ∨ s.role p = 2 then 6
  else
    match s.modelOf (k.at 0x18 4) with
    | none => 7
    | some m =>
      let src := k.at 0x60 1
      if (s.spOf p).model ≠ some (k.at 0x18 4) then 7
      else if k.at 0x30 4 > m.maxCtx then 4
      else if src ≠ 0 ∧ !bitAt m.specSrc (src - 1) then 4
      else 0

/-- R232, R472: the entry that CTX_OPEN writes, and the ownership record of R283. -/
def State.openCtx (s : State) (p : Nat) (k : SrvCmd) : State :=
  let n := k.ctx
  let b := k.at 0x14 1
  let src := k.at 0x60 1 % 4
  let c : Ctx := {
    st := .queued, prio := b % 8, sampled := bitAt b 3, autoResume := bitAt b 4, tenant := s.winTenant k.win, model := k.at 0x18 4, seed := k.at 0x20 8
    rng := k.at 0x1C 4 % 2 ^ 18, part := p, owner := p, homeCtx := n, home := s.chipId, promptLen := k.at 0x30 4, genLimit := k.at 0x34 4
    arrival := k.arrival, win := k.win, tier := k.at 0x15 1 % 4, ttl := k.at 0x38 4, src := src, depth := if src = 0 then 0 else 1
    depthMax := k.at 0x61 1, width := k.at 0x62 1, nodesMax := k.at 0x63 1, userTag := k.at 0x58 8, temp := k.at 0x3C 4, topP := k.at 0x40 4
    topK := k.at 0x44 4, stop := (List.range 4).map (fun i => k.at (0x48 + 4 * i) 4) }
  let id := match s.partComp p with | some j => (s.comp j).cfg.id | none => 0
  let s := (s.writeLE (s.ownAt n + 0x10) 2 0).writeLE (s.ownAt n + 0x12) 1 id
  ((s.setOwn n (stateWord 1 (s.me p) 0 0) 0).setCtx n c).setPrompt k

/-- R531: the report of a CTX_DIGEST, with the SEQ of its LOUPE record. -/
def State.digestReport (s : State) (c : Ctx) : State × List Nat :=
  let seq := s.aud.seq + (if s.aud.lost.isSome && decide (s.aud.q.length + 2 ≤ 4096) then 1 else 0)
  let audited := s.isHome c && s.winAudited c.win
  let s := s.auditLoupe c 4
  let dig := match s.modelOf c.model with | some m => m.digest | none => List.replicate 48 0
  (s, (leBytes 4 c.homeCtx ++ leBytes 1 c.st.code ++ leBytes 1 c.reason ++ leBytes 2 c.home ++ leBytes 8 s.tim.tick
    ++ leBytes 4 c.pos ++ leBytes 4 c.genCount ++ leBytes 8 (if audited then seq else 2 ^ 64 - 1) ++ padTo 48 c.loupe ++ dig).map BitVec.toNat)

/-- R232, R233: apply one command at a planning of partition p. -/
def State.applyCtx (s : State) (p : Nat) (k : SrvCmd) : State :=
  let n := k.ctx
  let c := s.ctx n
  match k.op with
  | 0x10 => let code := s.openCode p k; if code ≠ 0 then s.endCtxCmd k code [] else (s.openCtx p k).endCtxCmd k 0 []
  | 0x11 =>
    if c.st ≠ .expired then s.endCtxCmd k 6 []
    else
      let s := s.modCtx n (fun c => { c with
        st := .queued, resume := false, pos := 0, promptDone := 0, promptLen := k.at 0x30 4, arrival := k.arrival
        hand := !roleRuns (s.role c.owner) false })
      let s := if s.isHome c then s.setPrompt k else s
      s.endCtxCmd k 0 []
  | 0x12 => if c.st = .prefill ∨ c.st = .decode then (s.pauseCtx n 4 false).endCtxCmd k 0 [] else s.endCtxCmd k 6 []
  | 0x13 =>
    if c.st = .paused ∧ k.arrival < c.expiry then
      (s.modCtx n (fun c => { c with st := .queued, resume := true, arrival := k.arrival, hand := !roleRuns (s.role c.owner) c.resumeDecode })).endCtxCmd k 0 []
    else s.endCtxCmd k 6 []
  | 0x14 =>
    if c.st = .pausing ∧ k.pos = 2 ^ 32 then s.modCtx n (fun c => { c with late := true })
    else if c.st = .free ∨ c.st = .pausing then s.endCtxCmd k 6 []
    else (s.closeCtx n 4).endCtxCmd k 0 []
  | _ =>
    if c.st = .free then s.endCtxCmd k 6 []
    else let (s, r) := s.digestReport c; s.endCtxCmd k 0 r

/-- R233: order of the commands that take effect at one planning. -/
def SrvCmd.le (a b : SrvCmd) : Bool :=
  decide (a.arrival < b.arrival) || (a.arrival == b.arrival && (decide (a.win < b.win) || (a.win == b.win && decide (a.pos ≤ b.pos))))

/-- Forward a command on a context that another chip owns (R470). -/
def State.forwardCmd (s : State) (k : SrvCmd) : State :=
  s.sendServe { dst := wOwner (s.ownWord k.ctx) / 16, op := 8
                srv := [1, k.win, k.pos, k.op, k.ctx, k.arrival, k.ns, k.log] ++ k.body.map BitVec.toNat }

/-- R233: apply the commands whose arrival tick is below the cut, in order. One on a context that is between owners waits;
one whose window has given it up is dropped. The close of an abort stands at position 2^32, past every ring position. -/
def State.applyCommands (s : State) (p cut : Nat) : State :=
  let x := s.spOf p
  let due := (x.cmds.filter (fun k => decide (k.arrival < cut))).mergeSort SrvCmd.le
  let s := s.setSp p { x with cmds := x.cmds.filter (fun k => !decide (k.arrival < cut)) }
  due.foldl (fun s k =>
    let w := s.ownWord k.ctx
    let c := s.ctx k.ctx
    if k.home = s.chipId ∧ k.pos < 2 ^ 32 ∧ (s.cmdAt k.win k.pos).isNone then s
    else if c.away && s.isHome c then
      if wState w = 3 ∧ k.op = 0x14 then (s.closeCtx k.ctx 4).endCtxCmd k 0 []
      else if wState w = 1 ∧ wOwner w / 16 ≠ s.chipId then s.forwardCmd k
      else s.modSp p (fun x => { x with cmds := x.cmds ++ [k] })
    else s.applyCtx p k) s

/-- The serving engine's record of a context command. -/
def State.srvCmd (s : State) (w op : Nat) (c : Cmd) : SrvCmd :=
  { win := w, pos := c.pos, home := s.chipId, op := op, ctx := c.at 0x10 4 % 2 ^ 18, arrival := c.arrival, ns := c.ns, body := c.body
    log := if s.winReplay w then 1 else 0 }

/-- R470: a context command is taken in: it waits for the planning of its partition. One on a context with no partition ends
with STATE. -/
def State.ctxAccept (s : State) (w op : Nat) : State :=
  s.onCmd w op (fun s c =>
    let word := c.at 0x10 4
    let n := word % 2 ^ 18
    let k := s.srvCmd w op c
    let x := s.ctx n
    let opening := (List.range 16).find? (fun p => (s.spOf p).cmds.any (fun q => q.op == 0x10 && q.ctx == n))
    let part : Option Nat :=
      if op = 0x10 then some (bits word 21 18) else if x.st ≠ .free then some (if x.away then x.part else x.owner) else opening
    match part with
    | some p => (s.beginCmd w c).modSp p (fun y => { y with cmds := y.cmds ++ [k] })
    | none => s.complete w c 6 0)

def execCtxOpen (w : Fin 128) (s : State) : Host.Outcome State Fault Refusal := .next (whenLive s (fun s => s.ctxAccept w 0x10))
def execCtxPrefill (w : Fin 128) (s : State) : Host.Outcome State Fault Refusal := .next (whenLive s (fun s => s.ctxAccept w 0x11))
def execCtxPause (w : Fin 128) (s : State) : Host.Outcome State Fault Refusal := .next (whenLive s (fun s => s.ctxAccept w 0x12))
def execCtxResume (w : Fin 128) (s : State) : Host.Outcome State Fault Refusal := .next (whenLive s (fun s => s.ctxAccept w 0x13))
def execCtxClose (w : Fin 128) (s : State) : Host.Outcome State Fault Refusal := .next (whenLive s (fun s => s.ctxAccept w 0x14))
def execCtxDigest (w : Fin 128) (s : State) : Host.Outcome State Fault Refusal := .next (whenLive s (fun s => s.ctxAccept w 0x16))

/-- CTX_TREE (R259, R470): HOST_TREE is written at once; on a context that another chip owns the command goes there. -/
def State.ctxTree (s : State) (w : Nat) : State :=
  s.onCmd w 0x15 (fun s c =>
    let n := c.at 0x10 4 % 2 ^ 18
    let x := s.ctx n
    let k := s.srvCmd w 0x15 c
    if x.st = .free then s.complete w c 6 0
    else if x.away && s.isHome x && wState (s.ownWord n) == 1 && wOwner (s.ownWord n) / 16 ≠ s.chipId then (s.beginCmd w c).forwardCmd k
    else (s.modCtx n (fun x => { x with hostTree := k.treeAddr })).complete w c 0 0)

def execCtxTree (w : Fin 128) (s : State) : Host.Outcome State Fault Refusal := .next (whenLive s (fun s => s.ctxTree w))

/-! Model commands (R234, R235, R470, R521 to R523). -/

/-- Whether a live context names a handle. -/
def State.modelNamed (s : State) (h : Nat) : Bool := s.srv.ctx.any (fun e => e.2.st ≠ .free && e.2.model == h)

/-- R533: a MODEL record: 1 load, 2 unload. -/
def State.auditModel (s : State) (slot op : Nat) (m : Model) : State :=
  s.audit 3 0 s.tim.tick 144 (leBytes 1 slot ++ leBytes 1 op ++ leBytes 2 0 ++ leBytes 4 (slot + 64 * m.count) ++ m.digest ++ padTo 48 m.desc)

/-- MODEL_LOAD (R234, R235): `data` is what host memory answered for a host address, none when the read failed. -/
def State.modelLoad (s : State) (w : Nat) (data : Option (List Byte)) : State :=
  s.onCmd w 0x30 (fun s c =>
    let slot := c.at 0x10 1
    let a := s.cmdAddr w (c.at 0x18 8)
    let (s, desc) : State × Option (List Byte) := match s.region a with
      | .hostA | .hostB =>
        match s.hostAddr a 128 with
        | some (port, pasid, h) => (s.hostR (s.winSlot w) port (pasid.getD 0) h 128, data.map (padTo 128))
        | none => (s.raise srcWin 0x16 a 0, none)
      | _ => let (s, bs, st) := s.load srcWin a 128; (s, if st = .ok then some bs else none)
    match desc with
    | none => s.complete w c 1 0
    | some d =>
      let old := s.model slot
      let m : Model := { loaded := true, count := (old.count + 1) % 2 ^ 26, desc := d }
      if !m.ok then s.complete w c 4 0
      else if old.loaded && s.modelNamed (s.modelHandle slot) then s.complete w c 6 0
      else
        let s := { s with srv := { s.srv with model := sset {} s.srv.model slot m } }
        (s.auditModel slot 1 m).complete w c 0 (slot + 64 * m.count))

def execModelLoad (w : Fin 129) (data : Option (List Byte)) (s : State) : Host.Outcome State Fault Refusal :=
  .next (whenLive s (fun s => s.modelLoad w data))

/-- MODEL_UNLOAD (R234). -/
def State.modelUnload (s : State) (w : Nat) : State :=
  s.onCmd w 0x31 (fun s c =>
    let h := c.at 0x10 4
    match s.modelOf h with
    | none => s.complete w c 7 0
    | some m =>
      if s.modelNamed h then s.complete w c 6 0
      else
        let s := { s with srv := { s.srv with model := sset {} s.srv.model (h % 64) { m with loaded := false, desc := [] } } }
        (s.auditModel (h % 64) 2 m).complete w c 0 0)

def execModelUnload (w : Fin 129) (s : State) : Host.Outcome State Fault Refusal := .next (whenLive s (fun s => s.modelUnload w))

/-- PART_MODEL (R470, R523): sets a partition's model and makes its serving job pending; a serving job it had is stopped
(Assumption 41). -/
def State.partModel (s : State) (w : Nat) : State :=
  s.onCmd w 0x32 (fun s c =>
    let p := c.at 0x10 1 % 16
    let h := c.at 0x14 4
    match s.modelOf h with
    | none => s.complete w c 7 0
    | some m =>
      if s.srv.ctx.any (fun e => e.2.st ≠ .free && (e.2.owner == p || (e.2.part == p && s.isHome e.2))) then s.complete w c 6 0
      else if s.partAudited p && m.anchorKind == 2 then s.complete w c 7 0
      else
        let s := match (s.spOf p).job.bind s.jobOf with
          | some j => s.stopOf j
          | none => s
        let (s, id) := s.nextJobId w
        let slot := c.at 0x58 1
        let tenant := match s.img with
          | some g => ((g.slots.find? (fun x => x.1 == slot)).map (·.2)).getD 0
          | none => 0
        let j := c.toJob id w 4 p (c.at 0x11 1 % 8) (c.at 0x12 1) (c.at 0x13 1) slot tenant (some p) s.tim.expo
        let s := { s with hst := { s.hst with jobs := s.hst.jobs ++ [j] } }
        let s := (s.put (f_SRV_PART_CFG_MODEL p) (h % 64)).modSp p (fun x => { x with job := some id, model := some h, modelArrival := c.arrival })
        let zs7 := s.zs7 p false
        let s := s.audit 4 (rplFlag (s.partReplay p)) s.tim.tick 96
          (leBytes 1 p ++ leBytes 1 ((if s.partAudited p then 1 else 0) + (if zs7 then 2 else 0) + (if s.partReplay p then 4 else 0))
            ++ leBytes 2 0 ++ leBytes 4 h ++ m.digest)
        s.complete w c 0 id)

def execPartModel (w : Fin 129) (s : State) : Host.Outcome State Fault Refusal := .next (whenLive s (fun s => s.partModel w))

/-! Retirement (R243, R247, R265 to R269). -/

/-- Whether a context still takes part in its partition's step. -/
def Ctx.takesPart (c : Ctx) : Bool := (c.st == .prefill || c.st == .decode) && !c.away && c.acq == 0

/-- R332: the accounting slot of a context. -/
def State.ctxSlot (s : State) (c : Ctx) : Nat := if s.isHome c then s.winSlot c.win else (s.slotOfTenant c.tenant).getD 0

/-- R265: what the step emitted for a batch entry: its tokens and path, and whether they are in range. A context whose last
prompt chunk the step carried emits MAIN[0] of its position (Assumption 42). -/
def State.outcome (s : State) (p b : Nat) (e : BatchEnt) (c : Ctx) (m : Model) : Verdict :=
  if e.reload then {}
  else
    match e.tree with
    | some t => s.verify p b c t m.vocab
    | none =>
      if c.st = .prefill ∧ c.promptDone + e.chunk ≥ c.promptLen then
        let tok := s.readLE (s.treeAt p b + 0x1D0) 4
        { toks := [tok], ok := decide (tok < m.vocab) }
      else {}

/-- R529: add the tokens of a step to a digest, the first at a position. -/
def loupeTokens (l : List Byte) (pos : Nat) : List Nat → List Byte
  | [] => l
  | t :: ts => loupeTokens (loupeAdd l 1 0 pos t) (pos + 1) ts

/-- R243: why a context leaves: a stop token first, then GEN_LIMIT, then MAX_CTX; 0 when it stays. -/
def Ctx.leaves (c : Ctx) (m : Model) (toks : List Nat) : Nat :=
  if toks.any (fun t => c.stop.contains t && t ≠ 0xFFFFFFFF) then 1
  else if !toks.isEmpty && decide (c.genCount ≥ c.genLimit) then 2
  else if c.pos ≥ m.maxCtx then 3
  else 0

/-- Note the accepted nodes in a tree record, and count them (R262, R272). A node that a stop token cut off is not one of them
(R267). -/
def State.noteAccepted (s : State) (p b : Nat) (t : Tree) (v : Verdict) : State :=
  let a := s.treeAt p b
  let fixed := v.toks.length - 1
  let s := s.writeLE (a + 0xD) 1 fixed
  let s := s.writeBytes (a + 0x4D0) ((List.range 16).flatMap (fun i => leBytes 1 ((v.path.take v.toks.length).getD i 0xFF)))
  let s := s.bumpBy (f_SPC_ACCEPTED_ACCEPTED p) fixed
  if t.parent.length > 1 then s.bump (f_SPC_TREES_TREES p) else s

/-- R243, R268, R269: fix the entries of a context and apply its tokens. -/
def State.applyStep (s : State) (p b : Nat) (e : BatchEnt) (n : Nat) (m : Model) (v : Verdict) : State :=
  let c := s.ctx n
  match e.tree with
  | some t =>
    let s := (s.noteAccepted p b t v).fixTree n t v m
    let k := v.toks.length
    let (d, back) := if s.flag f_SPC_CFG_ENABLE then (s.ctx n).adapt t.maxDepth v.path.length (s.get f_SPC_CFG_ZERO_LIMIT) (s.get f_SPC_CFG_BACKOFF)
      else (s.ctx n, false)
    let s := if back then (s.status f_SPC_STATUS_BACKOFF).bump (f_SPC_BACKOFFS_BACKOFFS p) else s
    (s.setCtx n { d with
      pos := c.pos + k, genCount := c.genCount + k, last := v.toks.getLastD c.last, tokOut := c.tokOut + k
      loupe := loupeTokens c.loupe (c.pos + 1) v.toks }).account (s.ctxSlot c) 11 k
  | none =>
    if e.reload then s
    else
      let done := c.promptDone + e.chunk
      let s := (List.range e.chunk).foldl (fun s i => s.setSlot n ((c.pos + i) / 16) ((c.pos + i) % 16) (16 + (c.pos + i) % 16) m) s
      let k := v.toks.length
      let pos := c.pos + e.chunk
      let s := s.modCtx n (fun c => { c with
        pos := pos, promptDone := done, tokIn := c.tokIn + e.chunk, st := if done ≥ c.promptLen then .decode else .prefill
        genCount := c.genCount + k, last := v.toks.getLastD c.last, tokOut := c.tokOut + k, loupe := loupeTokens c.loupe pos v.toks })
      (s.account (s.ctxSlot c) 10 e.chunk).account (s.ctxSlot c) 11 k

/-- R243, R274, R286, R291: retire one context: its records, and whether it leaves or is to be handed over. A guest's update
goes home with its records. -/
def State.retireCtx (s : State) (p b : Nat) (e : BatchEnt) : State × List Rec :=
  let n := e.ctx
  let c0 := s.ctx n
  match s.modelOf c0.model with
  | none => (s, [])
  | some m =>
    if !c0.takesPart || e.out then (s, [])
    else
      let x := s.spOf p
      let v := s.outcome p b e c0 m
      let s := (s.applyStep p b e n m v).modCtx n (fun c => { c with steps := (c.steps + 1) % 2 ^ 32 })
      let c := s.ctx n
      let why := if e.reload then 0 else c.leaves m v.toks
      let s := if why = 0 then s
        else s.modCtx n (fun c => { c with reason := why, loupe := loupeAdd c.loupe 2 why c.pos 0 })
      let c := s.ctx n
      let typ := if e.reload then 4 else if v.toks.isEmpty then 2 else 1
      let first := c.record typ 0 v.toks x.step x.start
      let recs := first :: (if why = 0 then [] else [c.record 6 why [] x.step x.start])
      if why ≠ 0 then
        if s.isHome c then ((s.auditLoupe c 1).closeHome n, recs)
        else
          let s := (s.modCtx n (fun c => { c with st := .free })).sendUpdate n c0.steps recs
          (s.letGo n, [])
      else
        let keep := if c.st = .decode then c.pos / 16 + 1 else ceilDiv (c.pos + c.chunk) 16
        let s := s.shrinkTo n m keep
        let leaves := c.st == .decode && (s.role p == 0 || s.get (f_CMP_PART_CTL_DSTATE p) == 1)
        let s := s.modCtx n (fun c => { c with hand := c.hand || leaves })
        if s.isHome c then (s, recs) else (s.sendUpdate n c0.steps recs, [])

/-- Whether every thread of a partition's serving job has halted (R240, R505). -/
def State.stepHalted (s : State) (p : Nat) : Bool :=
  match (s.spOf p).job with
  | some id => (s.jobSts id).all (fun x => x.1 == .idle)
  | none => true

/-- R505: TSTAT of the job's threads when they have halted. -/
def State.stepErrors (s : State) (p : Nat) : Bool :=
  match (s.spOf p).job with
  | some id => s.te.thr.any (fun e => e.2.job == id && e.2.tstat % 4 ≠ 0)
  | none => false

/-- R265: whether every token the step emitted is in range. -/
def State.verdictsOk (s : State) (p : Nat) : Bool :=
  let x := s.spOf p
  (List.range x.batch.length).all (fun b =>
    let e := x.batch.getD b {}
    let c := s.ctx e.ctx
    match s.modelOf c.model with
    | some m => !c.takesPart || e.out || (s.outcome p b e c m).ok
    | none => true)

/-- R243: the whole retirement of a step, its records with those that waited ahead of them. -/
def State.retireAll (s : State) (p : Nat) : State × List Rec :=
  let x := s.spOf p
  let early := x.recs.map (fun r => r.stamp x.step x.start)
  let r := (List.range x.batch.length).foldl (fun (a : State × List Rec) b =>
    let (s, l) := a.1.retireCtx p b (x.batch.getD b {})
    (s, a.2 ++ l)) (s, [])
  (r.1, early ++ r.2)

/-- R248: the records of a retirement enter the queue in order while it has room; the completion writer moves records on meanwhile. -/
def State.pushOut (s : State) (p : Nat) : Nat → State
  | 0 => s
  | fuel + 1 =>
    match (s.spOf p).out with
    | [] => s
    | r :: rest =>
      let s := if (s.spOf p).depth + r.words > 8192 then s.drainRecords p else s
      if (s.spOf p).depth + r.words > 8192 then s
      else ((s.modSp p (fun x => { x with out := rest })).pushStream p [r]).pushOut p fuel

/-- R228, R242, R248, R507: a retirement ends once its last record is in the queue: its changed entries are written to the table, and the
pages of the contexts that commands closed are released. Until then it waits. -/
def State.endRetire (s : State) (p : Nat) : State :=
  if (s.spOf p).phase ≠ .retiring then s
  else
    let s := s.pushOut p (s.spOf p).out.length
    if (s.spOf p).out.isEmpty then
      let s := (s.modSp p (fun x => { x with phase := .idle, batch := [], waitAt := none, hznAt := some s.tim.expo })).leave p
      let s := s.writeBack p
      { s with flt := { s.flt with part := smod {} s.flt.part p (fun r => { r with st := if r.st = .replaying then .running else r.st }) } }
    else s.modSp p (fun x => { x with waitAt := some (x.waitAt.getD s.tim.expo) })

/-- R230, R254, R505: the cached entries of a step's contexts that hold an uncorrectable error: each line is discarded and its entry
reloaded, SRV_STATUS.CTX_ECC set and SRV_CTX_ECC raised; the step is replayed. What the step's planning had changed in an entry belongs to
the plan that the replay keeps (R506), so the entry stands as before (Assumption 60). -/
def State.cacheFault (s : State) (p : Nat) (l : List Nat) : State :=
  let s : State := { s with srv := { s.srv with bad := s.srv.bad.filter (fun n => !l.contains n) } }
  (l.foldl (fun (s : State) n =>
    let k := n % 4096
    let s : State := { s with srv := { s.srv with cache := sset [] s.srv.cache k ((sget [] s.srv.cache k).filter (· ≠ n)) } }
    ((s.cacheTouch n s.pinned).status f_SRV_STATUS_CTX_ECC).raise srcServe 0x30 0 0) s).stepFault p

/-- The contexts of a partition's batch whose cached entry holds an uncorrectable error. -/
def State.badEntries (s : State) (p : Nat) : List Nat :=
  (((s.spOf p).batch.filter (fun e => !e.out)).map (·.ctx)).filter (fun n => s.srv.bad.contains n)

/-- R60, R243, R265, R505: retire the step in progress once its threads have halted, in an exposure before this one. -/
def State.beginRetire (s : State) (p : Nat) : State :=
  let x := s.spOf p
  let rec' := sget {} s.flt.part p
  if x.phase ≠ .running ∨ x.ended = false ∨ s.stepHalted p = false ∨ rec'.st = .stepFault ∨ rec'.cmd = true then s
  else if s.stepErrors p then s.stepFault p
  else if !(s.badEntries p).isEmpty then s.cacheFault p (s.badEntries p)
  else if !s.verdictsOk p then ((s.status f_SPC_STATUS_VERDICT).raise srcServe 0x32 0 0).stepFault p
  else
    let (s, recs) := s.retireAll p
    s.modSp p (fun x => { x with phase := .retiring, recs := [], out := recs })

/-- R243, R248: retire the step of a partition. Without room in the step stream the retirement waits. -/
def State.retireStep (s : State) (p : Nat) : State := (s.beginRetire p).endRetire p

/-! Needs and the ladder (R244, R245). -/

/-- A context's work at a planning: its next chunk, the tokens to be held, and the units it must add. -/
structure Need where
  n : Nat
  prio : Nat
  prefill : Bool
  next : Nat
  tokens : Nat
  grow : Nat
  lat : Nat
  cut : Bool := false
  deriving DecidableEq, Repr

/-- R244: round a chunk: a multiple of 16 unless it completes the prompt. -/
def roundChunk (k left : Nat) : Nat := if k ≥ left then left else k / 16 * 16

/-- R244, R260: what a context needs for step s + 1, when step s carries `chunk` prompt tokens, or a decode when `dec`, and
`avail` of PREFILL_MAX is left for step s + 1. -/
def State.needOf (s : State) (n : Nat) (c : Ctx) (m : Model) (chunk avail : Nat) (works : Bool) : Need :=
  let u := m.groups * m.pageUnits
  let lat := latentPages (s.planNodes c) * u
  if c.st = .decode then
    let after := c.pos + (if !works then 0 else if s.planNodes c > 1 && !c.cancelCur then 1 + c.depth else 1)
    { n := n, prio := c.prio, prefill := false, next := 0, tokens := after + 1, grow := s.growUnits c m (after + 1), lat := lat }
  else
    let after := c.pos + chunk
    let left := c.promptLen - c.promptDone - chunk
    if left = 0 ∧ s.role c.owner ≠ 0 then
      { n := n, prio := c.prio, prefill := false, next := 0, tokens := after + 1, grow := s.growUnits c m (after + 1), lat := lat }
    else
      let next := roundChunk (min m.chunkMax (min left avail)) left
      { n := n, prio := c.prio, prefill := true, next := next, tokens := after + next, grow := s.growUnits c m (after + next), lat := 0 }

/-- R244: needs of the running contexts in ascending order, sharing PREFILL_MAX. -/
def State.needs (s : State) (m : Model) (l : List Nat) : List Need × Nat :=
  l.foldl (fun (a : List Need × Nat) n =>
    let c := s.ctx n
    let x := s.needOf n c m c.chunk a.2 true
    (a.1 ++ [x], a.2 - x.next)) ([], m.prefillMax)

/-- R245: lower a chunk by 16 tokens at a time while a deficit is left. Answers the need and what is left of the deficit. -/
def State.shrinkChunk (s : State) (m : Model) (x : Need) (d : Int) : Nat → Need × Int
  | 0 => (x, d)
  | fuel + 1 =>
    if d ≤ 0 ∨ x.next = 0 then (x, d)
    else
      let next := x.next - 16
      let tokens := x.tokens - x.next + next
      let grow := s.growUnits (s.ctx x.n) m tokens
      s.shrinkChunk m { x with next := next, tokens := tokens, grow := grow } (d - ((x.grow - grow : Nat) : Int)) fuel

/-- What the ladder decides: the needs that remain, the contexts it pauses, the highest rung, and its counts. -/
structure Ladder where
  needs : List Need
  paused : List Nat := []
  rung : Nat := 0
  cancels : Nat := 0
  shrinks : Nat := 0
  deriving DecidableEq, Repr

/-- R245: the victim order: ascending priority, then descending context number. -/
def Need.victimLe (a b : Need) : Bool := decide (a.prio < b.prio) || (a.prio == b.prio && decide (b.n ≤ a.n))

def setNeed (l : List Need) (x : Need) : List Need := l.map (fun y => if y.n = x.n then x else y)

/-- R245: rungs 1 to 3 for a deficit. -/
def State.ladder (s : State) (m : Model) (l : List Need) (deficit : Int) : Ladder :=
  if deficit ≤ 0 then { needs := l }
  else
    let v := (l.mergeSort Need.victimLe).map (·.n)
    let get (l : List Need) (n : Nat) : Need := (l.find? (fun x => x.n == n)).getD { n := n, prio := 0, prefill := false, next := 0, tokens := 0, grow := 0, lat := 0 }
    let r1 := v.foldl (fun (a : Ladder × Int) n =>
      let x := get a.1.needs n
      if a.2 ≤ 0 then a
      else ({ a.1 with needs := setNeed a.1.needs { x with lat := 0, cut := true }, cancels := a.1.cancels + (if x.lat = 0 then 0 else 1) }, a.2 - (x.lat : Int)))
      (({ needs := l, rung := 1 } : Ladder), deficit)
    let r2 := if r1.2 ≤ 0 then r1
      else v.foldl (fun (a : Ladder × Int) n =>
        let x := get a.1.needs n
        if a.2 ≤ 0 || !x.prefill || x.next == 0 then a
        else
          let (y, d) := s.shrinkChunk m x a.2 (x.next + 1)
          ({ a.1 with needs := setNeed a.1.needs y, shrinks := a.1.shrinks + 1 }, d)) ({ r1.1 with rung := 2 }, r1.2)
    let r3 := if r2.2 ≤ 0 then r2
      else v.foldl (fun (a : Ladder × Int) n =>
        if a.2 ≤ 0 then a
        else
          let x := get a.1.needs n
          ({ a.1 with needs := a.1.needs.filter (fun y => y.n ≠ n), paused := a.1.paused ++ [n] },
            a.2 - ((x.grow + x.lat + s.unitsHeld (s.ctx n) : Nat) : Int))) ({ r2.1 with rung := 3 }, r2.2)
    r3.1

/-- R260: take latent pages for the next step. -/
def State.takeLatent (s : State) (n : Nat) (m : Model) (pages : Nat) : State :=
  let r := (List.range pages).foldl (fun (a : State × List (List Nat)) _ =>
    let q := (List.range m.groups).foldl (fun (b : State × List Nat) _ =>
      let (s, h) := b.1.newPage (b.1.ctx n).owner m
      (s, b.2 ++ [h])) (a.1, [])
    (q.1, a.2 ++ [q.2])) (s, [])
  r.1.modCtx n (fun c => { c with lat := r.2 })

/-- Take the reservations of a context for the next step (R242, R244). -/
def State.reserve (s : State) (m : Model) (x : Need) : State :=
  let before := (s.ctx x.n).pt.length
  let s := s.growTo x.n m x.tokens
  let s := s.takeLatent x.n m (x.lat / (m.groups * m.pageUnits))
  s.modCtx x.n (fun c => { c with
    chunk := x.next, cancel := x.cut, resv := c.pt.length - before, latent := c.lat.flatten.length })

/-! Admission (R246, R285). -/

/-- A candidate for admission: a notice by its position, or a queued context. -/
inductive Cand where
  | notice (i : Nat) | queued (n : Nat)
  deriving DecidableEq, Repr

/-- What admission keeps count of. -/
structure Admit where
  s : State
  batch : List BatchEnt
  availS : Nat
  availN : Nat
  stop : Bool := false

/-- R229: whether a context's cache set has room for one more pinned entry. -/
def cacheRoom (pins : List Nat) (n : Nat) : Bool :=
  pins.contains n || decide (((pins.filter (fun x => x % 4096 == n % 4096)).eraseDups).length < 8)

/-- An archived context as the units of its archive stand for it (R246). -/
def Ctx.asArchived (c : Ctx) (m : Model) : Ctx :=
  { c with root := 1, leaf := (List.range (ceilDiv (c.blocks m.groups * m.groups) 128)).map (fun i => (i, 1)) }

/-- R246: try one queued context. -/
def State.admitQueued (a : Admit) (p : Nat) (m : Model) (n : Nat) : Admit :=
  let s := a.s
  let c := s.ctx n
  let pins := s.pinned ++ a.batch.map (·.ctx)
  let full := a.batch.length ≥ m.batchMax
  if full then { a with stop := true }
  else if !cacheRoom pins n then { a with s := s.status f_SRV_STATUS_CACHE_FULL, stop := true }
  else if c.resume then
    let d := { c with st := if c.resumeDecode then .decode else .prefill }
    let x := s.needOf n (d.asArchived m) m 0 a.availN false
    if c.archUnits + x.grow + x.lat > s.poolFree p then { a with stop := true }
    else
      let s := s.setCtx n { d with resume := false }
      let s := s.takeArchived n m
      let s := s.reserve m x
      { a with s := s, batch := a.batch ++ [{ ctx := n, reload := true }], availN := a.availN - x.next }
  else
    let chunk := roundChunk (min m.chunkMax (min c.promptLen a.availS)) c.promptLen
    let d := { c with st := .prefill, promptDone := 0, pos := 0 }
    let x := s.needOf n d m chunk a.availN true
    if chunk = 0 ∨ x.grow + x.lat > s.poolFree p then { a with stop := true }
    else
      let s := (s.setCtx n d).reserve m x
      { a with s := s, batch := a.batch ++ [{ ctx := n, chunk := chunk }], availS := a.availS - chunk, availN := a.availN - x.next }

/-- R280: the lowest FREE local context number. -/
def State.freeCtxNo (s : State) : Nat :=
  ((List.range (s.srv.ctx.length + 1)).find? (fun n => (s.ctx n).st == .free && !(s.ctx n).leaving)).getD s.srv.ctx.length

/-- The page-table entries that a notice carries (R290). -/
def noticeEnts (l : List Nat) : SMap PtEnt := (readEnts (l.headD 0) (l.drop 1)).1.foldl (fun m e => sset {} m e.1 e.2) []

/-- R285: try one notice: its guest entry, its reservation, its ACQUIRE and the read of the home entry. At home itself the
record is acquired at once. -/
def State.admitNotice (a : Admit) (p : Nat) (m : Model) (x : Notice) : Admit :=
  let s := a.s
  let near := x.home == s.chipId
  let n := if near then x.ctx else s.freeCtxNo
  let base : Ctx := if near then s.ctx n else
    let c := ({} : Ctx).ofBytes ((x.entry.take 256).map (BitVec.ofNat 8))
    { c with root := 0, homeCtx := x.ctx, home := x.home, pt := noticeEnts (x.entry.drop 256) }
  let c := { base with owner := p, epoch := x.epoch, away := false, hand := false, cancelCur := false, target := x.comp * 65536 + x.cepoch }
  let pins := s.pinned ++ a.batch.map (·.ctx)
  if a.batch.length ≥ m.batchMax then { a with stop := true }
  else if !cacheRoom pins n then { a with s := s.status f_SRV_STATUS_CACHE_FULL, stop := true }
  else
    let chunk := if c.st = .prefill then roundChunk (min m.chunkMax (min (c.promptLen - c.promptDone) a.availS)) (c.promptLen - c.promptDone) else 0
    let y := s.needOf n c m chunk a.availN true
    let waits := c.st == .queued
    if !waits && decide (y.grow + y.lat > s.poolFree p) then { a with stop := true }
    else
      let s := { s with own := { s.own with notices := s.own.notices.erase x } }
      let old := stateWord 2 x.frm (s.me p) x.epoch
      let new := stateWord 1 (s.me p) 0 x.epoch
      let ent : List BatchEnt := if waits then [] else [{ ctx := n, chunk := chunk }]
      let take (s : State) : State := if waits then s else s.reserve m y
      if near then
        let (s, cur) := s.ownApply n old new
        if cur = old then
          { a with s := take ((s.setCtx n { c with acq := 0 }).acqEnded c), batch := a.batch ++ ent, availS := a.availS - chunk, availN := a.availN - y.next }
        else { a with s := ((s.acqEnded c).bump f_CMP_ACQ_FAILS_COUNT).status f_CMP_STATUS_ACQ_FAIL }
      else
        let s := take (s.setCtx n { c with acq := 1 })
        let s := s.sendServe { dst := x.home, op := 3, own := true, aop := 4, wide := true, addr := s.ownAt x.ctx, operand := new, compare := old }
        let s := s.sendServe { dst := x.home, op := 1, addr := s.reg64 r_SRV_CTX_BASE_LO + x.ctx * 256, count := 256, srv := [x.ctx] }
        { a with s := s, batch := a.batch ++ ent, availS := a.availS - chunk, availN := a.availN - y.next }

/-- R246, R285: the candidates of a partition in order: notices, resumes, new contexts. -/
def State.candidates (s : State) (p cut : Nat) : List Notice × List Nat :=
  let ns := (s.own.notices.filter (fun x => x.part == p && decide (x.tick < cut))).mergeSort (fun a b =>
    decide (a.tick < b.tick) || (a.tick == b.tick && (decide (a.home < b.home) || (a.home == b.home && decide (a.ctx ≤ b.ctx)))))
  let q := s.srv.ctx.filter (fun e => e.2.st == .queued && e.2.owner == p && !e.2.away && !e.2.hand && e.2.acq == 0 && decide (e.2.arrival < cut)
    && roleRuns (s.role p) (e.2.resume && e.2.resumeDecode))
  (ns, (q.filter (fun e => e.2.resume)).map (·.1) ++ (q.filter (fun e => !e.2.resume)).map (·.1))

/-! Planning (R242). -/

/-- R242: contexts in PREFILL or DECODE that a partition runs, ascending. -/
def State.running (s : State) (p : Nat) : List Nat :=
  (s.srv.ctx.filter (fun e => (e.2.st == .prefill || e.2.st == .decode) && !e.2.away && !e.2.hand && e.2.owner == p && e.2.acq == 0)).map (·.1)

/-- R244, R262: build the batch: trees of the DECODE contexts, slots of the prompt chunks. -/
def State.buildBatch (s : State) (p : Nat) (m : Model) (l : List BatchEnt) (trees : List (Nat × Option (List Byte))) : State × List BatchEnt :=
  let l := l.mergeSort (fun a b => decide (a.ctx ≤ b.ctx))
  (List.range l.length).foldl (fun (a : State × List BatchEnt) b =>
    let e := l.getD b {}
    let s := a.1.cacheTouch e.ctx (s.pinned ++ l.map (·.ctx))
    let c := s.ctx e.ctx
    if c.st = .decode && !e.reload then
      let data := ((trees.find? (fun t => t.1 == e.ctx)).map (·.2)).getD none
      let (s, t) := s.planTree p b e.ctx m data
      (s, a.2 ++ [{ e with tree := some t }])
    else
      let s := (List.range e.chunk).foldl (fun s i => s.setSlot e.ctx ((c.pos + i) / 16) ((c.pos + i) % 16) (16 + 32 + (c.pos + i) % 16) m) s
      (s.writeLE (s.treeAt p b) 4 (e.ctx + p * 2 ^ 18), a.2 ++ [e])) (s, [])

/-- Show a partition's counts (R256, R300). -/
def State.showPart (s : State) (p : Nat) : State :=
  let q := (s.srv.ctx.filter (fun e => e.2.st == .queued && e.2.owner == p && !e.2.away)).length
  let owned := (s.srv.ctx.filter (fun e => e.2.st ≠ .free && e.2.owner == p && !e.2.away)).length
  let s := (s.put (f_SRV_PART_QUEUED_QUEUED p) q).put (f_CMP_PART_OWNED_OWNED p) owned
  (s.put (f_SRV_PART_FREE_FREE p) (s.poolFree p)).put (f_SRV_PART_ZERO_ZEROING p) (s.zeroing p)

/-- R527: the lowest LOG_TICK last fetched by the replay windows that grant a partition. -/
def State.horizon (s : State) (p : Nat) : Option Nat :=
  let ws := (List.range 128).filter (fun w => s.winReplay w && bitAt (s.get (f_TWN_PARTS_PARTS w)) p)
  match ws.map (fun w => (s.winOf w).logTick) with
  | [] => none
  | t :: ts => some (ts.foldl min t)

/-- R527: the cut of a replaying partition's step. -/
def State.rplCut (s : State) (p step : Nat) : Nat :=
  (s.reg (r_AUD_RPL_BASE_LO p)).toNat + 2 ^ 32 * (s.reg (r_AUD_RPL_BASE_HI p)).toNat + step * s.get (f_SRV_PIPE_CFG_PERIOD p)

/-- R60, R62, R241, R527: whether the next step may be planned now: base, admission cut and lag. -/
def State.stepDue (s : State) (p : Nat) : Option (Nat × Nat × Nat) :=
  let x := s.spOf p
  let pp := sget {} s.tim.pipe p
  let t := s.tim.tick
  let per := s.get (f_SRV_PIPE_CFG_PERIOD p)
  if s.partReplay p then
    let cut := s.rplCut p x.next
    match s.horizon p with
    | some h => if cut ≤ h then some (pp.base, cut, 0) else none
    | none => none
  else
    let rebased := (t + 2 ^ 64 - x.next * per % 2 ^ 64) % 2 ^ 64
    let planned := (pp.base + x.next * pp.period) % 2 ^ 64
    let cut (b : Nat) : Nat := if per = 0 then t else (b + x.next * per) % 2 ^ 64
    if !pp.ran then some (rebased, cut rebased, 0)
    else if pp.period ≠ 0 ∧ t < planned then none
    else if pp.rebase || pp.period ≠ per then some (rebased, cut rebased, 0)
    else if per = 0 then some (pp.base, t, 0)
    else some (pp.base, planned, min (t - planned) 65535)

/-- R60 to R62, R249: the pipeline's record of a step start. -/
def State.pipeStart (s : State) (p base lag : Nat) : State :=
  let pp := sget {} s.tim.pipe p
  let x := s.spOf p
  let per := s.get (f_SRV_PIPE_CFG_PERIOD p)
  let reb := pp.rebase || pp.period ≠ per
  let old := s.get (f_SRV_PIPE_LAG_LAG p)
  let s := if reb then s.put (f_SRV_PIPE_LAG_MAX_LAG p) 0 else s
  let s := (s.put (f_SRV_PIPE_LAG_LAG p) lag).put (f_SRV_PIPE_LAG_MAX_LAG p) (max lag (s.get (f_SRV_PIPE_LAG_MAX_LAG p)))
  let s := if lag > 0 ∧ old = 0 then s.status (f_SRV_PIPE_STATUS_PULL p) else s
  let late := decide (lag > s.get (f_SRV_PIPE_CFG_PULL_LIMIT p))
  let s := if late && !pp.lateOnce then
      (s.status (f_SRV_PIPE_STATUS_STEP_LATE p)).setSp p { x with recs := { win := admWin, home := s.chipId, bytes := recBytes 7 0 [] (0x3FFFF + p * 2 ^ 18) x.next 0 lag 0 } :: x.recs }
    else s
  let s := if base ≠ pp.base ∨ per ≠ pp.period then s.auditPipeline p base else s
  { s with tim := { s.tim with pipe := sset {} s.tim.pipe p { pp with
      base := base, ran := true, rebase := false, period := per, lateOnce := if lag = 0 then false else pp.lateOnce || late } } }

/-- R229: the running contexts that their cache sets have room for, in ascending order, and whether some set has none: a context that
would need a ninth pinned entry stays out of the step. -/
def State.cacheFit (s : State) (run : List Nat) : List Nat × Bool :=
  let fit := run.foldl (fun l n => if cacheRoom (s.pinned ++ l) n then l ++ [n] else l) []
  (fit, decide (fit.length < run.length))

/-- R242: plan the next step of a partition; `trees` answers the reads of host-tree payloads. -/
def State.planStep (s : State) (p : Nat) (m : Model) (base cut lag : Nat) (trees : List (Nat × Option (List Byte))) : State :=
  let s := s.pipeStart p base lag
  let s := s.modSp p (fun x => { x with cut := cut })
  let s := s.applyCommands p cut
  let s := s.expireDue (fun _ c => c.owner == p)
  let draining := s.get (f_CMP_PART_CTL_DSTATE p) ≠ 0
  let s := if draining && (s.spOf p).drainTmo then s.pauseRunning p else s
  let s := if draining then
      (s.srv.ctx.filter (fun e => e.2.st == .queued && e.2.owner == p && !e.2.away)).foldl (fun s e => s.modCtx e.1 (fun c => { c with hand := true })) s
    else s
  let (run, full) := s.cacheFit (s.running p)
  let s := if full then s.status f_SRV_STATUS_CACHE_FULL else s
  let s := run.foldl (fun s n => s.modCtx n (fun c => { c with latCur := c.lat, lat := [], cancelCur := c.cancel, cancel := false })) s
  let (needs, availN) := s.needs m run
  let need : Nat := (needs.map (fun x => x.grow + x.lat)).sum
  let ld := s.ladder m needs ((need : Int) - (s.poolFree p : Int))
  let ents := (run.filter (fun n => !ld.paused.contains n)).map (fun n => ({ ctx := n, chunk := if (s.ctx n).st = .prefill then (s.ctx n).chunk else 0 } : BatchEnt))
  let s := ld.paused.foldl (fun s n => s.pauseCtx n 5 true) s
  let s := ld.needs.foldl (fun s x => s.reserve m x) s
  let s := (s.put (f_SRV_PART_LADDER_RUNG p) ld.rung).bumpBy (f_SRV_PART_LATENT_CANCEL_LATENT_CANCEL p) ld.cancels
  let s := (s.bumpBy (f_SRV_PART_CHUNK_SHRINK_CHUNK_SHRINK p) ld.shrinks).bumpBy (f_SRV_PART_PAUSE_MEM_PAUSE_MEM p) ld.paused.length
  let s := if ld.rung ≥ 1 then s.status f_SRV_STATUS_EXHAUST else s
  let s := if ld.rung = 3 then s.status f_SRV_STATUS_PAUSE_MEM else s
  let availN := availN + ((needs.map (·.next)).sum - (ld.needs.map (·.next)).sum)
  let a : Admit := { s := s, batch := ents, availS := m.prefillMax - (ents.map (·.chunk)).sum, availN := availN }
  let (ns, qs) := s.candidates p cut
  let a := if ld.rung ≥ 2 then a
    else
      let a := ns.foldl (fun a x => if a.stop then a else State.admitNotice a p m x) a
      if draining then a else qs.foldl (fun a n => if a.stop then a else State.admitQueued a p m n) a
  let (s, batch) := a.s.buildBatch p m a.batch trees
  let s := s.modSp p (fun x => { x with phase := .planned, batch := batch, step := x.next, next := x.next + 1, start := s.tim.tick, holdAt := s.tim.expo, ended := false })
  let step := (s.spOf p).step
  let s := ((s.put (f_SRV_PART_STEP_LO_STEP_LO p) (step % 2 ^ 32)).put (f_SRV_PART_STEP_HI_STEP_HI p) (step / 2 ^ 32)).put (f_SRV_PART_CTX_RUNNING p) (batch.filter (fun e => !e.out)).length
  let s := if s.partAudited p ∧ s.get (f_SRV_PIPE_CFG_PERIOD p) = 0 then
      s.audit 0x0B (rplFlag (s.partReplay p)) s.tim.tick 48 (leBytes 1 p ++ leBytes 7 0 ++ leBytes 8 step)
    else s
  s.showPart p

/-- R248, R256, R507, R527: whether the condition that halted planning still holds. -/
def State.haltHolds (s : State) (p : Nat) : Bool :=
  let x := s.spOf p
  match x.halt with
  | 1 => x.waitAt.isSome
  | 2 => (sget {} s.flt.part p).st ≠ .running
  | 3 => (s.horizon p).all (fun h => decide (h < s.rplCut p x.next))
  | _ => false

/-- R256: a partition that was halted goes on once RESUME was written and its condition is gone; HALT holds it at the next
boundary. -/
def State.settleHalt (s : State) (p : Nat) : State :=
  let x := s.spOf p
  let s := if x.halt ≠ 0 ∧ x.resumed ∧ s.haltHolds p = false then s.setSp p { x with halt := 0, resumed := false } else s
  let x := s.spOf p
  s.putB (f_SRV_PART_CTL_HALTED p) (x.halt ≠ 0 || s.flag (f_SRV_PART_CTL_HALT p))

/-- R60, R242, R256, R507: whether a partition's next step may be planned once the step in progress has retired: its model, and the base,
cut and lag. -/
def State.planNow (s : State) (p : Nat) : Option (Model × Nat × Nat × Nat) :=
  let x := s.spOf p
  match x.model.bind s.modelOf, s.stepDue p with
  | some m, some d =>
    if s.flag (f_SRV_PART_CTL_HALTED p) = false ∧ (sget {} s.flt.part p).st = .running ∧ s.role p ≠ 2
        ∧ (x.job.bind s.jobOf).any (fun j => j.st == .started && !j.stop) = true then some (m, d)
    else none
  | _, _ => none

/-- R274: a CACHE partition runs no step: commands and expiries take effect at its boundaries, with the tick as the cut (Assumption 61). -/
def State.planCache (s : State) (p : Nat) : State :=
  if s.flag (f_SRV_PART_CTL_HALTED p) then s else ((s.applyCommands p s.tim.tick).expireDue (fun _ c => c.owner == p)).showPart p

/-- STEP_PLAN (R242): at an exposure boundary the last step retires if it has ended, and the next is planned if it is due. -/
def State.stepPlan (s : State) (p : Nat) (trees : List (Nat × Option (List Byte))) : State :=
  let s := ((s.srvPump.retireStep p).drainRecords p).settleHalt p
  if s.role p = 2 then s.planCache p
  else match s.planNow p with
    | some (m, base, cut, lag) => if (s.spOf p).phase = .idle then s.planStep p m base cut lag trees else s
    | none => s

def execStepPlan (p : Fin 16) (trees : List (Nat × Option (List Byte))) (s : State) : Host.Outcome State Fault Refusal :=
  .next (whenLive s (fun s => s.stepPlan p trees))

/-! Start (R240). -/

/-- R233, R253: whether a command that takes effect at a planning due at this shutter waits on a context: commands apply before the expiry
check of that shutter. -/
def State.cmdDue (s : State) (n : Nat) (c : Ctx) : Bool :=
  let p := c.owner
  let x := s.spOf p
  let free := x.phase == .idle || (x.phase == .running && x.ended && s.stepHalted p)
  let cut := if s.role p = 2 then some s.tim.tick else if free then (s.planNow p).map (fun d => d.2.2.1) else none
  match cut with
  | some t => x.cmds.any (fun k => k.ctx == n && decide (k.arrival < t))
  | none => false

/-- CONTEXT_EXPIRY (R233, R253, R528): at a shutter. A context that a due command is about to reach, and one of a replaying partition, is
checked at the planning. -/
def execContextExpiry (s : State) : Host.Outcome State Fault Refusal :=
  .next (whenLive s (fun s => s.expireDue (fun n c => !s.partReplay c.owner && !s.cmdDue n c)))

/-- R240, R268: whether what a context's part in a step uses is there: the zero fills and copies of the pages that it reads or writes and
of the page-table units that lead to them, its archive reload and its acquisition are complete. A context that a resume admitted uses no
page in that step. -/
def State.ctxReady (s : State) (e : BatchEnt) : Bool :=
  let c := s.ctx e.ctx
  let g := match s.modelOf c.model with | some m => m.groups | none => 1
  let blocks := if c.st = .decode then c.pos / 16 + 1 else ceilDiv (c.pos + e.chunk) 16
  let page (h : Nat) : Bool := h == 0
    || ((hHome h ≠ s.chipId || s.runReady (hUnit h) (s.ctxUnits c)) && !(s.fillWaits (s.pageGlobal h) (2 ^ (12 + bits h 61 58))))
  let unit (a : Nat) : Bool := a == 0 || s.runReady (s.unitOf a) 1
  let used := c.pt.filter (fun x => decide (x.1 / g < blocks))
  e.out || (c.acq == 0 && (e.reload || (c.reloading == 0 && used.all (fun x => page x.2.h) && c.latCur.flatten.all page
    && (!(s.isHome c) || (unit c.root && used.all (fun x => unit (sget 0 c.leaf (x.1 / 128))))))))

/-- R148, R471, R508: bind every thread of a job afresh at its ENTRY. -/
def State.rebindJob (s : State) (j : Job) : State :=
  let s := j.arrayList.foldl (fun s n =>
    let ts := s.jobThreads n j.id
    let park := s.leaseOf n ≠ .openLease
    (List.range ts.length).foldl (fun s i =>
      let x : Thr := { st := if park then .parked else .ready, job := j.id, prio := j.prio, tenant := j.tenant, slot := j.slot, part := j.part, pc := j.entry }
      s.setThr n (ts.getD i 0) ((x.setS 1 j.arg).setS 2 (j.ordOf n * j.threads + i))) s) s
  let cores := bitList 96 j.cores
  (List.range cores.length).foldl (fun s k =>
    let c := cores.getD k 0
    let ts := (List.range 8).filter (fun t => let x := s.sigThr c t; x.job == j.id && !x.radio)
    (List.range ts.length).foldl (fun s i =>
      let x : SigThr := { st := if s.coreLease c ≠ .openLease then .parked else .ready, job := j.id, prio := j.prio, tenant := j.tenant
                          slot := j.slot, part := j.part, pc := j.entry }
      s.setSigThr c (ts.getD i 0) ((x.setX 1 j.arg).setX 2 (j.arrayList.length * j.threads + k * j.sig + i))) s) s

/-- STEP_START (R230, R240): the hold ends and the serving program runs the step. -/
def State.stepStart (s : State) (p : Nat) : State :=
  let s := s.srvPump
  let x := s.spOf p
  match x.job.bind s.jobOf with
  | some j =>
    if x.phase = .planned ∧ (sget {} s.flt.part p).st ≠ .stepFault ∧ (sget {} s.flt.part p).cmd = false ∧ x.batch.all (fun e => s.ctxReady e) = true ∧ s.stepHalted p = true then
      let l := s.badEntries p
      if l.isEmpty then (s.rebindJob j).modSp p (fun x => { x with phase := .running }) else s.cacheFault p l
    else s
  | none => s

def execStepStart (p : Fin 16) (s : State) : Host.Outcome State Fault Refusal := .next (whenLive s (fun s => s.stepStart p))

/-- STEP_HOLD_TIMEOUT (R240): a hold of HOLD_TMO exposures is a step fault. -/
def State.holdTimeout (s : State) (p : Nat) : State :=
  let x := s.spOf p
  if x.phase = .planned ∧ (sget {} s.flt.part p).cmd = false ∧ s.tim.expo - x.holdAt ≥ s.get f_SRV_STREAM_CFG_HOLD_TMO then s.stepFault p else s

def execStepHoldTimeout (p : Fin 16) (s : State) : Host.Outcome State Fault Refusal := .next (whenLive s (fun s => s.holdTimeout p))

/-- STREAM_TIMEOUT (R248): a retirement has waited TMO exposures for room. -/
def State.streamTimeout (s : State) (p : Nat) : State :=
  let x := s.spOf p
  match x.waitAt with
  | some e =>
    if x.halt = 0 ∧ s.tim.expo - e ≥ s.get f_SRV_STREAM_CFG_TMO then
      let s := (s.setSp p { x with halt := 1, resumed := false }).putB (f_SRV_PART_CTL_HALTED p) true
      (s.status f_SRV_STATUS_STREAM_TMO).raise srcServe 0x31 0 0
    else s
  | none => s

def execStreamTimeout (p : Fin 16) (s : State) : Host.Outcome State Fault Refusal := .next (whenLive s (fun s => s.streamTimeout p))

/-- PART_HALT (R256): a write of HALT. -/
def execPartHalt (p : Fin 16) (v : Bool) (s : State) : Host.Outcome State Fault Refusal :=
  .next (whenLive s (fun s => s.putB (f_SRV_PART_CTL_HALT p) v))

/-- PART_RESUME (R248, R256): a write of RESUME. -/
def execPartResume (p : Fin 16) (s : State) : Host.Outcome State Fault Refusal :=
  .next (whenLive s (fun s => let x := s.spOf p; if x.halt = 0 then s else s.setSp p { x with resumed := true }))

/-! Replay mode (R525 to R527). -/

/-- REPLAY_ENABLE (R525): a write of a partition's REPLAY bit, while it owns no context. -/
def State.replayEnable (s : State) (p : Nat) (v : Bool) : State :=
  if s.srv.ctx.any (fun e => e.2.st ≠ .free && e.2.owner == p && !e.2.away) then s
  else
    let s := s.put f_AUD_PART_REPLAY (setBits (s.get f_AUD_PART_REPLAY) p p (if v then 1 else 0))
    if v then s.modSp p (fun x => { x with next := 0, hznAt := some s.tim.expo }) else s

def execReplayEnable (p : Fin 16) (v : Bool) (s : State) : Host.Outcome State Fault Refusal := .next (whenLive s (fun s => s.replayEnable p v))

/-- REPLAY_HORIZON_TIMEOUT (R527): the horizon has stayed below the cut for TMO exposures. -/
def State.horizonTimeout (s : State) (p : Nat) : State :=
  let x := s.spOf p
  let short := match s.horizon p with
    | some h => decide (h < s.rplCut p x.next)
    | none => true
  match x.hznAt with
  | some e =>
    if s.partReplay p && x.phase == .idle && short && x.halt == 0 && decide (s.tim.expo - e ≥ s.get f_AUD_RPL_CFG_TMO) then
      let s := (s.setSp p { x with halt := 3, resumed := false }).putB (f_SRV_PART_CTL_HALTED p) true
      (s.status f_AUD_STATUS_RPL_TMO).raise srcServe 0x34 (x.next % 2 ^ 48) (p + 2 ^ 15)
    else s
  | none => s

def execReplayHorizonTimeout (p : Fin 16) (s : State) : Host.Outcome State Fault Refusal := .next (whenLive s (fun s => s.horizonTimeout p))

end Sys2Proof.Machine
end

