-- ==== Sys2Proof/Machine/Commands.lean ====
section
/-! DEFINITION. Command fetch: the fetch points of the windows, the checks of an entry at fetch, and its ARRIVAL record (R409,
R465 to R473, R526, R535, R536, R538). -/
namespace Sys2Proof.Machine
open Sys2Proof

/-! Checks (R470 to R475). They answer a STATUS, 0 when the command stands. -/

/-- Whether bytes a to b - 1 of an entry are 0. -/
def Cmd.zeros (c : Cmd) (a b : Nat) : Bool := ((c.body.drop a).take (b - a)).all (· == 0)

/-- R24: whether the image has a partition. -/
def State.hasPart (s : State) (p : Nat) : Bool :=
  match s.img with
  | some g => g.parts.any (fun x => x.id == p)
  | none => false

/-- R485: whether a window is granted a partition; the admin ring has no grants of its own (Assumption 43). -/
def State.grants (s : State) (w p : Nat) : Bool := s.hasPart p && (w == admWin || bitAt (s.get (f_TWN_PARTS_PARTS w)) p)

/-- R471: the fields of a JOB_START body; `sh` is 4 in a PART_MODEL body, which ends its fields at 0x59. -/
def State.checkJob (s : State) (w sh : Nat) (c : Cmd) : Nat :=
  let p := c.at 0x10 1
  let arrays := bitList 64 (c.at (0x14 + sh) 8)
  let save := c.at (0x40 + sh) 8
  let radio (n : Nat) : Bool := match s.img with | some g => g.radioArrays.contains n | none => false
  let bad := p / 16 ≠ 0 || decide (c.at 0x11 1 > 7) || decide (c.at 0x12 1 > 64) || decide (c.at 0x13 1 > 8)
    || !c.zeros (0x1E + sh) (0x20 + sh) || !c.zeros (0x2C + sh) (0x30 + sh) || !c.zeros (if sh = 0 then 0x54 else 0x59) 0x80
    || c.at (0x30 + sh) 8 % 4 ≠ 0 || save % 0x10000 ≠ 0 || decide (save + arrays.length * 0x6D0000 > s.lpBytes)
    || (decide (c.at (0x1C + sh) 2 ≥ 2 ^ 14) && arrays.any radio)
  let cfg := s.partCfg p
  if bad then 4
  else if s.grants w p && arrays.all (fun n => cfg.arrays.contains n) && (bitList 96 (c.at (0x48 + sh) 12)).all (fun k => cfg.sigCores.contains k)
    then 0
  else 5

/-- R470: a context command names a context of the window's range. -/
def State.ctxInRange (s : State) (w n : Nat) : Bool :=
  let b := s.get (f_TWN_CTX_CTX_BASE w)
  w ≠ admWin && decide (b ≤ n) && decide (n < b + s.get (f_TWN_CTX_COUNT_CTX_COUNT w))

/-- R258: the SPEC field of an open; without a source its other bytes are not used. -/
def Cmd.specOk (c : Cmd) : Bool :=
  let src := c.at 0x60 1
  let d := c.at 0x61 1
  let wd := c.at 0x62 1
  let n := c.at 0x63 1
  src == 0 || (decide (src ≤ 3) && decide (1 ≤ d) && decide (d ≤ 16) && decide (1 ≤ wd) && decide (wd ≤ 8) && decide (2 ≤ n) && decide (n ≤ 64))

/-- R470, R472: the body of a context command. -/
def State.checkCtx (s : State) (w : Nat) (c : Cmd) : Nat :=
  let word := c.at 0x10 4
  let n := word % 2 ^ 18
  if c.op = 0x10 then
    if decide (word ≥ 2 ^ 22) || decide (c.at 0x14 1 ≥ 32) || decide (c.at 0x15 1 > 2) || !c.zeros 0x16 0x18 || decide (c.at 0x1C 4 ≥ 2 ^ 18)
      || c.at 0x30 4 == 0 || !c.specOk || !c.zeros 0x64 0x80 then 4
    else if s.ctxInRange w n && s.grants w (bits word 21 18) then 0
    else 5
  else if decide (word ≥ 2 ^ 18) || (c.op == 0x11 && c.at 0x30 4 == 0) then 4
  else if s.ctxInRange w n then 0
  else 5

/-- R470: the check of a command of a tenant window or the admin ring. -/
def State.checkCmd (s : State) (w : Nat) (c : Cmd) : Nat :=
  let rsv := decide (c.flags ≥ 4) || !c.zeros 2 4 || (!s.winReplay w && !c.zeros 8 16)
  match c.op with
  | 0x00 | 0x02 | 0x31 => if c.op == 0x31 && w ≠ admWin then 3 else if rsv then 4 else 0
  | 0x01 => if rsv then 4 else s.checkJob w 0 c
  | 0x03 => if rsv || decide (c.at 0x14 1 > 7) then 4 else 0
  | 0x04 | 0x05 => if rsv || c.at 0x20 4 == 0 then 4 else 0
  | 0x10 | 0x11 | 0x12 | 0x13 | 0x14 | 0x15 | 0x16 => if rsv then 4 else s.checkCtx w c
  | 0x30 => if w ≠ admWin then 3 else if rsv || decide (c.at 0x10 1 ≥ 64) then 4 else 0
  | 0x32 => if w ≠ admWin then 3 else if rsv then 4 else s.checkJob w 4 c
  | _ => 3

/-- R409: the cells that a radio window serves. -/
def State.winCells (s : State) (w : Nat) : List Nat :=
  match s.img with
  | some g => ((g.wins.find? (fun x => x.win == w)).map (·.cells)).getD []
  | none => []

/-- R409: the check of an entry of a radio window. -/
def State.checkRadio (s : State) (w : Nat) (c : Cmd) : Nat :=
  let len := c.at 0x10 4
  let bad := !c.zeros 1 2 || decide (c.at 2 2 ≥ 2048) || !c.zeros 7 8 || c.at 8 8 % 64 ≠ 0 || !c.zeros 0x18 0x80
  if c.op = 0x40 then if bad || decide (c.at 4 2 > 1023) || !(s.winCells w).contains (c.at 2 2) then 2 else 0
  else if c.op = 0x41 then if bad || len % 4096 ≠ 0 || decide (len < 4096) || decide (len > 65536) then 2 else 0
  else 3

/-- R409: a radio completion entry. -/
def radioCplEntry (kind status cell sfn slot addr len tag : Nat) : List Byte :=
  leBytes 1 kind ++ leBytes 1 status ++ leBytes 2 cell ++ leBytes 2 sfn ++ leBytes 1 slot ++ leBytes 1 0 ++ leBytes 8 addr ++ leBytes 4 len
    ++ leBytes 4 tag ++ leBytes 8 0

/-- R409: a radio submission completes and leaves its window. -/
def State.radioCpl (s : State) (w : Nat) (c : Cmd) (status : Nat) : State :=
  let x := s.winOf w
  let s := s.setWin w { x with cmds := x.cmds.filter (fun d => d.pos ≠ c.pos) }
  s.post w (radioCplEntry (if c.op = 0x41 then 2 else 1) status (c.at 2 2) (c.at 4 2) (c.at 6 1) 0 0 c.tag)

/-! ARRIVAL records (R535, R536). -/

/-- R535: the prompt that an entry names: read from the chip's memory, or, in host memory, what the host answered. -/
def State.readPrompt (s : State) (w : Nat) (c : Cmd) (host : List (Option (List Byte))) :
    State × Option (List Byte) × List (Option (List Byte)) :=
  let a := s.cmdAddr w (c.at 0x28 8)
  let n := 4 * c.at 0x30 4
  if n = 0 then (s, some [], host)
  else
    match s.region a with
    | .hostA | .hostB =>
      match s.hostAddr a n with
      | some (port, pasid, h) => (s.hostR (s.winSlot w) port (pasid.getD 0) h n, (host.headD none).map (padTo n), host.drop 1)
      | none => (s.raise srcWin 0x16 a 0, none, host)
    | _ => let (s, bs, st) := s.load srcWin a n; (s, if st = .ok then some bs else none, host)

/-- R533, R535: the ARRIVAL record of an entry of an audited window; answers the host prompts not yet used. -/
def State.auditArrival (s : State) (w : Nat) (c : Cmd) (host : List (Option (List Byte))) : State × List (Option (List Byte)) :=
  let prompts := !s.winRadio w && (c.op == 0x10 || c.op == 0x11)
  let (s, text, host) : State × Option (List Byte) × List (Option (List Byte)) :=
    if prompts then s.readPrompt w c host else (s, some [], host)
  let s := if text.isNone then s.status f_AUD_STATUS_INPUT_ERR else s
  let digest := match text with | some t => sha384 (c.body ++ t) | none => List.replicate 48 0xFF
  let opens := !s.winRadio w && c.op == 0x10
  let ctx := if s.winRadio w then 0 else c.ctxWord
  (s.audit 5 (rplFlag (s.winReplay w)) c.arrival 112
    (leBytes 1 w ++ leBytes 1 c.op ++ leBytes 2 0 ++ leBytes 4 c.pos ++ leBytes 4 c.tag ++ leBytes 4 ctx
      ++ leBytes 8 (if opens then c.at 0x20 8 else 0) ++ leBytes 4 (if opens then c.at 0x1C 4 else 0)
      ++ leBytes 4 (if text.isNone then 1 else 0) ++ digest), host)

/-! Fetch (R467, R468, R538). -/

/-- R467: whether a window has the k-th fetch point of an exposure. CQ_CI is read as long as completions are written. -/
def State.fetchDue (s : State) (w k : Nat) : Bool :=
  let st := s.winSt w
  decide (1 ≤ st) && decide (st ≤ 4) && (k == 0 || (w ≠ admWin && (s.flag (f_TWN_CFG_FAST w) || s.winRadio w)))

/-- R467: entries per fetch; the admin ring has no field for it (Assumption 44). -/
def State.fetchMax (s : State) (w : Nat) : Nat := if w = admWin then 32 else s.get (f_TWN_CFG_FETCH_MAX w)

/-- The command that an entry holds, with its arrival tick (R468, R526). -/
def State.entryCmd (s : State) (w pos : Nat) (e : List Byte) : Cmd :=
  let b := padTo 128 e
  let at4 (o : Nat) : Nat := leNat ((b.drop o).take 4)
  let radio := s.winRadio w
  { op := leNat (b.take 1), flags := if radio then 1 else leNat ((b.drop 1).take 1), tag := at4 (if radio then 0x14 else 4), body := b
    arrival := if s.winReplay w && !radio then leNat ((b.drop 8).take 8) else s.tim.tick, pos := pos, ns := s.now }

/-- Take one entry: count it, record its arrival, check it, and queue it or complete it at once. -/
def State.takeEntry (s : State) (w : Nat) (e : List Byte) (host : List (Option (List Byte))) : State × List (Option (List Byte)) :=
  let x := s.winOf w
  let c := s.entryCmd w x.sqCi e
  let s := s.setWin w { x with sqCi := (x.sqCi + 1) % 2 ^ 32 }
  let s := if w = admWin then s else s.bump (f_TWN_FETCH_CNT_COUNT w)
  let (s, host) : State × List (Option (List Byte)) := if s.winAudited w then s.auditArrival w c host else (s, host)
  let rpl := s.winReplay w && !s.winRadio w
  let back := rpl && decide (c.arrival < x.logTick)
  let code := if back then 4 else if s.winRadio w then s.checkRadio w c else s.checkCmd w c
  let y := s.winOf w
  let s := if back then s else s.setWin w { y with logTick := if rpl then c.arrival else y.logTick }
  let y := s.winOf w
  if code = 0 then (s.setWin w { y with cmds := y.cmds ++ [c] }, host)
  else if s.winRadio w && code ≠ 3 then (s.radioCpl w c code, host)
  else (s.post w (cplEntry 3 code c.op (if s.winRadio w then 0 else c.ctxWord) 0 (c.arrival % 2 ^ 32) c.tag), host)

/-- Take entries in order; an audited window stops at the first that finds no audit room (R538). Answers whether all were taken. -/
def State.takeEntries (s : State) (w : Nat) : List (List Byte) → List (Option (List Byte)) → State × Bool
  | [], _ => (s, true)
  | e :: es, host =>
    if s.winAudited w && decide (s.aud.q.length ≥ 3840) then
      ((s.status f_AUD_STATUS_FETCH_HELD).bump (f_TWN_SKIP_CNT_COUNT w), false)
    else
      let r := s.takeEntry w e host
      r.1.takeEntries w es r.2

/-- R467, R468: the fetch of one window, with what its host's memory answered. -/
def State.fetchWin (s : State) (w : Nat) (r : WinRead) : State :=
  let port := s.winPort w
  let pasid := s.winPasid w
  if r.late then (if w = admWin then s else s.bump (f_TWN_SKIP_CNT_COUNT w))
  else
    let s := s.hostR (s.winSlot w) port pasid (s.winRcb w) 8
    if r.rcbErr then s.winError w 1
    else
      let s := (s.setWin w { s.winOf w with cqCi := r.cqCi % 2 ^ 32 }).flush w
      let n := (r.sqPi + 2 ^ 32 - (s.winOf w).sqCi) % 2 ^ 32
      if s.winSt w ≠ 1 then s
      else if n > s.sqSize w then s.winError w 2
      else
        let want := min n (s.fetchMax w)
        let es := r.entries.take want
        let s := (List.range want).foldl (fun s i =>
          s.hostR (s.winSlot w) port pasid (s.winSq w + 128 * (((s.winOf w).sqCi + i) % s.sqSize w)) 128) s
        let (s, all) := s.takeEntries w es r.prompts
        let s := s.hostW (s.winSlot w) port pasid (s.winRcb w + 8) (leBytes 4 (s.winOf w).sqCi)
        if r.err && all && decide (es.length < want) then s.winError w 1 else s

/-- R527: show the horizons of the replaying partitions. -/
def State.showHorizons (s : State) : State :=
  (List.range 16).foldl (fun s p =>
    if s.partReplay p then
      match s.horizon p with
      | some h => (s.put (f_AUD_RPL_HZN_LO_HZN_LO p) (h % 2 ^ 32)).put (f_AUD_RPL_HZN_HI_HZN_HI p) (h / 2 ^ 32)
      | none => s
    else s) s

/-- What host memory answers for a window that the operand does not name: nothing has changed there. -/
def State.sameRead (s : State) (w : Nat) : WinRead := { win := w, sqPi := (s.winOf w).sqCi, cqCi := (s.winOf w).cqCi }

/-- COMMAND_FETCH (R467): the k-th fetch point of the exposure, at k × period / 8 after the shutter: the windows that are due are read
in ascending order, and the records that waited for room in a completion ring go out (R248). -/
def State.fetchPoint (s : State) (k : Nat) (rs : List WinRead) : State :=
  let s := s.atNs (s.tim.tb + k * s.periodNs / 8)
  let s := (List.range 129).foldl (fun s w =>
    if s.fetchDue w k then s.fetchWin w ((rs.find? (fun r => r.win == w)).getD (s.sameRead w)) else s) s
  ((List.range 16).foldl (fun s p => s.drainRecords p) s).showHorizons

def execCommandFetch (k : Fin 8) (rs : List WinRead) (s : State) : Host.Outcome State Fault Refusal :=
  .next (whenLive s (fun s => s.fetchPoint k rs))

end Sys2Proof.Machine
end

