-- ==== Sys2Proof/Machine/Windows.lean ====
section
/-! DEFINITION. The states of the tenant windows, the PCIe links, and the manager role (R457, R460 to R463, R465, R479). -/
namespace Sys2Proof.Machine
open Sys2Proof

/-! Control writes (R465, R479). -/

/-- R465: whether the context range of a window overlaps that of another window that is not DISABLED. -/
def State.ctxOverlap (s : State) (w : Nat) : Bool :=
  let b := s.get (f_TWN_CTX_CTX_BASE w)
  let n := s.get (f_TWN_CTX_COUNT_CTX_COUNT w)
  (List.range 128).any (fun o =>
    let ob := s.get (f_TWN_CTX_CTX_BASE o)
    let on := s.get (f_TWN_CTX_COUNT_CTX_COUNT o)
    o ≠ w && s.winSt o ≠ 0 && n ≠ 0 && on ≠ 0 && decide (ob < b + n) && decide (b < ob + on))

/-- R465: whether a window's set-up is valid. -/
def State.setupOk (s : State) (w : Nat) : Bool :=
  let v := s.get (f_TWN_VEC_BASE w)
  s.winRcb w % 64 == 0 && s.winSq w % 4096 == 0 && s.winCq w % 4096 == 0 && !s.ctxOverlap w
  && (bitList 16 (s.get (f_TWN_PARTS_PARTS w))).all (fun p => s.hasPart p)
  && decide (2 ≤ v) && decide (v + s.get (f_TWN_VEC_COUNT w) - 1 ≤ 255)

/-- WINDOW_ENABLE (R465, R479): `rcb` is what host memory answers for SQ_CI, CQ_PI and CQ_CI, none a host read error. A
window that the image does not list ignores the write. -/
def State.winEnable (s : State) (w : Nat) (rcb : Option (Nat × Nat × Nat)) : State :=
  if s.winSt w ≠ 0 ∨ !s.flag (f_TWN_CFG_EXISTS w) then s
  else if !s.setupOk w then s.put (f_TWN_STATE_ERR w) 0x10
  else
    let s := (s.setWin w {}).enterWin w 1
    let s := (s.auditWindow w 1).hostR (s.winSlot w) (s.winPort w) (s.winPasid w) (s.winRcb w) 16
    match rcb with
    | some (sqCi, cqPi, cqCi) => s.setWin w { s.winOf w with sqCi := sqCi, cqPi := cqPi, cqCi := cqCi }
    | none => s.winError w 1

def execWindowEnable (w : Fin 128) (rcb : Option (BitVec 32 × BitVec 32 × BitVec 32)) (s : State) : Host.Outcome State Fault Refusal :=
  .next (whenLive s (fun s => s.winEnable w (rcb.map (fun x => (x.1.toNat, x.2.1.toNat, x.2.2.toNat)))))

/-- WINDOW_STOP_ADMIT (R479). -/
def execWindowStopAdmit (w : Fin 128) (s : State) : Host.Outcome State Fault Refusal :=
  .next (whenLive s (fun s => if s.winSt w = 1 then s.enterWin w 2 else s))

/-- WINDOW_DRAIN (R479). -/
def execWindowDrain (w : Fin 128) (s : State) : Host.Outcome State Fault Refusal :=
  .next (whenLive s (fun s => if s.winSt w = 2 then s.enterWin w 3 else s))

/-! Abort (R479). -/

/-- R479: whether a context is live. -/
def Ctx.liveSt (c : Ctx) : Bool := c.st == .queued || c.st == .prefill || c.st == .decode || c.st == .pausing

/-- The live contexts of a window, at their home. -/
def State.liveOf (s : State) (w : Nat) : List (Nat × Ctx) := s.srv.ctx.filter (fun e => e.2.win == w && s.isHome e.2 && e.2.liveSt)

/-- R479: close a window's live contexts: each close waits for the planning of its partition, as R233 has a CTX_CLOSE wait. -/
def State.closeLive (s : State) (w : Nat) : State :=
  (s.liveOf w).foldl (fun s e =>
    let k : SrvCmd := { win := w, pos := 2 ^ 32, home := s.chipId, op := 0x14, ctx := e.1, arrival := s.tim.tick, ns := s.now }
    s.modSp (if e.2.away then e.2.part else e.2.owner) (fun x => { x with cmds := x.cmds ++ [k] })) s

/-- R479: unstarted commands complete with ABORTED. A command in progress (a bulk copy) goes on. -/
def State.abortCmds (s : State) (w : Nat) : State :=
  let s := (List.range 16).foldl (fun s p => s.modSp p (fun x => { x with
    cmds := x.cmds.filter (fun k => !(k.win == w && k.home == s.chipId)) })) s
  (s.winOf w).cmds.foldl (fun s c =>
    if c.begun && (c.op == 4 || c.op == 5) then s
    else if s.winRadio w then s.radioCpl w c 9
    else s.complete w c 9 0) s

/-- R479: enter ABORTING: jobs stop, unstarted commands end, live contexts close. -/
def State.abortWin (s : State) (w : Nat) : State :=
  let s := s.enterWin w 4
  let s := (s.hst.jobs.filter (fun j => j.win == w)).foldl (fun s j => if j.st = .pending then s.cancelJob j 9 else s.stopThreads j) s
  let s := (s.abortCmds w).closeLive w
  { s with rad := { s.rad with buf := sdel s.rad.buf w } }

/-- WINDOW_ABORT (R479). -/
def State.winAbort (s : State) (w : Nat) : State :=
  let st := s.winSt w
  if st = 2 ∨ st = 3 ∨ st = 6 then s.abortWin w else s

def execWindowAbort (w : Fin 128) (s : State) : Host.Outcome State Fault Refusal := .next (whenLive s (fun s => s.winAbort w))

/-! Reset and removal (R479). -/

/-- R479: zero every set-up field of a window. -/
def State.zeroSetup (s : State) (w : Nat) : State :=
  let s := ((((s.put (f_TWN_CFG_FAST w) 0).put (f_TWN_CFG_FETCH_MAX w) 0).put (f_TWN_CFG_SQ_LOG2 w) 0).put (f_TWN_CFG_CQ_LOG2 w) 0)
  let s := (((s.put (f_TWN_PASID_PASID w) 0).setReg64 (r_TWN_RCB_LO w) 0).setReg64 (r_TWN_SQ_LO w) 0).setReg64 (r_TWN_CQ_LO w) 0
  let s := (((s.put (f_TWN_VEC_BASE w) 0).put (f_TWN_VEC_COUNT w) 0).put (f_TWN_COAL_COUNT w) 0).put (f_TWN_COAL_US w) 0
  let s := ((s.put (f_TWN_CTX_CTX_BASE w) 0).put (f_TWN_CTX_COUNT_CTX_COUNT w) 0).put (f_TWN_PARTS_PARTS w) 0
  ((s.setReg64 (r_TWN_APT_BASE_LO w) 0).put (f_TWN_APT_LIMIT_GIB w) 0).put (f_TWN_QTMO_TMO w) 0

/-- R479: a window becomes DISABLED: ERR, FORCED and the counters are zeroed. -/
def State.clearWin (s : State) (w : Nat) : State :=
  let s := ((s.put (f_TWN_STATE_STATE w) 0).put (f_TWN_STATE_ERR w) 0).put (f_TWN_STATE_FORCED w) 0
  let s := ((s.put (f_TWN_FETCH_CNT_COUNT w) 0).put (f_TWN_CPL_DROP_COUNT w) 0).put (f_TWN_SKIP_CNT_COUNT w) 0
  s.setWin w {}

/-- WINDOW_RESET (R479). -/
def State.winReset (s : State) (w : Nat) : State :=
  if s.winSt w = 5 then (s.clearWin w).auditWindow w 2 else s.status f_HST_STATUS_RESET_REFUSED

def execWindowReset (w : Fin 128) (s : State) : Host.Outcome State Fault Refusal := .next (whenLive s (fun s => s.winReset w))

/-- WINDOW_REMOVE (R479). -/
def State.winRemove (s : State) (w : Nat) : State :=
  let st := s.winSt w
  if st = 5 then ((s.clearWin w).zeroSetup w).auditWindow w 3
  else if st = 0 then (s.zeroSetup w).auditWindow w 3
  else s.status f_HST_STATUS_RESET_REFUSED

def execWindowRemove (w : Fin 128) (s : State) : Host.Outcome State Fault Refusal := .next (whenLive s (fun s => s.winRemove w))

/-! Quiescence (R479). -/

/-- Whether a step record waits for a window of this chip. -/
def State.recWaits (s : State) (w : Nat) : Bool :=
  s.sp.any (fun e => (e.2.recs ++ e.2.stream).any (fun r => r.win == w && r.home == s.chipId))

/-- R479: no job, no live context, no unwritten completion or record; a command that is not complete has its completion to come. -/
def State.winIdle (s : State) (w : Nat) : Bool :=
  let x := s.winOf w
  s.hst.jobs.all (fun j => j.win ≠ w) && (s.liveOf w).isEmpty && x.cmds.isEmpty && x.cpl.isEmpty && !s.recWaits w

/-- R479: a window becomes QUIESCED; after a Function Level Reset it is reset at once (R461). -/
def State.quiesced (s : State) (w : Nat) : State :=
  let s := (s.enterWin w 5).fireEvent w
  if (s.winOf w).flr then (s.clearWin w).auditWindow w 2 else s

/-- WINDOW_QUIESCE (R479). -/
def State.winQuiesce (s : State) (w : Nat) : State :=
  let st := s.winSt w
  if (st = 3 ∨ st = 4) ∧ s.winIdle w then s.quiesced w else s

def execWindowQuiesce (w : Fin 128) (s : State) : Host.Outcome State Fault Refusal := .next (whenLive s (fun s => s.winQuiesce w))

/-- WINDOW_DRAIN_TIMEOUT (R479). -/
def State.drainTimeout (s : State) (w : Nat) : State :=
  if s.winSt w = 3 ∧ s.tim.expo - (s.winOf w).stAt ≥ s.get (f_TWN_QTMO_TMO w) then (s.status f_HST_STATUS_QUIESCE_TMO).abortWin w else s

def execWindowDrainTimeout (w : Fin 128) (s : State) : Host.Outcome State Fault Refusal := .next (whenLive s (fun s => s.drainTimeout w))

/-- R479: the remaining records and completions of a window are discarded and counted. -/
def State.dropRecs (s : State) (w : Nat) : State :=
  let mine (r : Rec) : Bool := r.win == w && r.home == s.chipId
  let n := (s.sp.map (fun e => (((e.2.recs ++ e.2.stream).filter mine).map (fun r => (recEntries r.bytes).length)).sum)).sum
  let s : State := { s with sp := s.sp.map (fun e => (e.1, { e.2 with recs := e.2.recs.filter (fun r => !mine r), stream := e.2.stream.filter (fun r => !mine r) })) }
  let s := (s.sp.map (·.1)).foldl (fun s p => s.put (f_SRV_PART_STREAM_DEPTH p) (s.spOf p).depth) s
  s.bumpBy (f_TWN_CPL_DROP_COUNT w) (n + (s.winOf w).cpl.length)

/-- R479: an abort is given up: what remains is discarded, remaining contexts end as R292 ends them, and the window is QUIESCED. -/
def State.forceWin (s : State) (w : Nat) : State :=
  let s := s.dropRecs w
  let s := s.setWin w { s.winOf w with cpl := [], cmds := [], fullAt := none }
  let s : State := { s with sp := s.sp.map (fun e => (e.1, { e.2 with cmds := e.2.cmds.filter (fun k => !(k.win == w && k.home == s.chipId)) })) }
  let s := (s.liveOf w).foldl (fun s e => s.endLost e.1) s
  let s := ((s.put (f_TWN_STATE_FORCED w) 1).status f_HST_STATUS_QUIESCE_TMO).raise srcWin 0x59 0 0
  (s.auditWindow w 5).quiesced w

/-- R461: a Function Level Reset allows an abort 100 ms. -/
def State.flrDone (s : State) (w : Nat) : Bool :=
  (s.winOf w).flr && decide ((s.tim.expo - (s.winOf w).stAt) * s.periodNs ≥ 100000000)

/-- WINDOW_ABORT_TIMEOUT (R479). -/
def State.abortTimeout (s : State) (w : Nat) : State :=
  if s.winSt w = 4 ∧ (s.tim.expo - (s.winOf w).stAt ≥ s.get (f_TWN_QTMO_TMO w) ∨ s.flrDone w) then s.forceWin w else s

def execWindowAbortTimeout (w : Fin 128) (s : State) : Host.Outcome State Fault Refusal := .next (whenLive s (fun s => s.abortTimeout w))

/-! Links (R457, R460, R461). -/

/-- The windows of a link's function. -/
def State.linkWins (s : State) (l : Nat) : List Nat := (List.range 128).filter (fun w => s.winLink w == l)

/-- R9: the high-word latch of a link's function is empty again. -/
def State.dropLatch (s : State) (l : Nat) : State := { s with latch := sdel s.latch l }

/-- FUNCTION_LEVEL_RESET (R461): every window of the link that is not DISABLED is aborted, and reset once it is QUIESCED. -/
def State.flrLink (s : State) (l : Nat) : State :=
  (s.linkWins l).foldl (fun s w =>
    let st := s.winSt w
    if st = 0 then s
    else if st = 5 then (s.clearWin w).auditWindow w 2
    else
      let s := if st = 4 then s else s.abortWin w
      s.setWin w { s.winOf w with flr := true }) (s.dropLatch l)

def execFunctionLevelReset (l : Fin 4) (s : State) : Host.Outcome State Fault Refusal := .next (whenLive (s.dropLatch l) (fun s => s.flrLink l))

/-- PCIE_LINK_DOWN (R461): a hot reset, link-down or surprise-down: every enabled window of the link enters ERROR with LINK. -/
def State.linkDown (s : State) (l : Nat) : State :=
  let s := s.dropLatch l
  let s := { s with hst := { s.hst with linkUp := sset false s.hst.linkUp l false, linkRate := sdel s.hst.linkRate l } }
  whenLive s (fun s => (s.linkWins l).foldl (fun s w => s.winError w 4) s)

def execPcieLinkDown (l : Fin 4) (s : State) : Host.Outcome State Fault Refusal := .next (s.linkDown l)

/-- PCIE_LINK_UP (R457): a link has trained; the rate is 2.5, 5, 8, 16, 32 or 64 GT/s as 0 to 5, the width x1 to x16 as 0 to 4.
Sub-link 1 exists on a bifurcated port only, where a link is at most x8. -/
def State.linkUp (s : State) (l rate width : Nat) : State :=
  let x8 := s.flag (if l / 2 = 0 then f_HST_ROLE_PA_X8 else f_HST_ROLE_PB_X8)
  if s.hst.perst.contains (l / 2) ∨ (!x8 ∧ l % 2 = 1) ∨ (x8 ∧ width = 4) then s
  else { s with hst := { s.hst with linkUp := sset false s.hst.linkUp l true, linkRate := sset 0 s.hst.linkRate l (1 + rate * 8 + width) } }

def execPcieLinkUp (l : Fin 4) (rate : Fin 6) (width : Fin 5) (s : State) : Host.Outcome State Fault Refusal := .next (s.linkUp l rate width)

/-- PERST_RELEASE (R457): PERST_L of a port is released and its bifurcation strap is sampled; `x8` is the strap at low. -/
def State.perstRelease (s : State) (port : Nat) (x8 : Bool) : State :=
  let s := s.putB (if port = 0 then f_HST_ROLE_PA_X8 else f_HST_ROLE_PB_X8) x8
  { s with
    hst := { s.hst with perst := s.hst.perst.filter (· ≠ port) }
    pins := { s.pins with x8 := (s.pins.x8.filter (· ≠ port)) ++ (if x8 then [port] else []) } }

def execPerstRelease (port : Fin 2) (x8 : Bool) (s : State) : Host.Outcome State Fault Refusal := .next (s.perstRelease port x8)

/-- HOST_READ_ERROR (R460, R468, R479): a read of a window's control block or submission ring fails. -/
def State.hostReadErr (s : State) (w : Nat) : State :=
  let st := s.winSt w
  if st = 1 ∨ st = 2 then s.winError w 1 else s

def execHostReadError (w : Fin 128) (s : State) : Host.Outcome State Fault Refusal := .next (whenLive s (fun s => s.hostReadErr w))

/-! The manager (R462, R463). -/

/-- MGR_HEARTBEAT (R463): a write of HST_MGR_HB through a port; the peer's is ignored (R462). -/
def State.heartbeat (s : State) (via : Nat) : State :=
  if via = s.get f_HST_ROLE_MGR_PORT then { s with hst := { s.hst with hbAt := s.now, lapsed := false } } else s

def execMgrHeartbeat (via : Fin 2) (s : State) : Host.Outcome State Fault Refusal := .next (whenLive s (fun s => s.heartbeat via))

/-- HB_LAPSE (R463): no heartbeat for HB_TMO_MS. -/
def State.hbLapse (s : State) : State :=
  if s.valid ∧ !s.hst.lapsed ∧ s.reached s.hst.hbAt (s.get f_HST_MGR_CFG_HB_TMO_MS * 1000000) then
    let s := { s with hst := { s.hst with lapsed := true } }
    ((s.status f_HST_STATUS_HB_LAPSE).raise srcMgmt 0x58 0 0).auditManager 1
  else s

def execHbLapse (s : State) : Host.Outcome State Fault Refusal := .next (whenLive s State.hbLapse)

/-- MGR_CLAIM (R463): a write of 1 to HST_MGR_CLAIM through the peer after a lapse: it waits for the next shutter. -/
def State.mgrClaim (s : State) (via : Nat) : State :=
  if via ≠ s.get f_HST_ROLE_MGR_PORT ∧ s.hst.lapsed then { s with hst := { s.hst with claim := true } } else s

def execMgrClaim (via : Fin 2) (s : State) : Host.Outcome State Fault Refusal := .next (whenLive s (fun s => s.mgrClaim via))

/-- R463: at a shutter a claim swaps the roles of the two ports. -/
def State.failover (s : State) : State :=
  if s.hst.claim then
    let s := (s.put f_HST_ROLE_MGR_PORT (1 - s.get f_HST_ROLE_MGR_PORT)).status f_HST_STATUS_FAILOVER
    ({ s with hst := { s.hst with claim := false, lapsed := false, hbAt := s.now } } : State).auditManager 2
  else s

end Sys2Proof.Machine
end

