-- ==== Sys2Proof/Machine/FhSend.lean ====
section
/-! DEFINITION. What a cell sends on fronthaul: U-plane compression, C-plane and U-plane messages, the empty-slot indication (R422 to
R426). Where the messages of the O-RAN specification decide a frame's length, it is PRESUMED 68. -/
namespace Sys2Proof.Machine
open Sys2Proof

/-- R390: a cell of the CELLS section. -/
def State.cellCfg (s : State) (c : Nat) : Option CellCfg := s.img.bind (fun g => g.cells.find? (fun x => x.cell == c))

/-- R422, R426: the cell that an eAxC belongs to; for a SUN-FSK lane the identifier is its cell index. -/
def State.eaxcCell (s : State) (id : Nat) : Option Nat :=
  match (s.imgList (·.eaxcs)).find? (fun x => x.id == id) with
  | some x => some x.cell
  | none => (s.cellCfg id).bind (fun g => if g.rat = 2 then some id else none)

/-- R426: whether an identifier is a SUN-FSK lane's. -/
def State.isLane (s : State) (id : Nat) : Bool := ((s.eaxcCell id).bind s.cellCfg).any (fun g => g.rat == 2)

/-- R423: a received sample, and whether it saturated. -/
def decompress (e : Nat) (m : Int) : Int × Bool :=
  let v := m * 2 ^ e
  (max (-32768) (min 32767 v), decide (v < -32768) || decide (v > 32767))

/-- R113, R423: a sample divided by 2^e and rounded. -/
def mantissa (e : Nat) (v : Int) : Int := rneInt v e

/-- R423: the exponent that a PRB is sent with: the smallest from 0 to 15 for which every mantissa fits in iqWidth bits. -/
def blockExp (iqWidth : Nat) (l : List Int) : Option Nat :=
  (List.range 16).find? (fun e => l.all (fun v => decide (-2 ^ (iqWidth - 1) ≤ mantissa e v) && decide (mantissa e v < 2 ^ (iqWidth - 1))))

/-- R423: a PRB's samples as they are sent with block floating point. -/
def UPrb.compress (iqWidth : Nat) (l : List Int) : Option UPrb := (blockExp iqWidth l).map (fun e => { exp := e, mant := l.map (mantissa e) })

/-- R372, R423: the C16 bytes of a PRB's samples, and how many saturated. -/
def UPrb.bytes (p : UPrb) : List Byte × Nat :=
  let l := p.mant.map (decompress p.exp)
  (l.flatMap (fun x => leBytes 2 ((x.1 + 65536) % 65536).toNat), (l.filter (·.2)).length)

/-- R372: the samples of C16 bytes, I and Q in turn. -/
def c16Of (bs : List Byte) (n : Nat) : List Int := (List.range n).map (fun i => toSigned 16 (leNat ((bs.drop (2 * i)).take 2)))

/-- R442: the length of an eCPRI frame with n bytes after the eCPRI header: Ethernet header, tag, eCPRI header and FCS, 64 at least. -/
def fhLen (vlan : Option Nat) (n : Nat) : Nat := max 64 (26 + n + (if vlan.isSome then 4 else 0))

/-- Bytes of a U-plane message of n PRBs: the application and section headers, and per PRB its exponent byte and samples. -/
def uplaneLen (lane bfp : Bool) (w n : Nat) : Nat := if lane then 48 * n else 8 + (if bfp then 1 + 3 * w else 48) * n

/-- R440: a message for an eAxC enters the queue of its plane, C-plane 1 and U-plane 2, with its next sequence number. -/
def State.fhOut (s : State) (x : EaxcCfg) (m : EcpriMsg) (n notBefore : Nat) : State :=
  let q := sget 0 s.fh.tx x.id
  let s : State := { s with fh := { s.fh with tx := sset 0 s.fh.tx x.id ((q + 1) % 256) } }
  let len := fhLen x.vlan n
  let f : EthFrame := { dst := x.mac, vlan := x.vlan, tags := if x.vlan.isSome then 1 else 0, len := len, load := .ecpri { m with eaxc := x.id, seq := q } }
  s.toEgress x.sub (if m.typ = 2 then 1 else 2) { load := .frame f, len := len, notBefore := notBefore }

/-- R395, R423, R424, R426: the block builds a downlink message and hands it to its queue, where it enters when its window opens. -/
def State.fhSend (s : State) (m : FhMsg) : State :=
  match (s.imgList (·.eaxcs)).find? (fun x => x.id == m.eaxc) with
  | none => s
  | some x =>
    match m.sec with
    | some k =>
      let s := s.fhOut x { typ := 2, air := m.air, sec := k, cover := m.prbs } (24 + m.ext) (m.air - x.t1aC)
      { s with fh := { s.fh with secs := s.fh.secs ++ [(m.eaxc, m.air, m.prbs)] } }
    | none =>
      let lane := s.isLane m.eaxc
      let (s, bs, _) := s.load (srcFh (x.sub / 4)) m.addr (48 * m.prbs)
      let v := c16Of bs (24 * m.prbs)
      let prb (i : Nat) : UPrb :=
        let l := (v.drop (24 * i)).take 24
        if x.bfp && !lane then (UPrb.compress x.iqWidth l).getD {} else { mant := l }
      let e : EcpriMsg := { typ := 0, air := m.air, prbs := (List.range m.prbs).map prb, iqWidth := if lane then 16 else x.iqWidth, bfp := x.bfp && !lane }
      let s := s.fhOut x e (uplaneLen lane e.bfp e.iqWidth m.prbs) (m.air - x.t1aU)
      { s with fh := { s.fh with secs := s.fh.secs.filter (fun y => !(y.1 == m.eaxc && y.2.1 == m.air)) } }

/-- R425: the empty-slot indication of a cell; a SUN-FSK lane has none (R426). For sections that are announced, U-plane of zeros; else one
C-plane message of section type 0 for each eAxC, whose slot begins at air time `air`. -/
def State.emptySlot (s : State) (c : Nat) (uplane : Bool) (air : Nat) : State :=
  if (s.cellCfg c).any (fun g => g.rat == 2) then s
  else
    let l := (s.imgList (·.eaxcs)).filter (fun x => x.cell == c)
    let s := l.foldl (fun s x =>
      if uplane then
        (s.fh.secs.filter (fun y => y.1 == x.id)).foldl (fun s y =>
          s.fhOut x { typ := 0, air := y.2.1, prbs := List.replicate y.2.2 { mant := List.replicate 24 0 }, iqWidth := 6, bfp := true }
            (uplaneLen false true 6 y.2.2) (y.2.1 - x.t1aU)) s
      else s.fhOut x { typ := 2, air := air, sec := 0 } 24 (air - x.t1aC)) s
    let s : State := { s with fh := { s.fh with secs := s.fh.secs.filter (fun y => !(uplane && l.any (fun x => x.id == y.1))) } }
    (s.bump f_FH_EMPTY_CNT_COUNT).status f_FH_STATUS_EMPTY_SLOT

end Sys2Proof.Machine
end

