-- ==== Sys2Proof/Machine/Radio.lean ====
section
/-! DEFINITION. Radio cells: frames and slots, FAPI requests and indications, cell migration (R390 to R392, R408 to R415). -/
namespace Sys2Proof.Machine
open Sys2Proof

def State.cellOf (s : State) (c : Nat) : Cell := sget {} s.rad.cell c
def State.setCell (s : State) (c : Nat) (x : Cell) : State := { s with rad := { s.rad with cell := sset {} s.rad.cell c x } }
/-- R409: the radio window that serves a cell. -/
def State.cellWin (s : State) (c : Nat) : Option Nat := s.img.bind (fun g => (g.wins.find? (fun x => x.radio && x.cells.contains c)).map (·.win))

/-! Frames and slots (R391). -/

/-- R391: exposures in 10 ms. -/
def State.frameExpo (s : State) : Nat := 10000000 / s.periodNs
/-- R391: exposures since the start of the cycle of 1,024 frames that a tick lies in. -/
def State.cellPhase (s : State) (g : CellCfg) (tick : Nat) : Nat :=
  let f := s.frameExpo
  (tick + 1024 * f - g.offset % f) % (1024 * f)
def State.cellSfn (s : State) (g : CellCfg) (tick : Nat) : Nat := s.cellPhase g tick / s.frameExpo
def State.cellSlot (s : State) (g : CellCfg) (tick : Nat) : Nat := s.cellPhase g tick % s.frameExpo / max 1 g.slotExpo
/-- R391: whether a frame, or a slot, of a cell begins at the shutter of a tick. -/
def State.frameAt (s : State) (g : CellCfg) (tick : Nat) : Bool := s.cellPhase g tick % s.frameExpo == 0
def State.slotAt (s : State) (g : CellCfg) (tick : Nat) : Bool := s.cellPhase g tick % s.frameExpo % max 1 g.slotExpo == 0

/-- The tick of the first exposure of a slot that a request names by SFN and slot: the one nearest to now; a slot more than
half a cycle of 1,024 frames ahead is one that has passed. -/
def State.slotTick (s : State) (g : CellCfg) (sfn sl : Nat) : Int :=
  let f := s.frameExpo
  let want := sfn * f + sl * max 1 g.slotExpo
  let d := (want + 1024 * f - s.cellPhase g s.tim.tick) % (1024 * f)
  if d < 512 * f then (s.tim.tick : Int) + d else (s.tim.tick : Int) + d - (1024 * f : Nat)

/-! Indications (R410). -/

/-- R410: how many of the PDUs, given their lengths, lie in a room. -/
def pdusIn (room : Nat) : List Nat → Nat
  | [] => 0
  | n :: l => if n ≤ room then 1 + pdusIn (room - n) l else 0

/-- R410: write the PDUs of an indication from i on into the oldest posted buffers, as many as fit in each and one at least; with no
buffer posted what is left is dropped. `head` and `sizes` are the lengths of a message's head and of the PDUs. -/
def State.indicateFrom (s : State) (w c : Nat) (ind : FapiInd) (head : Nat) (sizes : List Nat) (i : Nat) : Nat → State
  | 0 => s
  | fuel + 1 =>
    if ind.parts ≤ i then s
    else
      match sget [] s.rad.buf w with
      | [] => (s.bump f_RAD_NOBUF_CNT_COUNT).status f_RAD_STATUS_IND_NOBUF
      | (addr, size, tag) :: rest =>
        let l := sizes.drop i
        let k := max 1 (pdusIn (size - head) l)
        let len := min size (head + (l.take k).sum)
        let s := ({ s with rad := { s.rad with buf := sset [] s.rad.buf w rest } } : State).emit (.fapi w c (ind.slice i k) addr len)
        (s.post w (radioCplEntry 2 0 c 0 0 addr len tag)).indicateFrom w c ind head sizes (i + k) fuel

/-- R410: an indication goes to the window of its cell. The lengths of its parts are those of a FAPI encoding, which the spec does not
give: free values. -/
def State.indicate (s : State) (c : Nat) (ind : FapiInd) : State :=
  match s.cellWin c with
  | none => s
  | some w =>
    let n := ind.parts
    let sizes := (List.range n).map (fun i => (Config.freeWord (s.free + 1 + i)).toNat)
    ({ s with free := s.free + 1 + n } : State).indicateFrom w c ind (Config.freeWord s.free).toNat sizes 0 n

/-- R392, R408, R411: an ERROR.indication. -/
def State.fapiErr (s : State) (c : Nat) (e : FapiErr) (sfn sl : Nat) : State := s.indicate c (.error e sfn sl)

/-- IND_BUF (R410): a radio window posts a buffer. -/
def State.indBuf (s : State) (w : Nat) : State :=
  s.onCmd w 0x41 (fun s c =>
    let x := s.winOf w
    let s := s.setWin w { x with cmds := x.cmds.filter (fun d => d.pos ≠ c.pos) }
    { s with rad := { s.rad with buf := sset [] s.rad.buf w (sget [] s.rad.buf w ++ [(c.at 8 8, c.at 0x10 4, c.tag)]) } })

def execIndBuf (w : Fin 128) (s : State) : Host.Outcome State Fault Refusal := .next (whenLive s (fun s => s.indBuf w))

/-! Requests (R392, R408, R411, R415). -/

/-- R409: read the oldest message of a radio window from host memory. -/
def State.onFapi (s : State) (w : Nat) (f : State → Cmd → State) : State :=
  s.onCmd w 0x40 (fun s c =>
    let a := s.cmdAddr w (c.at 8 8)
    match s.hostAddr a (c.at 0x10 4) with
    | some (port, pasid, h) => f (s.hostR (s.winSlot w) port (pasid.getD 0) h (c.at 0x10 4)) c
    | none => (s.raise srcWin 0x16 a 0).radioCpl w c 1)

/-- R408: a message that is unknown, unsupported or malformed. -/
def State.fapiBad (s : State) (w : Nat) (c : Cmd) : State :=
  ((s.status f_RAD_STATUS_BAD_REQ).fapiErr (c.at 2 2) .msgInvalidConfig (c.at 4 2) (c.at 6 1)).radioCpl w c 2

/-- FAPI_UNSUPPORTED (R408). -/
def execFapiUnsupported (w : Fin 128) (err : Bool) (s : State) : Host.Outcome State Fault Refusal :=
  .next (whenLive s (fun s => s.onFapi w (fun s c => if err then s.radioCpl w c 1 else s.fapiBad w c)))

/-- FAPI_START (R392): a STOPPED cell runs from the next frame boundary when the time state is LOCKED. -/
def State.fapiStart (s : State) (w : Nat) (err : Bool) : State :=
  s.onFapi w (fun s c =>
    let n := c.at 2 2
    let x := s.cellOf n
    if err then s.radioCpl w c 1
    else if x.st = .stopped ∧ s.get f_CLK_TIME_STATE_STATE = 2 then (s.setCell n { x with next := some .running }).radioCpl w c 0
    else (s.fapiErr n .msgInvalidState (c.at 4 2) (c.at 6 1)).radioCpl w c 0)

def execFapiStart (w : Fin 128) (err : Bool) (s : State) : Host.Outcome State Fault Refusal := .next (whenLive s (fun s => s.fapiStart w err))

/-- FAPI_STOP (R392): a RUNNING cell stops at the next frame boundary. -/
def State.fapiStop (s : State) (w : Nat) (err : Bool) : State :=
  s.onFapi w (fun s c =>
    let n := c.at 2 2
    let x := s.cellOf n
    if err then s.radioCpl w c 1
    else if x.st = .running then (s.setCell n { x with next := some .stopped }).radioCpl w c 0
    else (s.fapiErr n .msgInvalidState (c.at 4 2) (c.at 6 1)).radioCpl w c 0)

def execFapiStop (w : Fin 128) (err : Bool) (s : State) : Host.Outcome State Fault Refusal := .next (whenLive s (fun s => s.fapiStop w err))

/-- R392, R415: whether a cell runs in a slot that begins at a tick. -/
def State.cellRuns (s : State) (g : CellCfg) (x : Cell) (t0 : Nat) : Bool :=
  let f := s.frameExpo
  let boundary := s.tim.tick + (f - s.cellPhase g s.tim.tick % f)
  match x.st with
  | .running => !(x.next == some .stopped && decide (boundary ≤ t0))
  | .stopped => x.next == some .running && decide (boundary ≤ t0)
  | .migOut => decide (t0 < x.migB)
  | .migIn => decide (x.migB ≤ t0)
  | .absent => false

/-- R411: record a request of a slot. -/
def Cell.addReq (x : Cell) (t0 : Nat) (f : SlotReq → SlotReq) : Cell :=
  if x.reqs.any (fun r => r.t0 == t0) then { x with reqs := x.reqs.map (fun r => if r.t0 = t0 then f r else r) }
  else { x with reqs := x.reqs ++ [f { t0 := t0 }] }

/-- R408, R411: a request for a slot: malformed, late, for a cell that does not run then, or recorded. -/
def State.slotReq (s : State) (w : Nat) (m : FapiMsg) (f : SlotReq → SlotReq) : State :=
  s.onFapi w (fun s c =>
    let n := c.at 2 2
    let sfn := c.at 4 2
    let sl := c.at 6 1
    if m.err then s.radioCpl w c 1
    else
      match s.cellCfg n with
      | none => s.fapiBad w c
      | some g =>
        let t0 := s.slotTick g sfn sl
        let lead := s.get f_RAD_CFG_REQ_LEAD
        if m.bad ∨ s.frameExpo ≤ sl * max 1 g.slotExpo then s.fapiBad w c
        else if (c.arrival : Int) + lead ≥ t0 then
          (((s.bump f_RAD_LATE_CNT_COUNT).status f_RAD_STATUS_LATE_REQ).fapiErr n .msgSlotErr sfn sl).radioCpl w c 0
        else if !s.cellRuns g (s.cellOf n) t0.toNat then (s.fapiErr n .msgInvalidState sfn sl).radioCpl w c 0
        else (s.setCell n ((s.cellOf n).addReq t0.toNat f)).radioCpl w c 0)

/-- DL_TTI_REQUEST (R408, R411). -/
def execDlTtiRequest (w : Fin 128) (m : FapiMsg) (s : State) : Host.Outcome State Fault Refusal :=
  .next (whenLive s (fun s => s.slotReq w m (fun r => { r with dl := true, data := r.data || m.pdus.any (fun p => p.kind == .dlData || p.kind == .sunTx) })))

/-- UL_TTI_REQUEST (R408, R411). -/
def execUlTtiRequest (w : Fin 128) (m : FapiMsg) (s : State) : Host.Outcome State Fault Refusal :=
  .next (whenLive s (fun s => s.slotReq w m (fun r => { r with ul := true, pdus := r.pdus ++ m.pdus })))

/-- UL_DCI_REQUEST (R408, R411). -/
def execUlDciRequest (w : Fin 128) (m : FapiMsg) (s : State) : Host.Outcome State Fault Refusal :=
  .next (whenLive s (fun s => s.slotReq w m (fun r => { r with dci := true })))

/-- TX_DATA_REQUEST (R408, R411). -/
def execTxDataRequest (w : Fin 128) (m : FapiMsg) (s : State) : Host.Outcome State Fault Refusal :=
  .next (whenLive s (fun s => s.slotReq w m (fun r => { r with tx := true })))

/-! Shutters (R392, R395, R410, R411, R413, R425). -/

/-- R411: whether the requests of a downlink slot are complete. -/
def SlotReq.dlReady (r : SlotReq) : Bool := r.dl && (r.tx || !r.data)

/-- R410, R415: whether a cell's slot at tick t has a SLOT.indication here: a running cell, and one that migrates until its switch, which
the indication of the boundary names. DEDUCED 70. -/
def Cell.slotInd (x : Cell) (t : Nat) : Bool := match x.st with
  | .running => true
  | .migOut => !x.copied || decide (t ≤ x.migB)
  | .migIn => x.copied && decide (x.migB ≤ t)
  | _ => false

/-- R392, R410, R411: the shutter of a tick for one cell: state changes at a frame boundary, SLOT.indication at a slot
boundary, and the deadline of the slot REQ_LEAD exposures ahead. -/
def State.cellShutter (s : State) (g : CellCfg) : State :=
  let n := g.cell
  let t := s.tim.tick
  let x := s.cellOf n
  let x := match s.frameAt g t, x.next with
    | true, some st => { x with st := st, next := none }
    | _, _ => x
  let s := s.setCell n { x with reqs := x.reqs.filter (fun r => decide (t ≤ r.t0) || r.ul) }
  let mig : Option (Nat × Nat) := if x.st = .migOut ∧ x.migB = t ∧ x.copied then some (x.peer, s.cellSfn g t) else none
  let s := if s.flag f_RAD_CFG_SLOT_IND && x.slotInd t && s.slotAt g t then
      s.indicate n (.slot (s.cellSfn g t) (s.cellSlot g t) mig)
    else s
  let t0 := t + s.get f_RAD_CFG_REQ_LEAD
  if s.slotAt g t0 && s.cellRuns g x t0 && g.dlSlots.contains (s.cellSlot g t0) then
    match x.reqs.find? (fun r => r.t0 == t0) with
    | some r => if r.dlReady then s else s.emptySlot n false (t0 * s.periodNs)
    | none => s.emptySlot n false (t0 * s.periodNs)
  else s

/-- Whether k × log10(num / den) lies above m − 1/2. -/
def logAbove (k num den : Nat) (m : Int) : Bool :=
  let e := 2 * m - 1
  decide (den ^ (2 * k) * 10 ^ e.toNat < num ^ (2 * k) * 10 ^ (-e).toNat)

/-- R113: k × log10(num / den) rounded to an integer and held between lo and lo + n; no ratio of integers lies midway. -/
def logRound (k num den : Nat) (lo : Int) (n : Nat) : Int :=
  lo + ((List.range n).filter (fun i => logAbove k num den (lo + 1 + i))).length

/-- R407: LQ from the mean squared discriminator output and its variance about the decided levels, as two numbers in one unit. -/
def linkQuality (sq var : Nat) : Nat := (logRound 80 sq var (-40) 255 + 40).toNat

/-- R406: SINR from the summed channel power and K × σ², as two numbers in one unit. -/
def sinrOf (pow noise : Nat) : Int := logRound 5000 pow noise (-32767) 65534

/-- R406: EVM from the summed squared error and the summed squared constellation points; without a data RE it is invalid
(DESIGN CHOICE 89). -/
def evmOf (err ref : Nat) : Nat :=
  if ref = 0 then 65535
  else
    let r := isqrt (10 ^ 8 * err / ref)
    let up := (2 * r + 1) ^ 2 * ref
    min 65534 (if up < 4 * 10 ^ 8 * err ∨ (up = 4 * 10 ^ 8 * err ∧ r % 2 = 1) then r + 1 else r)

/-- R406, R412: the figures of a UE's report. What the engine measured is a free value; a lost result has none (R413). -/
def State.ueQual (s : State) (lost miss : Bool) (h : Nat) : State × UeQual :=
  if lost then (s, { handle := h, noHarq := miss })
  else
    let (s, a) := s.freeW
    let (s, b) := s.freeW
    let (s, c) := s.freeW
    let (s, d) := s.freeW
    (s, { handle := h, sinr := sinrOf a b, evm := evmOf c d, noHarq := miss })

/-- R407, R412: the figures of a received SUN-FSK frame. What the receiver measured is a free value. -/
def State.sunQual (s : State) (h : Nat) : State × SunQual :=
  let (s, a) := s.freeW
  let (s, b) := s.freeW
  let (s, r) := s.freeW
  (s, { handle := h, lq := linkQuality a b, rssi := toSigned 16 r })

/-- A list of reports, each made in turn. -/
def State.gather {α : Type} (s : State) (f : State → Nat → State × α) (l : List Nat) : State × List α :=
  l.foldl (fun (a : State × List α) h => ((f a.1 h).1, a.2 ++ [(f a.1 h).2])) (s, [])

/-- R395, R413: the reports of an uplink slot: its results, or all of it lost. A lost receive window of a SUN-FSK lane is reported by
RX_Data with tag 0xA002, which R412 gives it (DESIGN CHOICE 89). -/
def State.reportUplink (s : State) (c sfn sl : Nat) (pdus : List Pdu) (lost : Bool) (miss : List Nat) : State :=
  let of (k : PduKind) : List Nat := (pdus.filter (fun p => p.kind == k)).map (·.handle)
  let data := (if lost then [] else of .pusch) ++ of .sunRx
  let (s, sun) := s.gather State.sunQual (if lost then [] else of .sunRx)
  let s := if data.isEmpty then s else s.indicate c (.rxData sfn sl data sun lost)
  let (s, ue) := s.gather (fun s h => s.ueQual lost (miss.contains h) h) (of .pusch)
  let s := if ue.isEmpty then s else s.indicate c (.crc sfn sl ue lost)
  let (s, uc) := s.gather (fun s h => s.ueQual lost false h) (of .pucch)
  let s := if uc.isEmpty then s else s.indicate c (.uci sfn sl uc lost)
  let s := if (of .srs).isEmpty then s else s.indicate c (.srs sfn sl (of .srs) lost)
  let s := if (of .prach).isEmpty then s else s.indicate c (.rach sfn sl lost)
  if lost && !pdus.isEmpty then (s.bumpBy f_RAD_LOST_CNT_COUNT pdus.length).status f_RAD_STATUS_UL_LOST else s

/-- R415: a decode of a cell ran without its HARQ buffer; its report carries tag 0xA004. -/
def State.harqMiss (s : State) (c h : Nat) : State :=
  let x := s.cellOf c
  if x.harq then (s.status f_RAD_STATUS_HARQ_MISS).setCell c { x with miss := x.miss ++ [h] } else s

/-- R57, R395, R413, R424: what the shutter reports and sends of the exposure it ends: `gone` are the cells with unfinished work. -/
def State.radioReports (s : State) (gone : List Nat) (i : ShutterIn) : State :=
  let s := i.harqMiss.foldl (fun s e => s.harqMiss e.1 e.2) s
  let s := i.uplink.foldl (fun s (e : Nat × Nat × Nat × Bool) =>
    let (c, sfn, sl, last) := e
    match s.cellCfg c with
    | none => s
    | some g =>
      let lost := gone.contains c
      if !lost && !last then s
      else
        let x := s.cellOf c
        let t0 := (s.slotTick g sfn sl).toNat
        let pdus := (x.reqs.filter (fun r => r.t0 == t0)).flatMap (·.pdus)
        (s.reportUplink c sfn sl pdus lost x.miss).setCell c { x with
          reqs := x.reqs.filter (fun r => r.t0 ≠ t0), miss := x.miss.filter (fun h => !(pdus.any (fun p => p.handle == h))) }) s
  let s := (i.send.filter (fun m => !((s.eaxcCell m.eaxc).any (fun c => gone.contains c)))).foldl (fun s m => s.fhSend m) s
  i.downlink.foldl (fun s e => if gone.contains e.1 then s.emptySlot e.1 e.2 (s.tim.tick * s.periodNs) else s) s

/-- The cells of the image take the shutter of the current tick. -/
def State.cellsShutter (s : State) : State :=
  match s.img with
  | some g => g.cells.foldl (fun s c => s.cellShutter c) s
  | none => s

/-! Migration (R414, R415). -/

/-- R415: the switch boundary: the first frame boundary at least MIG_LEAD exposures after the GO. -/
def State.switchTick (s : State) (g : CellCfg) (go : Nat) : Nat :=
  let f := s.frameExpo
  let t := go + s.get f_RAD_CFG_MIG_LEAD
  t + (f - s.cellPhase g t % f) % f

/-- R415: a migration ends with a result: 1 DONE, 2 REFUSED, 3 FAILED. -/
def State.migEnd (s : State) (res : Nat) : State :=
  let s := (s.put f_RAD_MIG_RES_RESULT res).put f_RAD_MIG_RES_BUSY 0
  { s with rad := { s.rad with mig := .idle } }

/-- RAD_MIG_GO (R415): a write of RAD_MIG. The offer travels as a tagged message of the serving kind (Assumption 46). -/
def State.migGo (s : State) (v : Nat) : State :=
  let s := (s.put f_RAD_MIG_CELL (v % 2048)).put f_RAD_MIG_TARGET (bits v 23 12)
  if !bitAt v 31 ∨ s.rad.mig ≠ .idle then s
  else
    let n := v % 2048
    let dst := bits v 23 12
    match s.cellCfg n with
    | some g =>
      if (s.cellOf n).st ≠ .running ∨ dst = s.chipId then s.migEnd 2
      else
        let b := s.switchTick g s.tim.tick
        let s := s.put f_RAD_MIG_RES_BUSY 1
        let s := { s with rad := { s.rad with mig := .offered, migCell := n, migTo := dst, migB := b } }
        let s := s.setCell n { s.cellOf n with peer := dst }
        s.issueReq { who := .serve, kind := 7, pkt := { dst := dst, op := 8, srv := [3, n, g.digest, b] } }
    | none => s.migEnd 2

def execRadMigGo (v : BitVec 32) (s : State) : Host.Outcome State Fault Refusal := .next (whenLive s (fun s => s.migGo v.toNat))

/-- R415: S takes the answer to its offer. -/
def State.radPump (s : State) : State :=
  match s.net.srvDone.find? (fun r => r.kind == 7) with
  | none => s
  | some r =>
    let s : State := { s with net := { s.net with srvDone := s.net.srvDone.filter (fun q => q ≠ r) } }
    if s.rad.mig ≠ .offered then s
    else
      let (st, res, _) := r.done.getD (0, 0, false)
      let n := s.rad.migCell
      if st = 0 ∧ res = 1 then
        let s := s.setCell n { s.cellOf n with st := .migOut, next := none, migB := s.rad.migB, copied := false }
        { s with rad := { s.rad with mig := .phase1 } }
      else s.migEnd 2

/-- R415: T accepts an offer when the cell is STOPPED, its time is LOCKED and the digests match. -/
def State.takeOffer (s : State) (k : Pkt) : State × Nat × Nat :=
  let n := k.srv.getD 1 0
  let x := s.cellOf n
  let ok := x.st == .stopped && x.next.isNone && s.get f_CLK_TIME_STATE_STATE == 2 && (s.cellCfg n).any (fun g => g.digest == k.srv.getD 2 0)
  if ok then (s.setCell n { x with st := .migIn, migB := k.srv.getD 3 0, copied := false, harq := true, peer := k.src }, 0, 1) else (s, 0, 0)

/-- MIGRATION_OFFER (R415): the target takes an offer of a source chip. -/
def execMigrationOffer (src : BitVec 12) (s : State) : Host.Outcome State Fault Refusal :=
  .next (whenLive s (fun s => s.serveReq src.toNat 8 (fun k => k.srv.getD 0 0 == 3) (fun s k => s.dedupe k (fun s => s.takeOffer k))))

/-- R205, R415: whether a mover still holds a descriptor of the radio program, whose copies are those of cell migration. -/
def State.radioCopies (s : State) : Bool := s.ms.bulkQ.any (fun e => e.2.any (fun d => d.sub == .radio))

/-- MIG_PHASE1_COMPLETE (R415): the copy of a cell's UE contexts and HARQ buffers is complete, at either chip: at the source no mover
still copies. -/
def State.migPhase1 (s : State) (n : Nat) : State :=
  let s := s.radPump
  let x := s.cellOf n
  if x.st = .migOut ∧ s.rad.mig = .phase1 ∧ s.rad.migCell = n then
    if s.radioCopies then s else
    let s := s.setCell n { x with copied := true }
    { s with rad := { s.rad with mig := .ready } }
  else if x.st = .migIn then s.setCell n { x with copied := true }
  else s

def execMigPhase1Complete (n : BitVec 11) (s : State) : Host.Outcome State Fault Refusal := .next (whenLive s (fun s => s.migPhase1 n.toNat))

/-- MIG_SWITCH (R415): the switch boundary has come: the cell moves, or the migration is abandoned. -/
def State.migSwitch (s : State) (n : Nat) : State :=
  let s := s.radPump
  let x := s.cellOf n
  if s.tim.tick < x.migB then s
  else if x.st = .migOut then
    let sfn := ((s.cellCfg n).map (fun g => s.cellSfn g x.migB)).getD 0
    if x.copied then
      let s := (s.setCell n { x with st := .stopped }).put f_RAD_MIG_RES_SFN sfn
      { s with rad := { s.rad with mig := .phase2 } }
    else
      let s := s.setCell n { x with st := .running }
      ((s.migEnd 3).status f_RAD_STATUS_MIG_FAIL).raise srcTime 0x22 0 0
  else if x.st = .migIn then s.setCell n (if x.copied then { x with st := .running } else { x with st := .stopped, harq := false })
  else s

def execMigSwitch (n : BitVec 11) (s : State) : Host.Outcome State Fault Refusal := .next (whenLive s (fun s => s.migSwitch n.toNat))

/-- MIG_PHASE2_COMPLETE (R415): the later HARQ buffers are copied, at either chip. -/
def State.migPhase2 (s : State) (n : Nat) : State :=
  let x := s.cellOf n
  if s.rad.mig = .phase2 ∧ s.rad.migCell = n then if s.radioCopies then s else (s.migEnd 1).status f_RAD_STATUS_MIG_DONE
  else if x.st = .running ∧ x.harq then s.setCell n { x with harq := false }
  else s

def execMigPhase2Complete (n : BitVec 11) (s : State) : Host.Outcome State Fault Refusal := .next (whenLive s (fun s => s.migPhase2 n.toNat))

end Sys2Proof.Machine
end

