-- ==== Sys2Proof/Machine/Fronthaul.lean ====
section
/-! DEFINITION. Fronthaul: frames received, terminated or switched, U-plane samples, the manager's receive FIFO (R420 to R429). -/
namespace Sys2Proof.Machine
open Sys2Proof

/-- R449: whether a sub-port has link. -/
def State.subUp (s : State) (sub : Nat) : Bool := bitAt (s.get (f_FH_PORT_UP (sub / 4))) (sub % 4)

/-- R428: whether an address is one of the chip's own MACs. -/
def State.ownMac (s : State) (mac : Nat) : Bool := (s.imgList (·.macs)).any (fun x => x.2 == mac)

/-- R427: switch a frame by the forwarding table. PTP takes queue 0, eCPRI queue 3, others the entry's (R440). -/
def State.forward (s : State) (sub : Nat) (f : EthFrame) : State :=
  match (s.imgList (·.fwd)).find? (fun x => x.mac == f.dst && x.vlan == f.vlan) with
  | some x =>
    let q := match f.load with | .ptp _ => 0 | .esmc => 0 | .ecpri _ => 3 | _ => x.queue
    (x.ports.filter (· ≠ sub)).foldl (fun s p => s.toEgress p q { load := .frame f, len := f.len }) s
  | none => (s.bump f_FH_UNK_CNT_COUNT).status f_FH_STATUS_UNKNOWN

/-- R427: switch a frame that the table lists; one that it does not list stays where it was terminated. -/
def State.forwardListed (s : State) (sub : Nat) (f : EthFrame) : State :=
  if (s.imgList (·.fwd)).any (fun x => x.mac == f.dst && x.vlan == f.vlan) then s.forward sub f else s

/-- R429: a frame as the receive FIFO holds it: the length word, then its bytes in 64-bit words. -/
def mrxWords (sub : Nat) (f : EthFrame) : List (Nat × Bool) :=
  let n := ceilDiv f.len 8
  let b := padTo (8 * n) f.body
  (n + sub * 2 ^ 16 + (f.len % 2 ^ 14) * 2 ^ 21, true) :: (List.range n).map (fun i => (leNat ((b.drop (8 * i)).take 8), false))

/-- R428, R429: a frame goes to the manager's FIFO, or is dropped whole. -/
def State.toManager (s : State) (sub : Nat) (f : EthFrame) : State :=
  let l := mrxWords sub f
  if s.fh.mrx.length + l.length > 4096 then (s.bump f_FH_MRX_DROP_CNT_COUNT).status f_MEM_STATUS_FIFO_DROP
  else
    let s := { s with fh := { s.fh with mrx := s.fh.mrx ++ l } }
    (s.put f_FH_MRX_DEPTH_WORDS s.fh.mrx.length).status f_FH_STATUS_MGR_RX

/-- R430: a time-base stamp in 2^−16 ns as the residence counter reads then: the time base without its steps. -/
def State.residence (s : State) (stamp : Int) : Int := stamp - 65536 * s.tim.steps

/-- R431: a stamp at the board's connector: INGRESS is in units of 1/16 ns. -/
def State.ingressLat (s : State) (sub : Nat) : Nat := 4096 * s.get (f_PTP_PORT_LAT_INGRESS sub)

/-- R436: whether the TIME section names a sub-port for a domain. -/
def State.ptpSub (s : State) (sub : Nat) : Bool := (s.imgList (·.doms)).any (fun d => d.port == sub || d.backup == some sub)

/-- R422: whether a message uses nothing outside the table. -/
def EcpriMsg.listed (m : EcpriMsg) : Bool :=
  m.ok && m.rev == 1 && !m.conc && m.ebit && m.subseq == 0
  && (match m.typ with
      | 0 => if m.bfp then [6, 7, 8, 9, 10, 12, 14, 16].contains m.iqWidth else m.iqWidth == 16
      | 2 => [0, 1, 3].contains m.sec
      | 5 => true
      | _ => false)

/-- R422, R428: terminate an eCPRI frame. A one-way delay measurement has no eAxC and no sequence. -/
def State.takeEcpri (s : State) (sub : Nat) (m : EcpriMsg) : State :=
  if !m.listed then (s.bump f_FH_COMP_CNT_COUNT).status f_FH_STATUS_COMP
  else if m.typ = 5 then s
  else
    let want := sget 0 s.fh.seq m.eaxc
    let s := if want ≠ 0 ∧ want ≠ m.seq % 256 + 1 then s.bump f_FH_SEQ_CNT_COUNT else s
    let s := { s with fh := { s.fh with seq := sset 0 s.fh.seq m.eaxc ((m.seq + 1) % 256 + 1) } }
    if m.typ = 0 then { s with fh := { s.fh with rxU := s.fh.rxU ++ [(sub, m, s.now)] } } else s

/-- R428: terminate a PTP message; those of a slave wait for the time hardware. -/
def State.takePtp (s : State) (sub : Nat) (m : PtpMsg) (stamp : Int) : State :=
  match m.typ with
  | .sync | .followUp | .delayResp | .announce => { s with fh := { s.fh with rxP := s.fh.rxP ++ [(sub, m, stamp)] } }
  | _ => s

def macPeer : Nat := 0x0180C200000E
def macPtp : Nat := 0x011B19000000

/-- FH_FRAME_RECEIVE (R421, R427, R428): a frame is received whole: discarded, terminated or switched. -/
def State.fhReceive (s : State) (sub : Nat) (f : EthFrame) : State :=
  if !s.subUp sub then s
  else if !f.fcsOk ∨ f.len < 64 ∨ f.len > 9216 ∨ f.tags > 1 ∨ f.load = .pause then s.bump f_FH_FCS_CNT_COUNT
  else
    let s := s.atNs (f.stamp / 65536)
    let stamp : Int := f.stamp + s.ingressLat sub
    let f := { f with ingress := s.residence stamp }
    match f.load with
    | .ptp m =>
      if f.dst = macPeer then s.takePtp sub m stamp
      else if f.dst = macPtp ∧ s.ptpSub sub then (s.takePtp sub m stamp).forwardListed sub f
      else if s.ownMac f.dst then s.toManager sub f
      else s.forward sub f
    | .esmc => s.toManager sub f
    | .ecpri m =>
      if s.ownMac f.dst then (if (s.eaxcCell m.eaxc).isSome then s.takeEcpri sub m else s.toManager sub f)
      else s.forward sub f
    | _ => if s.ownMac f.dst then s.toManager sub f else s.forward sub f

def execFhFrameReceive (sub : Fin 32) (f : EthFrame) (s : State) : Host.Outcome State Fault Refusal :=
  .next (whenLive s (fun s => s.fhReceive sub f))

/-! U-plane (R423, R424, R426): the cell's radio buffers lie in the stage memory of the radio program (R188). -/

/-- UPLANE_RECEIVE (R424): the oldest U-plane message: written inside its receive window, else discarded. -/
def State.uplane (s : State) : State :=
  match s.fh.rxU with
  | [] => s
  | (sub, m, t) :: rest =>
    let s := { s with fh := { s.fh with rxU := rest } }
    let inWin := s.isLane m.eaxc || (match (s.imgList (·.eaxcs)).find? (fun x => x.id == m.eaxc) with
      | some x => decide (m.air + x.ta4Min ≤ t) && decide (t ≤ m.air + x.ta4Max)
      | none => true)
    if inWin then
      let l := m.prbs.map UPrb.bytes
      let n := (l.map (·.2)).sum
      let s := if n = 0 then s else (s.bumpBy f_FH_COMP_CNT_COUNT n).status f_FH_STATUS_COMP
      let bs := l.flatMap (·.1)
      if bs.isEmpty ∨ s.partReach 0 true m.addr bs.length = false then s else (s.store (srcFh (sub / 4)) m.addr bs).1
    else (s.bump f_FH_LATE_CNT_COUNT).status f_FH_STATUS_RX_LATE

def execUplaneReceive (s : State) : Host.Outcome State Fault Refusal := .next (whenLive s State.uplane)

/-! The manager's receive FIFO (R429). -/

/-- FH_MRX_READ (R429): a read of FH_MRX_W0 through a function: the manager's takes a word; the peer's answers 0, and so does every read
before READY and in the safelight state (R502, R554). -/
def State.mrxRead (s : State) (req : Nat) : State :=
  if s.boot.por then s
  else if s.live = false ∨ s.stage ≠ 7 ∨ req / 2 ≠ s.get f_HST_ROLE_MGR_PORT then s.emit (.regData req r_FH_MRX_W0 0)
  else
    match s.fh.mrx with
    | [] => ((s.setReg r_FH_MRX_W1 0).setReg r_FH_MRX_TAG 0).emit (.regData req r_FH_MRX_W0 0)
    | (w, first) :: rest =>
      let tag := s.fifoTag 1 1
      let s : State := { s.fifoTake 1 1 with fh := { s.fh with mrx := rest } }
      let s := ((s.setReg r_FH_MRX_W1 (BitVec.ofNat 32 (w / 2 ^ 32))).setReg r_FH_MRX_TAG (BitVec.ofNat 32 ((if first then 3 else 1) + 4 * tag))).put f_FH_MRX_DEPTH_WORDS rest.length
      s.emit (.regData req r_FH_MRX_W0 (BitVec.ofNat 32 w))

def execFhMrxRead (req : Fin 4) (s : State) : Host.Outcome State Fault Refusal := .next (s.mrxRead req)

end Sys2Proof.Machine
end

