-- ==== Sys2Proof/Machine/Ptp.lean ====
section
/-! DEFINITION. PTP domains, the time base's registers and the pulse per second (R430, R433 to R439, R448, R452). Times are in
units of 2^−16 ns where a stamp gives them. -/
namespace Sys2Proof.Machine
open Sys2Proof

def State.domOf (s : State) (d : Nat) : PtpDom := sget {} s.fh.dom d
def State.setDom (s : State) (d : Nat) (x : PtpDom) : State := { s with fh := { s.fh with dom := sset {} s.fh.dom d x } }
def State.modDom (s : State) (d : Nat) (f : PtpDom → PtpDom) : State := s.setDom d (f (s.domOf d))

/-- R436: the domain that a sub-port's messages of a number belong to. -/
def State.domFor (s : State) (sub number : Nat) : Option Nat :=
  let l := s.imgList (·.doms)
  (List.range l.length).find? (fun d => let x := l.getD d {}; x.number == number && (x.port == sub || x.backup == some sub))

/-- R438: the sub-port a domain takes its messages from. -/
def State.domPort (s : State) (d : Nat) : Nat := if s.flag (f_PTP_DOM_ON_BACKUP d) then s.get (f_PTP_DOM_BACKUP d) else s.get (f_PTP_DOM_PORT d)

/-- R433, R436: whether a port of a domain has delivered Announce and Sync within their limits. -/
def State.ptpFresh (s : State) (x : PtpPort) : Bool :=
  let t := s.now
  (match x.ann with | some a => decide (t < a + 375000000) | none => false)
  && (match x.sync with | some a => decide (t < a + s.get f_PTP_DOM_CFG_SYNC_TMO * 62500000) | none => false)

/-- R436: whether a domain is VALID now. -/
def State.domValid (s : State) (d : Nat) : Bool :=
  let x := s.domOf d
  let up := s.subUp (s.get (f_PTP_DOM_PORT d)) || (s.flag (f_PTP_DOM_BACKUP_VALID d) && s.subUp (s.get (f_PTP_DOM_BACKUP d)))
  s.ptpFresh (if s.flag (f_PTP_DOM_ON_BACKUP d) then x.back else x.slave) && up
  && decide (s.get (f_PTP_DOM_CLOCK_CLASS d) ≤ s.get f_PTP_DOM_CFG_CLASS_MAX)

/-- R45: whether PTP is the source that the TIME section names. -/
def State.ptpSource (s : State) : Bool := match s.img with | some g => g.timeSource == 1 | none => false

/-- R437: a domain becomes active; the servo steers from its offset. -/
def State.switchDom (s : State) (d : Nat) : State :=
  if s.get f_PTP_DOM_CFG_ACTIVE = d then s
  else
    let s := ((s.put f_PTP_DOM_CFG_ACTIVE d).status f_PTP_STATUS_DOM_SWITCH).bump f_PTP_SWITCH_CNT_COUNT
    if s.ptpSource then { s with tim := { s.tim with srcOff := (s.domOf d).offset } } else s

/-- R437: with MANUAL 1, the domain that SELECT names is active whenever it is VALID. -/
def State.manualDom (s : State) : State :=
  let sel := s.get f_PTP_DOM_CFG_SELECT
  if s.flag f_PTP_DOM_CFG_MANUAL ∧ s.flag (f_PTP_DOM_VALID sel) then s.switchDom sel else s

/-- R436, R437: bring a domain's VALID bit up to date; with no domain VALID the source is lost. -/
def State.noteDom (s : State) (d : Nat) : State :=
  let was := s.flag (f_PTP_DOM_VALID d)
  let is := s.domValid d
  if was == is then s
  else if is then ((s.putB (f_PTP_DOM_VALID d) true).modDom d (fun x => { x with validAt := s.now })).manualDom
  else
    let s := (s.putB (f_PTP_DOM_VALID d) false).status (if d = 0 then f_PTP_STATUS_DOM0_LOST else f_PTP_STATUS_DOM1_LOST)
    if s.ptpSource && !s.flag (f_PTP_DOM_VALID 0) && !s.flag (f_PTP_DOM_VALID 1) then s.sourceLost else s

/-- R437: which domain is active when a Sync of domain d comes. -/
def State.pickDom (s : State) (d : Nat) : State :=
  let sel := s.get f_PTP_DOM_CFG_SELECT
  if s.flag f_PTP_DOM_CFG_MANUAL ∧ s.flag (f_PTP_DOM_VALID sel) then s.switchDom sel
  else if !s.flag (f_PTP_DOM_VALID (s.get f_PTP_DOM_CFG_ACTIVE)) ∧ s.flag (f_PTP_DOM_VALID d) then s.switchDom d
  else s

/-- R436, R437: a write of PTP_DOM_CFG: its limits and its selection hold at once. -/
def State.domCfg (s : State) : State := ((s.noteDom 0).noteDom 1).manualDom

/-- R434, R454: an offset of a domain, and its registers. -/
def State.setOffset (s : State) (d : Nat) (off mean : Int) : State :=
  let s := s.modDom d (fun x => { x with offset := off })
  let s := s.put (f_PTP_DOM_OFFSET_OFFSET d) ((satSigned 32 (off / 4096) + 2 ^ 32) % 2 ^ 32).toNat
  let s := s.put (f_PTP_DOM_MPD_MPD d) (min (mean / 4096).toNat (2 ^ 24 - 1))
  if s.ptpSource ∧ s.get f_PTP_DOM_CFG_ACTIVE = d then { s with tim := { s.tim with srcOff := off } } else s

/-- R433: delayAsymmetry of a sub-port. -/
def State.asym (s : State) (sub : Nat) : Int := (((s.imgList (·.asym)).find? (fun x => x.1 == sub)).map (·.2)).getD 0

/-- R434: a Sync's times are complete: the path delay and the offset, once an exchange has been made on the port. -/
def State.syncDone (s : State) (d sub : Nat) (t2 t1 cf : Int) : State :=
  let ms := t2 - t1 - cf - s.asym sub
  let x := s.domOf d
  match x.sm with
  | none => s
  | some sm =>
    let l := x.mpds ++ [(ms + sm) / 2]
    let l := l.drop (l.length - 16)
    let mean : Int := l.foldl (· + ·) 0 / (l.length : Int)
    (s.modDom d (fun x => { x with mpds := l })).setOffset d (ms - mean) mean

/-- R438: a port has delivered an Announce, or a Sync. -/
def State.hear (s : State) (x : PtpPort) (sync : Bool) : PtpPort :=
  let x := if s.ptpFresh x then x else { x with since := s.now }
  if sync then { x with sync := some s.now } else { x with ann := some s.now }

/-- Note a message on the port of a domain that it came from. -/
def State.hearDom (s : State) (d sub : Nat) (sync : Bool) : State :=
  if sub = s.get (f_PTP_DOM_PORT d) then s.modDom d (fun x => { x with slave := s.hear x.slave sync })
  else s.modDom d (fun x => { x with back := s.hear x.back sync })

/-- The oldest terminated PTP message of a type. -/
def State.takeMsg (s : State) (typ : PtpTyp) (f : State → Nat → Nat → PtpMsg → Int → State) : State :=
  match s.fh.rxP.find? (fun e => e.2.1.typ == typ) with
  | none => s
  | some e =>
    let s := { s with fh := { s.fh with rxP := s.fh.rxP.erase e } }
    match s.domFor e.1 e.2.1.domain with
    | some d => f s d e.1 e.2.1 e.2.2
    | none => s

/-- PTP_SYNC_RECEIVE (R434, R436, R437). -/
def State.ptpSync (s : State) : State :=
  s.takeMsg .sync (fun s d sub m t2 =>
    let s := s.hearDom d sub true
    let s := if sub ≠ s.domPort d then s
      else if m.twoStep then s.modDom d (fun x => { x with pend := some (m.seq, t2, m.corr) })
      else s.syncDone d sub t2 m.ts m.corr
    (s.noteDom d).pickDom d)

def execPtpSyncReceive (s : State) : Host.Outcome State Fault Refusal := .next (whenLive s State.ptpSync)

/-- PTP_FOLLOW_UP_RECEIVE (R434). -/
def State.ptpFollowUp (s : State) : State :=
  s.takeMsg .followUp (fun s d sub m _ =>
    match (s.domOf d).pend with
    | some (seq, t2, cf) =>
      if sub = s.domPort d ∧ seq = m.seq then (s.modDom d (fun x => { x with pend := none })).syncDone d sub t2 m.ts (cf + m.corr) else s
    | none => s)

def execPtpFollowUpReceive (s : State) : Host.Outcome State Fault Refusal := .next (whenLive s State.ptpFollowUp)

/-- PTP_DELAY_RESP_RECEIVE (R434): the exchange gives sm, which the next Sync's path delay uses. -/
def State.ptpDelayResp (s : State) : State :=
  s.takeMsg .delayResp (fun s d sub m _ =>
    match (s.domOf d).t3 with
    | some (seq, t3) =>
      if m.mine ∧ sub = s.domPort d ∧ seq = m.seq then
        s.modDom d (fun x => { x with sm := some ((m.ts : Int) - t3 - m.corr + s.asym sub), t3 := none })
      else s
    | none => s)

def execPtpDelayRespReceive (s : State) : Host.Outcome State Fault Refusal := .next (whenLive s State.ptpDelayResp)

/-- PTP_ANNOUNCE_RECEIVE (R436). -/
def State.ptpAnnounce (s : State) : State :=
  s.takeMsg .announce (fun s d sub m _ =>
    let s := s.hearDom d sub false
    let s := if sub = s.domPort d then s.put (f_PTP_DOM_CLOCK_CLASS d) m.clockClass else s
    s.noteDom d)

def execPtpAnnounceReceive (s : State) : Host.Outcome State Fault Refusal := .next (whenLive s State.ptpAnnounce)

/-- DELAY_REQ_SEND (R433, R440): a domain sends Delay_Req on the port in use: a frame of 64 bytes for the sub-port's queue 0, at ns of the time base. -/
def State.delayReq (s : State) (d seq ns : Nat) : State :=
  let sub := s.domPort d
  if d < (s.imgList (·.doms)).length ∧ s.subUp sub then (s.atNs ns).toEgress sub 0 { load := .delayReq d seq, len := 64 } else s

def execDelayReqSend (d : Fin 2) (seq : BitVec 16) (ns : Nat) (s : State) : Host.Outcome State Fault Refusal :=
  .next (whenLive s (fun s => s.delayReq d seq.toNat ns))

/-- R438: a domain moves between its ports; the path delay starts again, the last offset stands. -/
def State.moveDom (s : State) (d : Nat) (back : Bool) : State :=
  let s := (s.putB (f_PTP_DOM_ON_BACKUP d) back).modDom d (fun x => { x with pend := none, t3 := none, sm := none, mpds := [] })
  if back then s.status f_PTP_STATUS_PORT_BACKUP else s

/-- R436, R438: look at a domain's limits: it moves to its backup port, or stops being VALID. -/
def State.domTimeout (s : State) (d : Nat) : State :=
  let x := s.domOf d
  let slaveOk := s.subUp (s.get (f_PTP_DOM_PORT d)) && s.ptpFresh x.slave
  let s := if !s.flag (f_PTP_DOM_ON_BACKUP d) && s.flag (f_PTP_DOM_BACKUP_VALID d) && !slaveOk && s.ptpFresh x.back then s.moveDom d true else s
  s.noteDom d

/-- PTP_DOMAIN_TIMEOUT (R436, R438). -/
def execPtpDomainTimeout (d : Fin 2) (s : State) : Host.Outcome State Fault Refusal := .next (whenLive s (fun s => s.domTimeout d))

/-- PTP_REVERT (R437, R438): after REVERT_S seconds the slave port, and the preferred domain, are used again. -/
def State.ptpRevert (s : State) : State :=
  let hold := s.get f_PTP_DOM_CFG_REVERT_S * 1000000000
  let s := (List.range (s.imgList (·.doms)).length).foldl (fun s d =>
    let x := s.domOf d
    if s.flag (f_PTP_DOM_ON_BACKUP d) ∧ s.subUp (s.get (f_PTP_DOM_PORT d)) ∧ s.ptpFresh x.slave ∧ x.slave.since + hold ≤ s.now then s.moveDom d false
    else s) s
  let p := s.get f_PTP_DOM_CFG_PREFERRED
  let sel := s.get f_PTP_DOM_CFG_SELECT
  if s.flag f_PTP_DOM_CFG_MANUAL then (if s.flag (f_PTP_DOM_VALID sel) then s.switchDom sel else s)
  else if s.flag (f_PTP_DOM_VALID p) ∧ (s.domOf p).validAt + hold ≤ s.now then s.switchDom p
  else s

def execPtpRevert (s : State) : Host.Outcome State Fault Refusal := .next (whenLive s State.ptpRevert)

/-! Links of the sub-ports (R420, R436, R438, R448). -/

/-- R420: whether a sub-port is in use in its port's mode. -/
def State.subUsed (s : State) (sub : Nat) : Bool :=
  match s.get (f_FH_PORT_MODE (sub / 4)) with
  | 1 => sub % 4 == 0
  | 2 => sub % 2 == 0
  | 3 | 4 => true
  | _ => false

/-- FH_LINK_DOWN (R436, R438, R448). -/
def State.fhDown (s : State) (sub : Nat) : State :=
  if s.subUp sub then
    let p := sub / 4
    let s := (s.put (f_FH_PORT_UP p) (setBits (s.get (f_FH_PORT_UP p)) (sub % 4) (sub % 4) 0)).status f_FH_STATUS_LINK_DOWN
    (List.range (s.imgList (·.doms)).length).foldl (fun s d => s.domTimeout d) s
  else s

def execFhLinkDown (sub : Fin 32) (s : State) : Host.Outcome State Fault Refusal := .next (whenLive s (fun s => s.fhDown sub))

/-- FH_LINK_UP (R436, R449): a sub-port that its port's mode uses gains link. -/
def State.fhUp (s : State) (sub : Nat) : State :=
  if s.subUsed sub then
    let p := sub / 4
    let s := s.put (f_FH_PORT_UP p) (setBits (s.get (f_FH_PORT_UP p)) (sub % 4) (sub % 4) 1)
    (List.range (s.imgList (·.doms)).length).foldl (fun s d => s.noteDom d) s
  else s

def execFhLinkUp (sub : Fin 32) (s : State) : Host.Outcome State Fault Refusal := .next (whenLive s (fun s => s.fhUp sub))

/-! The time base (R430, R439, R452). -/

/-- PTP_SNAP (R452): capture the time base. -/
def State.ptpSnap (s : State) : State :=
  let t := s.now
  let sec := t / 1000000000
  (((s.put f_PTP_TIME_SEC_LO_SEC_LO (sec % 2 ^ 32)).put f_PTP_TIME_SEC_HI_SEC_HI (sec / 2 ^ 32 % 2 ^ 16)).put f_PTP_TIME_NS_NS (t % 1000000000)).put
    f_PTP_TIME_FRAC_FRAC s.tim.frac

def execPtpSnap (s : State) : Host.Outcome State Fault Refusal := .next (whenLive s State.ptpSnap)

/-- R46, R48: the next multiple of a period at least one period after a time. -/
def gridAfter (t p : Nat) : Nat := (t + 2 * p - 1) / p * p

/-- R46: times on the time base move with a step, so that no interval is changed by it. -/
def State.shiftTimes (s : State) (d : Int) : State :=
  let f (t : Nat) : Nat := ((t : Int) + d).toNat
  let port (x : PtpPort) : PtpPort := { ann := x.ann.map f, sync := x.sync.map f, since := f x.since }
  let g : Int := 65536 * d
  { s with
    tim := { s.tim with steps := s.tim.steps + d }
    hst := { s.hst with
      hbAt := f s.hst.hbAt
      win := s.hst.win.map (fun (e : Nat × Win) => (e.1, { e.2 with coalAt := e.2.coalAt.map f, cmds := e.2.cmds.map (fun c => { c with ns := f c.ns }) }))
      jobs := s.hst.jobs.map (fun j => { j with ns := f j.ns }) }
    net := { s.net with
      waits := s.net.waits.map (fun w => (w.1, w.2.1, if w.2.2.2.isSome then f w.2.2.1 else w.2.2.1, w.2.2.2))
      held := s.net.held.map (fun k => { k with ts := f k.ts })
      recT := f s.net.recT
      reqs := s.net.reqs.map (fun r => { r with sentAt := f r.sentAt, lastAt := f r.lastAt, pkt := { r.pkt with ts := f r.pkt.ts } })
      dest := s.net.dest.map (fun (e : Nat × Dest) => (e.1, { e.2 with queryAt := f e.2.queryAt }))
      port := s.net.port.map (fun (e : Nat × Port) => (e.1, { e.2 with since := f e.2.since, ackAt := f e.2.ackAt })) }
    fh := { s.fh with
      rxU := s.fh.rxU.map (fun e => (e.1, e.2.1, f e.2.2))
      rxP := s.fh.rxP.map (fun e => (e.1, e.2.1, e.2.2 + g))
      dom := s.fh.dom.map (fun (e : Nat × PtpDom) => (e.1, { e.2 with
        slave := port e.2.slave, back := port e.2.back, validAt := f e.2.validAt
        pend := e.2.pend.map (fun y => (y.1, y.2.1 + g, y.2.2)), t3 := e.2.t3.map (fun y => (y.1, y.2 + g)), sm := e.2.sm.map (· - g) })) }
    tm := { s.tm with q := s.tm.q.map (fun (e : Nat × TmQ) => (e.1, { e.2 with
      credAt := f e.2.credAt, elig := f e.2.elig, items := e.2.items.map (fun x => { x with enq := f x.enq }) })) }
    pwr := { s.pwr with volt := f s.pwr.volt }
    aud := { s.aud with blkAt := f s.aud.blkAt }
    boot := { s.boot with resetNs := f s.boot.resetNs } }

/-- PPS_PULSE (R439): in FREE a second starts at the pulse. The base itself moves only at the step that leaves FREE (R46), so the
pulse is kept: it says by how much the time of the pulse lies off the nearest whole second. DEDUCED 48. -/
def State.ppsPulse (s : State) : State :=
  if s.get f_CLK_TIME_STATE_STATE ≠ 0 then s
  else
    let t := s.now
    { s with tim := { s.tim with pps := some (((t + 500000000) / 1000000000 * 1000000000 : Nat) - (t : Int)) } }

/-- R46, R439: a step by the source's offset d; where a pulse was seen in FREE, the step is the nearest one that puts a second's
start on the pulse. DEDUCED 48. -/
def State.ppsStep (s : State) (d : Int) : Int :=
  match s.tim.pps with
  | none => d
  | some a => a + (d - a + 500000000) / 1000000000 * 1000000000

def execPpsPulse (s : State) : Host.Outcome State Fault Refusal := .next (whenLive s State.ppsPulse)

end Sys2Proof.Machine
end

