-- ==== Sys2Proof/Machine/Traffic.lean ====
section
/-! DEFINITION. The traffic manager of every egress: fair queueing, shapers, samples and high-water marks (R320, R435, R440 to
R447). Egress e below 32 is a fronthaul sub-port, 32 + p Asivipin port p. -/
namespace Sys2Proof.Machine
open Sys2Proof

/-- R441: tag a comes before tag b, modulo 2^48. -/
def tagBefore (a b : Nat) : Bool := let d := (b + 2 ^ 48 - a) % 2 ^ 48; d ≠ 0 && decide (d < 2 ^ 47)

/-- R441: C_i = RNE(65,536 / w_i). -/
def TmQ.cost (x : TmQ) : Nat := rneDiv 65536 (max 1 x.weight)

/-- R443: the largest frame of an egress in bits: 9,216 bytes, or a packet of 31 units of 16 bytes. -/
def maxFrameBits (e : Nat) : Int := if e < 32 then 9216 * 8 else 31 * 16 * 8

/-- R443: bring a credit up to date: it rises while the queue holds a frame; an empty queue keeps no positive credit. -/
def TmQ.upTo (x : TmQ) (e now : Nat) : TmQ :=
  if x.shaper ≠ 1 ∨ now ≤ x.credAt then x
  else if x.items.isEmpty then { x with credit := min x.credit 0, credAt := now }
  else { x with credit := min (x.credit + x.idle * (now - x.credAt : Nat)) (2 * maxFrameBits e * 1000), credAt := now }

/-- R447: keep the high-water marks of a tenant-class queue. -/
def TmQ.mark (x : TmQ) (now : Nat) : TmQ :=
  if x.radio then x
  else
    let d := match x.items with | i :: _ => now - i.enq | [] => 0
    { x with hwmDepth := max x.hwmDepth (min x.depth (2 ^ 24 - 1)), hwmDelay := max x.hwmDelay (min d (2 ^ 32 - 1)) }

/-- TM_ENQUEUE (R424, R441, R445): the oldest frame routed to a queue, whose window is open, enters it with its tags, or is dropped. -/
def State.tmEnqueue (s : State) (e i : Nat) : State :=
  match s.tm.inb.find? (fun x => x.1 == e && x.2.1 == i && decide (x.2.2.notBefore ≤ s.now)) with
  | none => s
  | some y =>
    let s := { s with tm := { s.tm with inb := s.tm.inb.erase y } }
    let it := y.2.2
    let x := (s.tmQ e i).upTo e s.now
    if e < 32 ∧ x.depth + it.len > x.limit * 1024 then
      (s.setTmQ e i { x with drop := satAdd 32 x.drop 1 }).status f_TM_STATUS_DROP
    else
      let v := sget 0 s.tm.v e
      let st := if tagBefore v x.f then x.f else v
      let fin := (st + it.len * x.cost) % 2 ^ 48
      s.setTmQ e i (({ x with items := x.items ++ [{ it with start := st, finish := fin, enq := s.now }], f := fin } : TmQ).mark s.now)

def execTmEnqueue (e : Fin 56) (i : Fin 8) (s : State) : Host.Outcome State Fault Refusal := .next (whenLive s (fun s => s.tmEnqueue e i))

/-- Whether the egress may take the head of a queue now: its shaper (R443, R444), and credits on Asivipin (R445). -/
def State.tmEligible (s : State) (e : Nat) (x : TmQ) : Bool :=
  match x.items with
  | [] => false
  | it :: _ =>
    (match x.shaper with
     | 1 => decide ((x.upTo e s.now).credit ≥ 0)
     | 2 => decide (x.elig ≤ s.now)
     | _ => true)
    && (match it.load with
        | .pkt k => s.maySend (e - 32) k
        | _ => true)

/-- R441: the queue that an egress serves next: queue 0 first, then the smallest finish tag, the lower queue on a tie. -/
def State.tmPick (s : State) (e : Nat) : Option Nat :=
  if s.tmEligible e (s.tmQ e 0) then some 0
  else
    let fin (i : Nat) : Nat := ((s.tmQ e i).items.head?.map (·.finish)).getD 0
    ((List.range 7).map (· + 1)).foldl (fun (b : Option Nat) i =>
      if !s.tmEligible e (s.tmQ e i) then b
      else match b with
        | none => some i
        | some j => if tagBefore (fin i) (fin j) then some i else some j) none

/-- R443, R444: a queue starts a frame. -/
def TmQ.sent (x : TmQ) (e len now : Nat) : TmQ :=
  match x.shaper with
  | 1 =>
    let y := x.upTo e now
    let fall : Int := len * 8000 * (x.port - x.idle : Int) / max 1 x.port
    { y with credit := max (y.credit - fall) (-2 * maxFrameBits e * 1000), credAt := now + ceilDiv (len * 8000) (max 1 x.port) }
  | 2 => { x with elig := max x.elig (now - x.burst) + rneDiv (len * 8000) (max 1 x.rate) }
  | _ => x

/-- R435: a forwarded PTP event message leaves with its residence added to the correction. -/
def State.correct (s : State) (f : EthFrame) (egress : Int) : State × EthFrame :=
  match f.load with
  | .ptp m =>
    if m.typ = .sync ∨ m.typ = .delayReq ∨ m.typ = .pdelayReq ∨ m.typ = .pdelayResp then
      let c := m.corr + egress - f.ingress
      if c > 2 ^ 63 - 1 then (s.status f_PTP_STATUS_TC_OVF, { f with load := .ptp { m with corr := 2 ^ 63 - 1 } })
      else (s, { f with load := .ptp { m with corr := c } })
    else (s, f)
  | _ => (s, f)

/-- TM_SELECT (R434, R441): the egress takes a frame; `egress` is its egress stamp on the time base, before EGRESS (R431). -/
def State.tmSelect (s : State) (e egress : Nat) : State :=
  match s.tmPick e with
  | none => s
  | some i =>
    let x := (s.tmQ e i).mark s.now
    match x.items with
    | [] => s
    | it :: rest =>
      let y := x.sent e it.len s.now
      let s := s.setTmQ e i { y with items := rest }
      let s := if i = 0 then s else { s with tm := { s.tm with v := sset 0 s.tm.v e it.start } }
      match it.load with
      | .pkt k => s.sendFlit (e - 32) k
      | .frame f =>
        let r := s.correct f (s.residence (egress - 4096 * s.get (f_PTP_PORT_LAT_EGRESS e)))
        r.1.emit (.frame e r.2)
      | .delayReq d seq =>
        (s.modDom d (fun x => { x with t3 := some (seq, (egress : Int) - 4096 * s.get (f_PTP_PORT_LAT_EGRESS e)) })).emit (.delayReq d e seq)
      | .ctl (some b) => s.emit (.beacon (e - 32) b)
      | .ctl none => s

def execTmSelect (e : Fin 56) (egress : Nat) (s : State) : Host.Outcome State Fault Refusal :=
  .next (whenLive s (fun s => let u := s.atNs (egress / 65536); if (u.tmPick e).isSome then u.tmSelect e egress else s))

/-- R446, R447: one sample of a radio-class queue. -/
def TmQ.sample (x : TmQ) (now : Nat) : TmQ :=
  let d := match x.items with | i :: _ => min (now - i.enq) (2 ^ 32 - 1) | [] => 0
  let n := min x.depth (2 ^ 24 - 1)
  { x with cur := (x.cur ++ [(n, d)]).take 16, hwmDepth := max x.hwmDepth n, hwmDelay := max x.hwmDelay d }

/-- R446: how many of an exposure's 16 samples the radio-class queues have taken. -/
def State.samplesTaken (s : State) : Nat := ((s.tm.q.find? (fun e => e.2.radio)).map (·.2.cur.length)).getD 0

/-- TM_SAMPLE (R446): every radio-class queue is sampled, at the shutter and every period / 16 after it. -/
def State.tmSample (s : State) : State :=
  let n := s.samplesTaken
  if 16 ≤ n then s
  else
    let s := s.atNs (s.tim.tb + n * s.periodNs / 16)
    { s with tm := { s.tm with q := s.tm.q.map (fun e => (e.1, if e.2.radio then e.2.sample s.now else e.2)) } }

def execTmSample (s : State) : Host.Outcome State Fault Refusal := .next (whenLive s State.tmSample)

/-- R446: at a shutter the samples of the exposure that ends, of tick t, are published. -/
def State.tmPublish (s : State) (t : Nat) : State :=
  { s with tm := { s.tm with q := s.tm.q.map (fun e =>
    (e.1, if e.2.radio then { e.2 with samp := e.2.cur, sampTick := t % 2 ^ 32, cur := [] } else e.2)) } }

/-- R455: the egress and queue that TM_SEL names. -/
def State.tmSel (s : State) : Nat × Nat := ((if s.flag f_TM_SEL_FABRIC then 32 else 0) + s.get f_TM_SEL_PORT, s.get f_TM_SEL_QUEUE)

/-- TM_Q_CLEAR (R447): a write of 1 to CLEAR. What a tenant-class queue holds then is its maximum since. -/
def State.tmClear (s : State) : State :=
  let (e, i) := s.tmSel
  s.setTmQ e i (({ s.tmQ e i with hwmDepth := 0, hwmDelay := 0 } : TmQ).mark s.now)

def execTmQClear (s : State) : Host.Outcome State Fault Refusal := .next (whenLive s State.tmClear)

end Sys2Proof.Machine
end

