-- ==== Sys2Proof/Machine/Faults.lean ====
section
/-! DEFINITION. The fault collector: classification and actions, the fault queue and the proof strip, phases, the safelight
state, step replays, recovery commands, verdicts and the quarantine governor (R487 to R519). -/
namespace Sys2Proof.Machine
open Sys2Proof

/-! Phases (R498). -/

def FltPhase.code : FltPhase → Nat
  | .startup => 0 | .service => 1 | .test => 2 | .recovery => 3 | .safelight => 7

/-- R497, R498: another phase begins: it has no head yet; once the strip is frozen the head stays. -/
def State.toPhase (s : State) (p : FltPhase) : State :=
  if s.flt.phase = p then s
  else { s with flt := { s.flt with phase := p, headValid := if s.flt.frozen then s.flt.headValid else false } }

/-- R498: whether a cause of RECOVERY holds. A severe action that is not an ISOLATE of an array completes as it is taken; that
one has completed when the array's substitution is no longer pending. -/
def State.recoveryCause (s : State) : Bool :=
  s.flt.part.any (fun e => e.2.st ≠ .running) || s.flag f_AVL_RMT_STATE_RECOVERING
  || s.arr.any (fun e => e.2.map = .swapPending || e.2.map = .copying)

/-- R498: the phase that holds; RECOVERY ends only at a shutter. -/
def State.phaseNow (s : State) (shutter : Bool) : FltPhase :=
  if s.flt.phase = .safelight then .safelight
  else if !s.valid then .startup
  else if s.flt.inTest then .test
  else if s.recoveryCause || (s.flt.phase = .recovery && !shutter) then .recovery
  else .service

/-- R498: the collector's phase at a shutter; FLT_CTL.TEST takes effect there. -/
def State.phaseShutter (s : State) : State :=
  let s := { s with flt := { s.flt with inTest := s.flag f_FLT_CTL_TEST } }
  let s := s.toPhase (s.phaseNow true)
  { s with flt := { s.flt with tested := s.flt.tested || s.flt.phase == .test } }

/-! The fault queue and the proof strip (R496, R497). -/

/-- R462, R493: a vector of the manager's function. -/
def State.fireMgr (s : State) (v : Nat) : State := s.fire (2 * s.get f_HST_ROLE_MGR_PORT) v

def FltMsg.words (m : FltMsg) : List Nat :=
  [m.source + 2 ^ 12 * m.kind + 2 ^ 20 * m.seq, m.tick, m.addr % 2 ^ 32, m.addr / 2 ^ 32 + 2 ^ 16 * m.aux]

def StripEntry.flags (e : StripEntry) : Nat :=
  (if e.valid then 1 else 0) + (if e.secondary then 2 else 0) + (if e.madeSevere then 4 else 0) + (if e.queued then 8 else 0)
    + 16 * e.action + 256 * e.phase

/-- R496, R213: a message enters the fault queue, three words, or is dropped. -/
def State.queueMsg (s : State) (m : FltMsg) : State × Bool :=
  if 3 * s.flt.queue.length + 3 ≤ 8192 then
    let s := { s with flt := { s.flt with queue := s.flt.queue ++ [m] } }
    (s.put f_FLT_Q_DEPTH_WORDS (3 * s.flt.queue.length), true)
  else (((s.bump f_FLT_DROP_CNT_COUNT).status f_FLT_STATUS_DROP).status f_MEM_STATUS_FIFO_DROP, false)

/-- R497: write an entry of the proof strip; the first of a phase is its head. -/
def State.stripWrite (s : State) (e : StripEntry) : State :=
  let f := s.flt
  if f.frozen then s
  else
    let i := f.ptr
    { s with flt := { f with
        strip := sset {} f.strip i e
        ptr := (i + 1) % 64
        wrapped := f.wrapped || i == 63
        headIdx := if f.headValid then f.headIdx else i
        head := if f.headValid then f.head else e
        headValid := true } }

/-- R500, R501, cycle 0: the safelight state is entered: strip and head freeze, vector 1 fires. Only a reset leaves it. -/
def State.safeEnter (s : State) : State :=
  if s.flt.phase = .safelight ∧ s.flt.frozen = true then s
  else ({ s with flt := { s.flt with phase := .safelight, frozen := true } } : State).fireMgr 1

/-! The governor (R513). -/

/-- R513: a quarantine is counted in its window or held. -/
def State.govern (s : State) (tick : Nat) (override : Bool) : State × Bool :=
  let f := s.flt
  let w := s.get f_FLT_GOV_CFG_WINDOW_K * 1024
  let fresh := f.govCnt = 0 ∨ (tick + 2 ^ 32 - f.govT0) % 2 ^ 32 ≥ w
  let c := if fresh then 0 else f.govCnt
  let t0 := if fresh then tick else f.govT0
  if c ≥ s.get f_FLT_GOV_CFG_MAX ∧ !override then ((s.raise srcFlt 0x71 0 0).status f_FLT_STATUS_GOV_HELD, false)
  else
    let s := { s with flt := { f with govT0 := t0, govCnt := min (c + 1) 255 } }
    (s.put f_FLT_GOV_VIEW_COUNT (min (c + 1) 255), true)

/-! Actions (R493, R494). -/

/-- The logical array that a physical array serves (R494): an OFFLINE one is served by none. -/
def State.servedArr (s : State) (p : Nat) : Option Nat :=
  (List.range 64).find? (fun n => s.hasArray n && s.physFor n == p && (s.arrOf n).map ≠ .offline)

/-- The logical core that a physical core serves. -/
def State.servedCore (s : State) (q : Nat) : Option Nat := (List.range 96).find? (fun c => s.hasCore c && s.physCore c == q)

/-- R489: the engines with a source number: kind, base die and engine. -/
def engineOf (src : Nat) : Option (Nat × Nat × Nat) :=
  if 0x180 ≤ src ∧ src < 0x1A0 then some (0, (src - 0x180) / 8, (src - 0x180) % 8)
  else if 0x1A0 ≤ src ∧ src < 0x1A8 then some (2, (src - 0x1A0) / 2, (src - 0x1A0) % 2)
  else if 0x1A8 ≤ src ∧ src < 0x1B0 then some (3, (src - 0x1A8) / 2, (src - 0x1A8) % 2)
  else if 0x1B0 ≤ src ∧ src < 0x1C0 then some (4, (src - 0x1B0) / 4, (src - 0x1B0) % 4)
  else if 0x1C0 ≤ src ∧ src < 0x1D0 then some (5, (src - 0x1C0) / 4, (src - 0x1C0) % 4)
  else none

/-- R494: an engine is isolated. Its queued radio jobs are reissued on the lowest other engine of the kind and die (R55);
open jobs, and radio jobs without such an engine, complete with status 3. -/
def State.isolateEngine (s : State) (src kind die e : Nat) : State :=
  let x := s.engOf src
  let other := s.otherEngine kind die (srcEngine kind die e)
  let s := s.setEng src { x with isolated := true, radioQ := [], openQ := [] }
  let fail (s : State) (j : AccJob) : State := s.sigComplete j.core j.thr j.job (accWord j.seq 3 j.kind j.eng j.radio j.radio)
  let s := x.openQ.foldl fail s
  match other with
  | some r =>
    x.radioQ.foldl (fun s j =>
      let y := s.engOf r
      let s := s.setEng r { y with radioQ := y.radioQ ++ [{ j with re := true }] }
      (({ s with tim := { s.tim with radioWork := s.tim.radioWork.map (fun w => if w.res = src then { w with res := r } else w) } } : State).status
        f_RAD_STATUS_REISSUE).bump f_RAD_REISSUE_CNT_COUNT |>.noteRerun) s
  | none =>
    x.radioQ.foldl (fun s j => (fail s j).workLost src 0) s

/-- R494: isolate the unit of a source; false where ISOLATE has no meaning for it. -/
def State.isolate (s : State) (src : Nat) : State × Bool :=
  if src < 72 ∨ (0x80 ≤ src ∧ src < 0x80 + 72) then
    match s.servedArr (src % 0x80) with
    | some n => (s.substitute n, true)
    | none => (s, false)
  else if 0x100 ≤ src ∧ src < 0x100 + 104 then
    match s.servedCore (src - 0x100) with
    | some c => (s.putB (f_SIG_CORE_ISOLATED c) true, true)
    | none => (s, false)
  else match engineOf src with
    | some (k, d, e) => (s.isolateEngine src k d e, true)
    | none => (s, false)

/-- R493: take an action, all but the entry into the safelight state; there ISOLATE and QUARANTINE only interrupt (R502). -/
def State.act (s : State) (a src tick : Nat) : State :=
  let safe := s.flt.phase == .safelight
  let s := if a ≥ 2 then s.fireMgr 0 else s
  if safe then s
  else if a = 3 then
    let (s, ok) := s.isolate src
    if ok then s else s.status f_FLT_STATUS_ACT_NA
  else if a = 4 then
    if 0x240 ≤ src ∧ src < 0x258 then
      let (s, ok) := s.govern tick false
      if ok then s.mvAnswered (s.quarantine (src - 0x240)) else s
    else s.status f_FLT_STATUS_ACT_NA
  else s

/-- R487, R532: the tick of the event that a message reports, from its low 32 bits: the last such tick. -/
def State.eventTick (s : State) (m : FltMsg) : Nat :=
  let d := (s.tim.tick + 2 ^ 32 - m.tick) % 2 ^ 32
  if d ≤ s.tim.tick then s.tim.tick - d else s.tim.tick

/-- R537: a fault message that leaves a FAULT record. -/
def auditedFault (kind action : Nat) (severe : Bool) : Bool :=
  decide (action ≥ 3) || severe || [0x01, 0x03, 0x33, 0x34, 0x38, 0x3A, 0x82].contains kind

/-- R492, R493, R496, R497: the collector handles one message; `forced` replaces what the policy gives its kind, with no
counting, and `second` sets SECONDARY in its entry (R499, R500). -/
def State.collect (s : State) (m : FltMsg) (forced : Option Nat) (second : Bool) : State :=
  let ev := forced.getD (s.get (f_FLT_KIND_POL_EVENT m.kind))
  let sv := s.get (f_FLT_KIND_POL_SEVERE m.kind)
  let counted := forced.isNone && s.flag (f_FLT_KIND_POL_COUNTED m.kind) && !(decide (0x80 ≤ m.kind) && decide (m.kind ≤ 0x8F))
  let r := s.src m.source
  let fresh := r.c = 0 ∨ (m.tick + 2 ^ 32 - r.t0) % 2 ^ 32 ≥ r.w
  let c := min ((if fresh then 0 else r.c) + 1) 255
  let made := counted && r.n ≠ 0 && decide (c ≥ r.n) && !r.severe
  let r' : FltSource := { r with c := c, t0 := if fresh then m.tick else r.t0, severe := r.severe || made }
  let s := if counted then { s with flt := { s.flt with src := sset {} s.flt.src m.source r' } } else s
  let top := if made then max ev sv else ev
  let (s, queued) : State × Bool := if top ≥ 1 then s.queueMsg m else (s, false)
  let s := s.act ev m.source m.tick
  let s := if made then ((s.fireMgr 1).status f_FLT_STATUS_SEVERE).act sv m.source m.tick else s
  let safe := ev = 5 ∨ (made ∧ sv = 5)
  let s := if safe ∧ s.flt.phase ≠ .safelight then s.toPhase .safelight else s.toPhase (s.phaseNow false)
  let e : StripEntry :=
    { msg := m, valid := true, secondary := second, madeSevere := made, queued := queued, action := top, phase := s.flt.phase.code }
  let s := if top ≥ 1 then s.stripWrite e else s
  let s := if auditedFault m.kind top made then s.audit 0x07 0 (s.eventTick m) 64 (m.words.flatMap (leBytes 4) ++ leBytes 4 e.flags) else s
  if safe then s.safeEnter else s

/-- FAULT_MESSAGE (R495): the oldest message is handled. -/
def State.faultMessage (s : State) : State :=
  match s.flt.inbox with
  | [] => s
  | m :: rest => (({ s with flt := { s.flt with inbox := rest } } : State).toPhase (s.phaseNow false)).collect m none false

def execFaultMessage (s : State) : Host.Outcome State Fault Refusal := .next s.faultMessage

/-- R491: load a policy, or the defaults of reset without one. -/
def State.loadPolicy (s : State) (kinds : List (Nat × Nat × Nat × Bool)) (srcs : List (Nat × Nat × Nat)) : State :=
  let s := (List.range 256).foldl (fun s k => s.setReg (r_FLT_KIND_POL k) 0x12) s
  let s := kinds.foldl (fun s (k : Nat × Nat × Nat × Bool) =>
    s.setReg (r_FLT_KIND_POL (k.1 % 256)) (BitVec.ofNat 32 (k.2.1 % 8 + 8 * (k.2.2.1 % 8) + (if k.2.2.2 then 64 else 0)))) s
  let old : SMap FltSource := s.flt.src.filterMap (fun (e : Nat × FltSource) =>
    let r : FltSource := { e.2 with n := 0, w := 1 }
    if r == ({} : FltSource) then none else some (e.1, r))
  { s with flt := { s.flt with src := srcs.foldl (fun m (k : Nat × Nat × Nat) => smod {} m k.1 (fun (r : FltSource) => { r with n := k.2.1, w := k.2.2 })) old } }

/-- A message made and handled at once (R499, R500). -/
def State.collectOwn (s : State) (kind action : Nat) (second : Bool) : State :=
  let r := s.src srcFlt
  let m : FltMsg := { source := srcFlt, kind := kind, seq := r.seq, tick := s.tim.tick % 2 ^ 32, addr := 0, aux := 0 }
  let s := { s with flt := { s.flt with src := sset {} s.flt.src srcFlt { r with seq := (r.seq + 1) % 4096, lastSeq := r.seq } } }
  s.collect m (some action) second

/-- COLLECTOR_SELF_FAULT (R499). -/
def State.selfFault (s : State) : State :=
  let s := s.toPhase (s.phaseNow false)
  if s.flt.phase = .service then (s.collectOwn 0x70 2 false).safeEnter
  else
    let s := s.status f_FLT_STATUS_SELF
    let f := s.flt
    let had := f.headValid || f.frozen
    let s := if f.headValid && !f.frozen then
        let mark := (sget {} f.strip f.headIdx).msg == f.head.msg
        { s with flt := { f with
            head := { f.head with secondary := true }
            strip := if mark then smod {} f.strip f.headIdx (fun (e : StripEntry) => { e with secondary := true }) else f.strip } }
      else s
    let s := match s.img with
      | some g => s.loadPolicy g.kindPol g.srcPol
      | none => s.loadPolicy [] []
    let s := { s with flt := { s.flt with src := s.flt.src.filterMap (fun (e : Nat × FltSource) =>
      let r : FltSource := { e.2 with c := 0, t0 := 0 }
      if decide (r = ({} : FltSource)) = true then none else some (e.1, r)) } }
    s.collectOwn 0x70 2 (!had)

def execCollectorSelfFault (s : State) : Host.Outcome State Fault Refusal := .next s.selfFault

/-! The safelight state (R500 to R502). -/

/-- R502: FAULT_L is asserted while a source is SEVERE and in the safelight state. -/
def State.faultL (s : State) : Bool := s.flt.phase == .safelight || s.flt.src.any (fun e => e.2.severe)

/-- R502, R533: the SAFELIGHT record, from the frozen strip. -/
def State.safeRecord (s : State) : State :=
  let f := s.flt
  let entry (e : StripEntry) : List Byte := e.msg.words.flatMap (leBytes 4) ++ leBytes 4 e.flags
  let ptr := f.ptr + (if f.wrapped then 64 else 0) + 256 * f.headIdx + (if f.headValid then 2 ^ 14 else 0) + 2 ^ 15
  let strip := (List.range 64).flatMap (fun i => padTo 32 (entry (sget {} f.strip i)))
  s.audit 0x0A 0 s.tim.tick 112 (entry f.head ++ leBytes 4 ptr ++ sha384 strip)

/-- SAFELIGHT_ENTRY (R501, R502): what follows the cause: the ports send SAFE flits, LPDDR6 enters self-refresh, the
SAFELIGHT record is written, a pending delta is discarded (R569), and SAFE_L is asserted at the end. -/
def State.safeSequence (s : State) : State :=
  if s.flt.phase ≠ .safelight ∨ s.flt.safeL = true then s
  else
    let s := s.safeEnter
    let s := (List.range 24).foldl (fun s p => (s.enterPort p 7).emit (.flit p { typ := .safe })) s
    let s := { s with ms := { s.ms with selfRefresh := true } }
    let s := s.safeRecord
    { s with flt := { s.flt with safeL := true }, boot := { s.boot with delta := none } }

def execSafelightEntry (s : State) : Host.Outcome State Fault Refusal := .next s.safeSequence

/-- FLT_SAFELIGHT (R500): FLT_CTL.SAFELIGHT is written 1. -/
def execFltSafelight (s : State) : Host.Outcome State Fault Refusal :=
  .next (whenLive s (fun s => ((s.toPhase (s.phaseNow false)).collectOwn 0x72 1 false).safeEnter))

/-- FLT_TEST (R498): FLT_CTL.TEST is written; it takes effect at the next shutter. -/
def execFltTest (v : Bool) (s : State) : Host.Outcome State Fault Refusal := .next (whenLive s (fun s => s.putB f_FLT_CTL_TEST v))

/-- R504: the offsets of the set-counts of the chip. -/
def setCounts : List Nat :=
  [r_CLK_SHT_STATUS, r_ARR_MAP_STATUS, r_MEM_STATUS, r_SRV_STATUS, r_SPC_STATUS, r_CMP_STATUS, r_AVL_STATUS, r_AVL_RMT_STATUS,
    r_SYN_STATUS, r_SIG_STATUS, r_RAD_STATUS, r_FH_STATUS, r_PTP_STATUS, r_TM_STATUS, r_HST_STATUS, r_FLT_STATUS, r_AUD_STATUS,
    r_BOOT_STATUS, r_IMG_STATUS, r_CLK_STATUS, r_PWR_STATUS].map (· + 4)
  ++ (List.range 16).map (fun p => r_SRV_PIPE_STATUS p + 4) ++ (List.range 24).map (fun p => r_AVL_PORT_STATUS p + 4)
  ++ (List.range 64).flatMap (fun n => [r_ARR_STATUS n + 4, r_ARR_NUM_STATUS n + 4, r_TE_STATUS n + 4])

/-- R504: every set-count becomes 0. -/
def State.cntClear (s : State) : State := setCounts.foldl (fun s o => s.setReg o 0) s

/-- CNT_CLEAR (R504). -/
def execCntClear (s : State) : Host.Outcome State Fault Refusal := .next (whenLive s State.cntClear)

/-- FLT_INJECT (R515): the fields are stored; in TEST the message is sent. -/
def State.inject (s : State) (src kind : Nat) : State :=
  let s := (s.put f_FLT_INJECT_SOURCE src).put f_FLT_INJECT_KIND kind
  if s.flt.phase = .test then s.raise src kind 0 0xFFFF else s

def execFltInject (src : BitVec 12) (kind : BitVec 8) (s : State) : Host.Outcome State Fault Refusal :=
  .next (whenLive s (fun s => s.inject src.toNat kind.toNat))

/-! Recovery commands (R509, R510). -/

/-- Results of FLT_RCMD_RES.RESULT. -/
inductive Rcmd where
  | applied | noop | refused | held
  deriving DecidableEq, Repr

def Rcmd.code : Rcmd → Nat
  | .applied => 0 | .noop => 1 | .refused => 2 | .held => 3

/-- R510: the registers of a recovery command; its outcome is there at once. -/
def State.rcmd (s : State) (op arg rseq : Nat) (f : State → State × Rcmd) : State :=
  let s := ((s.setReg r_FLT_RCMD_ARG (BitVec.ofNat 32 arg)).put f_FLT_RCMD_OP op).put f_FLT_RCMD_RSEQ rseq
  let (s, r) := f s
  (s.put f_FLT_RCMD_RES_RESULT r.code).put f_FLT_RCMD_RES_RSEQ rseq

def State.setPeer (s : State) (c : Nat) (x : PeerRec) : State := { s with flt := { s.flt with peers := sset {} s.flt.peers c x } }

/-- R510, R513: VERDICT. -/
def State.doVerdict (s : State) (arg rseq : Nat) : State × Rcmd :=
  let c := bits arg 11 0
  let x := sget {} s.flt.peers c
  let dead := bitAt arg 12
  if rseq = x.rseq then (s, .noop)
  else if c = s.chipId ∨ c = 0xFFF then (s, .refused)
  else
    let (s, ok) : State × Bool := if dead then s.govern (s.tim.tick % 2 ^ 32) (bitAt arg 13) else (s, true)
    if ok then (s.setPeer c { x with dead := dead, pend := some s.tim.expo, rseq := rseq }, .applied) else (s, .held)

def execVerdict (arg : BitVec 32) (rseq : BitVec 16) (s : State) : Host.Outcome State Fault Refusal :=
  .next (whenLive s (fun s => s.rcmd 1 arg.toNat rseq.toNat (fun s => s.doVerdict arg.toNat rseq.toNat)))

def State.partRec (s : State) (p : Nat) : PartRec := sget {} s.flt.part p
def State.setPartRec (s : State) (p : Nat) (x : PartRec) : State := { s with flt := { s.flt with part := sset {} s.flt.part p x } }

/-- R507, R510: REPLAY. -/
def State.doReplay (s : State) (arg rseq : Nat) : State × Rcmd :=
  let p := bits arg 3 0
  let x := s.partRec p
  if rseq = x.rseq then (s, .noop)
  else if x.st ≠ .stepFault then (s, .refused)
  else (s.setPartRec p { x with st := .replaying, attempts := 1, held := false, cmd := true, since := s.tim.expo, rseq := rseq }, .applied)

def execReplay (arg : BitVec 32) (rseq : BitVec 16) (s : State) : Host.Outcome State Fault Refusal :=
  .next (whenLive s (fun s => s.rcmd 2 arg.toNat rseq.toNat (fun s => s.doReplay arg.toNat rseq.toNat)))

/-- R510: SRC_CLEAR. -/
def State.doSrcClear (s : State) (arg rseq : Nat) : State × Rcmd :=
  let k := bits arg 11 0
  let x := s.src k
  if rseq = x.rseq then (s, .noop)
  else if !srcListed k then (s, .refused)
  else ({ s with flt := { s.flt with src := sset {} s.flt.src k { x with c := 0, severe := false, rseq := rseq } } }, .applied)

def execSrcClear (arg : BitVec 32) (rseq : BitVec 16) (s : State) : Host.Outcome State Fault Refusal :=
  .next (whenLive s (fun s => s.rcmd 3 arg.toNat rseq.toNat (fun s => s.doSrcClear arg.toNat rseq.toNat)))

/-- R510: a GO with an OP that the table does not list. -/
def State.badRcmd (s : State) (op arg rseq : Nat) : State := s.rcmd op arg rseq (fun s => (s, .refused))

/-! Verdicts (R512). -/

/-- R512: one verdict takes effect. -/
def State.applyVerdict (s : State) (c : Nat) : State :=
  let x := sget {} s.flt.peers c
  let s := s.setPeer c { x with inForce := x.dead, pend := none }
  let s := s.raise srcFlt 0x82 0 c
  if x.dead then
    let gone := s.net.reqs.filter (fun r => r.pkt.dst == c && r.done.isNone)
    let s := gone.foldl (fun s r => s.deadFinish r) s
    (s.settle c).containDead [c]
  else s

/-- VERDICT_APPLIED (R512): at a shutter, the verdicts applied before it take effect. -/
def State.verdicts (s : State) : State :=
  (s.flt.peers.filter (fun e => e.2.pend.any (fun k => decide (k < s.tim.expo)))).foldl (fun s e => s.applyVerdict e.1) s

def execVerdictApplied (s : State) : Host.Outcome State Fault Refusal := .next (whenLive s (fun s => s.mvAnswered s.verdicts))

/-! Replays (R507, R508). -/

/-- R507: the job's chains have ended: no pass that it issued runs or waits, on any array. -/
def State.chainsEnded (s : State) (id : Nat) : Bool :=
  s.arr.all (fun e => e.2.run.all (fun p => p.d.radio || p.d.job ≠ id) && e.2.openQ.all (fun p => p.d.job ≠ id)
    && e.2.spills.all (fun v => v.job ≠ id))

/-- R507: no substitution of the partition's arrays is pending. -/
def State.partSteady (s : State) (p : Nat) : Bool :=
  s.arr.all (fun e => !(e.2.map = .swapPending || e.2.map = .copying) || s.partOfArr e.1 ≠ some p)

/-- R508: the job's threads, channels and chains are reset and the kept plan waits for its start. -/
def State.replayPlan (s : State) (p : Nat) (j : Job) : State :=
  let s := { s with
    te := { s.te with thr := s.te.thr.map (fun (e : Nat × Thr) => (e.1, if e.2.job = j.id then
      { st := .idle, kind := e.2.kind, job := j.id, prio := e.2.prio, tenant := e.2.tenant, slot := e.2.slot, part := e.2.part, pc := j.entry } else e.2)) }
    sig := { s.sig with thr := s.sig.thr.map (fun (e : Nat × SigThr) => (e.1, if e.2.job = j.id ∧ !e.2.radio then
      { st := .idle, kind := e.2.kind, job := j.id, prio := e.2.prio, tenant := e.2.tenant, slot := e.2.slot, part := e.2.part, pc := j.entry } else e.2)) } }
  let s := j.arrayList.foldl (fun s n =>
    let a := s.arrOf n
    let s := s.setArr n { a with chains := a.chains.filter (fun c => c.radio || c.job ≠ j.id), cur := if a.cur = some j.id then none else a.cur }
    (List.range 16).foldl (fun s c =>
      let ch := s.dmaCh n c
      if ch.job = some j.id then (s.setDmaCh n c { job := ch.job, part := ch.part, acct := ch.acct }).setMv (16 * n + c) {} else s) s) s
  s.modSp p (fun x => { x with phase := .planned, start := s.tim.tick, holdAt := s.tim.expo, waitAt := none, ended := false })

/-- REPLAY_START (R507, R508): at a shutter the replay starts, or the partition is held for a REPLAY command. -/
def State.replayStart (s : State) (p : Nat) : State :=
  let x := s.partRec p
  let job := (s.spOf p).job.bind s.jobOf
  match job with
  | none => s
  | some j =>
    let due := decide (x.since < s.tim.expo) && s.chainsEnded j.id && s.partSteady p
    if !due then s
    else if x.st = .replaying ∧ x.cmd = true then (s.replayPlan p j).setPartRec p { x with cmd := false }
    else if x.st = .stepFault ∧ x.held = false then
      if s.flag f_FLT_REPLAY_CFG_AUTO ∧ x.attempts < s.get f_FLT_REPLAY_CFG_MAX then
        (s.replayPlan p j).setPartRec p { x with st := .replaying, attempts := x.attempts + 1 }
      else s.setPartRec p { x with held := true }
    else s

def execReplayStart (p : Fin 16) (s : State) : Host.Outcome State Fault Refusal := .next (whenLive s (fun s => s.replayStart p))

/-- REPLAY_WAIT_TIMEOUT (R507). -/
def State.replayTimeout (s : State) (p : Nat) : State :=
  let x := s.partRec p
  if x.st = .stepFault ∧ x.tmo = false ∧ s.tim.expo - x.since ≥ s.get f_FLT_REPLAY_CFG_WAIT_EXP then
    let s := (s.setPartRec p { x with tmo := true }).modSp p (fun y => { y with halt := 2, resumed := false })
    let s := (s.putB (f_SRV_PART_CTL_HALTED p) true).raise srcServe 0x34 ((s.spOf p).step % 2 ^ 48) p
    s.status f_FLT_STATUS_REPLAY_TMO
  else s

def execReplayWaitTimeout (p : Fin 16) (s : State) : Host.Outcome State Fault Refusal := .next (whenLive s (fun s => s.replayTimeout p))

/-! Reading the fault queue (R517). -/

/-- FLT_QUEUE_READ (R517): a read of FLT_Q_W0 takes the oldest message and latches its other words and its tag. -/
def State.fltQueueRead (s : State) (req : Nat) : State :=
  if s.boot.por then s
  else match s.flt.queue with
  | [] => ({ s with flt := { s.flt with lastQ := {}, lastQValid := false, lastQErr := 0 } } : State).emit (.regData req (r_FLT_Q_W0) 0)
  | m :: rest =>
    let s : State := { s.fifoTake 0 3 with flt := { s.flt with queue := rest, lastQ := m, lastQValid := true, lastQErr := s.fifoTag 0 3 } }
    (s.put f_FLT_Q_DEPTH_WORDS (3 * rest.length)).emit (.regData req (r_FLT_Q_W0) (BitVec.ofNat 32 (m.words.getD 0 0)))

def execFltQueueRead (req : Fin 4) (s : State) : Host.Outcome State Fault Refusal := .next (s.fltQueueRead req.val)

end Sys2Proof.Machine
end

