-- ==== Sys2Proof/Machine/Resets.lean ====
section
/-! DEFINITION. The resets of the whole device (R550, R617, R618), the reset rows, and the input filters (R608 to R610). -/
namespace Sys2Proof.Machine
open Sys2Proof

/-! What is not state of the device's logic. -/

/-- R618: the listed bytes whose addresses satisfy p hold unspecified values from now on. -/
def State.forget (s : State) (p : Nat → Bool) : State :=
  ((s.mem.filter (fun e => p e.1)).map (·.1)).foldl (fun s a => s.freeRange a 1) s

/-- R17: whether a local physical address lies in LPDDR6. -/
def inLpddr (a : Nat) : Bool := decide (a < 0x018000000000)

/-- What every reset keeps: the fuses (R20, R22), the flashes with the audit ring (R557, R542), what the board drives on pins, and the
model's own records. Of the memory nothing survives: what it held is unspecified (R618). The newest committed block of the audit ring gives
the number and the digest that the next one takes (R542). -/
def State.fixed (s : State) : State :=
  let m := s.forget (fun _ => true)
  { grade56 := s.grade56
    coreDis := s.coreDis
    die := s.die.filterMap (fun (e : Nat × Die) => if e.2.disabled = 15 then none else some (e.1, { disabled := e.2.disabled }))
    boot := { flA := s.boot.flA, flB := s.boot.flB, rstL := s.boot.rstL }
    aud := { ringA := s.aud.ringA, ringB := s.aud.ringB, newest := s.aud.newest
             next := (s.aud.newest.map (·.seq + 1)).getD 0, prev := (s.aud.newest.map (·.digest)).getD [] }
    hst := { perst := s.hst.perst }
    pins := { x8 := s.pins.x8 }
    out := s.out
    mem := m.mem
    free := m.free
    pending := s.pending }

/-- R617: copy a register from the state before a reset. -/
def State.keepReg (s old : State) (off : Nat) : State := s.setReg off (old.reg off)

/-- R553: a CHIP reset starts at stage FW_VERIFY; one that comes during the stages of the always-on domain leaves them. -/
def stageAfterChip (st : Nat) : Nat := if st < 3 then st else 3

/-- R550, R617, R618: a CHIP reset. The always-on domain keeps the crystal, the time base, the derived keys and the registers that
R617 lists; shutters run at the default period on the kept time base (R48). -/
def State.chipReset (s : State) : State :=
  let t := s.now
  let r := s.fixed
  let r : State := { r with
    boot := { r.boot with keys := s.boot.keys, resetNs := t }
    clk := { s.clk with gone := false }
    pins := { r.pins with units := s.pins.units }
    tim := { r.tim with tb := t, frac := s.tim.frac, tick := t / 125000, nextEdge := (t / 125000 + 1) * 125000, expo := s.tim.expo }
    hst := { r.hst with hbAt := t } }
  let r := [r_CLK_SRC, r_CLK_XTAL_CNT, r_CLK_TREF_PPM, r_PWR_AON].foldl (fun (r : State) o => r.keepReg s o) r
  (r.put f_BOOT_STAGE_STAGE (stageAfterChip (s.get f_BOOT_STAGE_STAGE))).put f_BOOT_STAGE_RESET_KIND 1

/-- R550: a COLD reset, with the supplies that are present. RESET_L is low until the board releases it (R614). -/
def State.coldReset (s : State) (a b : Bool) : State :=
  let r := s.fixed
  let r : State := { r with boot := { r.boot with rstL := true } }
  ((r.putB f_PWR_AON_A_OK a).putB f_PWR_AON_B_OK b).putB f_PWR_AON_ACTIVE (!a)

/-- COLD_RESET (R550): an always-on supply rises with none present before. -/
def execColdReset (a b : Bool) (s : State) : Host.Outcome State Fault Refusal := .next (if a || b then s.coldReset a b else s)

/-- CHIP_RESET (R550): RESET_L is asserted; it stays low until the board releases it. -/
def State.resetL (s : State) : State :=
  if s.boot.por then s else { s.chipReset with boot := { s.chipReset.boot with rstL := true } }

def execChipReset (s : State) : Host.Outcome State Fault Refusal := .next s.resetL

/-- WATCHDOG_EXPIRY (R551). -/
def execWatchdogExpiry (s : State) : Host.Outcome State Fault Refusal := .next (if s.boot.por then s else s.chipReset)

/-- BOOT_RESET (R552): a write of KEY 0x5A17 with GO; any other KEY is ignored. -/
def execBootReset (key : BitVec 16) (s : State) : Host.Outcome State Fault Refusal :=
  .next (if key.toNat = 0x5A17 ∧ !s.boot.por then s.chipReset else s)

/-- RESET_RELEASE (R614): the board releases RESET_L. -/
def execResetRelease (s : State) : Host.Outcome State Fault Refusal := .next { s with boot := { s.boot with rstL := false } }

/-- POWER_ON_RESET (R585): both always-on supplies fall below 1.62 V; every pin is in its reset state and nothing runs. -/
def State.powerOff (s : State) : State :=
  let r := s.fixed
  { r with boot := { r.boot with por := true } }

def execPowerOnReset (s : State) : Host.Outcome State Fault Refusal := .next s.powerOff

/-! Input filters (R608 to R610). -/

/-- R608: inputs whose filter is held at 0. -/
def pinFixed (i : Nat) : Bool := decide (9 ≤ i) && decide (i ≤ 13)

/-- PIN_FILTER_WRITE (R609, R610): UNITS of the selected input; a value above 50 or a fixed input changes nothing. -/
def State.pinFilter (s : State) (v : Nat) : State :=
  let i := s.get f_PWR_PIN_SEL_PIN
  if v ≤ 50 ∧ i ≤ 13 ∧ pinFixed i = false then { s with pins := { s.pins with units := lset s.pins.units i v } } else s

def execPinFilterWrite (v : BitVec 6) (s : State) : Host.Outcome State Fault Refusal := .next (whenLive s (fun s => s.pinFilter v.toNat))

/-- R610: the filtered level of an input: what the board drives, and the level of the board's resistor where nothing drives (R604). -/
def State.pinLevel (s : State) (i : Nat) : Bool :=
  match i with
  | 0 => !s.boot.rstL
  | 1 => !s.hst.perst.contains 0
  | 2 => !s.hst.perst.contains 1
  | 3 => !s.pins.x8.contains 0
  | 4 => !s.pins.x8.contains 1
  | 5 | 6 | 7 | 9 | 11 | 12 => true
  | _ => false

end Sys2Proof.Machine
end

