-- ==== Sys2Proof/Machine/Clocks.lean ====
section
/-! DEFINITION. The reference inputs: qualification of the crystal and of TIMEREF, and what the loss of each does (R573 to R580). -/
namespace Sys2Proof.Machine
open Sys2Proof

/-- CLK_SRC.XTAL_STATE. -/
def State.xtal (s : State) : Nat := s.get f_CLK_SRC_XTAL_STATE
/-- R578: whether TIMEREF is valid. -/
def State.tref (s : State) : Bool := s.flag f_CLK_SRC_TREF_VALID

/-- R574: whether the last windows qualify the crystal: 16 counts within 1.5% of 50,000, no two more than 2 apart. -/
def xtalGood (l : List Nat) : Bool :=
  l.length == 16 && l.all (fun c => decide (49250 ≤ c) && decide (c ≤ 50750)) && decide (l.foldl max 0 ≤ l.foldl min 65535 + 2)

/-- R592: `CLK_XTAL_CNT` and `CLK_SRC.RUN` after a window. -/
def State.showWindows (s : State) : State :=
  let l := s.clk.win
  let range := if l.length < 16 then 0xFFFF else l.foldl max 0 - l.foldl min 65535
  ((s.put f_CLK_XTAL_CNT_LAST (l.getLast?.getD 0)).put f_CLK_XTAL_CNT_RANGE range).put f_CLK_SRC_RUN l.length

/-- R580: no PLL reference remains: every output is in its reset state, the strip's last entry is CLK_SRC_LOST, the strip is frozen,
FAULT_L and SAFE_L are asserted, what LPDDR6 holds is not preserved, and the device is in the safelight state until the crystal
requalifies. -/
def State.refLoss (s : State) : State :=
  if s.clk.gone then s
  else
    let r := s.src srcClk
    let m : FltMsg := { source := srcClk, kind := 0x60, seq := r.seq, tick := s.tim.tick % 2 ^ 32, addr := 0, aux := 0 }
    let s := { s with flt := { s.flt with src := sset {} s.flt.src srcClk { r with seq := (r.seq + 1) % 4096, lastSeq := r.seq } } }
    let s := s.toPhase .safelight
    let s := s.stripWrite { msg := m, valid := true, action := 1, phase := 7 }
    let s := (List.range 24).foldl (fun (s : State) p => s.enterPort p 0) s
    let s : State := { s with
      flt := { s.flt with frozen := true }
      clk := { s.clk with gone := true }
      hst := { s.hst with linkUp := [], linkRate := [] } }
    let s := (s.safeRecord).forget inLpddr
    { s with flt := { s.flt with safeL := true } }

/-- R579: the crystal is lost: the always-on domain moves to the trimmed oscillator; without TIMEREF no reference remains. -/
def State.loseXtal (s : State) : State :=
  let s := ((s.put f_CLK_SRC_XTAL_STATE 3).putB f_CLK_SRC_AON_XTAL false).put f_CLK_SRC_RUN 0
  let s := ({ s with clk := { s.clk with win := [], run := 0 } } : State).status f_CLK_STATUS_XTAL_LOST
  if s.tref then s.raise srcClk 0x61 0 0 else s.refLoss

/-- R574, R577, R580: the crystal qualifies: the always-on domain moves to it and start-up goes on; after the loss of every reference
the device then makes a CHIP reset. -/
def State.qualify (s : State) : State :=
  let s := ((s.put f_CLK_SRC_XTAL_STATE 2).putB f_CLK_SRC_AON_XTAL true).status f_CLK_STATUS_XTAL_QUAL
  if s.clk.gone then s.chipReset
  else if s.get f_BOOT_STAGE_STAGE = 2 then s.put f_BOOT_STAGE_STAGE 3
  else s

/-- XTAL_WINDOW (R574): a window ends with a count. -/
def State.xtalWindow (s : State) (c : Nat) : State :=
  if s.boot.por then s
  else
    let l := s.clk.win ++ [c]
    let s := ({ s with clk := { s.clk with win := l.drop (l.length - 16) } } : State).showWindows
    if s.xtal = 2 then (if 49250 ≤ c ∧ c ≤ 50750 then s else s.loseXtal)
    else
      let s := if s.xtal = 0 then s.put f_CLK_SRC_XTAL_STATE 1 else s
      if xtalGood s.clk.win then s.qualify else s

def execXtalWindow (count : BitVec 16) (s : State) : Host.Outcome State Fault Refusal := .next (s.xtalWindow count.toNat)

/-- XTAL_QUAL_TIMEOUT (R575): the crystal is not qualified by 20 ms. -/
def State.qualTimeout (s : State) : State :=
  if s.get f_BOOT_STAGE_STAGE ≤ 2 ∧ s.xtal ≠ 2 ∧ s.clk.tmo = false ∧ s.boot.por = false then
    (({ s with clk := { s.clk with tmo := true } } : State).put f_CLK_SRC_XTAL_STATE 1).raise srcClk 0x61 0 0
  else s

def execXtalQualTimeout (s : State) : Host.Outcome State Fault Refusal := .next s.qualTimeout

/-- R578, R579: TIMEREF stops being valid: the PLLs move to the crystal; without one no reference remains. -/
def State.loseTref (s : State) : State :=
  let s := { s with clk := { s.clk with run := 0 } }
  if s.tref then
    let s := (s.putB f_CLK_SRC_TREF_VALID false).status f_CLK_STATUS_TREF_LOST
    if s.xtal = 2 then
      let s := s.raise srcClk 0x60 0 0
      if s.flag f_CLK_SRC_REF_TREF then (s.putB f_CLK_SRC_REF_TREF false).status f_CLK_STATUS_REF_SWITCH else s
    else (s.putB f_CLK_SRC_REF_TREF false).refLoss
  else s

/-- TIMEREF_WINDOW (R578): a 1 ms window ends with a frequency in ppm against the crystal; it is measured while the crystal is
qualified. -/
def State.trefWindow (s : State) (ppm : Nat) : State :=
  if s.boot.por ∨ s.xtal ≠ 2 then s
  else
    let s := s.put f_CLK_TREF_PPM_PPM ppm
    let x := toSigned 16 ppm
    if -100 ≤ x ∧ x ≤ 100 then
      let n := min (s.clk.run + 1) 16
      let s := { s with clk := { s.clk with run := n } }
      if n = 16 then s.putB f_CLK_SRC_TREF_VALID true else s
    else s.loseTref

def execTimerefWindow (ppm : BitVec 16) (s : State) : Host.Outcome State Fault Refusal := .next (s.trefWindow ppm.toNat)

/-- TIMEREF_LOST (R578, R579): no edge arrives for 100 ns. -/
def execTimerefLost (s : State) : Host.Outcome State Fault Refusal := .next (if s.boot.por then s else s.loseTref)

/-- XTAL_LOST (R579): no edge of a qualified crystal arrives for 10 cycles. -/
def execXtalLost (s : State) : Host.Outcome State Fault Refusal := .next (if s.xtal = 2 ∧ !s.boot.por then s.loseXtal else s)

/-- REFERENCE_LOSS (R580): the crystal is lost while TIMEREF is not valid. -/
def execReferenceLoss (s : State) : Host.Outcome State Fault Refusal :=
  .next (if s.boot.por || s.tref || decide (s.xtal < 2) then s else if s.xtal = 2 then s.loseXtal else s.refLoss)

/-- R578: at the first shutter after TIMEREF became valid, the PLLs take it as their reference. -/
def State.takeTref (s : State) : State :=
  if s.tref && !s.flag f_CLK_SRC_REF_TREF then (s.putB f_CLK_SRC_REF_TREF true).status f_CLK_STATUS_REF_SWITCH else s

end Sys2Proof.Machine
end

