-- ==== Sys2Proof/Machine/Pins.lean ====
section
/-! DEFINITION. The lands of the package (R596 to R603) and the states of the pins in reset (R604, R605). -/
namespace Sys2Proof.Machine
open Sys2Proof

/-! The land map. -/

/-- R596: a land, by column and row, each from 1 to 108. -/
structure Land where
  col : Nat
  row : Nat
  deriving DecidableEq, Repr

/-- R597: the global land of local land (x, y) of base die `bd`. -/
def landOf (bd x y : Nat) : Land :=
  { col := if bd % 2 = 0 then x else 109 - x
    row := if bd < 2 then y else 109 - y }

/-- R598: the regions of a quadrant. -/
inductive LandRegion where
  | m | q | s | e | a | c
  deriving DecidableEq, Repr

/-- R598: the region of local land (x, y), x and y from 1 to 54. -/
def regionOf (x y : Nat) : LandRegion :=
  if y ≤ 32 then (if x ≤ 51 then .m else .q)
  else if x ≤ 27 then .s else if x ≤ 31 then .e else if x ≤ 35 then .a else .c

/-- R586: the supply rails, and ground. -/
inductive Rail where
  | vcore | vsram | vserdesL | vserdesH | vddqLp | vaonA | vaonB | vio | vss
  deriving DecidableEq, Repr

/-- R598, R599: the rail on a land of the power regions and on the ground columns of regions M and S; none for a slot. -/
def railAt (x y : Nat) : Option Rail :=
  let even := (x + y) % 2 == 0
  match regionOf x y with
  | .m | .s => if x % 3 = 0 then some .vss else none
  | .q => some (if even then .vddqLp else .vss)
  | .e => some (if even then .vserdesL else if 47 ≤ y then .vserdesH else .vss)
  | .a => some (if even then .vsram else .vss)
  | .c => some (if even then .vcore else .vss)

/-- R599: the local land of slot `k` of region M (`m` true) or S. -/
def slotLand (m : Bool) (k : Nat) : Nat × Nat :=
  let len := if m then 34 else 18
  let j := k % len
  (3 * (j / 2) + 1 + j % 2, (if m then 1 else 33) + k / len)

/-- R600: the signals of an LPDDR6 channel, in the order of their offsets. -/
def lpSignals : List String :=
  ["CK_P", "CK_N", "WCK0_P", "WCK0_N", "WCK1_P", "WCK1_N", "RDQS0_P", "RDQS0_N", "RDQS1_P", "RDQS1_N", "CS0", "CS1"]
    ++ ["CA0", "CA1", "CA2", "CA3", "CA0", "CA1", "CA2", "CA3"]
    ++ (List.range 24).map (fun n => "DQ" ++ toString n)

/-- R600: the land of the signal at `off` (below 44) of channel `ch` of LPDDR6 controller `i`. -/
def lpLand (i ch off : Nat) : Land :=
  let l := slotLand true (178 * (i % 6) + 44 * ch + off)
  landOf (i / 6) l.1 l.2

/-- R600: the lands of LPi_ZQ and LPi_RESET_L. -/
def lpCtlLand (i : Nat) (reset : Bool) : Land :=
  let l := slotLand true (178 * (i % 6) + 176 + (if reset then 1 else 0))
  landOf (i / 6) l.1 l.2

/-- R601: the legs of a lane: TX_P, TX_N, RX_P, RX_N. -/
inductive Leg where
  | txP | txN | rxP | rxN
  deriving DecidableEq, Repr

def Leg.num : Leg → Nat
  | .txP => 0
  | .txN => 1
  | .rxP => 2
  | .rxN => 3

/-- R601: the land of slot `k` of region S of base die `bd`. -/
def sLand (bd k : Nat) : Land := let l := slotLand false k; landOf bd l.1 l.2

/-- R601: the land of a leg of lane `lane` (0 to 8) of Asivipin port `p`. -/
def portLand (p lane : Nat) (g : Leg) : Land := sLand (p / 6) (36 * (p % 6) + 4 * lane + g.num)

/-- R601: the land of a leg of lane `lane` (0 to 3) of fronthaul port `p`. -/
def fhLand (p lane : Nat) (g : Leg) : Land := sLand (p / 2) (216 + 16 * (p % 2) + 4 * lane + g.num)

/-- R601: the land of a leg of lane `lane` (0 to 15) of PCIe port PA or PB. -/
def pcieLand (pb : Bool) (lane : Nat) (g : Leg) : Land := sLand (if pb then 3 else 0) (248 + 4 * lane + g.num)

/-- R601: the lands of the reference clock of PCIe port PA or PB. -/
def refclkLand (pb neg : Bool) : Land := sLand (if pb then 3 else 0) (312 + (if neg then 1 else 0))

/-- R603: the sideband signals and always-on supplies of BD0, in slot order from slot 314. -/
def sideband : List String :=
  ["TIMEREF_P", "TIMEREF_N", "SYNCE_REFCLK_P", "SYNCE_REFCLK_N", "VCORE_SENSE_P", "VCORE_SENSE_N", "XTAL_IN", "XTAL_OUT", "PPS_IN",
    "RESET_L", "PA_PERST_L", "PB_PERST_L", "PA_X8_L", "PB_X8_L", "FAULT_L", "SAFE_L", "SMB_SCL", "SMB_SDA", "SMB_ALERT_L", "AVS_CLK",
    "AVS_MDATA", "AVS_SDATA", "TCK", "TMS", "TDI", "TDO", "TRST_L", "MGMT_TX", "MGMT_RX"]
    ++ ["FA_CLK", "FA_CS_L", "FA_DQS"] ++ (List.range 8).map (fun n => "FA_DQ" ++ toString n) ++ ["FA_RESET_L"]
    ++ ["FB_CLK", "FB_CS_L", "FB_DQS"] ++ (List.range 8).map (fun n => "FB_DQ" ++ toString n) ++ ["FB_RESET_L"]
    ++ List.replicate 4 "VAON_A" ++ List.replicate 4 "VAON_B" ++ List.replicate 8 "VIO"

/-- R603: the land of the sideband signal with index `n`. -/
def sidebandLand (n : Nat) : Land := sLand 0 (314 + n)

/-! The pins in reset. -/

/-- R604: the rows of the table of pin states. -/
inductive PinGroup where
  | tx | rx | lpChannel | lpReset | lpZq | xtal | resetL | perstPps | x8Strap | faultSafe | smb | smbAlert | avsClk | avsMdata
  | avsSdata | testIn | flashClk | flashCs | flashDq | vcoreSense
  deriving DecidableEq, Repr

/-- R604: what the device does to a pin: it runs it, leaves it high-impedance, releases it, pulls an open drain low, has its termination or
the crystal's amplifier off, or only takes it as an input or an analog net. -/
inductive PinDrive where
  | operates | highZ | released | assertedLow | terminationOff | amplifierOff | input | analog
  deriving DecidableEq, Repr

/-- R604: the state of a group in power-on reset and in a CHIP reset. -/
def PinGroup.inReset : PinGroup → PinDrive
  | .tx | .lpChannel | .lpReset | .avsClk | .avsMdata | .flashClk | .flashCs | .flashDq => .highZ
  | .rx => .terminationOff
  | .lpZq | .vcoreSense => .analog
  | .xtal => .amplifierOff
  | .faultSafe | .smb | .smbAlert => .released
  | .resetL | .perstPps | .x8Strap | .avsSdata | .testIn => .input

/-- R604: the groups that the device drives. -/
def PinGroup.output : PinGroup → Bool
  | .tx | .lpChannel | .lpReset | .avsClk | .avsMdata | .flashClk | .flashCs | .flashDq | .faultSafe | .smb | .smbAlert => true
  | .rx | .lpZq | .xtal | .resetL | .perstPps | .x8Strap | .avsSdata | .testIn | .vcoreSense => false

/-- R604: the board's resistor: ohms, and whether it goes to VIO (else to VSS); none where the table gives none or another network. -/
def PinGroup.resistor : PinGroup → Option (Nat × Bool)
  | .lpReset | .perstPps | .avsClk | .testIn | .flashClk => some (10000, false)
  | .lpZq => some (240, false)
  | .resetL | .x8Strap | .smbAlert | .avsMdata | .avsSdata | .flashCs => some (10000, true)
  | .faultSafe => some (4700, true)
  | .smb => some (2200, true)
  | .flashDq => some (100000, false)
  | .tx | .rx | .lpChannel | .xtal | .vcoreSense => none

/-- Whether the pins are in the states of R604: in power-on reset, and in a CHIP reset, which lasts while RESET_L is low (R614). -/
def State.pinsReset (s : State) : Bool := s.boot.por || s.boot.rstL

/-- R502: FAULT_L and SAFE_L are asserted; R605: both are released in a reset. -/
def State.faultPin (s : State) : PinDrive := if !s.pinsReset && s.faultL then .assertedLow else .released
def State.safePin (s : State) : PinDrive := if !s.pinsReset && s.flt.safeL then .assertedLow else .released

/-- R604, R605, R580: what the device does to a group of pins. In a CHIP reset the crystal's amplifier keeps running. When every PLL
reference is lost each output takes its state in reset, but for FAULT_L and SAFE_L. -/
def State.pinDrive (s : State) (g : PinGroup) : PinDrive :=
  if s.boot.por then g.inReset
  else match g with
    | .xtal => .operates
    | .faultSafe => s.faultPin
    | g => if s.boot.rstL || (s.clk.gone && g.output) then g.inReset else .operates

end Sys2Proof.Machine
end

