-- ==== Sys2Proof/Machine/Power.lean ====
section
/-! DEFINITION. Operating points and their sequencer, AVSBus, the always-on supplies, telemetry and the caps (R581 to R590). -/
namespace Sys2Proof.Machine
open Sys2Proof

/-- The point in force (R594). -/
def State.curOp (s : State) : Nat := s.get f_PWR_OP_CUR

/-- R582: the target point: OP0 before the image; then the lowest of the request and the caps, raised to the floor. -/
def State.targetOp (s : State) : Nat :=
  if s.valid then
    max (s.get f_CLK_SHT_CFG_FLOOR_OP) (min (s.get f_PWR_OP_REQ) (min (s.get f_PWR_OP_CAP_THERM) (s.get f_PWR_OP_CAP_PWR)))
  else 0

/-- R594: `PWR_OP.BUSY`. -/
def State.showSeq (s : State) : State := s.putB f_PWR_OP_BUSY (s.pwr.seq ≠ .idle)

/-- R584: send an AVSBus command. -/
def State.avsSend (s : State) (mv : Option Nat) : State :=
  ({ s with pwr := { s.pwr with avs := some mv, tries := 0 } } : State).emit (.avs mv)

/-- R583: start the sequencer towards the target; a change in progress is completed first, and a raise that was given up is tried
again at the next change of the target. -/
def State.retarget (s : State) : State :=
  let t := s.targetOp
  let s := if t = s.pwr.tgt then s else { s with pwr := { s.pwr with tgt := t, gaveUp := false } }
  if s.pwr.seq ≠ .idle ∨ t = s.curOp ∨ s.pwr.gaveUp = true then s.showSeq
  else
    let st : SeqSt := if t < s.curOp then .lowering else .raiseAsk
    ({ s with pwr := { s.pwr with seq := st, goal := t, since := s.tim.expo } } : State).showSeq

/-- PWR_OP_REQUEST (R582, R583): PWR_OP.REQ is written. -/
def execPwrOpRequest (v : Fin 8) (s : State) : Host.Outcome State Fault Refusal :=
  .next (whenLive s (fun s => (s.put f_PWR_OP_REQ v.val).retarget))

/-- R583: at the first shutter after the target rose, the new voltage is written. -/
def State.raiseVoltage (s : State) : State :=
  if s.pwr.seq = .raiseAsk ∧ s.pwr.since < s.tim.expo then
    ({ s with pwr := { s.pwr with seq := .raising, since := s.tim.expo, volt := s.tim.tb } } : State).avsSend (some (opMv s.pwr.goal))
  else s

/-- The point in force changes (R582, R65). -/
def State.setOp (s : State) (k : Nat) : State := (s.put f_PWR_OP_CUR k).put f_CLK_SHT_BUDGET_CUR_OP k

/-- OP_CHANGE (R582, R583): at a shutter the idle PLL takes over when it is locked and, for a raise, the voltage read back is within
10 mV of the target; a lower then writes its voltage. -/
def State.opChange (s : State) (mv : Nat) (locked : Bool) : State :=
  let w := s.pwr
  if !locked || decide (s.tim.expo ≤ w.since) || w.avsBad then s
  else match w.seq with
    | .lowering => (({ s with pwr := { s.pwr with seq := .lowerVolt } } : State).setOp w.goal).avsSend (some (opMv w.goal))
    | .raising =>
      if opMv w.goal ≤ mv + 10 ∧ mv ≤ opMv w.goal + 10 ∧ w.avs = none then
        (({ s with pwr := { s.pwr with seq := .idle } } : State).setOp w.goal).retarget
      else s
    | _ => s

def execOpChange (mv : BitVec 10) (locked : Bool) (s : State) : Host.Outcome State Fault Refusal :=
  .next (whenLive s (fun s => s.opChange mv.toNat locked))

/-- RAISE_SETTLE_TIMEOUT (R583): at a shutter at or past SETTLE_US after the voltage write, the raise is given up. -/
def State.settleTimeout (s : State) : State :=
  if s.pwr.seq = .raising ∧ s.pwr.since < s.tim.expo ∧ s.tim.tb ≥ s.pwr.volt + s.get f_PWR_SEQ_CFG_SETTLE_US * 1000 then
    let s := ({ s with pwr := { s.pwr with seq := .idle, gaveUp := true } } : State).avsSend (some (opMv s.curOp))
    ((s.status f_PWR_STATUS_SEQ_FAIL).raise srcPwr 0x63 0 0).retarget
  else s

def execRaiseSettleTimeout (s : State) : Host.Outcome State Fault Refusal := .next (whenLive s State.settleTimeout)

/-- AVS_TRANSACTION (R584): the outstanding command ends; a failure is retried once, and a second sets AVS_ERR. -/
def State.avsEnd (s : State) (ok : Bool) : State :=
  let cmd := s.pwr.avs.getD none
  if ok then
    let s := { s with pwr := { s.pwr with avs := none, tries := 0, avsBad := false } }
    if s.pwr.seq = .lowerVolt then ({ s with pwr := { s.pwr with seq := .idle } } : State).retarget else s
  else if s.pwr.tries = 0 then ({ s with pwr := { s.pwr with avs := some cmd, tries := 1 } } : State).emit (.avs cmd)
  else
    let s := { s with pwr := { s.pwr with avs := some cmd, tries := 0, avsBad := true } }
    ((s.status f_PWR_STATUS_AVS_ERR).raise srcPwr 0x63 0 0).emit (.avs cmd)

def execAvsTransaction (ok : Bool) (s : State) : Host.Outcome State Fault Refusal := .next (whenLive s (fun s => s.avsEnd ok))

/-! The always-on supplies (R585). -/

/-- R585: the always-on domain takes the other supply. -/
def State.takeSupply (s : State) (b : Bool) : State :=
  ((s.putB f_PWR_AON_ACTIVE b).status f_PWR_STATUS_AON_SWITCH).raise srcPwr 0x62 0 0

/-- AON_SUPPLY_SWITCH (R585): the supplies cross 1.62 V; the active one low with the other above it makes the domain switch, and both
low are a power-on reset. -/
def State.supplySwitch (s : State) (a b : Bool) : State :=
  if s.boot.por then s
  else if !a && !b then s.powerOff
  else
    let s := (s.putB f_PWR_AON_A_OK a).putB f_PWR_AON_B_OK b
    let onB := s.flag f_PWR_AON_ACTIVE
    if !onB && !a then s.takeSupply true else if onB && !b then s.takeSupply false else s

def execAonSupplySwitch (a b : Bool) (s : State) : Host.Outcome State Fault Refusal := .next (s.supplySwitch a b)

/-- AON_RETURN (R585): VAON_A has stayed above 1.71 V for 10 ms. -/
def State.supplyReturn (s : State) : State :=
  if s.boot.por then s
  else
    let s := s.putB f_PWR_AON_A_OK true
    if s.flag f_PWR_AON_ACTIVE then s.takeSupply false else s

def execAonReturn (s : State) : Host.Outcome State Fault Refusal := .next s.supplyReturn

/-! Telemetry and the caps (R588 to R590). -/

/-- The hottest reading and the first sensor that gives it. -/
def hottest (l : List Nat) : Nat × Nat :=
  let m := l.foldl max 0
  (m, (l.findIdx? (· == m)).getD 0)

/-- R588: mean VCORE power over the shutters held, in W. -/
def meanW (l : List Nat) : Nat := if l.length = 0 then 0 else l.sum / (1000 * l.length)

/-- R589: a cap falls by one point; a fall that the floor stops is reported once per entry. -/
def State.capFall (s : State) (cap bit : FRef) : State :=
  let c := s.get cap
  if c = 0 then s
  else
    let s := (s.put cap (c - 1)).status bit
    let s := s.bump f_PWR_THROTTLE_CNT_COUNT
    if c - 1 < s.get f_CLK_SHT_CFG_FLOOR_OP ∧ s.pwr.atFloor = false then
      (({ s with pwr := { s.pwr with atFloor := true } } : State).status f_PWR_STATUS_AT_FLOOR).raise srcTherm 0x64 0 0
    else s

/-- R589: a cap rises by one point. -/
def State.capRise (s : State) (cap : FRef) : State :=
  let s := s.put cap (min 7 (s.get cap + 1))
  if s.get f_CLK_SHT_CFG_FLOOR_OP ≤ min (s.get f_PWR_OP_CAP_THERM) (s.get f_PWR_OP_CAP_PWR) then { s with pwr := { s.pwr with atFloor := false } } else s

/-- R589: the thermal cap follows the hottest sensor. -/
def State.thermalCap (s : State) (hot : Nat) : State :=
  if hot ≥ s.get f_PWR_THERM_CFG_THROTTLE_C then
    ({ s with pwr := { s.pwr with cool := 0 } } : State).capFall f_PWR_OP_CAP_THERM f_PWR_STATUS_THROTTLE
  else if hot + s.get f_PWR_THERM_CFG_HYST_C < s.get f_PWR_THERM_CFG_THROTTLE_C then
    if s.pwr.cool + 1 ≥ s.get f_PWR_THERM_CFG_RAISE_EXP then
      ({ s with pwr := { s.pwr with cool := 0 } } : State).capRise f_PWR_OP_CAP_THERM
    else { s with pwr := { s.pwr with cool := s.pwr.cool + 1 } }
  else { s with pwr := { s.pwr with cool := 0 } }

/-- R589: the power cap follows the mean power, without a hysteresis of its own. -/
def State.powerCap (s : State) (w : Nat) : State :=
  if w ≥ s.get f_PWR_LIMIT_VCORE_W then
    ({ s with pwr := { s.pwr with light := 0 } } : State).capFall f_PWR_OP_CAP_PWR f_PWR_STATUS_PWR_CAP
  else if s.pwr.light + 1 ≥ s.get f_PWR_THERM_CFG_RAISE_EXP then
    ({ s with pwr := { s.pwr with light := 0 } } : State).capRise f_PWR_OP_CAP_PWR
  else { s with pwr := { s.pwr with light := s.pwr.light + 1 } }

/-- R590: THERM_TRIP is raised and the safelight state is entered. -/
def State.tripped (s : State) : State :=
  let r := s.src srcTherm
  let m : FltMsg := { source := srcTherm, kind := 0x65, seq := r.seq, tick := s.tim.tick % 2 ^ 32, addr := 0, aux := 0 }
  let s := { s with flt := { s.flt with src := sset {} s.flt.src srcTherm { r with seq := (r.seq + 1) % 4096, lastSeq := r.seq } } }
  ((s.toPhase .safelight).collect m none false).safeEnter

/-- R588 to R590: what the readings of a shutter do: the `PWR_` registers, the caps and the target; 125 °C is the thermal trip. -/
def State.telemetry (s : State) (i : ShutterIn) : State :=
  let (hot, n) := hottest i.temps
  let watts := s.pwr.watts ++ [i.mv * i.amps]
  let watts := watts.drop (watts.length - 8)
  let w := meanW watts
  let s : State := { s with pwr := { s.pwr with watts := watts, temps := (i.temps.take 48).zipIdx.foldl (fun m e => sset 0 m e.2 e.1) s.pwr.temps } }
  let s := (s.put f_PWR_VCORE_MV i.mv).put f_PWR_VCORE_AMPS i.amps
  let s := (s.put f_PWR_VCORE_W_W (min w 2047)).put f_PWR_TEMP_MAX_C (min hot 255)
  let s := s.put f_PWR_TEMP_SENSOR n
  let s := ((s.thermalCap hot).powerCap w).retarget
  if hot ≥ 125 then s.tripped else s

end Sys2Proof.Machine
end

