-- ==== Sys2Proof/Machine/ImageLoad.lean ====
section
/-! DEFINITION. The Voshal image: its checks (R567) and what each of its sections loads (R566). -/
namespace Sys2Proof.Machine
open Sys2Proof

/-- R565: the types of an image's sections, in the order of its TABLE. -/
def Image.sections (g : Image) : List Nat := g.table.map (·.typ)

/-! What the sections load (R566). -/

/-- A mask of bits. -/
def maskOf (l : List Nat) : Nat := l.foldl (fun a i => if bitAt a i then a else a + 2 ^ i) 0

/-- R275, R300: composition slot, role and DRAIN of a partition of this chip. -/
def Image.place (g : Image) (p : Nat) : Option (Nat × Member) :=
  g.comps.findSome? (fun k => (k.2.members.find? (fun m => m.chip == g.chip && m.part == p)).map (fun m => (k.1, m)))

/-- PARTITIONS: tables, pools, tiers, audit marks and roles. -/
def State.loadPartitions (s : State) (g : Image) : State :=
  let s := (s.setReg64 r_SRV_CTX_BASE_LO g.ctxBase).setReg64 r_SRV_KV_BASE_LO g.kvBase
  let s := (s.setReg64 r_CMP_OWN_BASE_LO g.ownBase).setReg64 r_CMP_ACCT_BASE_LO g.acctBase
  let s := s.setReg64 r_HST_PROMPT_BASE_LO g.promptBase
  let s := (List.range 2).foldl (fun s t =>
    let a := g.arch.getD t (0, 0)
    (s.setReg64 (r_SRV_ARCH_LO t) a.1).put (f_SRV_ARCH_UNITS_UNITS t) a.2) s
  let s := s.put f_AUD_PART_AUDITED (maskOf ((g.parts.filter (·.audited)).map (·.id)))
  let s := (List.range 16).foldl (fun s p =>
    let c := (g.parts.find? (fun x => x.id == p)).getD {}
    let s := (s.put (f_SRV_PART_QUOTA_QUOTA p) c.kvUnits).setReg64 (r_SPC_TREE_BASE_LO p) c.treeBase
    match g.place p with
    | some (k, m) => ((s.put (f_CMP_PART_CFG_ROLE p) m.role).putB (f_CMP_PART_CFG_MEMBER p) true).put (f_CMP_PART_CFG_COMP_SLOT p) k
    | none => s.setReg (r_CMP_PART_CFG p) 0) s
  let s := (List.range 96).foldl (fun s c =>
    match g.parts.find? (fun x => x.sigCores.contains c) with
    | some x => (s.put (f_SIG_CORE_PARTITION c) x.id).putB (f_SIG_CORE_PART_VALID c) true
    | none => (s.put (f_SIG_CORE_PARTITION c) 0).putB (f_SIG_CORE_PART_VALID c) false) s
  s.showArch

/-- R148, R181, R365, R199: the threads and DMA channels of the radio program. -/
def State.bindRadio (s : State) (g : Image) : State :=
  let keep (e : Nat × Thr) : Bool := !e.2.radio || g.teRadio.any (fun r => thrKey r.1 r.2.1 == e.1)
  let keepS (e : Nat × SigThr) : Bool := !e.2.radio || g.sigMask.any (fun r => r.1 == e.1 / 8 && bitAt r.2 (e.1 % 8))
  let s := { s with te := { s.te with thr := s.te.thr.filter keep }, sig := { s.sig with thr := s.sig.thr.filter keepS } }
  let s := g.teRadio.foldl (fun s r =>
    if (s.thr r.1 r.2.1).radio then s else s.setThr r.1 r.2.1 { st := .ready, radio := true, pc := r.2.2 }) s
  let s := g.sigMask.foldl (fun s r =>
    (bitList 8 r.2).foldl (fun s t =>
      if (s.sigThr r.1 t).radio then s else s.setSigThr r.1 t { st := .ready, radio := true, tid := r.1, pc := s.radioEntry r.1 }) s) s
  (List.range 64).foldl (fun s n =>
    [14, 15].foldl (fun s c =>
      let x := s.dmaCh n c
      if g.radioArrays.contains n then (if x.radio then s else s.setDmaCh n c { radio := true })
      else if x.radio then s.setDmaCh n c {} else s) s) s

/-- LEASES: margin, guard, splits, radio-bound threads and re-run cores. -/
def State.loadLeases (s : State) (g : Image) : State :=
  let s := (s.put f_CLK_SHT_CFG_MARGIN_PCT g.margin).put f_CLK_SHT_CFG_GUARD g.guard
  let s := (List.range 64).foldl (fun s n =>
    let a := if g.radioArrays.contains n then (g.accSplit.find? (fun x => x.1 == n)).getD (n, 0, 0) else (n, 0, 0)
    let m := maskOf ((g.teRadio.filter (fun x => x.1 == n)).map (·.2.1))
    ((s.put (f_ARR_ACC_SPLIT_RADIO_ROWS n) a.2.1).put (f_ARR_ACC_SPLIT_RADIO_STORE n) a.2.2).setReg64 (r_TE_RADIO_MASK_LO n) m) s
  let s := (List.range 96).foldl (fun s c =>
    let m := ((g.sigMask.find? (fun x => x.1 == c)).map (·.2)).getD 0
    let k := ((g.sigSplit.find? (fun x => x.1 == c)).map (·.2)).getD 0
    ((s.put (f_SIG_CORE_RADIO_MASK c) m).put (f_SIG_MEM_SPLIT_RADIO_16K c) k).putB (f_SIG_CORE_RERUN_CORE c) (g.rerun.contains c)) s
  let s := (s.put f_SIG_RERUN_CORE_0 (g.rerun.getD 0 127)).put f_SIG_RERUN_CORE_1 (g.rerun.getD 1 127)
  let s := (s.put f_SIG_RERUN_CORE_2 (g.rerun.getD 2 127)).put f_SIG_RERUN_CORE_3 (g.rerun.getD 3 127)
  s.bindRadio g

/-- ROUTES: chip ID, route table, neighbours and the dedupe table; a port newly listed starts training (R313). -/
def State.loadRoutes (s : State) (g : Image) : State :=
  let s := (s.put f_ID_CHIP_CHIP_ID g.chip).setReg64 r_AVL_DEDUP_BASE_LO g.dedup
  let s := { s with regs := s.regs.filter (fun e => !(decide (r_AVL_ROUTE 0 ≤ e.1) && decide (e.1 ≤ r_AVL_ROUTE 4095))) }
  let s := g.routes.foldl (fun s r => s.setReg (r_AVL_ROUTE (r.1 % 4096)) (BitVec.ofNat 32 r.2)) s
  (List.range 24).foldl (fun s p =>
    let x := s.portOf p
    match g.nbrs.find? (fun n => n.1 == p) with
    | some n =>
      let s := s.setPort p { x with listed := true, nbrChip := n.2.1, nbrPort := n.2.2 }
      if s.portSt p = 0 ∧ s.flag (f_AVL_PORT_CTL_DISABLE p) = false then s.startTraining p else s
    | none => s.setPort p { x with listed := false }) s

/-- FRONTHAUL: port modes. -/
def State.loadFronthaul (s : State) (g : Image) : State :=
  (List.range 8).foldl (fun s p =>
    (s.put (f_FH_PORT_MODE p) (g.fhMode.getD p 0)).put (f_FH_PORT_FEC_ON p) (maskOf ((g.fhFec.filter (fun u => u / 4 == p)).map (· % 4)))) s

/-- CELLS: cells that the section adds are STOPPED, those it no longer lists are absent (R392). -/
def State.loadCells (s : State) (g : Image) : State :=
  let s := s.putB f_CLK_SHT_CFG_RADIO (!g.cells.isEmpty)
  let s := { s with rad := { s.rad with cell := s.rad.cell.filter (fun e => g.cells.any (fun c => c.cell == e.1)) } }
  g.cells.foldl (fun s c => if (s.cellOf c.cell).st = .absent then s.setCell c.cell { st := .stopped } else s) s

/-- OPERATING_POINTS: floor, budget, LPDDR rate and refresh budget. -/
def State.loadPoints (s : State) (g : Image) : State :=
  let s := (s.put f_CLK_SHT_CFG_FLOOR_OP g.floorOp).put f_CLK_SHT_BUDGET_BUDGET (62500 * 2 ^ min 4 g.period * opMHz g.floorOp / 1000)
  ((s.put f_MEM_LP_CFG_SPEED g.lpSpeed).put f_MEM_LP_CFG_REF_BUDGET g.refBudget).putB f_MEM_LP_CFG_APPLIED true

/-- TENANT_WINDOWS: the windows that exist, their slots, tenants and marks. -/
def State.loadWindows (s : State) (g : Image) : State :=
  let s := (List.range 128).foldl (fun s w =>
    match g.wins.find? (fun x => x.win == w) with
    | some x =>
      let s := (s.putB (f_TWN_CFG_RADIO w) x.radio).putB (f_TWN_CFG_EXISTS w) true
      (s.put (f_TWN_TENANT_SLOT w) x.slot).put (f_TWN_TENANT_TENANT w) x.tenant
    | none => ((s.putB (f_TWN_CFG_RADIO w) false).putB (f_TWN_CFG_EXISTS w) false).setReg (r_TWN_TENANT w) 0) s
  (List.range 4).foldl (fun s k =>
    s.put (f_AUD_WIN_AUDITED k) (maskOf ((g.wins.filter (fun x => x.audited && x.win / 32 == k)).map (·.win % 32)))) s

/-- TRAFFIC: weights, shapers and limits; without an entry a queue has weight 1 and no shaping. Fronthaul queues 1 to 3 are of the radio
class (R440). -/
def State.loadTraffic (s : State) (g : Image) : State :=
  (List.range 448).foldl (fun s k =>
    let e := k / 8
    let i := k % 8
    let x := s.tmQ e i
    let c := (g.traffic.find? (fun t => t.egress == e && t.queue == i)).getD {}
    s.setTmQ e i { x with
      weight := c.weight, shaper := c.shaper, limit := c.limit, idle := c.idle, port := c.port, rate := c.rate, burst := c.burst
      radio := decide (e < 32) && decide (1 ≤ i) && decide (i ≤ 3) }) s

/-- TIME: period, source, domains and beacon tree. -/
def State.loadTime (s : State) (g : Image) : State :=
  let s := (s.put f_CLK_SHT_CFG_PERIOD g.period).put f_CLK_TIME_STATE_SOURCE g.timeSource
  let s := (s.put f_PTP_DOM_CFG_PREFERRED g.preferred).put f_PTP_DOM_CFG_ACTIVE g.preferred
  let s := (List.range 2).foldl (fun s d =>
    match g.doms[d]? with
    | some x =>
      let s := (s.put (f_PTP_DOM_NUMBER d) x.number).put (f_PTP_DOM_PORT d) x.port
      (s.put (f_PTP_DOM_BACKUP d) (x.backup.getD 0)).putB (f_PTP_DOM_BACKUP_VALID d) x.backup.isSome
    | none => s.setReg (r_PTP_DOM d) 0) s
  let s := (s.put f_AVL_BCN_CFG_PRIMARY (g.bcnPrimary.getD 0)).putB f_AVL_BCN_CFG_PRIMARY_VALID g.bcnPrimary.isSome
  let s := (s.put f_AVL_BCN_CFG_BACKUP (g.bcnBackup.getD 0)).putB f_AVL_BCN_CFG_BACKUP_VALID g.bcnBackup.isSome
  let s := (s.put f_AVL_BCN_CFG_PER_EXP_M1 g.bcnPer).putB f_AVL_BCN_CFG_ROOT g.bcnRoot
  s.put f_AVL_BCN_FWD_PORTS (maskOf g.bcnPorts)

/-- R141, R147: log2 of the group size of a ZS7 operating point. -/
def zs7Log2 (op : Nat) : Nat := if op ≤ 1 then 6 else if op ≤ 4 then 5 else 4

/-- COMPAT. -/
def State.loadCompat (s : State) (g : Image) : State :=
  ((s.put f_ARR_COMPAT_ZS7_PART (maskOf g.zs7Parts)).put f_ARR_COMPAT_ZS7_OP g.zs7Op).put f_ARR_COMPAT_GROUP_LOG2 (zs7Log2 g.zs7Op)

/-- R566: one section of an image takes effect. -/
def State.loadSection (s : State) (g : Image) (typ : Nat) : State :=
  match typ with
  | 1 => s.loadPartitions g
  | 2 => s.loadLeases g
  | 3 => s.loadRoutes g
  | 4 => s.loadFronthaul g
  | 5 => s.loadCells g
  | 6 => s.loadPoints g
  | 7 => s.loadPolicy g.kindPol g.srcPol
  | 9 => s.loadWindows g
  | 10 => s.loadTraffic g
  | 11 => s.loadTime g
  | 12 => s.loadCompat g
  | _ => s

/-- R566: a delta's section replaces the whole section of its type. -/
def Image.mergeOne (b d : Image) (typ : Nat) : Image :=
  match typ with
  | 1 => { b with parts := d.parts, comps := d.comps, ctxBase := d.ctxBase, kvBase := d.kvBase, ownBase := d.ownBase
                  acctBase := d.acctBase, promptBase := d.promptBase, arch := d.arch, cacheBanks := d.cacheBanks }
  | 2 => { b with radioBanks := d.radioBanks, radioArrays := d.radioArrays, radioCores := d.radioCores, radioEntry := d.radioEntry
                  margin := d.margin, guard := d.guard, accSplit := d.accSplit, teRadio := d.teRadio, sigMask := d.sigMask
                  sigSplit := d.sigSplit, rerun := d.rerun }
  | 3 => { b with routes := d.routes, nbrs := d.nbrs }
  | 5 => { b with cells := d.cells }
  | 7 => { b with kindPol := d.kindPol, srcPol := d.srcPol, mapOut := d.mapOut }
  | 8 => { b with arb := d.arb }
  | 9 => { b with wins := d.wins, slots := d.slots }
  | 10 => { b with traffic := d.traffic }
  | 12 => { b with zs7Parts := d.zs7Parts, zs7Op := d.zs7Op }
  | _ => b

/-- The structure after a delta (R566, R568). -/
def Image.merge (b d : Image) : Image := d.sections.foldl (fun (g : Image) t => g.mergeOne d t) { b with structEpoch := d.structEpoch }

/-! Checks (R567). -/

/-- R188: on every bank each radio master holds a higher input than every other master. -/
def arbOk (l : List (Nat × Bool × Nat × Nat)) : Bool :=
  l.all (fun a => l.all (fun b => !(a.2.1 && !b.2.1 && a.2.2.1 == b.2.2.1) || decide (b.2.2.2 < a.2.2.2)))

/-- Whether two ranges of bytes share one. -/
def rangesMeet (a b : Nat × Nat) : Bool := decide (a.1 < b.1 + b.2) && decide (b.1 < a.1 + a.2)

/-- Whether no two entries of a list of ranges overlap. -/
def disjoint : List (Nat × Nat) → Bool
  | [] => true
  | a :: l => l.all (fun b => !rangesMeet a b) && disjoint l

/-- Channels that an image leaves in service, of those that trained (R196). -/
def State.channelsWith (s : State) (g : Image) : Nat := (s.channels.filter (fun c => !g.mapOut.contains c)).length

/-- R38: GiB of a channel. -/
def State.chanGib (s : State) : Nat := 4 * 2 ^ s.get f_ID_MEMORY_PKG_DENSITY

/-- R24, R196: LPDDR and stage memory are assigned within the capacity and to one partition at most. -/
def State.memOk (s : State) (g : Image) : Bool :=
  let rs : List (Nat × Nat) := g.parts.flatMap (·.ranges)
  let bs : List Nat := g.parts.flatMap (·.banks)
  rs.all (fun r => decide (r.1 + r.2 ≤ s.channelsWith g * s.chanGib * 2 ^ 30)) && disjoint rs && bs.all (fun b => decide (b < 512)) && decide bs.Nodup

/-- R24: no logical array and no fabric queue is assigned to two partitions. -/
def Image.sharesOk (g : Image) : Bool := decide (g.parts.flatMap (·.arrays)).Nodup && decide (g.parts.flatMap (·.queues)).Nodup

/-- R227, R281, R345, R473: the structures that the block keeps in LPDDR6, base and bytes: the context table, the ownership records, the
dedupe table, and, last, the prompt table. -/
def Image.tables (g : Image) : List (Nat × Nat) :=
  [(g.ctxBase, 262144 * 256), (g.ownBase, 262144 * 32), (g.dedup, 32 * 2 ^ 20), (g.promptBase, 262144 * 16)]

/-- R227, R281, R345: the structures lie in LPDDR6, all but the prompt table outside every partition's range; the context table and the
dedupe table are aligned to 64 KiB. -/
def State.tablesOk (s : State) (g : Image) : Bool :=
  let rs : List (Nat × Nat) := g.parts.flatMap (·.ranges)
  g.ctxBase % 65536 == 0 && g.dedup % 65536 == 0
  && g.tables.all (fun t => decide (t.1 + t.2 ≤ s.channelsWith g * s.chanGib * 2 ^ 30))
  && (g.tables.take 3).all (fun t => rs.all (fun r => decide (t.1 + t.2 ≤ r.1) || decide (r.1 + r.2 ≤ t.1)))

/-- R101, R556: whether a logical array will be served: its own position works, or it is the first of its die whose spare works. -/
def State.arrServed (s : State) (n : Nat) : Bool :=
  let d := s.dieOfArr n
  let bad := (List.range 64).filter (fun m => s.hasArray m && s.dieOfArr m == d && (s.physOf (s.defaultPhys m)).isolated)
  s.hasArray n && ((s.arrOf n).map ≠ .offline) && (!bad.contains n || (bad.head? == some n && !(s.physOf (9 * d + 8)).isolated) || (s.arrOf n).map = .onSpare)

/-- R567, 0x0E: whether arrays and signal cores that an image uses are there and in service. -/
def State.unitsOk (s : State) (arrays cores : List Nat) : Bool :=
  arrays.all (fun n => s.arrServed n) && cores.all (fun c => s.hasCore c && !s.flag (f_SIG_CORE_ISOLATED c))

/-- R278: a delta's composition keeps its epoch, or carries the old value plus 1. -/
def compEpochs (old new : List (Nat × CompCfg)) : Bool :=
  new.all (fun k => match old.find? (fun o => o.1 == k.1) with
    | some o => k.2 == o.2 || (k.2.id == o.2.id && k.2.epoch == (o.2.epoch + 1) % 2 ^ 16)
    | none => true)

/-- R291: a partition whose role a delta changes is DRAINED. -/
def State.rolesOk (s : State) (g : Image) : Bool :=
  (List.range 16).all (fun p =>
    let was := (s.img.bind (fun b => b.place p)).map (·.2.role)
    let now := ((s.img.map (fun b => { g with chip := b.chip })).bind (fun (b : Image) => b.place p)).map (·.2.role)
    was == now || was == none || s.get (f_CMP_PART_CTL_DSTATE p) == 2)

/-- R566: whether the cells of a delta leave the running ones as they are. -/
def State.cellsKept (s : State) (b g : Image) : Bool :=
  b.cells.all (fun c => (s.cellOf c.cell).st = .stopped || (s.cellOf c.cell).st = .absent || g.cells.contains c)

/-- R566: whether the windows of a delta change only where they are DISABLED. -/
def State.winsKept (s : State) (b g : Image) : Bool :=
  (List.range 128).all (fun w => s.winSt w == 0 || decide (b.wins.find? (fun x => x.win == w) = g.wins.find? (fun x => x.win == w)))

/-- R566: the first section that a delta may not carry or changes against the table. -/
def State.deltaBad (s : State) (g : Image) : Option Nat :=
  match s.img with
  | none => some 0
  | some b => g.sections.find? (fun t =>
      t == 4 || t == 6 || t == 11 || (t == 3 && (g.chip ≠ b.chip || g.dedup ≠ b.dedup)) || (t == 5 && !s.cellsKept b g) || (t == 9 && !s.winsKept b g))

/-- R566: a required section that a full image lacks. -/
def Image.lacks (g : Image) : Option Nat := [1, 2, 3, 6, 7, 8, 9, 11].find? (fun t => !g.sections.contains t)

/-- R565: the bytes of a section: start and length. -/
def SecEnt.range (e : SecEnt) : Nat × Nat := (64 * e.off, e.len)

/-- R565: the TABLE: 1 to 32 sections of types that exist, each once, at or beyond 0x200 and within LENGTH, without overlap. -/
def Image.tableOk (g : Image) : Bool :=
  decide (1 ≤ g.table.length) && decide (g.table.length ≤ 32) && decide g.sections.Nodup
  && g.table.all (fun e => decide (1 ≤ e.typ) && decide (e.typ ≤ 12) && decide (0x200 ≤ 64 * e.off) && decide (64 * e.off + e.len ≤ g.length))
  && disjoint (g.table.map SecEnt.range)

/-- R565: the first section whose own header is not as stated, or does not cover its entries. -/
def Image.badHeader (g : Image) : Option Nat :=
  (g.table.find? (fun e => e.secTyp ≠ e.typ || e.version ≠ 1 || decide (e.len < 16 + e.entries * e.entrySize))).map (·.typ)

/-- A check of R567: code, section concerned. -/
def failIf (bad : Bool) (code sec : Nat) : Option (Nat × Nat) := if bad then some (code, sec) else none

/-- R567: checks 0x01 to 0x08, on an image or delta of a type in a source of some bytes. -/
def State.firstChecks (s : State) (g : Image) (typ src : Nat) : List (Option (Nat × Nat)) :=
  [failIf (g.magic ≠ 0x4C485356 || g.version ≠ 1 || g.typ ≠ typ) 1 0, failIf (decide (g.length > 2 ^ 26) || decide (g.length > src)) 2 0, failIf (!g.digestOk) 3 0,
   failIf (!g.sigOk) 4 0, failIf (!(bitAt g.partMask (if s.grade56 then 1 else 0) && bitAt g.partMask 8)) 5 0,
   failIf (decide (g.secVersion < s.boot.floor)) 6 0,
   failIf (!g.tableOk) 7 0,
   if typ = 1 then g.lacks.map (fun t => (8, t)) else none]

/-- R567: the further checks of what will be in force: `g` is the image, or the structure with the delta merged. -/
def State.laterChecks (s : State) (g : Image) : List (Option (Nat × Nat)) :=
  [failIf (!g.cells.isEmpty && decide (g.period > 1)) 0xB 0xB, failIf (!arbOk g.arb) 0xC 8, failIf (!s.memOk g) 0xD 1,
   failIf (!s.unitsOk (g.parts.flatMap (·.arrays)) (g.parts.flatMap (·.sigCores))) 0xE 1,
   failIf (!s.unitsOk g.radioArrays (g.radioCores ++ g.sigMask.map (·.1) ++ g.rerun.filter (· ≠ 127))) 0xE 2]

/-- R567, 0x11: the rules of section entries that the model states itself; `otherBad` names a section that breaks any other. -/
def State.lastChecks (s : State) (g : Image) (other : Option Nat) : List (Option (Nat × Nat)) :=
  [other.map (fun t => (0x11, t)), failIf (!g.sharesOk || !s.tablesOk g) 0x11 1]

/-- R567: the first reason to refuse a full image at reset. -/
def State.imageBad (s : State) (g : Image) : Option (Nat × Nat) :=
  ((s.firstChecks g 1 (2 ^ 26) ++ s.laterChecks g) ++ s.lastChecks g (g.badHeader.or g.otherBad)).findSome? id

/-- R567: the first reason to refuse a delta of some source bytes. -/
def State.deltaRefused (s : State) (g : Image) (src : Nat) : Option (Nat × Nat) :=
  let b := s.img.getD {}
  let m := b.merge g
  let epoch := g.baseEpoch ≠ s.get f_IMG_INFO_STRUCT_EPOCH ∨ g.structEpoch ≠ (g.baseEpoch + 1) % 2 ^ 32
  let comps := g.sections.contains 1 && !compEpochs b.comps g.comps
  let busy := s.boot.delta.isSome || (g.sections.contains 1 && s.own.comp.any (fun e => e.2.st == .overlap && !(g.comps.contains (e.1, e.2.cfg))))
  (s.firstChecks g 2 src ++ [(s.deltaBad g).map (fun t => (9, t)), failIf (decide epoch || comps) 0xA (if comps then 1 else 0)]
    ++ s.laterChecks m ++ [failIf (g.sections.contains 1 && !s.rolesOk g) 0xF 1, failIf busy 0x10 0] ++ s.lastChecks m (g.badHeader.or g.otherBad)).findSome? id

/-- R567: a refusal: its registers and IMG_REFUSED; `op` as `IMG_REFUSE.OP`. -/
def State.refuse (s : State) (r : Nat × Nat) (op : Nat) : State :=
  let s := (s.put f_IMG_REFUSE_REASON r.1).put f_IMG_REFUSE_SECTION r.2
  ((s.put f_IMG_REFUSE_OP op).status f_IMG_STATUS_REFUSED).raise srcBoot 0x68 0 (r.1 + 256 * r.2)

end Sys2Proof.Machine
end

