-- ==== Sys2Proof/Machine/Boot.lean ====
section
/-! DEFINITION. Start-up, flash slots, the rollback floor, image application and recomposition deltas (R48, R550 to R570). -/
namespace Sys2Proof.Machine
open Sys2Proof

def State.setStage (s : State) (k : Nat) : State := s.put f_BOOT_STAGE_STAGE k
def State.modBoot (s : State) (f : Boot → Boot) : State := { s with boot := f s.boot }

/-- A flash or counter access fails (R562, R570): BOOT_STATUS.FLASH and BOOT_FLASH. -/
def State.flashFail (s : State) : State := (s.status f_BOOT_STATUS_FLASH).raise srcBoot 0x69 0 0

/-- R561: the device enters HALT with a cause. -/
def State.haltBoot (s : State) (err : Nat) : State := (s.setStage 0xF).put f_BOOT_STAGE_ERR err

/-! Stages (R553). -/

/-- IDENTITY_DERIVE (R560, R561): the identity is rebuilt; `ok` when its key matches the certificate of either flash. -/
def State.identity (s : State) (ok : Bool) : State :=
  if s.stage > 1 ∨ s.boot.por = true then s
  else if ok then (s.modBoot (fun b => { b with keys := true })).setStage (if s.xtal = 2 then 3 else 2)
  else s.haltBoot 1

def execIdentityDerive (ok : Bool) (s : State) : Host.Outcome State Fault Refusal := .next (s.identity ok)

/-- R562: read the rollback floor: the larger of the counters that authenticate. -/
def State.readFloor (s : State) (a b : Bool) : State :=
  let f := max (if a then s.boot.flA.counter else 0) (if b then s.boot.flB.counter else 0)
  let s := if a then s else s.flashFail
  let s := if b then s else s.flashFail
  s.modBoot (fun x => { x with floor := f })

/-- R558: the committed firmware slots in the order in which the ROM tries them: flash, content. -/
def State.fwSlots (s : State) : List (Nat × Firmware) :=
  match s.boot.flA.fw, s.boot.flB.fw with
  | some a, some b => if a.1 ≥ b.1 then [(0, a.2), (1, b.2)] else [(1, b.2), (0, a.2)]
  | some a, none => [(0, a.2)]
  | none, some b => [(1, b.2)]
  | none, none => []

/-- FW_VERIFY (R558, R561, R562): the ROM chooses a firmware slot, or enters HALT. -/
def State.fwVerify (s : State) (a b : Bool) : State :=
  if s.stage ≠ 3 ∨ s.boot.rstL = true ∨ s.boot.por = true then s
  else
    let s := s.readFloor a b
    let l := s.fwSlots
    match l.findIdx? (fun e => e.2.sigOk && decide (s.boot.floor ≤ e.2.sec)) with
    | none => s.haltBoot 2
    | some k =>
      let (fl, f) := l.getD k (0, {})
      let s := if k = 0 then s else s.status f_BOOT_STATUS_FW_FALLBACK
      let s := (s.modBoot (fun x => { x with run := some f })).put f_BOOT_STAGE_FW_FLASH fl
      (s.put f_BOOT_FW_SEC_SEC_VERSION f.sec).setStage 4

def execFwVerify (authA authB : Bool) (s : State) : Host.Outcome State Fault Refusal := .next (s.fwVerify authA authB)

/-- R38, R196: `MEM_LP_MAP` and `ID_MEMORY` for the channels in service. -/
def State.showMemory (s : State) (l : List Nat) : State :=
  let m := maskOf l
  let s := (s.setReg r_MEM_LP_MAP0 (BitVec.ofNat 32 m)).setReg r_MEM_LP_MAP1 (BitVec.ofNat 32 (m / 2 ^ 32))
  let s := s.setReg r_MEM_LP_MAP2 (BitVec.ofNat 32 (m / 2 ^ 64))
  (s.put f_ID_MEMORY_CHANNELS l.length).put f_ID_MEMORY_CAP_GIB (l.length * s.chanGib)

/-- LP_TRAIN (R38, R193, R196): LPDDR6 is trained; channels that fail are out of service until the next reset. -/
def State.lpTrain (s : State) (dens : Nat) (bad : List Nat) : State :=
  if s.stage ≠ 4 ∨ s.boot.por = true then s
  else
    let s := (s.put f_ID_MEMORY_PKG_DENSITY dens).putB f_ID_MEMORY_TRAINED true
    let s := s.showMemory ((List.range 96).filter (fun c => !bad.contains c))
    let s := ((List.range 96).filter (fun c => bad.contains c)).foldl (fun s c =>
      (s.status f_MEM_STATUS_TRAIN_FAIL).raise (srcLp (c / 4)) 0x2B 0 c) s
    s.setStage 5

def execLpTrain (dens : Fin 3) (bad : List (Fin 96)) (s : State) : Host.Outcome State Fault Refusal :=
  .next (s.lpTrain dens.val (bad.map (·.val)))

/-- SELF_TEST (R556, R618): units that fail are isolated, and the SRAMs are zeroed. -/
def State.selfTest (s : State) (arrays cores : List Nat) : State :=
  if s.stage ≠ 5 ∨ s.boot.por = true then s
  else
    let s := arrays.foldl (fun s p => s.setPhys p { s.physOf p with isolated := true }) s
    let s := cores.foldl (fun s q => match s.servedCore q with
      | some c => s.putB (f_SIG_CORE_ISOLATED c) true
      | none => s) s
    let s := { s with mem := s.mem.filter (fun e => decide (e.1 < stageBase)) }
    s.setStage 6

def execSelfTest (arrays : List (Fin 72)) (cores : List (Fin 104)) (s : State) : Host.Outcome State Fault Refusal :=
  .next (s.selfTest (arrays.map (·.val)) (cores.map (·.val)))

/-- R557: the content of image slot k, 2 × flash + slot. -/
def State.imgSlot (s : State) (k : Nat) : Option (Nat × Image) :=
  let f := if k / 2 = 0 then s.boot.flA else s.boot.flB
  if k % 2 = 0 then f.img0 else f.img1

/-- Put a slot in front of the first of lower GEN. -/
def insSlot (x : Nat × Nat × Image) : List (Nat × Nat × Image) → List (Nat × Nat × Image)
  | [] => [x]
  | y :: l => if y.2.1 < x.2.1 then x :: y :: l else y :: insSlot x l

/-- R558: the committed image slots in descending GEN, flash A first on a tie: slot, GEN, image. -/
def State.imgSlots (s : State) : List (Nat × Nat × Image) :=
  (List.range 4).foldl (fun l k => match s.imgSlot k with
    | some (g, i) => insSlot (k, g, i) l
    | none => l) []

/-- IMG_VERIFY (R558, R559, R567): the first slot whose image passes is chosen; each other tried is refused; none leaves the device
in WAIT_IMAGE. -/
def State.imgVerify (s : State) : State :=
  if s.stage ≠ 6 ∨ s.boot.pick.isSome = true ∨ s.boot.por = true then s
  else
    let l := s.imgSlots
    let tried := l.takeWhile (fun e => (s.imageBad e.2.2).isSome)
    let s := tried.foldl (fun (s : State) e => match s.imageBad e.2.2 with
      | some r => s.refuse r 0
      | none => s) s
    match l.drop tried.length with
    | e :: _ => s.modBoot (fun b => { b with pick := some (e.1, e.2.2) })
    | [] => s.setStage 0xE

def execImgVerify (s : State) : Host.Outcome State Fault Refusal := .next s.imgVerify

/-! Image application (R48, R96, R566). -/

/-- R45, R46: the time state leaves FREE for ACQUIRE with a step of the time base by an offset, unless it goes back by more than 1 s. -/
def State.stepTime (s : State) (d : Int) : State :=
  if d < -1000000000 ∨ (s.tim.tb : Int) + d < 0 then
    ({ s with tim := { s.tim with refused := true } } : State).status f_CLK_SHT_STATUS_STEP_REFUSED |>.raise srcTime 0x52 0 0
  else
    let s := { s with tim := { s.tim with tb := ((s.tim.tb : Int) + d).toNat } }
    ((s.shiftTimes d).put f_CLK_TIME_STATE_STATE 1).status f_CLK_SHT_STATUS_TIME_STEP

/-- R101, R556: arrays that failed the self-test: the lowest of a die takes its spare if that works, the others are OFFLINE. -/
def State.coverFailed (s : State) : State :=
  (List.range 64).foldl (fun s n =>
    if s.hasArray n && (s.physOf (s.defaultPhys n)).isolated then
      let d := s.dieOfArr n
      let x := s.dieOf d
      if !x.spareBusy && !(s.physOf (9 * d + 8)).isolated then
        (s.setArr n { s.arrOf n with map := .onSpare }).setDie d { x with spareBusy := true, spareFor := n }
      else ((s.setArr n { s.arrOf n with map := .offline }).status (f_ARR_STATUS_OFFLINE n)).status f_ARR_MAP_STATUS_NO_SPARE
    else s) s

/-- R509, R545: words of a digest, least significant byte first. -/
def digestWord (l : List Byte) (i : Nat) : Nat := leNat ((l.drop (4 * i)).take 4)

/-- R275, R278, R533: the compositions of an image come into force, each ACTIVE. -/
def State.startComps (s : State) (g : Image) : State :=
  g.comps.foldl (fun s k => (s.setComp k.1 { cfg := k.2, st := .active }).noteComp k.1) s

/-- R533: the IMAGE record. -/
def State.auditImage (s : State) (g : Image) : State :=
  s.audit 0x02 0 s.tim.tick 96 (padTo 48 g.hash ++ leBytes 4 g.structEpoch ++ leBytes 1 g.typ)

/-- R196, R227, R281, R344, R473, R618: what LPDDR6 held is unspecified, free bytes for what was written; the structures that the block
owns in it are zeroed. -/
def State.dropLpddr (s : State) (g : Image) : State :=
  let s := s.forget inLpddr
  let s := g.tables.foldl (fun s t => s.zeroRange t.1 t.2) s
  { s with ms := { s.ms with corr := s.ms.corr.filter (fun a => !inLpddr a), uncorr := s.ms.uncorr.filter (fun a => !inLpddr a) } }

/-- IMAGE_APPLY (R48, R553, R566): at a shutter the chosen image takes effect whole; `src` is the source's offset if it is valid. -/
def State.imageApply (s : State) (src : Option Int) : State :=
  match s.boot.pick with
  | none => s
  | some (slot, g) =>
    if s.stage ≠ 6 ∨ s.boot.por = true ∨ s.flt.phase = .safelight then s
    else
      let ms := (s.now - s.boot.resetNs) / 1000000
      let s := s.coverFailed
      let s := s.showMemory (s.channels.filter (fun c => !g.mapOut.contains c))
      let s := { s.dropLpddr g with img := some g }
      let s := (List.range 13).foldl (fun s t => if t = 7 ∨ t = 8 then s else s.loadSection g t) s
      let s := s.loadPolicy g.kindPol g.srcPol
      let s := s.startComps g
      let s := s.put f_HST_ROLE_MGR_PORT g.mgrPort
      let s := (s.put f_IMG_INFO_STRUCT_EPOCH g.structEpoch).put f_IMG_SEC_SEC_VERSION g.secVersion
      let s := (List.range 12).foldl (fun s i => s.setReg (r_IMG_DIGEST i) (BitVec.ofNat 32 (digestWord g.hash i))) s
      let s := ((s.status f_IMG_STATUS_APPLIED).put f_BOOT_STAGE_IMG_SLOT slot).put f_BOOT_TIME_MS_MS (min ms 65535)
      let s := (s.putB f_CLK_SHT_CFG_APPLIED true).put f_AVL_RMT_STATE_SEPOCH s.tim.tick
      let s := s.setStage 7
      let s : State := { s with
        tim := { s.tim with srcValid := src.isSome }
        hst := { s.hst with hbAt := s.now } }
      let s := match src with
        | some d => s.stepTime (s.ppsStep d)
        | none => s
      let s := { s with tim := { s.tim with nextEdge := gridAfter s.tim.tb s.periodNs } }
      let s := s.putB f_ID_CHIP_VALID true
      let s := (g.parts.filter (·.audited)).foldl (fun s p => s.auditPipeline p.id 0) s
      let s := s.auditImage g
      ((s.toPhase (s.phaseNow true)).retarget)

def execImageApply (src : Option Int) (s : State) : Host.Outcome State Fault Refusal := .next (s.imageApply src)

/-! Deltas (R568, R569). -/

/-- IMG_DELTA (R567, R568, R572): OP 1: the delta is verified and waits for its shutter, or is refused. A GO while BUSY is 1 is ignored, the
field OP is written. -/
def State.imgDelta (s : State) (g : Image) : State :=
  let busy := s.stage ≠ 7 ∨ s.flag f_IMG_CMD_BUSY = true
  let s := s.put f_IMG_CMD_OP 1
  if busy then s
  else
    match s.deltaRefused g (s.get f_IMG_LEN_LEN) with
    | some r => s.refuse r 1
    | none => s.modBoot (fun b => { b with delta := some (g, s.reg64 r_IMG_APPLY_LO, s.tim.expo) })

def execImgDelta (g : Image) (s : State) : Host.Outcome State Fault Refusal := .next (whenLive s (fun s => s.imgDelta g))

/-- R278, R291: the compositions of a delta: one with a new epoch enters OVERLAP, a new one is ACTIVE, one that is gone is unused; a
DRAIN bit starts a drain, and a DRAINED partition whose role is new is ACTIVE. -/
def State.recompose (s : State) (b g : Image) : State :=
  let s := (List.range 16).foldl (fun s k =>
    let x := s.comp k
    match g.comps.find? (fun c => c.1 == k) with
    | none => if x.st = .unused then s else s.setComp k {}
    | some c =>
      if x.st = .unused then (s.setComp k { cfg := c.2, st := .active }).noteComp k
      else if x.cfg = c.2 then s
      else (s.setComp k { cfg := c.2, st := .overlap, old := some x.cfg, oldIn := x.curIn, since := s.tim.expo }).noteComp k) s
  (List.range 16).foldl (fun s p =>
    let was := b.place p
    let now := g.place p
    let s := if was.map (·.2.role) ≠ now.map (·.2.role) ∧ s.get (f_CMP_PART_CTL_DSTATE p) = 2 then
        (s.put (f_CMP_PART_CTL_DSTATE p) 0).put (f_CMP_PART_CTL_DRAIN p) 0
      else s
    if now.any (fun m => m.2.drain) then s.startDrain p else s) s

/-- R545: the delta chain after a delta. -/
def chainNext (prev hash : List Byte) : List Byte := sha384 (prev ++ padTo 48 hash)

/-- DELTA_APPLY (R566, R568): at the first shutter after the verification whose tick is at or above APPLY, every section of the delta
takes effect. -/
def State.deltaApply (s : State) : State :=
  match s.boot.delta, s.img with
  | some (d, apply, at_), some b =>
    if at_ < s.tim.expo ∧ apply ≤ s.tim.tick then
      let g := b.merge d
      let s := { s with img := some g }
      let s := d.sections.foldl (fun s t => s.loadSection g t) s
      let s := if d.sections.contains 1 then s.recompose b g else s
      let s := s.put f_IMG_INFO_STRUCT_EPOCH d.structEpoch
      let s := (s.modBoot (fun x => { x with delta := none, chain := chainNext x.chain d.hash })).status f_IMG_STATUS_DELTA_APPLIED
      (s.auditImage d).retarget
    else s
  | _, _ => s

def execDeltaApply (s : State) : Host.Outcome State Fault Refusal := .next (whenLive s State.deltaApply)

/-! Writing slots (R558, R561, R562, R570). -/

/-- Set a slot of the flashes: the firmware slots are 4 and 5, the image slots 0 to 3. -/
def State.setFlash (s : State) (k gen : Nat) (img : Option Image) (fw : Option Firmware) : State :=
  let upd (f : Flash) (j : Nat) : Flash :=
    match j with
    | 0 => { f with img0 := img.map (fun i => (gen, i)) }
    | 1 => { f with img1 := img.map (fun i => (gen, i)) }
    | _ => { f with fw := fw.map (fun i => (gen, i)) }
  let fl := if k < 4 then k / 2 else k - 4
  let j := if k < 4 then k % 2 else 2
  s.modBoot (fun b => if fl = 0 then { b with flA := upd b.flA j } else { b with flB := upd b.flB j })

/-- R570: the image slot of a flash that holds neither the applied image nor the higher GEN; of two that tie, slot 0. -/
def State.freeSlot (s : State) (fl : Nat) : Option Nat :=
  let gen (j : Nat) : Nat := match s.imgSlot (2 * fl + j) with
    | some (g, _) => g + 1
    | none => 0
  let used (j : Nat) : Bool := s.stage == 7 && s.get f_BOOT_STAGE_IMG_SLOT == 2 * fl + j
  let old := if gen 1 < gen 0 then 1 else 0
  let pick := if gen 0 = gen 1 ∧ used 0 = true then 1 else old
  if used pick then none else some (2 * fl + pick)

/-- R570: one more than the highest GEN of the image slots. -/
def State.nextGen (s : State) : Nat := ((s.imgSlots.map (·.2.1)).foldl max 0) + 1

/-- R570: one more than the highest GEN of the firmware slots. -/
def State.nextFwGen (s : State) : Nat :=
  let g (x : Option (Nat × Firmware)) : Nat := match x with
    | some e => e.1
    | none => 0
  max (g s.boot.flA.fw) (g s.boot.flB.fw) + 1

/-- R558, R570: start writing slots: the first is erased. -/
def State.startWrite (s : State) (j : WriteJob) : State :=
  let s := (s.modBoot (fun b => { b with job := some j })).putB f_IMG_CMD_BUSY true
  match j.todo with
  | k :: _ => s.setFlash k 0 none none
  | [] => s

/-- R559, R570: whether image and firmware writes are accepted: the device runs an image or waits for one. -/
def State.mayWrite (s : State) : Bool := (s.stage == 7 || s.stage == 0xE) && !s.flag f_IMG_CMD_BUSY

/-- IMG_WRITE (R570): OP 2. -/
def State.imgWrite (s : State) (g : Image) : State :=
  let may := s.mayWrite
  let s := s.put f_IMG_CMD_OP 2
  if may then
    match (s.firstChecks g 1 (s.get f_IMG_LEN_LEN)).findSome? id with
    | some r => s.refuse r 2
    | none => s.startWrite { img := some g, gen := s.nextGen, todo := (s.freeSlot 0).toList ++ (s.freeSlot 1).toList }
  else s

def execImgWrite (g : Image) (s : State) : Host.Outcome State Fault Refusal := .next (whenLive s (fun s => s.imgWrite g))

/-- FW_WRITE (R570): OP 3: the flash not booted, and then the other. -/
def State.fwWrite (s : State) (f : Firmware) : State :=
  let may := s.mayWrite
  let s := s.put f_IMG_CMD_OP 3
  if may then
    let b := s.get f_BOOT_STAGE_FW_FLASH
    s.startWrite { fw := some f, gen := s.nextFwGen, todo := [4 + (1 - b), 4 + b] }
  else s

def execFwWrite (f : Firmware) (s : State) : Host.Outcome State Fault Refusal := .next (whenLive s (fun s => s.fwWrite f))

/-- IMG_WRITE_COMPLETE (R558, R570): the write of one slot ends, and the next begins. -/
def State.writeEnd (s : State) (fail : Bool) : State :=
  match s.boot.job with
  | none => s
  | some j =>
    match j.todo with
    | [] => (s.modBoot (fun b => { b with job := none })).putB f_IMG_CMD_BUSY false
    | k :: rest =>
      let s := if fail then (s.status f_IMG_STATUS_WRITE_FAIL).flashFail else s.setFlash k j.gen j.img j.fw
      let ok := j.ok || !fail
      if rest.isEmpty then
        let s := (s.modBoot (fun b => { b with job := none })).putB f_IMG_CMD_BUSY false
        if ok then s.status f_IMG_STATUS_WRITTEN else s
      else s.startWrite { j with todo := rest, ok := ok }

def execImgWriteComplete (fail : Bool) (s : State) : Host.Outcome State Fault Refusal := .next (whenLive s (fun s => s.writeEnd fail))

/-- FLOOR_RAISE (R562, R571): the requested floor is raised in both counters, flash A first, or refused. -/
def State.floorRaise (s : State) (okA okB : Bool) : State :=
  let v := s.get f_BOOT_FLOOR_SET_VALUE
  let fits := match s.boot.run, s.img with
    | some f, some _ => decide (v ≤ f.sec) && decide (v ≤ s.get f_IMG_SEC_SEC_VERSION)
    | _, _ => false
  if v ≤ s.boot.floor ∨ fits = false then s.put f_BOOT_FLOOR_GO_RESULT 2
  else
    let s := if okA then s.modBoot (fun b => { b with flA := { b.flA with counter := max b.flA.counter v } }) else s.flashFail
    let s := if okB then s.modBoot (fun b => { b with flB := { b.flB with counter := max b.flB.counter v } }) else s.flashFail
    let s := if okA || okB then s.modBoot (fun b => { b with floor := v }) else s
    if okA && okB then (s.put f_BOOT_FLOOR_GO_RESULT 1).status f_BOOT_STATUS_FLOOR_RAISED else s.put f_BOOT_FLOOR_GO_RESULT 3

def execFloorRaise (okA okB : Bool) (s : State) : Host.Outcome State Fault Refusal := .next (whenLive s (fun s => s.floorRaise okA okB))

/-- BOOT_RECOVER (R561): in HALT a firmware package that verifies is written to both firmware slots, and a CHIP reset follows. -/
def State.bootRecover (s : State) (f : Firmware) : State :=
  if s.stage = 0xF ∧ f.sigOk = true ∧ s.boot.floor ≤ f.sec ∧ s.boot.por = false then
    let g := s.nextFwGen
    ((s.setFlash 4 g none (some f)).setFlash 5 g none (some f)).chipReset
  else s

def execBootRecover (f : Firmware) (s : State) : Host.Outcome State Fault Refusal := .next (s.bootRecover f)

end Sys2Proof.Machine
end

