-- ==== Sys2Proof/Machine/Attest.lean ====
section
/-! DEFINITION. The SPDM responder: versions, capabilities, algorithms, the certificate chain and the measurement blocks
(R544, R545). The order of a requester's messages is not modelled. -/
namespace Sys2Proof.Machine
open Sys2Proof

/-- R544: the responder is the running management firmware; before it runs, a request has no answer. -/
def State.attests (s : State) : Bool := !s.boot.por && !s.boot.rstL && s.boot.run.isSome

/-- Send a response. -/
def State.spdmAnswer (s : State) (r : SpdmResp) : State := if s.attests then s.emit (.spdm r) else s

/-- R544: the chain of the device identity key. -/
def certChain : List Byte := (List.range (Config.certLen + 1)).map Config.certByte

/-- Use n free bytes: a signature. -/
def State.freeBytes (s : State) (n : Nat) : State × List Byte :=
  ({ s with free := s.free + n }, (List.range n).map (fun i => Config.freeByte (s.free + i)))

/-- R545, R509: the hash of the image applied at the last reset. -/
def State.imageHash (s : State) : List Byte := (List.range 12).flatMap (fun i => leBytes 4 (s.reg (r_IMG_DIGEST i)).toNat)

/-- R545 6: the entry of a model slot. -/
def State.manifestEntry (s : State) (k : Nat) : List Byte :=
  let m := s.model k
  if m.loaded then leBytes 4 (s.modelHandle k) ++ leBytes 4 0 ++ padTo 48 m.digest else List.replicate 56 0

/-- R545 7: the newest committed block and the next record. -/
def State.auditPoint (s : State) : List Byte :=
  let b := s.aud.newest.getD {}
  leBytes 8 b.seq ++ padTo 48 b.digest ++ leBytes 8 s.aud.seq

/-- R545 8: the device mode. -/
def State.modeWord (s : State) : Nat :=
  (if s.flt.phase = .test then 1 else 0) + (if s.flt.tested then 2 else 0) + (if s.get f_AUD_PART_REPLAY ≠ 0 then 4 else 0)
    + (if s.get f_AUD_MIRROR_CFG_SLOTS ≠ 0 then 8 else 0) + 0x10000 * s.get f_AUD_PART_AUDITED

/-- R545: DMTF value type and value of a measurement block. -/
def State.measure (s : State) (i : Nat) : Nat × List Byte :=
  match i with
  | 1 => (0, (List.range 48).map Config.romHash)
  | 2 => (1, padTo 48 (s.boot.run.getD {}).hash)
  | 3 => (7, leBytes 4 (s.boot.run.getD {}).sec ++ leBytes 4 s.boot.floor)
  | 4 => (3, s.imageHash)
  | 5 => (3, padTo 48 s.boot.chain)
  | 6 => (4, sha384 ((List.range 64).flatMap s.manifestEntry))
  | 7 => (4, s.auditPoint)
  | _ => (5, leBytes 4 s.modeWord)

/-- The blocks that a request asks for: index 0 none, 0xFF all eight, 1 to 8 one. -/
def measureIndices (i : Nat) : Option (List Nat) :=
  if i = 0 then some []
  else if i = 0xFF then some [1, 2, 3, 4, 5, 6, 7, 8]
  else if i ≤ 8 then some [i]
  else none

/-- GET_VERSION (R544). -/
def execGetVersion (s : State) : Host.Outcome State Fault Refusal := .next (s.spdmAnswer .version)

/-- GET_CAPABILITIES (R544): CTExponent 17, messages of at most 4,096 bytes, CERT_CAP, CHAL_CAP, MEAS_CAP with signature. -/
def execGetCapabilities (s : State) : Host.Outcome State Fault Refusal := .next (s.spdmAnswer (.capabilities 17 4096 true true true))

/-- NEGOTIATE_ALGORITHMS (R544). -/
def execNegotiateAlgorithms (s : State) : Host.Outcome State Fault Refusal := .next (s.spdmAnswer (.algorithms true true true))

/-- GET_DIGESTS (R544): slot 0 only. -/
def execGetDigests (s : State) : Host.Outcome State Fault Refusal := .next (s.spdmAnswer (.digests 1 (sha384 certChain)))

/-- GET_CERTIFICATE (R544): a portion of the slot 0 chain; a response holds at most what a message holds. -/
def State.certificate (s : State) (slot off len : Nat) : State :=
  if slot ≠ 0 ∨ certChain.length ≤ off then s.spdmAnswer .invalid
  else s.spdmAnswer (.certificate 0 ((certChain.drop off).take (min len 4088)))

def execGetCertificate (slot : Fin 8) (off len : BitVec 16) (s : State) : Host.Outcome State Fault Refusal :=
  .next (s.certificate slot.val off.toNat len.toNat)

/-- CHALLENGE (R544): the signature is a free value (Assumption 1). -/
def State.answerChallenge (s : State) (slot nonce : Nat) : State :=
  if slot ≠ 0 then s.spdmAnswer .invalid
  else
    let r := s.freeBytes 96
    r.1.spdmAnswer (.challengeAuth nonce r.2)

def execChallenge (slot : Fin 8) (nonce : BitVec 256) (s : State) : Host.Outcome State Fault Refusal :=
  .next (s.answerChallenge slot.val nonce.toNat)

/-- GET_MEASUREMENTS (R545): the blocks asked for, signed with the requester's nonce where a signature is asked for. -/
def State.measurements (s : State) (i : Nat) (sign : Bool) (nonce : Nat) : State :=
  match measureIndices i with
  | none => s.spdmAnswer .invalid
  | some l =>
    let bl := l.map (fun k => (k, s.measure k))
    if sign then
      let r := s.freeBytes 96
      r.1.spdmAnswer (.measurements bl nonce r.2)
    else s.spdmAnswer (.measurements bl nonce [])

def execGetMeasurements (index : BitVec 8) (sign : Bool) (nonce : BitVec 256) (s : State) : Host.Outcome State Fault Refusal :=
  .next (s.measurements index.toNat sign nonce.toNat)

/-- SPDM_UNSUPPORTED (R544): any other request. -/
def execSpdmUnsupported (s : State) : Host.Outcome State Fault Refusal := .next (s.spdmAnswer .unsupported)

end Sys2Proof.Machine
end

