-- ==== Sys2Proof/Machine/Leases.lean ====
section
/-! DEFINITION. The time state, the leases of the radio-capable resources and the serving pipelines' registers (R45 to R47, R51 to
R58, R62, R70, R150, R367). Resources are numbered: array n is n, signal core c is 0x100 + c, and an accelerator engine has its
source number of R489. -/
namespace Sys2Proof.Machine
open Sys2Proof

/-! The time state (R45 to R47). -/

/-- R45: whether the source that the image names is valid now. -/
def State.sourceNow (s : State) : Bool :=
  match s.img with
  | none => false
  | some g =>
    if g.timeSource = 1 then s.flag (f_PTP_DOM_VALID 0) || s.flag (f_PTP_DOM_VALID 1)
    else if g.timeSource = 2 then (match s.parentPort with | some p => s.bcnFresh p | none => false)
    else false

/-- TIME_SOURCE_VALID (R45, R46): from FREE the step waits for the next shutter; from HOLDOVER the base is only steered. -/
def State.sourceValid (s : State) : State :=
  if s.tim.srcValid ∨ s.sourceNow = false then s
  else
    let st := s.get f_CLK_TIME_STATE_STATE
    let s : State := { s with tim := { s.tim with srcValid := true, stepPend := st = 0, lockRun := 0 } }
    if st = 3 then s.put f_CLK_TIME_STATE_STATE 1 else s

def execTimeSourceValid (s : State) : Host.Outcome State Fault Refusal := .next (whenLive s State.sourceValid)

/-- TIME_SOURCE_LOST (R45). -/
def execTimeSourceLost (s : State) : Host.Outcome State Fault Refusal :=
  .next (whenLive s (fun s => if s.sourceNow then s else s.sourceLost))

/-- TIME_LOCK (R45): 16 consecutive exposures within ±50 ns. -/
def State.timeLock (s : State) : State :=
  if s.get f_CLK_TIME_STATE_STATE = 1 ∧ s.tim.lockRun ≥ 16 then
    (s.put f_CLK_TIME_STATE_STATE 2).status f_CLK_SHT_STATUS_LOCKED
  else s

def execTimeLock (s : State) : Host.Outcome State Fault Refusal := .next (whenLive s State.timeLock)

/-- HOLD_EXPIRED (R45, R47): the limit is the one that the field holds at this shutter. -/
def State.holdExpired (s : State) : State :=
  if s.get f_CLK_TIME_STATE_STATE = 3 ∧ !s.tim.holdDone ∧ s.get f_CLK_HOLD_CFG_HOLD_LIMIT_MS * 1000000 ≤ s.now - s.tim.holdStart then
    (({ s with tim := { s.tim with holdDone := true } } : State).status f_CLK_SHT_STATUS_HOLD_EXPIRED).raise srcTime 0x50 0 0
  else s

def execHoldExpired (s : State) : Host.Outcome State Fault Refusal := .next (whenLive s State.holdExpired)

/-! Parking (R52, R150, R368). -/

/-- R150: the threads of array n that are not radio-bound are parked. -/
def State.parkTe (s : State) (n : Nat) : State :=
  (List.range 64).foldl (fun s t =>
    let x := s.thr n t
    if !x.radio && (x.st == .ready || x.st == .wait) then s.setThr n t { x with st := .parked, prev := x.st } else s) s

/-- R151: the parked threads of array n return to their state before; one whose wait ended meanwhile is READY. -/
def State.unparkTe (s : State) (n : Nat) : State :=
  (List.range 64).foldl (fun s t =>
    let x := s.thr n t
    if x.st = .parked then s.setThr n t { x with st := if x.why = .none then .ready else x.prev } else s) s

/-- Park, or resume, what runs in the open lease of a resource. -/
def State.parkRes (s : State) (r : Nat) : State :=
  if r < 64 then s.parkTe r else if r < 0x160 then s.parkCore (r - 0x100) else s

def State.unparkRes (s : State) (r : Nat) : State :=
  if r < 64 then s.unparkTe r else if r < 0x160 then s.resumeCore (r - 0x100) else s

/-- A resource enters a part of the exposure; a core shows its radio lease. -/
def State.toLease (s : State) (r : Nat) (l : LeasePhase) : State :=
  if 0x100 ≤ r ∧ r < 0x160 then s.setCoreLease (r - 0x100) l else s.setLease r l

/-! The parts of the exposure (R51, R56, R367). -/

/-- R148, R367: the radio-bound threads of array n that have halted start again at their entries, as a core's do. -/
def State.restartTe (s : State) (n : Nat) : State :=
  (s.imgList (·.teRadio)).foldl (fun s e =>
    if e.1 = n ∧ (s.thr n e.2.1).radio = true ∧ (s.thr n e.2.1).st = .idle then
      s.setThr n e.2.1 { st := .ready, radio := true, pc := e.2.2, kind := (s.thr n e.2.1).kind }
    else s) s

/-- R51, R52: open-lease work issued before the shutter completes within the guard: an array has no open pass in flight, and an engine
no open job that it had begun. -/
def State.openOver (s : State) (r : Nat) : Bool :=
  if r < 64 then (s.arrOf r).run.all (fun p => p.d.radio) else true

/-- GUARD_END (R26, R51, R52, R367): the guard of a resource ends and its radio lease begins. -/
def State.guardEnd (s : State) (r : Nat) : State :=
  if s.leaseOf r ≠ .guard ∨ s.openOver r = false then s
  else
    let s := s.toLease r .radio
    if r < 64 then s.restartTe r
    else if r < 0x160 then (if s.flag (f_SIG_CORE_ISOLATED (r - 0x100)) then s else s.restartRadio (r - 0x100) (r - 0x100))
    else s.setEng r { s.engOf r with guard := false }

def execGuardEnd (r : Nat) (s : State) : Host.Outcome State Fault Refusal := .next (whenLive s (fun s => s.guardEnd r))

/-- R51, R367: whether the radio work of a resource has completed: no planned work is left, no radio pass, no radio job, no radio-bound thread of a core that
still runs, or has faulted without its re-run's end. -/
def State.radioOver (s : State) (r : Nat) : Bool :=
  s.tim.radioWork.all (fun w => w.res ≠ r) &&
  (if r < 64 then (s.arrOf r).radioQ.isEmpty && (s.arrOf r).run.all (fun p => !p.d.radio)
  else if r < 0x160 then
    let c := r - 0x100
    sget 0 s.sig.rerun c == 0 && (List.range 8).all (fun t =>
      let x := s.sigThr c t
      !x.radio || x.st == .idle || x.st == .faulted)
  else (s.engOf r).radioQ.isEmpty)

/-- OPEN_LEASE_START (R51, R53, R56, R70): `e` is the end point in cycles from the shutter. -/
def State.openStart (s : State) (r e : Nat) : State :=
  if s.leaseOf r ≠ .radio ∨ s.radioOver r = false then s
  else
    let s := (s.toLease r .openLease).unparkRes r
    let s := if s.get f_CLK_SHT_CFG_MARGIN_PCT * s.periodNs * s.mhz < e * 100000 then s.status f_CLK_SHT_STATUS_HEADROOM else s
    s.put f_CLK_RADIO_HWM_MAX_FINISH (max (s.get f_CLK_RADIO_HWM_MAX_FINISH) (min e (2 ^ 21 - 1)))

def execOpenLeaseStart (r e : Nat) (s : State) : Host.Outcome State Fault Refusal := .next (whenLive s (fun s => s.openStart r e))

/-- RADIO_HWM_CLEAR (R70). -/
def execRadioHwmClear (s : State) : Host.Outcome State Fault Refusal := .next (whenLive s (fun s => s.put f_CLK_RADIO_HWM_MAX_FINISH 0))

/-! The end of an exposure (R55 to R58). -/

/-- R57: the cells that have unfinished work. -/
def State.unfinished (s : State) : List Nat := (s.tim.radioWork.flatMap (·.cells) ++ s.tim.gaveUp).eraseDups

/-- R57, R58: the radio passes of an array that have not ended are given up; they return no completion. -/
def State.dropPasses (s : State) (n : Nat) : State :=
  let a := s.arrOf n
  let gone := a.radioQ ++ a.run.filter (fun p => p.d.radio)
  let s := s.setArr n { a with radioQ := [], run := a.run.filter (fun p => !p.d.radio), chains := a.chains.filter (fun c => !c.radio) }
  gone.foldl (fun s p =>
    let s := s.passDone n p.d
    if p.beat < p.d.m then s.accDone n p.d else s) s

/-- R57, R58, R367: radio work that the exposure leaves unfinished ends: passes, accelerator jobs and core threads. -/
def State.dropRadio (s : State) : State :=
  let s := (s.arr.map (·.1)).foldl (fun s n => if (s.arrOf n).radioQ.isEmpty && (s.arrOf n).run.all (fun p => !p.d.radio) then s else s.dropPasses n) s
  let eng := smapv {} s.sig.eng (fun e => { e with radioQ := [] })
  let thr := s.sig.thr.map (fun (e : Nat × SigThr) => (e.1, if e.2.radio then { e.2 with st := .idle, why := .none } else e.2))
  { s with sig := { s.sig with eng := eng, thr := thr, rerun := [] } }

/-- R99: the redirection of a re-run ends: the failed array's own copies hold unspecified values (Assumption 1). -/
def State.endRerun (s : State) : State :=
  let s := s.arr.foldl (fun s e => e.2.redir.foldl (fun s g => s.freeRange g.1 g.2) s) s
  { s with
    arr := smapv {} s.arr (fun a => { a with rerun := false, redir := [] })
    die := smapv {} s.die (fun d => { d with rerun := false }) }

/-- R56, R57: radio work that runs at the shutter ends after the radio deadline. The abandoned cells are counted and reported. -/
def State.overrun (s : State) (gone : List Nat) : State :=
  let s := if s.tim.radioWork.isEmpty then s else s.status f_CLK_SHT_STATUS_HEADROOM
  if gone.isEmpty then s
  else ((s.status f_CLK_SHT_STATUS_RADIO_OVERRUN).bump f_CLK_ABANDON_CNT_COUNT).raise srcTime 0x20 0 gone.length

/-- R25, R26: whether a resource is radio-capable. -/
def State.radioRes (s : State) (r : Nat) : Bool :=
  if r < 64 then s.hasArray r && (s.imgList (·.radioArrays)).contains r
  else if r < 0x160 then decide (0x100 ≤ r) && s.hasCore (r - 0x100)
  else (engineOf r).isSome

/-- R51: in the guard an engine may end the open job that it began before the shutter. -/
def State.markGuard (s : State) (r : Nat) : State :=
  if r < 0x160 ∨ (s.engOf r).openQ.isEmpty then s else s.setEng r { s.engOf r with guard := true }

/-- R26, R51, R52: the leases of the exposure that begins: a radio-capable resource with radio work is in its guard, and what runs in
its open lease is parked; any other is in its open lease. -/
def State.newLeases (s : State) (work : List RadioWork) : State :=
  let work := work.filter (fun e => s.radioRes e.res && !e.cells.isEmpty)
  let has (r : Nat) : Bool := work.any (fun e => e.res == r)
  let s := s.tim.lease.foldl (fun s e => let s := s.toLease e.1 .openLease; if has e.1 then s else s.unparkRes e.1) s
  let s : State := { s with tim := { s.tim with gaveUp := [], radioWork := work } }
  work.foldl (fun s e => ((s.toLease e.res .guard).parkRes e.res).markGuard e.res) s

/-! The pipelines' registers (R62, R72). -/

/-- PIPE_REBASE (R62): the base moves at the next step start. -/
def State.pipeRebase (s : State) (p : Nat) : State :=
  { s with tim := { s.tim with pipe := smod {} s.tim.pipe p (fun x => { x with rebase := true }) } }

def execPipeRebase (p : Fin 16) (s : State) : Host.Outcome State Fault Refusal := .next (whenLive s (fun s => s.pipeRebase p))

/-- PIPE_PERIOD_WRITE (R62): the period takes effect, and rebases, at the next step start. -/
def execPipePeriodWrite (p : Fin 16) (v : BitVec 8) (s : State) : Host.Outcome State Fault Refusal :=
  .next (whenLive s (fun s => (s.put (f_SRV_PIPE_CFG_PERIOD p) v.toNat).pipeRebase p))

end Sys2Proof.Machine
end

