-- ==== Sys2Proof/Machine/Shutter.lean ====
section
/-! DEFINITION. The shutter: the tick that ends one exposure and begins the next (R41, R46, R48, R57). What has a row of its own
(an expiry, a step plan, a fetch, a sample) is not done here. -/
namespace Sys2Proof.Machine
open Sys2Proof

/-- R43, R48: the time base stands at the edge; the edge after it is the first grid point at least one period on. -/
def State.advance (s : State) : State :=
  let e := s.tim.nextEdge
  { s with tim := { s.tim with tb := e, subNs := 0, frac := 0, tick := e / s.periodNs % 2 ^ 64, nextEdge := gridAfter e s.periodNs, expo := s.tim.expo + 1 } }

/-- R46: what the shutter after a step adjusts: the pipelines, the EXPIRY of the contexts that it counts for, RELEASE_NS. -/
def State.rebaseAll (s : State) : State :=
  let d := s.tim.rebaseD
  let ns := s.tim.stepNs
  let s : State := { s with tim := { s.tim with rebaseD := 0, stepNs := 0 } }
  let s := if d = 0 then s else (List.range 16).foldl (fun s p => s.pipeRebase p) s
  let ks := if d = 0 ∧ ns = 0 then [] else s.srv.ctx.map (·.1)
  ks.foldl (fun s n =>
    let c := s.ctx n
    let s := if d ≠ 0 ∧ (c.st = .paused ∨ (c.st = .queued ∧ c.resume = true ∧ c.autoResume = true)) then
        s.setCtx n { c with expiry := (c.expiry + d) % 2 ^ 64 }
      else s
    if ns ≠ 0 ∧ s.isHome c = true ∧ wState (s.ownWord n) = 2 then
      s.writeLE (s.ownAt n + 8) 8 (((s.ownRelNs n : Int) + ns) % 2 ^ 64).toNat
    else s) s

/-- R45, R46: the step of the time base at the first shutter after the source became valid in FREE. -/
def State.stepAtShutter (s : State) (d : Int) : State :=
  if s.tim.stepPend = false ∨ s.get f_CLK_TIME_STATE_STATE ≠ 0 then s
  else
    let s : State := { s with tim := { s.tim with stepPend := false } }
    let t := s.tim.tick
    let d := s.ppsStep d
    let s := s.stepTime d
    if s.tim.refused then s
    else if d ≤ 0 then { s with tim := { s.tim with stepNs := d } }
    else
      let e := gridAfter s.tim.tb s.periodNs
      { s with tim := { s.tim with stepNs := d, nextEdge := e, rebaseD := e / s.periodNs - (t + 1) } }

/-- R45, R67: the measured offset of the edge, and the run of exposures within ±50 ns. -/
def State.lockOffset (s : State) (d : Int) : State :=
  let v : Int := if d > 32767 then 32767 else if d < -32767 then -32767 else d
  let s := s.put f_CLK_TIME_STATE_OFFSET ((v + 65536) % 65536).toNat
  let run := if s.get f_CLK_TIME_STATE_STATE = 1 ∧ -50 ≤ d ∧ d ≤ 50 then min 16 (s.tim.lockRun + 1) else 0
  { s with tim := { s.tim with lockRun := run } }

/-- R313, R314, R318, R340: what the shutter does to the fabric: `was` is the tick before it. -/
def State.netShutter (s : State) (was : Nat) : State :=
  let s := (s.net.port.map (·.1)).foldl (fun s p =>
    let x := s.portOf p
    let x := if was / 1024 ≠ s.tim.tick / 1024 then { x with laneWin := [] } else x
    s.setPort p (if x.fresh ∧ s.portSt p = 2 then { x with fresh := false, usable := true } else x)) s
  let s := if s.net.held.isEmpty then s else s.mvAnswered s.releaseHeld
  let s := if s.net.rerouted then ({ s with net := { s.net with rerouted := false } } : State).raise srcRoute 0x46 0 0 else s
  { s with net := { s.net with deadRep := [] } }

/-- R293, R231: KV_UNIT_EXP of the tenants' slots and UNIT_TICKS of the home contexts. -/
def State.countUnits (s : State) : State :=
  (s.srv.ctx.map (·.1)).foldl (fun s n =>
    let c := s.ctx n
    let u := s.unitsHeld c
    if u = 0 then s
    else
      let s := s.account (s.ctxSlot c) 7 u
      if s.isHome c then s.setCtx n { c with unitTicks := (c.unitTicks + u) % 2 ^ 64 } else s) s

/-- R60: note which partitions' steps have ended in the exposure before. -/
def State.markEnded (s : State) : State :=
  (List.range 16).foldl (fun s p => if (s.spOf p).phase = .running ∧ s.stepHalted p = true then s.modSp p (fun x => { x with ended := true }) else s) s

/-- The work of a shutter outside the safelight state; `was` is the tick before it. -/
def State.shutterWork (s : State) (was : Nat) (i : ShutterIn) : State :=
  let s := s.rebaseAll
  let s := (s.stepAtShutter i.srcOffset).lockOffset i.edgeOffset
  let gone := s.unfinished
  let s := (s.dropRadio.endRerun.overrun gone).radioReports gone i
  let s := s.newLeases i.radioWork
  let s := (s.arr.map (·.1)).foldl (fun s n => s.substRemap n) s
  let s := (s.netShutter was).countUnits.markEnded
  let s := (List.range 16).foldl (fun s p => s.drainRecords p) s
  let s := (s.tmPublish was).failover.cellsShutter
  let s := s.takeTref.raiseVoltage.phaseShutter
  s.telemetry i

/-- SHUTTER (R18, R41, R43, R502): in the safelight state, and in power-on reset, the time base keeps running and no work starts. -/
def State.shutter (s : State) (i : ShutterIn) : State :=
  let was := s.tim.tick
  whenLive s.advance (fun s => s.shutterWork was i)

def execShutter (i : ShutterIn) (s : State) : Host.Outcome State Fault Refusal := .next (s.shutter i)

end Sys2Proof.Machine
end

