-- ==== Sys2Proof/Machine/Views.lean ====
section
/-! DEFINITION. What a register read returns: the stored word, or, for a register that reports state held elsewhere, that state
(R9, R11, R35, R36, R486, R502, R554). -/
namespace Sys2Proof.Machine
open Sys2Proof

/-- The number i below n with f i = off, for offsets that rise evenly. -/
def regIdx (f : Nat → Nat) (n off : Nat) : Option Nat :=
  let st := f 1 - f 0
  if f 0 ≤ off ∧ (off - f 0) % st = 0 ∧ (off - f 0) / st < n then some ((off - f 0) / st) else none

def b1 (b : Bool) : Nat := if b then 1 else 0

/-- R151: state code of a thread. -/
def ThrSt.code : ThrSt → Nat
  | .idle => 0 | .ready => 1 | .wait => 2 | .parked => 3 | .spilled => 4 | .faulted => 5

/-- R109: state code of a logical array. -/
def MapSt.code : MapSt → Nat
  | .inService => 0 | .swapPending => 1 | .copying => 2 | .onSpare => 3 | .offline => 4

/-- R419: state code of a cell. -/
def CellSt.code : CellSt → Nat
  | .absent => 0 | .stopped => 1 | .running => 2 | .migOut => 3 | .migIn => 4

/-- R4, R37: identity. -/
def State.idView (s : State) (off : Nat) : Option Nat :=
  if off = r_ID_DEVICE then some (setBits (resetAt off) 15 8 (if s.grade56 then 0x38 else 0x40))
  else if off = r_ID_UNITS then some (setBits (setBits (resetAt off) 7 0 (if s.grade56 then 56 else 64)) 15 8 (if s.grade56 then 88 else 96))
  else none

/-- R66, R594, R610. -/
def State.clkView (s : State) (off : Nat) : Option Nat :=
  if off = r_CLK_TICK_LO then some (s.tim.tick % 2 ^ 32)
  else if off = r_CLK_TICK_HI then some (s.tim.tick / 2 ^ 32 % 2 ^ 32)
  else if off = r_PWR_TEMP_VIEW then some (sget 0 s.pwr.temps (s.get f_PWR_TEMP_SEL_SENSOR) % 256)
  else if off = r_PWR_PIN_FILT then
    let i := s.get f_PWR_PIN_SEL_PIN
    some (s.pins.units.getD i 0 + 64 * b1 (pinFixed i) + 128 * b1 (s.pinLevel i))
  else none

/-- R519: word k of a proof-strip entry: the message, then its flags. -/
def StripEntry.word (e : StripEntry) (k : Nat) : Nat := if k < 4 then e.msg.words.getD k 0 else e.flags

/-- R515 to R519. A cause of RECOVERY may hold before a message or a shutter has moved the collector: the phase read is the one that holds,
and it has no head yet. -/
def State.fltView (s : State) (off : Nat) : Option Nat :=
  let f := s.flt
  let now := s.phaseNow false
  if off = r_FLT_PHASE then some now.code
  else if off = r_FLT_PART_FAULT then
    let m (p : PartRec → Bool) : Nat := maskOf ((List.range 16).filter (fun k => p (s.partRec k)))
    some (m (fun r => r.st ≠ .running) + 2 ^ 16 * m (·.held))
  else if off = r_FLT_Q_W1 then some (f.lastQ.words.getD 1 0)
  else if off = r_FLT_Q_W2 then some (f.lastQ.words.getD 2 0)
  else if off = r_FLT_Q_W3 then some (f.lastQ.words.getD 3 0)
  else if off = r_FLT_Q_TAG then some (b1 f.lastQValid + 2 * f.lastQErr)
  else if off = r_FLT_SRC_VIEW then
    let r := s.src (s.get f_FLT_SRC_SEL_SOURCE)
    some (r.c + 2 ^ 8 * r.n + 2 ^ 16 * b1 r.severe + 2 ^ 20 * r.lastSeq)
  else if off = r_FLT_SRC_WIN then
    let r := s.src (s.get f_FLT_SRC_SEL_SOURCE)
    some (r.w + 2 ^ 16 * r.rseq)
  else if off = r_FLT_PEER_VIEW then
    let r := sget {} f.peers (s.get f_FLT_PEER_SEL_CHIP)
    some (b1 r.dead + 2 ^ 16 * r.rseq)
  else if off = r_FLT_STRIP_PTR then
    some (f.ptr + 2 ^ 6 * b1 f.wrapped + 2 ^ 8 * f.headIdx + 2 ^ 14 * b1 (f.headValid && (f.frozen || decide (now = f.phase))) + 2 ^ 15 * b1 f.frozen)
  else if r_FLT_HEAD_W0 ≤ off ∧ off ≤ r_FLT_HEAD_FLAGS then some (f.head.word ((off - r_FLT_HEAD_W0) / 4))
  else match regIdx r_FLT_PEER 128 off with
    | some w => some (maskOf ((List.range 32).filter (fun i => (sget {} f.peers (32 * w + i)).dead)))
    | none =>
      if r_FLT_STRIP_W0 0 ≤ off ∧ off < r_FLT_STRIP_W0 64 ∧ (off - r_FLT_STRIP_W0 0) % 32 / 4 < 5 then
        some ((sget {} f.strip ((off - r_FLT_STRIP_W0 0) / 32)).word ((off - r_FLT_STRIP_W0 0) % 32 / 4))
      else none

/-- R484: the MSI-X table of the requester's function, and its pending bits. -/
def State.msixView (s : State) (l off : Nat) : Option Nat :=
  if 0x404000 ≤ off ∧ off < 0x405000 then some (s.msixWord l ((off - 0x404000) / 16) ((off - 0x404000) % 16 / 4))
  else if 0x405000 ≤ off ∧ off < 0x405020 then
    some (maskOf ((List.range 32).filter (fun i => s.hst.pba.contains (l, (off - 0x405000) * 8 + i))))
  else none

/-- R484. -/
def State.hstView (s : State) (req off : Nat) : Option Nat :=
  if off = r_HST_ROLE then some ((s.reg off).toNat / 2 * 2 + (if req < 4 then req / 2 else 0))
  else if req < 4 then s.msixView req off else none

/-- R254, R256. -/
def State.srvView (s : State) (off : Nat) : Option Nat :=
  let c := s.ctx (s.get f_SRV_CTX_SEL_CTX)
  if off = r_SRV_CTX_VIEW then some (c.st.code + 2 ^ 4 * c.part + 2 ^ 8 * c.prioByte + 2 ^ 16 * c.reason)
  else if off = r_SRV_CTX_POS then some c.pos
  else match regIdx r_SRV_PART_ZERO 16 off with
    | some p => some (s.zeroing p)
    | none => match regIdx r_SRV_PART_QUEUED 16 off with
      | some p => some (s.srv.ctx.filter (fun e => e.2.st == .queued && e.2.owner == p && !e.2.away)).length
      | none => none

/-- R299, R300. -/
def State.cmpView (s : State) (off : Nat) : Option Nat :=
  let k := s.comp (s.get f_CMP_COMP_SEL_SLOT)
  if off = r_CMP_COMP_VIEW then some (k.cfg.id + 2 ^ 8 * k.st.code + 2 ^ 16 * k.cfg.epoch)
  else if off = r_CMP_COMP_INFLIGHT then some (min k.curIn 65535 + 2 ^ 16 * min k.oldIn 65535)
  else if off = r_CMP_COMP_OVERLAP then some (if k.st = .overlap then min (s.tim.expo - k.since) 65535 else 0)
  else match regIdx r_CMP_PART_OWNED 16 off with
    | some p => some (s.srv.ctx.filter (fun e => e.2.st ≠ .free && e.2.owner == p && !e.2.away)).length
    | none => match regIdx r_CMP_PART_DRAIN 16 off with
      | some p => some (if s.get (f_CMP_PART_CTL_DSTATE p) = 0 then 0 else min (s.tim.expo - (s.spOf p).drainAt) 65535)
      | none => none

/-- R112: the physical array selected. -/
def State.physView (s : State) (p : Nat) : Nat :=
  let d := s.dieOf (p / 9)
  let x := s.physOf p
  let st := if x.isolated then 3
    else if s.grade56 && p % 9 == d.disabled then 0
    else if p % 9 = 8 then (if d.spareBusy then 1 else 2)
    else 1
  st + 2 ^ 2 * (s.servedArr p).getD 127 + 2 ^ 16 * x.resCnt

/-- R104, R107, R109, R110, R112, R182: the slice of a logical array. With two open passes in flight CUR_PRIO reads the priority of
the older one (DESIGN CHOICE 51). -/
def State.arrView (s : State) (off : Nat) : Option Nat :=
  let n := (off - 0x1000000) / 0x40000
  let o := 0x1000000 + (off - 0x1000000) % 0x40000
  let a := s.arrOf n
  let x := s.thr n (s.get (f_TE_THREAD_SEL_THREAD n))
  if o = r_ARR_CTRL 0 then some ((s.reg off).toNat / 4 * 4 + b1 (s.flag (f_ARR_CTRL_HALT n)) + 2 * b1 (s.halted n))
  else if o = r_ARR_QUEUE 0 then
    let cur := ((a.run.find? (fun p => !p.d.radio)).map (fun p => p.d.prio % 8)).getD 0
    some (a.openQ.length + 2 ^ 16 * a.radioQ.length + 2 ^ 24 * cur + 2 ^ 27 * b1 a.chainOpen + 2 ^ 28 * b1 (s.leaseOf n = .radio))
  else if o = r_ARR_MAP 0 then some (s.physFor n + 2 ^ 7 * b1 (a.map = .onSpare) + 2 ^ 8 * a.map.code)
  else if o = r_TE_THREAD_VIEW 0 then some (x.st.code + 2 ^ 3 * x.prio + 2 ^ 6 * b1 x.radio + 2 ^ 8 * x.kind + 2 ^ 16 * x.part)
  else if o = r_TE_THREAD_PC_LO 0 then some (x.pc % 2 ^ 32)
  else if o = r_TE_THREAD_PC_HI 0 then some (x.pc / 2 ^ 32)
  else if o = r_TE_THREAD_JOB 0 then some x.job
  else if o = r_TE_THREAD_TENANT 0 then some x.tenant
  else if off = r_ARR_PHYS_VIEW then some (s.physView (s.get f_ARR_PHYS_SEL_SEL))
  else match regIdx r_ARR_DIE 8 off with
    | some d =>
      let y := s.dieOf d
      some (8 + 2 ^ 4 * (if s.grade56 then y.disabled else 15) + 2 ^ 8 * b1 y.spareBusy + 2 ^ 9 * y.spareFor + 2 ^ 16 * b1 y.rerun)
    | none => none

/-- R386, R387. -/
def State.sigView (s : State) (off : Nat) : Option Nat :=
  match regIdx r_SIG_DIE 4 off with
  | some b => some (sget 0x3000000 s.coreDis b)
  | none =>
    let c := (off - 0x2010000) / 0x1000
    let o := 0x2010000 + (off - 0x2010000) % 0x1000
    let x := s.sigThr c (s.get (f_SIG_THREAD_SEL_THREAD c))
    if off < 0x2010000 ∨ 96 ≤ c then none
    else if o = r_SIG_CORE 0 then some (setBits (s.reg off).toNat 6 0 (s.physCore c))
    else if o = r_SIG_THREAD_VIEW 0 then some (x.st.code + 2 ^ 3 * b1 x.radio + 2 ^ 4 * x.prio + 2 ^ 8 * x.kind + 2 ^ 16 * x.tenant)
    else if o = r_SIG_THREAD_PC_LO 0 then some (x.pc % 2 ^ 32)
    else if o = r_SIG_THREAD_PC_HI 0 then some (x.pc / 2 ^ 32)
    else none

/-- R419. -/
def State.radView (s : State) (off : Nat) : Option Nat :=
  let c := s.get f_RAD_CELL_SEL_CELL
  let k := s.get f_RAD_ENG_SEL_KIND
  let r := srcEngine k (s.get f_RAD_ENG_SEL_DIE) (s.get f_RAD_ENG_SEL_ENGINE)
  let e := if k < 6 ∧ s.get f_RAD_ENG_SEL_ENGINE < engCount k then s.engOf r else {}
  if off = r_RAD_CELL_VIEW then
    match s.cellCfg c with
    | some g => some ((s.cellOf c).st.code + 2 ^ 3 * g.rat + 2 ^ 8 * s.cellSfn g s.tim.tick + 2 ^ 18 * s.cellSlot g s.tim.tick)
    | none => some 0
  else if off = r_RAD_CELL_PEER then some (s.cellOf c).peer
  else if off = r_RAD_ENG_VIEW then
    some (e.radioQ.length + 2 ^ 6 * e.openQ.length + 2 ^ 13 * b1 (s.leaseOf r = .radio) + 2 ^ 14 * b1 e.isolated)
  else if off = r_RAD_ENG_JOBS then some e.jobs
  else if off = r_RAD_ENG_BUSY then some e.busy
  else none

/-- R455. -/
def State.tmView (s : State) (off : Nat) : Option Nat :=
  let (e, i) := s.tmSel
  let q := (s.tmQ e i).mark s.now
  if off = r_TM_Q_CFG then some (q.weight + 2 ^ 8 * q.shaper + 2 ^ 10 * b1 q.radio + 2 ^ 16 * q.limit)
  else if off = r_TM_Q_DEPTH then some (min q.depth (2 ^ 24 - 1))
  else if off = r_TM_Q_HWM_DEPTH then some q.hwmDepth
  else if off = r_TM_Q_HWM_DELAY then some q.hwmDelay
  else if off = r_TM_Q_DROP then some q.drop
  else if off = r_TM_Q_SAMP_TICK then some q.sampTick
  else match regIdx r_TM_Q_SAMP_DEPTH 16 off with
    | some j => some (q.samp.getD j (0, 0)).1
    | none => match regIdx r_TM_Q_SAMP_DELAY 16 off with
      | some j => some (q.samp.getD j (0, 0)).2
      | none => none

/-- R360. -/
def State.synView (s : State) (off : Nat) : Option Nat :=
  let o := sget {} s.syn.obj (s.get f_SYN_SEL_OBJECT)
  let g := o.genLast.getD (0, 0, 0)
  if off = r_SYN_VIEW_ARR then some (o.arrived + 2 ^ 20 * g.1)
  else if off = r_SYN_VIEW_TICK then some (g.2.1 % 2 ^ 32)
  else if off = r_SYN_VIEW_CYC then some (g.2.2 % 2 ^ 21)
  else none

/-- R548, R571: the rollback floor, and the newest committed block of the audit ring. -/
def State.bootView (s : State) (off : Nat) : Option Nat :=
  let b := (s.aud.newest.map (·.seq)).getD 0
  if off = r_BOOT_FLOOR then some s.boot.floor
  else if off = r_AUD_BLOCK_LO then some (b % 2 ^ 32)
  else if off = r_AUD_BLOCK_HI then some (b / 2 ^ 32 % 2 ^ 32)
  else none

/-- What a register reports of state held elsewhere; none for a stored register. -/
def State.viewReg (s : State) (req off : Nat) : Option Nat :=
  if off < 0x100000 then s.idView off
  else if off < 0x200000 then s.clkView off
  else if off < 0x300000 then s.fltView off
  else if off < 0x400000 then s.bootView off
  else if off < 0x800000 then s.hstView req off
  else if off < 0xC00000 then s.srvView off
  else if off < 0x1000000 then s.cmpView off
  else if off < 0x2000000 then s.arrView off
  else if off < 0x2400000 then s.sigView off
  else if off < 0x2800000 then s.radView off
  else if 0x2A00000 ≤ off ∧ off < 0x3000000 then s.tmView off
  else if off < 0x3800000 then (regIdx r_AVL_RMT_ENG 64 off).map s.engineOut
  else if off < 0x3C00000 then s.synView off
  else none

/-- R36: offsets that name no array or core in the grade. -/
def State.hiddenOff (s : State) (off : Nat) : Bool :=
  s.grade56 && ((decide (0x1000000 + 56 * 0x40000 ≤ off) && decide (off < 0x2000000))
    || (decide (0x2010000 + 88 * 0x1000 ≤ off) && decide (off < 0x2010000 + 96 * 0x1000))
    || (decide (r_AVL_RMT_ENG 56 ≤ off) && decide (off < r_AVL_RMT_ENG 64)))

/-- R502, R554: before READY, and in the safelight state, only the blocks of the management controller answer. -/
def State.answers (s : State) (off : Nat) : Bool := decide (off < 0x400000) || (s.live && s.stage == 7)

/-- R11: the word at an offset. -/
def State.readReg (s : State) (req off : Nat) : Nat :=
  if s.answers off = false ∨ s.hiddenOff off = true then 0
  else match s.viewReg req off with
    | some v => v % 2 ^ 32
    | none => (s.reg off).toNat

/-- R459, R486: windows of the function of a requester, and the word at an offset of its BAR2. -/
def State.winPage (s : State) (req off : Nat) : Nat :=
  let x8 := s.flag (if req / 2 = 0 then f_HST_ROLE_PA_X8 else f_HST_ROLE_PB_X8)
  let w := 64 * (req / 2) + (if x8 then 32 * (req % 2) else 0) + off / 0x10000
  let o := off % 0x10000
  if req ≥ 4 ∨ off / 0x10000 ≥ (if x8 then 32 else 64) ∨ s.answers 0x400000 = false then 0
  else if o = 0 then w % 128 + 2 ^ 7 * b1 (s.winRadio w) + 2 ^ 8 * s.winSt w + 2 ^ 16 * s.get (f_TWN_STATE_ERR w)
  else if o = 4 then s.get (f_TWN_CTX_CTX_BASE w)
  else if o = 8 then s.get (f_TWN_CTX_COUNT_CTX_COUNT w)
  else if o = 0xC then s.get (f_TWN_PARTS_PARTS w)
  else if o = 0x10 then s.tim.tick % 2 ^ 32
  else if o = 0x14 then s.tim.tick / 2 ^ 32 % 2 ^ 32
  else 0

/-- R9: which half of a 64-bit pair an offset is. -/
def pairAt (bar2 : Bool) (off : Nat) : PairHalf :=
  if bar2 then (if off % 0x10000 = 0x10 then .low else if off % 0x10000 = 0x14 then .high else .none)
  else match rowOf off with
    | some r => r.pair
    | none => .none

/-- R9, R36: which half of a pair an access finds: none where no unit of this grade, or no block in this phase, answers. -/
def State.halfAt (s : State) (bar2 : Bool) (off : Nat) : PairHalf :=
  if bar2 = false ∧ (s.hiddenOff off = true ∨ s.answers off = false) then .none else pairAt bar2 off

/-- R11, R486: the word that a requester finds at an offset of BAR0 or BAR2. -/
def State.wordAt (s : State) (req : Nat) (bar2 : Bool) (off : Nat) : Nat := if bar2 then s.winPage req off else s.readReg req off

/-- How the record of answers names an offset of BAR0 or BAR2. -/
def barTag (bar2 : Bool) (off : Nat) : Nat := if bar2 then 0x10000000 + off else off

/-- LOW_WORD_READ (R9, R11, R486): a read of an aligned word. The low word of a pair latches its high word for the requester; the
high word is what the requester has latched. An offset that no chapter defines, or that names no unit of this grade, is no half of a pair.
A read of FLT_Q_W0 or FH_MRX_W0 takes a word as well. -/
def State.regRead (s : State) (req : Nat) (bar2 : Bool) (off : Nat) : State :=
  let tag := barTag bar2 off
  if s.boot.por then s
  else if off % 4 ≠ 0 then s.emit (.unsupported req tag)
  else if !bar2 ∧ off = r_FLT_Q_W0 then s.fltQueueRead req
  else if !bar2 ∧ off = r_FH_MRX_W0 then s.mrxRead req
  else match s.halfAt bar2 off with
    | .none => s.emit (.regData req tag (BitVec.ofNat 32 (s.wordAt req bar2 off)))
    | .low =>
      let s' := { s with latch := sset 0 s.latch req (BitVec.ofNat 32 (s.wordAt req bar2 (off + 4))) }
      s'.emit (.regData req tag (BitVec.ofNat 32 (s.wordAt req bar2 off)))
    | .high => s.emit (.regData req tag (sget 0 s.latch req))

def execLowWordRead (req : Nat) (bar2 : Bool) (off : BitVec 28) (s : State) : Host.Outcome State Fault Refusal :=
  .next (s.regRead req bar2 off.toNat)

/-- UNSUPPORTED_REQUEST (R10): an access that is not an aligned 32-bit access completes so, with no side effect. -/
def State.badAccess (s : State) (req off size : Nat) : State :=
  if s.boot.por ∨ (size = 4 ∧ off % 4 = 0) then s else s.emit (.unsupported req off)

def execUnsupportedRequest (req : Nat) (off : BitVec 28) (size : Nat) (_write : Bool) (s : State) : Host.Outcome State Fault Refusal :=
  .next (s.badAccess req off.toNat size)

end Sys2Proof.Machine
end

