-- ==== Sys2Proof/Machine/RegWrite.lean ====
section
/-! DEFINITION. Register writes: who may write, the access codes, and the registers whose write is an operation of its own; and
accesses through BAR4 (R11 to R13, R458, R462, R485, R502, R552, R554). -/
namespace Sys2Proof.Machine
open Sys2Proof

/-- R12: the word that a write leaves in a register: RW and RWL fields take the new value when it is in range, W1C and W1S bits
act on a 1, and other bits stay. -/
def fieldWrite (valid : Bool) (old new : Nat) (f : RegField) : Nat :=
  let o := bits old f.hi f.lo
  let v := bits new f.hi f.lo
  let ok := match f.rng with
    | some (a, b) => decide (a ≤ v) && decide (v ≤ b)
    | none => true
  match f.acc with
  | .rw => if ok then setBits old f.hi f.lo v else old
  | .rwl => if ok && !valid then setBits old f.hi f.lo v else old
  | .w1c => setBits old f.hi f.lo (o - (o &&& v))
  | .w1s => setBits old f.hi f.lo (o ||| v)
  | .ro | .wo => old

/-- R12: a write to a stored register. -/
def State.plainWrite (s : State) (off v : Nat) : State :=
  match rowOf off with
  | none => s
  | some r => s.setReg off (BitVec.ofNat 32 (r.fields.foldl (fun a f => fieldWrite s.valid a v f) (s.reg off).toNat))

/-- R462: whether a requester is a function of the manager; before an image is applied, both ports are (R554). -/
def State.isManager (s : State) (req : Nat) : Bool := decide (req < 4) && (!s.valid || req / 2 == s.get f_HST_ROLE_MGR_PORT)

/-- R485: the window whose registers an offset lies in. -/
def winOff (off : Nat) : Option Nat := if 0x410000 ≤ off ∧ off < 0x414000 then some ((off - 0x410000) / 0x80) else none

/-- R479: the actions of a write of TWN_CTL. -/
def State.winCtl (s : State) (w v : Nat) : State :=
  let s := if bitAt v 1 ∧ s.winSt w = 1 then s.enterWin w 2 else s
  let s := if bitAt v 2 ∧ s.winSt w = 2 then s.enterWin w 3 else s
  let s := if bitAt v 3 then s.winAbort w else s
  let s := if bitAt v 4 then s.winReset w else s
  if bitAt v 5 then s.winRemove w else s

/-- R510: a write of FLT_RCMD. -/
def State.rcmdWrite (s : State) (v : Nat) : State :=
  let op := bits v 3 0
  let rseq := bits v 31 16
  let arg := (s.reg r_FLT_RCMD_ARG).toNat
  if !bitAt v 15 then s.plainWrite r_FLT_RCMD v
  else if op = 1 then s.rcmd 1 arg rseq (fun s => s.doVerdict arg rseq)
  else if op = 2 then s.rcmd 2 arg rseq (fun s => s.doReplay arg rseq)
  else if op = 3 then s.rcmd 3 arg rseq (fun s => s.doSrcClear arg rseq)
  else s.badRcmd op arg rseq

/-- R498, R500, R504, R515: a write of FLT_CTL. -/
def State.fltCtl (s : State) (v : Nat) : State :=
  let s := s.putB f_FLT_CTL_TEST (bitAt v 1)
  let s := if bitAt v 2 then s.cntClear else s
  if bitAt v 0 then ((s.toPhase (s.phaseNow false)).collectOwn 0x72 1 false).safeEnter else s

/-- R525, R549: the REPLAY bits of a write of AUD_PART that change. -/
def State.audPartWrite (s : State) (v : Nat) : State :=
  (List.range 16).foldl (fun s p => if s.partReplay p == bitAt v (16 + p) then s else s.replayEnable p (bitAt v (16 + p))) s

/-- R549: a bit of AUD_RPL_WIN_k changes only while its window is DISABLED. -/
def State.rplWinWrite (s : State) (k v : Nat) : State :=
  let free := maskOf ((List.range 32).filter (fun i => s.winSt (32 * k + i) == 0))
  let o := (s.reg (r_AUD_RPL_WIN k)).toNat
  s.setReg (r_AUD_RPL_WIN k) (BitVec.ofNat 32 ((o - (o &&& free)) ||| (v &&& free)))

/-- R484: a function's write of its own MSI-X table; clearing the mask bit of a vector sends what it held. -/
def State.msixWrite (s : State) (l off v : Nat) : State :=
  let k := (off - 0x404000) / 16
  let i := (off - 0x404000) % 16 / 4
  if i = 3 ∧ !bitAt v 0 then s.unmask l k
  else { s with hst := { s.hst with msix := sset (if i = 3 then 1 else 0) s.hst.msix (1024 * l + 4 * k + i) (if i = 3 then v % 2 else v) } }

/-- R455: TM_SEL keeps its port when FABRIC and a port above 23 are written. -/
def State.tmSelWrite (s : State) (v : Nat) : State :=
  s.plainWrite r_TM_SEL (if bitAt v 0 ∧ bits v 5 1 > 23 then setBits v 5 1 (s.get f_TM_SEL_PORT) else v)

/-- The registers below 0x0100_0000 whose write does more than set fields, or is held back (R549: AUD_RPL_BASE while its partition replays). IMG_CMD, BOOT_FLOOR_GO and BOOT_RECOVER act on what the
block reads elsewhere, and their commands carry it: here they only set their fields. -/
def State.ownWriteLow (s : State) (off v : Nat) : Option State :=
  if off = r_CLK_RADIO_HWM then some (if bitAt v 31 then s.put f_CLK_RADIO_HWM_MAX_FINISH 0 else s)
  else if off = r_PWR_OP then some ((s.plainWrite off v).retarget)
  else if off = r_PWR_PIN_FILT then some (s.pinFilter (bits v 5 0))
  else if off = r_FLT_CTL then some (s.fltCtl v)
  else if off = r_FLT_INJECT then some (if bitAt v 31 then s.inject (bits v 11 0) (bits v 19 12) else s.plainWrite off v)
  else if off = r_FLT_RCMD then some (s.rcmdWrite v)
  else if off = r_BOOT_RESET then some (if bitAt v 0 ∧ bits v 31 16 = 0x5A17 then s.chipReset else s)
  else if off = r_AUD_PART then some (s.audPartWrite v)
  else if 0x308100 ≤ off ∧ off < 0x308200 then (if s.partReplay ((off - 0x308100) / 0x10) then some s else some (s.plainWrite off v))
  else if off = r_AUD_MIRROR_CI then some (s.mirrorAck v)
  else if off = r_AUD_MIRROR_CFG then some (s.plainWrite off v).audShow
  else if off = r_HST_MGR_HB then some (s.heartbeat (s.get f_HST_ROLE_MGR_PORT))
  else if off = r_CMP_REASSIGN_GO then some (s.reassign v)
  else match regIdx r_AUD_RPL_WIN 4 off with
    | some k => some (s.rplWinWrite k v)
    | none => match winOff off with
      | some w => if off = r_TWN_CTL w then some (s.winCtl w v) else some (if s.winSt w = 0 then s.plainWrite off v else s)
      | none => match regIdx r_SRV_PIPE_CFG 16 off with
        | some p => some ((s.plainWrite off v).pipeRebase p)
        | none => match regIdx r_SRV_PART_CTL 16 off with
          | some p =>
            let s := s.putB (f_SRV_PART_CTL_HALT p) (bitAt v 0)
            some (if bitAt v 2 then (let x := s.spOf p; if x.halt = 0 then s else s.setSp p { x with resumed := true }) else s)
          | none => match regIdx r_CMP_PART_CTL 16 off with
            | some p => some (if bitAt v 0 then s.startDrain p else s)
            | none => none

/-- Those from 0x0100_0000 on. -/
def State.ownWriteHigh (s : State) (off v : Nat) : Option State :=
  if off = r_ARR_SUBST then some (s.doSubstGo v)
  else if off = r_RAD_MIG then some (s.migGo v)
  else if off = r_PTP_DOM_CFG then some (s.plainWrite off v).domCfg
  else if off = r_PTP_SNAP then some (if bitAt v 0 then s.ptpSnap else s)
  else if off = r_TM_SEL then some (s.tmSelWrite v)
  else if off = r_TM_Q_CLEAR then some (if bitAt v 0 then s.tmClear else s)
  else match regIdx r_ARR_CTRL 64 off with
    | some n => some ((s.plainWrite off v).doArrayHalt n (bitAt v 0))
    | none => match regIdx r_AVL_PORT_CTL 24 off with
      | some p =>
        let s := if bitAt v 0 == s.flag (f_AVL_PORT_CTL_DISABLE p) then s else s.mvAnswered (s.portDisable p (bitAt v 0))
        let s := if bitAt v 1 ∧ (s.portSt p = 4 ∨ s.portSt p = 6) then s.startTraining p else s
        some (if bitAt v 2 ∧ s.portSt p = 5 then s.startTraining p else s)
      | none => match regIdx r_SYN_OBJ_CFG 8192 off with
        | some o => some (s.synConfig o v)
        | none => match regIdx r_SYN_OBJ_SIGNAL 8192 off with
          | some o => some (s.synSignal o v)
          | none => none

/-- The registers whose write does more than set fields. -/
def State.ownWrite (s : State) (off v : Nat) : Option State := if off < 0x1000000 then s.ownWriteLow off v else s.ownWriteHigh off v

/-- REGISTER_WRITE (R11 to R13, R36, R462, R463, R502, R552). -/
def State.regWrite (s : State) (req off v : Nat) : State :=
  if s.boot.por ∨ off % 4 ≠ 0 then s
  else if s.flt.phase = .safelight then
    (if off = r_BOOT_RESET ∧ s.isManager req = true ∧ bitAt v 0 = true ∧ bits v 31 16 = 0x5A17 then s.chipReset else s)
  else if req < 4 ∧ 0x404000 ≤ off ∧ off < 0x405000 then s.msixWrite req off v
  else if off = r_HST_MGR_CLAIM then (if req < 4 ∧ bitAt v 0 = true then s.mgrClaim (req / 2) else s)
  else if s.isManager req = false ∨ s.hiddenOff off = true then s
  else match s.ownWrite off v with
    | some t => t
    | none => s.plainWrite off v

def execRegisterWrite (req : Nat) (off : BitVec 28) (val : BitVec 32) (s : State) : Host.Outcome State Fault Refusal :=
  .next (s.regWrite req off.toNat val.toNat)

/-- BAR4_ACCESS (R458): offset o reaches stage memory byte o. Writes obey R462 and R502; a peer's are ignored. -/
def State.bar4 (s : State) (req off : Nat) (write : Bool) (data : List Byte) (len : Nat) : State :=
  let a := stageBase + off
  let unit := srcPcie (req / 2)
  if s.boot.por then s
  else if write then
    let data := data.take (0x10000000 - off)
    if s.flt.phase = .safelight ∨ s.isManager req = false ∨ data.isEmpty then s else (s.store unit a data).1
  else
    let n := min len (0x10000000 - off)
    if n = 0 then s
    else
      let r := s.load unit a n
      r.1.emit (.barData req off r.2.1)

def execBar4Access (req : Fin 4) (off : BitVec 28) (write : Bool) (data : List Byte) (len : Nat) (s : State) :
    Host.Outcome State Fault Refusal :=
  .next (s.bar4 req.val off.toNat write data len)

end Sys2Proof.Machine
end

