-- ==== Sys2Proof/Machine/Dispatch.lean ====
section
/-! DEFINITION. One arm per command; each arm is one direct call of that command's meaning. -/
namespace Sys2Proof.Machine
open Sys2Proof

/-- The command's effect on everything but the queue. -/
def exec (i : Instr) (s : State) : Host.Outcome State Fault Refusal :=
  match i with
  | .registerWrite req off val => Sys2Proof.Machine.execRegisterWrite req off val s
  | .unsupportedRequest req off size write => Sys2Proof.Machine.execUnsupportedRequest req off size write s
  | .lowWordRead req bar2 off => Sys2Proof.Machine.execLowWordRead req bar2 off s
  | .bar4Access req off write data len => Sys2Proof.Machine.execBar4Access req off write data len s
  | .shutter inp => Sys2Proof.Machine.execShutter inp s
  | .timeSourceValid => Sys2Proof.Machine.execTimeSourceValid s
  | .timeSourceLost => Sys2Proof.Machine.execTimeSourceLost s
  | .timeLock => Sys2Proof.Machine.execTimeLock s
  | .holdExpired => Sys2Proof.Machine.execHoldExpired s
  | .ppsPulse => Sys2Proof.Machine.execPpsPulse s
  | .guardEnd r => Sys2Proof.Machine.execGuardEnd r s
  | .openLeaseStart r endCycle => Sys2Proof.Machine.execOpenLeaseStart r endCycle s
  | .pipeRebase p => Sys2Proof.Machine.execPipeRebase p s
  | .pipePeriodWrite p v => Sys2Proof.Machine.execPipePeriodWrite p v s
  | .radioHwmClear => Sys2Proof.Machine.execRadioHwmClear s
  | .pissue n t w => Sys2Proof.Machine.execPissue n t w s
  | .issueTimeout n t => Sys2Proof.Machine.execIssueTimeout n t s
  | .passStart n radio => Sys2Proof.Machine.execPassStart n radio s
  | .weightLoadComplete n => Sys2Proof.Machine.execWeightLoadComplete n s
  | .beatWrite n bad => Sys2Proof.Machine.execBeatWrite n bad s
  | .passEnd n => Sys2Proof.Machine.execPassEnd n s
  | .chainEnd n => Sys2Proof.Machine.execChainEnd n s
  | .arrayHalt n v => Sys2Proof.Machine.execArrayHalt n v s
  | .arrSubstGo v => Sys2Proof.Machine.execArrSubstGo v s
  | .substCopyStart n => Sys2Proof.Machine.execSubstCopyStart n s
  | .substCopyComplete n => Sys2Proof.Machine.execSubstCopyComplete n s
  | .arraySwapData n addr => Sys2Proof.Machine.execArraySwapData n addr s
  | .arraySwapTimeout n => Sys2Proof.Machine.execArraySwapTimeout n s
  | .teControlFlow n t w => Sys2Proof.Machine.execTeControlFlow n t w s
  | .teHalt n t w => Sys2Proof.Machine.execTeHalt n t w s
  | .teFence n t w => Sys2Proof.Machine.execTeFence n t w s
  | .teCsrr n t w cyc => Sys2Proof.Machine.execTeCsrr n t w cyc s
  | .teCsrw n t w => Sys2Proof.Machine.execTeCsrw n t w s
  | .teScalarOp n t w => Sys2Proof.Machine.execTeScalarOp n t w s
  | .teVectorFpOp n t w => Sys2Proof.Machine.execTeVectorFpOp n t w s
  | .teVectorIntOp n t w => Sys2Proof.Machine.execTeVectorIntOp n t w s
  | .teConvert n t w => Sys2Proof.Machine.execTeConvert n t w s
  | .teReduction n t w => Sys2Proof.Machine.execTeReduction n t w s
  | .argmax n t w => Sys2Proof.Machine.execArgmax n t w s
  | .sample n t w => Sys2Proof.Machine.execSample n t w s
  | .apadd n t w => Sys2Proof.Machine.execApadd n t w s
  | .aprescale n t w => Sys2Proof.Machine.execAprescale n t w s
  | .apcvt n t w => Sys2Proof.Machine.execApcvt n t w s
  | .s64split n t w => Sys2Proof.Machine.execS64split n t w s
  | .s64comb n t w => Sys2Proof.Machine.execS64comb n t w s
  | .teLoad n t w => Sys2Proof.Machine.execTeLoad n t w s
  | .teStore n t w => Sys2Proof.Machine.execTeStore n t w s
  | .teAtomic n t w => Sys2Proof.Machine.execTeAtomic n t w s
  | .teRemoteAccess n t w => Sys2Proof.Machine.execTeRemoteAccess n t w s
  | .pwait n t w => Sys2Proof.Machine.execPwait n t w s
  | .ppoll n t w => Sys2Proof.Machine.execPpoll n t w s
  | .msend n t w => Sys2Proof.Machine.execMsend n t w s
  | .mrecv n t w => Sys2Proof.Machine.execMrecv n t w s
  | .mwait n t w => Sys2Proof.Machine.execMwait n t w s
  | .syncOpIssue n t w cyc => Sys2Proof.Machine.execSyncOpIssue n t w cyc s
  | .twalk n t w tmo => Sys2Proof.Machine.execTwalk n t w tmo s
  | .twleaf n t w => Sys2Proof.Machine.execTwleaf n t w s
  | .pscan n t w => Sys2Proof.Machine.execPscan n t w s
  | .rngS n t w => Sys2Proof.Machine.execRngS n t w s
  | .rngV n t w => Sys2Proof.Machine.execRngV n t w s
  | .rngU24 n t w => Sys2Proof.Machine.execRngU24 n t w s
  | .rngU53 n t w => Sys2Proof.Machine.execRngU53 n t w s
  | .teWaitTimeout n t => Sys2Proof.Machine.execTeWaitTimeout n t s
  | .stageTransferRequest b x moved => Sys2Proof.Machine.execStageTransferRequest b x moved s
  | .stageBankGrant b => Sys2Proof.Machine.execStageBankGrant b s
  | .stageArbTmo b => Sys2Proof.Machine.execStageArbTmo b s
  | .refreshRateRead rates => Sys2Proof.Machine.execRefreshRateRead rates s
  | .lpddrRefresh c postponed => Sys2Proof.Machine.execLpddrRefresh c postponed s
  | .refreshForced c => Sys2Proof.Machine.execRefreshForced c s
  | .patrolScrub => Sys2Proof.Machine.execPatrolScrub s
  | .dmaDescriptorGo n c slot ctrl => Sys2Proof.Machine.execDmaDescriptorGo n c slot ctrl s
  | .dmaDescriptorEnd n c ns => Sys2Proof.Machine.execDmaDescriptorEnd n c ns s
  | .bulkSubmit m q d tenant => Sys2Proof.Machine.execBulkSubmit m q d tenant s
  | .bulkComplete m data ok ns => Sys2Proof.Machine.execBulkComplete m data ok ns s
  | .spillRegionSaved n => Sys2Proof.Machine.execSpillRegionSaved n s
  | .reloadStart n job => Sys2Proof.Machine.execReloadStart n job s
  | .reloadComplete n => Sys2Proof.Machine.execReloadComplete n s
  | .stepPlan p trees => Sys2Proof.Machine.execStepPlan p trees s
  | .stepStart p => Sys2Proof.Machine.execStepStart p s
  | .stepHoldTimeout p => Sys2Proof.Machine.execStepHoldTimeout p s
  | .streamTimeout p => Sys2Proof.Machine.execStreamTimeout p s
  | .partHalt p v => Sys2Proof.Machine.execPartHalt p v s
  | .partResume p => Sys2Proof.Machine.execPartResume p s
  | .contextExpiry => Sys2Proof.Machine.execContextExpiry s
  | .pageZeroFillComplete u => Sys2Proof.Machine.execPageZeroFillComplete u s
  | .archiveCopyComplete n ns => Sys2Proof.Machine.execArchiveCopyComplete n ns s
  | .archiveReloadComplete n ns => Sys2Proof.Machine.execArchiveReloadComplete n ns s
  | .handoverRelease n => Sys2Proof.Machine.execHandoverRelease n s
  | .ownRelease src => Sys2Proof.Machine.execOwnRelease src s
  | .ownAcquire src => Sys2Proof.Machine.execOwnAcquire src s
  | .ownRedirect src => Sys2Proof.Machine.execOwnRedirect src s
  | .ownClose src => Sys2Proof.Machine.execOwnClose src s
  | .handoverNotice src => Sys2Proof.Machine.execHandoverNotice src s
  | .noticeAck src => Sys2Proof.Machine.execNoticeAck src s
  | .staleRouteNack src => Sys2Proof.Machine.execStaleRouteNack src s
  | .retirementUpdate src => Sys2Proof.Machine.execRetirementUpdate src s
  | .kvAppend src => Sys2Proof.Machine.execKvAppend src s
  | .pageRelease src => Sys2Proof.Machine.execPageRelease src s
  | .handoverTimeout n => Sys2Proof.Machine.execHandoverTimeout n s
  | .reassignGo v => Sys2Proof.Machine.execReassignGo v s
  | .overlapExpiry k => Sys2Proof.Machine.execOverlapExpiry k s
  | .epochMapRetire k => Sys2Proof.Machine.execEpochMapRetire k s
  | .partDrain p => Sys2Proof.Machine.execPartDrain p s
  | .drainComplete p => Sys2Proof.Machine.execDrainComplete p s
  | .drainTimeout p => Sys2Proof.Machine.execDrainTimeout p s
  | .acctSnapshot => Sys2Proof.Machine.execAcctSnapshot s
  | .linkTrainingComplete p good chip port => Sys2Proof.Machine.execLinkTrainingComplete p good chip port s
  | .linkTrainTimeout p => Sys2Proof.Machine.execLinkTrainTimeout p s
  | .linkRetrain p loss => Sys2Proof.Machine.execLinkRetrain p loss s
  | .retrainComplete p good => Sys2Proof.Machine.execRetrainComplete p good s
  | .retrainTimeout p => Sys2Proof.Machine.execRetrainTimeout p s
  | .safeFlitReceived p => Sys2Proof.Machine.execSafeFlitReceived p s
  | .portRetrainCmd p => Sys2Proof.Machine.execPortRetrainCmd p s
  | .unquarantine p => Sys2Proof.Machine.execUnquarantine p s
  | .portDisable p v => Sys2Proof.Machine.execPortDisable p v s
  | .flitReceive p f corr uncorr lanes => Sys2Proof.Machine.execFlitReceive p f corr uncorr lanes s
  | .nakReceived p ack => Sys2Proof.Machine.execNakReceived p ack s
  | .ackTimeout p => Sys2Proof.Machine.execAckTimeout p s
  | .orderedReroute dst => Sys2Proof.Machine.execOrderedReroute dst s
  | .beaconSend ts => Sys2Proof.Machine.execBeaconSend ts s
  | .beaconReceive p b ingress residence => Sys2Proof.Machine.execBeaconReceive p b ingress residence s
  | .beaconLoss => Sys2Proof.Machine.execBeaconLoss s
  | .pdelayMeasure p t1 => Sys2Proof.Machine.execPdelayMeasure p t1 s
  | .pdelayReqReceive p t2 t3 => Sys2Proof.Machine.execPdelayReqReceive p t2 t3 s
  | .pdelayRespReceive p t2 t3 t4 => Sys2Proof.Machine.execPdelayRespReceive p t2 t3 t4 s
  | .remoteLoad src => Sys2Proof.Machine.execRemoteLoad src s
  | .remoteStore src => Sys2Proof.Machine.execRemoteStore src s
  | .remoteAtomic src => Sys2Proof.Machine.execRemoteAtomic src s
  | .syncSignal src => Sys2Proof.Machine.execSyncSignal src s
  | .syncSet src => Sys2Proof.Machine.execSyncSet src s
  | .syncArrive src cyc => Sys2Proof.Machine.execSyncArrive src cyc s
  | .syncRead src => Sys2Proof.Machine.execSyncRead src s
  | .syncWaitGe src => Sys2Proof.Machine.execSyncWaitGe src s
  | .remoteWaitExpiry src tag => Sys2Proof.Machine.execRemoteWaitExpiry src tag s
  | .epochQuery src => Sys2Proof.Machine.execEpochQuery src s
  | .remoteResponse src tag => Sys2Proof.Machine.execRemoteResponse src tag s
  | .deadTargetTimeout tag => Sys2Proof.Machine.execDeadTargetTimeout tag s
  | .atomicResend tag => Sys2Proof.Machine.execAtomicResend tag s
  | .requestAged q now => Sys2Proof.Machine.execRequestAged q now s
  | .recoveryDone => Sys2Proof.Machine.execRecoveryDone s
  | .synObjSignal o v => Sys2Proof.Machine.execSynObjSignal o v s
  | .synObjConfig o v => Sys2Proof.Machine.execSynObjConfig o v s
  | .sigBundle c t w => Sys2Proof.Machine.execSigBundle c t w s
  | .jsub c t w => Sys2Proof.Machine.execJsub c t w s
  | .jwait c t w => Sys2Proof.Machine.execJwait c t w s
  | .jpoll c t w => Sys2Proof.Machine.execJpoll c t w s
  | .xfer c t w moved => Sys2Proof.Machine.execXfer c t w moved s
  | .xwait c t w => Sys2Proof.Machine.execXwait c t w s
  | .sigHalt c t w => Sys2Proof.Machine.execSigHalt c t w s
  | .sigWaitTimeout c t => Sys2Proof.Machine.execSigWaitTimeout c t s
  | .sigRerun c => Sys2Proof.Machine.execSigRerun c s
  | .accelJobComplete kind die e radio hw cyc => Sys2Proof.Machine.execAccelJobComplete kind die e radio hw cyc s
  | .fapiStart w err => Sys2Proof.Machine.execFapiStart w err s
  | .fapiStop w err => Sys2Proof.Machine.execFapiStop w err s
  | .dlTtiRequest w m => Sys2Proof.Machine.execDlTtiRequest w m s
  | .ulTtiRequest w m => Sys2Proof.Machine.execUlTtiRequest w m s
  | .ulDciRequest w m => Sys2Proof.Machine.execUlDciRequest w m s
  | .txDataRequest w m => Sys2Proof.Machine.execTxDataRequest w m s
  | .fapiUnsupported w err => Sys2Proof.Machine.execFapiUnsupported w err s
  | .indBuf w => Sys2Proof.Machine.execIndBuf w s
  | .radMigGo v => Sys2Proof.Machine.execRadMigGo v s
  | .migrationOffer src => Sys2Proof.Machine.execMigrationOffer src s
  | .migPhase1Complete n => Sys2Proof.Machine.execMigPhase1Complete n s
  | .migSwitch n => Sys2Proof.Machine.execMigSwitch n s
  | .migPhase2Complete n => Sys2Proof.Machine.execMigPhase2Complete n s
  | .fhFrameReceive sub f => Sys2Proof.Machine.execFhFrameReceive sub f s
  | .uplaneReceive => Sys2Proof.Machine.execUplaneReceive s
  | .ptpSyncReceive => Sys2Proof.Machine.execPtpSyncReceive s
  | .ptpFollowUpReceive => Sys2Proof.Machine.execPtpFollowUpReceive s
  | .ptpDelayRespReceive => Sys2Proof.Machine.execPtpDelayRespReceive s
  | .ptpAnnounceReceive => Sys2Proof.Machine.execPtpAnnounceReceive s
  | .delayReqSend d seq ns => Sys2Proof.Machine.execDelayReqSend d seq ns s
  | .ptpDomainTimeout d => Sys2Proof.Machine.execPtpDomainTimeout d s
  | .ptpRevert => Sys2Proof.Machine.execPtpRevert s
  | .tmEnqueue e q => Sys2Proof.Machine.execTmEnqueue e q s
  | .tmSelect e egress => Sys2Proof.Machine.execTmSelect e egress s
  | .tmSample => Sys2Proof.Machine.execTmSample s
  | .tmQClear => Sys2Proof.Machine.execTmQClear s
  | .fhMrxRead req => Sys2Proof.Machine.execFhMrxRead req s
  | .ptpSnap => Sys2Proof.Machine.execPtpSnap s
  | .fhLinkDown sub => Sys2Proof.Machine.execFhLinkDown sub s
  | .perstRelease port x8 => Sys2Proof.Machine.execPerstRelease port x8 s
  | .functionLevelReset l => Sys2Proof.Machine.execFunctionLevelReset l s
  | .pcieLinkDown l => Sys2Proof.Machine.execPcieLinkDown l s
  | .hostReadError w => Sys2Proof.Machine.execHostReadError w s
  | .mgrHeartbeat via => Sys2Proof.Machine.execMgrHeartbeat via s
  | .hbLapse => Sys2Proof.Machine.execHbLapse s
  | .mgrClaim via => Sys2Proof.Machine.execMgrClaim via s
  | .commandFetch k rs => Sys2Proof.Machine.execCommandFetch k rs s
  | .windowEnable w rcb => Sys2Proof.Machine.execWindowEnable w rcb s
  | .windowStopAdmit w => Sys2Proof.Machine.execWindowStopAdmit w s
  | .windowDrain w => Sys2Proof.Machine.execWindowDrain w s
  | .windowAbort w => Sys2Proof.Machine.execWindowAbort w s
  | .windowReset w => Sys2Proof.Machine.execWindowReset w s
  | .windowRemove w => Sys2Proof.Machine.execWindowRemove w s
  | .windowQuiesce w => Sys2Proof.Machine.execWindowQuiesce w s
  | .windowDrainTimeout w => Sys2Proof.Machine.execWindowDrainTimeout w s
  | .windowAbortTimeout w => Sys2Proof.Machine.execWindowAbortTimeout w s
  | .nop w => Sys2Proof.Machine.execNop w s
  | .jobStart w => Sys2Proof.Machine.execJobStart w s
  | .jobStop w => Sys2Proof.Machine.execJobStop w s
  | .jobPrio w => Sys2Proof.Machine.execJobPrio w s
  | .copy w m => Sys2Proof.Machine.execCopy w m s
  | .fill w m => Sys2Proof.Machine.execFill w m s
  | .ctxOpen w => Sys2Proof.Machine.execCtxOpen w s
  | .ctxPrefill w => Sys2Proof.Machine.execCtxPrefill w s
  | .ctxPause w => Sys2Proof.Machine.execCtxPause w s
  | .ctxResume w => Sys2Proof.Machine.execCtxResume w s
  | .ctxClose w => Sys2Proof.Machine.execCtxClose w s
  | .ctxTree w => Sys2Proof.Machine.execCtxTree w s
  | .ctxDigest w => Sys2Proof.Machine.execCtxDigest w s
  | .modelLoad w data => Sys2Proof.Machine.execModelLoad w data s
  | .modelUnload w => Sys2Proof.Machine.execModelUnload w s
  | .partModel w => Sys2Proof.Machine.execPartModel w s
  | .cqFullTimeout w => Sys2Proof.Machine.execCqFullTimeout w s
  | .coalesceTimer w => Sys2Proof.Machine.execCoalesceTimer w s
  | .jobLaunch job => Sys2Proof.Machine.execJobLaunch job s
  | .jobStartTimeout job => Sys2Proof.Machine.execJobStartTimeout job s
  | .jobEnd job => Sys2Proof.Machine.execJobEnd job s
  | .faultMessage => Sys2Proof.Machine.execFaultMessage s
  | .collectorSelfFault => Sys2Proof.Machine.execCollectorSelfFault s
  | .safelightEntry => Sys2Proof.Machine.execSafelightEntry s
  | .fltSafelight => Sys2Proof.Machine.execFltSafelight s
  | .fltTest v => Sys2Proof.Machine.execFltTest v s
  | .cntClear => Sys2Proof.Machine.execCntClear s
  | .fltInject src kind => Sys2Proof.Machine.execFltInject src kind s
  | .verdict arg rseq => Sys2Proof.Machine.execVerdict arg rseq s
  | .replay arg rseq => Sys2Proof.Machine.execReplay arg rseq s
  | .srcClear arg rseq => Sys2Proof.Machine.execSrcClear arg rseq s
  | .verdictApplied => Sys2Proof.Machine.execVerdictApplied s
  | .replayStart p => Sys2Proof.Machine.execReplayStart p s
  | .replayWaitTimeout p => Sys2Proof.Machine.execReplayWaitTimeout p s
  | .fltQueueRead req => Sys2Proof.Machine.execFltQueueRead req s
  | .replayEnable p v => Sys2Proof.Machine.execReplayEnable p v s
  | .replayHorizonTimeout p => Sys2Proof.Machine.execReplayHorizonTimeout p s
  | .auditBlockClose => Sys2Proof.Machine.execAuditBlockClose s
  | .auditBlockCommit failA failB => Sys2Proof.Machine.execAuditBlockCommit failA failB s
  | .mirrorAck ci => Sys2Proof.Machine.execMirrorAck ci s
  | .getVersion => Sys2Proof.Machine.execGetVersion s
  | .getCapabilities => Sys2Proof.Machine.execGetCapabilities s
  | .negotiateAlgorithms => Sys2Proof.Machine.execNegotiateAlgorithms s
  | .getDigests => Sys2Proof.Machine.execGetDigests s
  | .getCertificate slot off len => Sys2Proof.Machine.execGetCertificate slot off len s
  | .challenge slot nonce => Sys2Proof.Machine.execChallenge slot nonce s
  | .getMeasurements index sign nonce => Sys2Proof.Machine.execGetMeasurements index sign nonce s
  | .spdmUnsupported => Sys2Proof.Machine.execSpdmUnsupported s
  | .coldReset a b => Sys2Proof.Machine.execColdReset a b s
  | .chipReset => Sys2Proof.Machine.execChipReset s
  | .watchdogExpiry => Sys2Proof.Machine.execWatchdogExpiry s
  | .bootReset key => Sys2Proof.Machine.execBootReset key s
  | .identityDerive ok => Sys2Proof.Machine.execIdentityDerive ok s
  | .fwVerify authA authB => Sys2Proof.Machine.execFwVerify authA authB s
  | .lpTrain dens bad => Sys2Proof.Machine.execLpTrain dens bad s
  | .selfTest arrays cores => Sys2Proof.Machine.execSelfTest arrays cores s
  | .imgVerify => Sys2Proof.Machine.execImgVerify s
  | .imageApply src => Sys2Proof.Machine.execImageApply src s
  | .bootRecover f => Sys2Proof.Machine.execBootRecover f s
  | .floorRaise okA okB => Sys2Proof.Machine.execFloorRaise okA okB s
  | .imgDelta g => Sys2Proof.Machine.execImgDelta g s
  | .imgWrite g => Sys2Proof.Machine.execImgWrite g s
  | .fwWrite f => Sys2Proof.Machine.execFwWrite f s
  | .deltaApply => Sys2Proof.Machine.execDeltaApply s
  | .imgWriteComplete fail => Sys2Proof.Machine.execImgWriteComplete fail s
  | .xtalWindow count => Sys2Proof.Machine.execXtalWindow count s
  | .xtalQualTimeout => Sys2Proof.Machine.execXtalQualTimeout s
  | .timerefWindow ppm => Sys2Proof.Machine.execTimerefWindow ppm s
  | .timerefLost => Sys2Proof.Machine.execTimerefLost s
  | .xtalLost => Sys2Proof.Machine.execXtalLost s
  | .referenceLoss => Sys2Proof.Machine.execReferenceLoss s
  | .pwrOpRequest v => Sys2Proof.Machine.execPwrOpRequest v s
  | .opChange mv locked => Sys2Proof.Machine.execOpChange mv locked s
  | .raiseSettleTimeout => Sys2Proof.Machine.execRaiseSettleTimeout s
  | .avsTransaction ok => Sys2Proof.Machine.execAvsTransaction ok s
  | .aonSupplySwitch a b => Sys2Proof.Machine.execAonSupplySwitch a b s
  | .aonReturn => Sys2Proof.Machine.execAonReturn s
  | .pinFilterWrite v => Sys2Proof.Machine.execPinFilterWrite v s
  | .fhLinkUp sub => Sys2Proof.Machine.execFhLinkUp sub s
  | .resetRelease => Sys2Proof.Machine.execResetRelease s
  | .powerOnReset => Sys2Proof.Machine.execPowerOnReset s
  | .pcieLinkUp l rate width => Sys2Proof.Machine.execPcieLinkUp l rate width s
  | .vectorUnmask l v => Sys2Proof.Machine.execVectorUnmask l v s

end Sys2Proof.Machine
end

