-- ==== Sys2Proof/Safety.lean ====
section
/-! DEFINITION. What a statement about the block is said in: a command that runs to a next state, what a next state leaves
unchanged, and the canonical form of the stores. -/
namespace Sys2Proof.Machine
open Sys2Proof

/-- A command runs: `exec` answers a next state, and the next state has the property. -/
def Runs (c : Instr) (s : State) (P : State → Prop) : Prop := ∃ t, exec c s = .next t ∧ P t

/-- Parts of the state, to say which a command may change. -/
structure Parts where
  regs : Bool := false
  mem : Bool := false
  latch : Bool := false
  flt : Bool := false
  tim : Bool := false
  arr : Bool := false
  die : Bool := false
  phys : Bool := false
  grade56 : Bool := false
  coreDis : Bool := false
  te : Bool := false
  ms : Bool := false
  net : Bool := false
  syn : Bool := false
  tm : Bool := false
  fh : Bool := false
  sig : Bool := false
  rad : Bool := false
  hst : Bool := false
  acct : Bool := false
  aud : Bool := false
  sp : Bool := false
  srv : Bool := false
  own : Bool := false
  boot : Bool := false
  clk : Bool := false
  pwr : Bool := false
  pins : Bool := false
  img : Bool := false
  out : Bool := false
  free : Bool := false
  pending : Bool := false

/-- Every part of the state but the named ones is as it was. -/
def State.onlyIn (s t : State) (p : Parts) : Prop :=
  (p.regs = false → t.regs = s.regs)
  ∧ (p.mem = false → t.mem = s.mem)
  ∧ (p.latch = false → t.latch = s.latch)
  ∧ (p.flt = false → t.flt = s.flt)
  ∧ (p.tim = false → t.tim = s.tim)
  ∧ (p.arr = false → t.arr = s.arr)
  ∧ (p.die = false → t.die = s.die)
  ∧ (p.phys = false → t.phys = s.phys)
  ∧ (p.grade56 = false → t.grade56 = s.grade56)
  ∧ (p.coreDis = false → t.coreDis = s.coreDis)
  ∧ (p.te = false → t.te = s.te)
  ∧ (p.ms = false → t.ms = s.ms)
  ∧ (p.net = false → t.net = s.net)
  ∧ (p.syn = false → t.syn = s.syn)
  ∧ (p.tm = false → t.tm = s.tm)
  ∧ (p.fh = false → t.fh = s.fh)
  ∧ (p.sig = false → t.sig = s.sig)
  ∧ (p.rad = false → t.rad = s.rad)
  ∧ (p.hst = false → t.hst = s.hst)
  ∧ (p.acct = false → t.acct = s.acct)
  ∧ (p.aud = false → t.aud = s.aud)
  ∧ (p.sp = false → t.sp = s.sp)
  ∧ (p.srv = false → t.srv = s.srv)
  ∧ (p.own = false → t.own = s.own)
  ∧ (p.boot = false → t.boot = s.boot)
  ∧ (p.clk = false → t.clk = s.clk)
  ∧ (p.pwr = false → t.pwr = s.pwr)
  ∧ (p.pins = false → t.pins = s.pins)
  ∧ (p.img = false → t.img = s.img)
  ∧ (p.out = false → t.out = s.out)
  ∧ (p.free = false → t.free = s.free)
  ∧ (p.pending = false → t.pending = s.pending)

/-- Every register of BAR0 outside a list of offsets reads as before. -/
def State.regsBut (s t : State) (l : List Nat) : Prop := ∀ off, off ∉ l → t.reg off = s.reg off

/-- Every register bit outside the listed fields reads as before. -/
def State.bitsBut (s t : State) (l : List FRef) : Prop :=
  ∀ g : FRef, g.lo ≤ g.hi → g.hi < 32 → (∀ f ∈ l, g.off ≠ f.off ∨ f.hi < g.lo ∨ g.hi < f.lo) → t.get g = s.get g

/-- The set-count beside a status bit (R504). -/
def FRef.count (f : FRef) : FRef := ⟨f.off + 4, 15, 0⟩

/-- Every byte of memory reads as before. -/
def State.memSame (s t : State) : Prop := ∀ a, t.readByte a = s.readByte a

/-- Every byte of memory outside n bytes from an address reads as before. -/
def State.memBut (s t : State) (a n : Nat) : Prop := ∀ b, b < a ∨ a + n ≤ b → t.readByte b = s.readByte b

/-- The message that a unit sends to the collector (R487, R488): its SEQ is the source's count, its tick the current one. -/
def State.msg (s : State) (src kind addr aux : Nat) : FltMsg :=
  { source := src, kind := kind, seq := (s.src src).seq, tick := s.tim.tick % 2 ^ 32, addr := addr % 2 ^ 48, aux := aux % 2 ^ 16 }

/-- One message more waits for the collector, from this source with this kind, address and AUX; its source counts it (R488); nothing
else of the collector changes. -/
def State.sends (s t : State) (src kind addr aux : Nat) : Prop :=
  t.flt = { s.flt with inbox := s.flt.inbox ++ [s.msg src kind addr aux], src := t.flt.src }
  ∧ (t.src src).seq = ((s.src src).seq + 1) % 4096 ∧ ∀ k, k ≠ src → t.src k = s.src k

/-- The canonical form of memory: addresses strictly rising, no byte listed that reads 0 when unlisted. -/
def Memory.wf (m : SMap Byte) : Bool := swf 0 m

/-- R618: memory holds unspecified values: a byte that was listed is a free byte, one that was not reads 0. -/
def State.forgets (s t : State) : Prop :=
  ∀ a, if ∃ e ∈ s.mem, e.1 = a then ∃ k, t.readByte a = Config.freeByte k else t.readByte a = 0

/-- The canonical form of the register store: offsets strictly rising, no register listed at its reset value (R12). -/
def regsWf : SMap (BitVec 32) → Bool
  | [] => true
  | (k, v) :: m => decide (v ≠ BitVec.ofNat 32 (resetAt k)) && (m.all (fun e => decide (k < e.1))) && regsWf m

/-- A state whose memory, registers and context entries are in canonical form: equal reads are equal data. -/
def State.canonical (s : State) : Prop := Memory.wf s.mem = true ∧ regsWf s.regs = true ∧ swf {} s.srv.ctx = true

/-! Memory that an access reaches without an error (R32, R185, R209, R228). -/

/-- n bytes from an address lie in one region that exists, and no marked word or line is among them. -/
def State.plain (s : State) (a n : Nat) : Prop :=
  s.region a ≠ .reserved ∧ s.region a ≠ .regSpace ∧ s.region (a + n - 1) = s.region a ∧ touched s.ms.corr a n = [] ∧ touched s.ms.uncorr a n = []

/-- The same, and no guarded range is touched by either end: the bytes can be written. -/
def State.writable (s : State) (a n : Nat) : Prop := s.plain a n ∧ s.guardedAt a = false ∧ s.guardedAt (a + n - 1) = false

/-! Threads of the engines (R149 to R154, R165, R177). -/

/-- Thread k of engine n issues word w: it may run, its fetch succeeds, the word is an instruction, no register of it holds an
error and no operand is still to come. -/
def State.issues (s : State) (n k : Nat) (w : BitVec 64) : Prop :=
  s.live = true ∧ s.mayRun n k = true ∧ s.fetchBad (s.thr n k) (teWord w).len = false ∧ (teWord w).legal = true
  ∧ (s.thr n k).ecc = 0 ∧ (∀ r ∈ (teWord w).regs, r ∉ s.pendRegs n k)

/-- The commands that issue word w on thread k of engine n, by the instruction that each expects; `pwait` and `ppoll` free the queue too. -/
def issueCommand (c : Instr) (n k : Fin 64) (w : BitVec 64) : Prop :=
  c ∈ [Instr.teControlFlow n k w, .teHalt n k w, .teFence n k w, .teCsrw n k w, .teScalarOp n k w, .teVectorFpOp n k w, .teVectorIntOp n k w,
    .teConvert n k w, .teReduction n k w, .argmax n k w, .sample n k w, .apadd n k w, .aprescale n k w, .apcvt n k w, .s64split n k w,
    .s64comb n k w, .teLoad n k w, .teStore n k w, .teAtomic n k w, .pissue n k w, .msend n k w, .mrecv n k w, .mwait n k w, .twleaf n k w,
    .pscan n k w, .rngS n k w, .rngV n k w, .rngU24 n k w, .rngU53 n k w]
  ∨ (∃ cyc, c = .teCsrr n k w cyc) ∨ ∃ tmo, c = .twalk n k w tmo

/-- R177, R178: thread k of engine n raised a fault of a kind with an address: it is FAULTED with its PC kept, the fault is sent to the
collector, and the other threads that its job has on any engine or core stop; the job's waits on sync objects end. A radio-bound thread
stops the radio-bound threads of its own engine. Nothing else changes but, for a serving job, what a step fault changes (R505). -/
def State.faulted (s t : State) (n k kind addr : Nat) : Prop :=
  let x := s.thr n k
  s.onlyIn t { regs := true, te := true, sig := true, flt := true, net := true }
  ∧ t.thr n k = { x with st := .faulted, why := .none, kind := kind } ∧ t.get (f_TE_STATUS_FAULT n) = 1
  ∧ s.msg (srcTe (s.physFor n)) kind addr k ∈ t.flt.inbox
  ∧ (∀ m j, thrKey m j ≠ thrKey n k →
      t.thr m j = (if (if x.radio then decide (thrKey m j / 64 = n) && (s.thr m j).radio && decide ((s.thr m j).st ≠ .idle)
          && decide ((s.thr m j).st ≠ .faulted) else (s.thr m j).stops x.job)
        then { s.thr m j with st := .faulted, why := .none } else s.thr m j))
  ∧ (∀ m j, m < 64 → j < 64 → x.radio = false → (s.thr m j).stops x.job = true → t.get (f_TE_STATUS_FAULT m) = 1)
  ∧ (∀ c j, t.sigThr c j = if !x.radio && (s.sigThr c j).stops x.job then { s.sigThr c j with st := .faulted, why := .none } else s.sigThr c j)
  ∧ (∀ c j, x.radio = false → (s.sigThr c j).stops x.job = true → t.get f_SIG_STATUS_FAULT = 1)
  ∧ t.te.mq = s.te.mq ∧ t.net = { s.net with waits := t.net.waits }
  ∧ (∀ v, v ∈ t.net.waits ↔ v ∈ s.net.waits ∧ (x.radio = true ∨ v.2.2.2.isSome = true ∨ (sget ({} : Thr) s.te.thr v.2.2.1).job ≠ x.job))
  ∧ s.bitsBut t ((List.range 64).flatMap (fun m => [f_TE_STATUS_FAULT m, (f_TE_STATUS_FAULT m).count])
      ++ [f_SIG_STATUS_FAULT, f_SIG_STATUS_FAULT.count, f_FLT_STATUS_STEP_FAULT, f_FLT_STATUS_STEP_FAULT.count])
  ∧ (x.radio = true ∨ s.servedBy x.job = none → s.sends t (srcTe (s.physFor n)) kind addr k)
  ∧ (∀ p, x.radio = false → s.servedBy x.job = some p → (sget {} s.flt.part p).st ≠ .stepFault → (sget {} s.sp p).phase ≠ .retiring →
      (sget {} t.flt.part p).st = .stepFault ∧ t.get f_FLT_STATUS_STEP_FAULT = 1
      ∧ ∃ m ∈ t.flt.inbox, m.source = srcServe ∧ m.kind = 0x33 ∧ m.addr = (sget {} s.sp p).step % 2 ^ 48 ∧ m.aux = p)

/-- The thread with its PC past the instruction. -/
def State.past (s : State) (n k : Nat) (w : BitVec 64) : Thr :=
  { s.thr n k with pc := ((s.thr n k).pc + (teWord w).len) % 2 ^ 48, ipc := (s.thr n k).pc }

/-- R183: one more instruction is counted, and no other register changes. -/
def State.counted (s t : State) (n : Nat) : Prop :=
  t.reg64 (r_TE_ISSUE_CNT_LO n) = (s.reg64 (r_TE_ISSUE_CNT_LO n) + 1) % 2 ^ 64
  ∧ s.regsBut t [r_TE_ISSUE_CNT_LO n, r_TE_ISSUE_CNT_LO n + 4]

/-- Every thread but thread k of engine n is as it was, and so are the message queues. -/
def State.thrOnly (s t : State) (n k : Nat) : Prop :=
  (∀ m j, thrKey m j ≠ thrKey n k → t.thr m j = s.thr m j) ∧ t.te.mq = s.te.mq

/-- An instruction whose whole effect is on its thread, which becomes x. -/
def State.teDone (s t : State) (n k : Nat) (x : Thr) : Prop :=
  s.onlyIn t { regs := true, te := true } ∧ s.counted t n ∧ s.thrOnly t n k ∧ t.thr n k = x

/-- A completion word reaches the thread that issued the pass, while it is bound to the pass's job (R148, R165): one that waits in
`pwait` takes it, else it joins the untaken ones. -/
def State.delivered (s t : State) (n : Nat) (d : Desc) (word : Nat) : Prop :=
  let x := s.thr n d.thread
  let y := t.thr n d.thread
  if x.job ≠ d.job then y.comps = x.comps
  else if x.why = .pwait then y.why = .none ∧ (x.wD ≠ 0 → y.sr x.wD = word)
  else y.comps = x.comps ++ [word]

/-- R85, R86: a descriptor holds what memory has at an address, field by field, and the binding of thread k of engine n. -/
def State.descAt (s : State) (a n k : Nat) (d : Desc) : Prop :=
  d.ctrl = s.readLE a 4 ∧ d.m = s.readLE (a + 4) 2 ∧ d.anchor = s.readLE (a + 6) 2 ∧ d.actAddr = s.readLE (a + 8) 4
  ∧ d.actStride = s.readLE (a + 0xC) 4 ∧ d.wgtAddr = s.readLE (a + 0x10) 4 ∧ d.scaleAddr = s.readLE (a + 0x14) 4
  ∧ d.tileRow = s.readLE (a + 0x18) 2 ∧ d.outStride = s.readLE (a + 0x1A) 2 ∧ d.outAddr = s.readLE (a + 0x1C) 4
  ∧ d.maskAddr = s.readLE (a + 0x20) 4 ∧ d.seq = s.readLE (a + 0x24) 4 ∧ d.job = (s.thr n k).job
  ∧ d.prio % 8 = (s.thr n k).prio % 8 ∧ d.prio / 8 = s.readLE (a + 0x2C) 1 / 8 ∧ d.thread = k ∧ d.rsv = s.readLE (a + 0x2E) 2
  ∧ d.radAct = s.readLE (a + 0x30) 8 ∧ d.radWgt = s.readLE (a + 0x38) 8

/-- R152, R156: the result of a scalar instruction by its number; shifts by less than 64. -/
def scalarSpec (func : Nat) (a b : BitVec 64) (imm : Int) : BitVec 64 :=
  match func with
  | 0 => a + b
  | 1 => a - b
  | 2 => a * b
  | 3 => a &&& b
  | 4 => a ||| b
  | 5 => a ^^^ b
  | 6 => a <<< b.toNat
  | 7 => a >>> b.toNat
  | 8 => a.sshiftRight b.toNat
  | 9 => if a.slt b then 1 else 0
  | 10 => if a.ult b then 1 else 0
  | 11 => if a.sle b then a else b
  | 12 => if b.sle a then a else b
  | _ => BitVec.ofInt 64 imm

/-- R156: the result of an INT32 lane by the instruction's number; shifts by less than 32. -/
def laneSpec (func : Nat) (a b c : BitVec 32) : BitVec 32 :=
  match func with
  | 0 => a + b
  | 1 => a - b
  | 2 => a * b
  | 3 => a * b + c
  | 4 => a &&& b
  | 5 => a ||| b
  | 6 => a ^^^ b
  | 7 => a <<< b.toNat
  | 8 => a >>> b.toNat
  | 9 => a.sshiftRight b.toNat
  | 10 => if a.sle b then a else b
  | _ => if b.sle a then a else b

/-- R159: the word that a local atomic leaves, by its operation. -/
def atomicSpec {w : Nat} (op : Nat) (signed : Bool) (old b c : BitVec w) : BitVec w :=
  let less (x y : BitVec w) : Bool := if signed then x.slt y else x.ult y
  match op with
  | 0 => old + b
  | 1 => if less b old then b else old
  | 2 => if less old b then b else old
  | 3 => b
  | 4 => if old = c then b else old
  | _ => old + b

/-! Tree walks (R170, R171). -/

/-- R171: whether a lane at node k of a table stays: a leaf, or a node with reserved bits. -/
def State.nodeStays (s : State) (table k : Nat) : Bool :=
  let a := teAddr table (16 * (k : Int))
  s.nodeRsv a || bitAt (s.readByte (a + 6)).toNat 0

/-- R171: the store offset of the feature that node k compares. -/
def State.nodeFeature (s : State) (table feat k : Nat) : Nat := feat + 4 * s.readLE (teAddr table (16 * (k : Int)) + 4) 2

/-- R171: where a lane at node k of a table is after one step. -/
def State.nodeNext (s : State) (n table feat k : Nat) : Nat :=
  let a := teAddr table (16 * (k : Int))
  let fl := (s.readByte (a + 6)).toNat
  let v := (fmtOf 1).decode (s.readLE (storeBase n + s.nodeFeature table feat k) 4)
  let th := (fmtOf 1).decode (s.readLE a 4)
  let left := if v.isNan then !bitAt fl 1 else (fcompare (if bitAt fl 2 then 1 else 0) v th).1
  if s.nodeStays table k then k else if left then s.readLE (a + 8) 4 else s.readLE (a + 0xC) 4

/-- R171: where a lane that starts at node k is after j steps; `feat` gives the offset of its features at a node. -/
def State.nodeAfter (s : State) (n table : Nat) (feat : Nat → Nat) (k : Nat) : Nat → Nat
  | 0 => k
  | j + 1 => let m := s.nodeAfter n table feat k j; s.nodeNext n table (feat m) m

/-- R160, R171: the access fault of a step of a lane at node k. -/
def State.nodeFault (s : State) (n : Nat) (x : Thr) (table feat k : Nat) : Option (Nat × Nat) :=
  match s.memFault x 0x09 false (teAddr table (16 * (k : Int))) 16 16 with
  | some e => some e
  | none => if s.nodeStays table k then none else s.storeFault n x (s.nodeFeature table feat k) 4 4

/-- What a step of a lane at node k reads can be read: no fault, and no error in memory. -/
def State.nodeFine (s : State) (n : Nat) (x : Thr) (table feat k : Nat) : Prop :=
  s.nodeFault n x table feat k = none ∧ s.plain (teAddr table (16 * (k : Int))) 16
  ∧ (s.nodeStays table k = false → s.plain (storeBase n + s.nodeFeature table feat k) 4)

/-! Packets that leave and tagged requests that arrive (R315 to R319, R337, R343, R344). -/

/-- R315, R319, R337: the answer to a request leaves for its source: it reaches this chip's own units, or a port, or is held; with no
route it is discarded and reported. -/
def State.answered (s t : State) (k : Pkt) (status result : Nat) (met : Bool) (data : List Byte) : Prop :=
  let r := s.responseTo k status result met data
  match s.routeOf r with
  | .here => t.net.inbox = s.net.inbox ++ [r]
  | .port p => t.net.inbox = s.net.inbox ∧ t.tm.inb = s.tm.inb ++ [(32 + p, s.pktQueue r, { load := .pkt r, len := 16 * r.units })]
  | .wait => t.net.held = s.net.held ++ [r]
  | .none => t.net = s.net ∧ t.tm = s.tm ∧ t.get f_AVL_STATUS_NO_ROUTE = 1

/-- Parts that sending an answer may change: the queues to the ports, and the report that there is no route. -/
def answerParts : Parts := { regs := true, flt := true, net := true, tm := true }

/-- The status fields of a packet that finds no route (R319). -/
def noRouteFields : List FRef := [f_AVL_STATUS_NO_ROUTE, f_AVL_STATUS_NO_ROUTE.count]

/-- R344: the epoch of a tagged request is the one that this chip holds for its source. -/
def State.epochNow (s : State) (k : Pkt) : Prop :=
  s.readLE (s.dedupAt k.src 0 + 0x1A) 1 % 2 = 1 ∧ s.readLE (s.dedupAt k.src 0 + 0x18) 2 = k.sepoch

/-- R343, R344: a tagged request is new: its source's epoch is current, and its slot of the dedupe table is empty or holds an earlier one. -/
def State.newTag (s : State) (k : Pkt) : Prop :=
  let a := s.dedupAt k.src (k.atag % 256)
  s.epochNow k ∧ (bitAt (s.readLE (a + 6) 1) 7 = false ∨ s.readLE (a + 4) 2 ≠ k.sepoch
    ∨ (s.readLE a 4 ≠ k.atag ∧ 0 ≤ toSigned 32 (k.atag + 2 ^ 32 - s.readLE a 4)))

/-- R345: what the dedupe table holds of a request that was applied. -/
def State.tagHeld (t : State) (k : Pkt) (status result : Nat) : Prop :=
  let a := t.dedupAt k.src (k.atag % 256)
  t.readLE a 4 = k.atag % 2 ^ 32 ∧ t.readLE (a + 4) 2 = k.sepoch % 2 ^ 16 ∧ t.readLE (a + 6) 1 = 128 + status ∧ t.readLE (a + 0x10) 8 = result % 2 ^ 64

/-- R33, R34, R331 to R334, R340: thread k of engine n issues a remote access, its engine has room for its requests, and each of its
elements is aligned, lies in a region that a request may reach, and is allowed by the reach table. -/
def State.remoteIssues (s : State) (n k : Nat) (w : BitVec 64) : Prop :=
  let i := teWord w
  let x := s.thr n k
  s.issues n k w ∧ i.op = 11 ∧ s.engineOut n + (x.rmtElems i).length ≤ 512 ∧ s.rmtFault n k i = none ∧ s.valid = true
  ∧ ∀ e ∈ x.rmtElems i, badGlobal e.2.1 = false ∧ s.reachOk x.slot 0 i.perm (s.globalChip e.2.1) (e.2.1 % 2 ^ 48) e.2.2 = true

/-- No request waits to be sent or to complete, no packet is held, and no epoch query has failed: one more request moves alone. -/
def State.quiet (s : State) : Prop :=
  (∀ r ∈ s.net.reqs, r.phase = .sent ∧ r.done = none) ∧ s.net.held = [] ∧ ∀ e ∈ s.net.dest, e.2.failed = false

/-- A request of another chip has room to be sent: an image is applied, the peer is not dead, it has a route, a TAG is free, nothing
is outstanding to it, and no query to it has failed. -/
def State.canReach (s : State) (dst : Nat) : Prop :=
  s.valid = true ∧ dst ≠ s.chipId ∧ s.peerDead dst = false ∧ s.usableAlts dst ≠ [] ∧ (s.destOf dst).failed = false ∧ (∀ r ∈ s.net.reqs, r.pkt.dst ≠ dst)
  ∧ ∃ g, g < 65536 ∧ (∀ r ∈ s.net.reqs, r.pkt.tag ≠ g) ∧ ∀ e ∈ s.net.dest, e.2.query ≠ some g

/-- No data mover waits for another chip. -/
def State.noFar (s : State) : Prop := ∀ k r g a n, (s.mvOf k).wait ≠ .far r g a n

/-- No request has an answer that still waits to be taken, and no epoch query has failed. -/
def State.settled (s : State) : Prop := (∀ r ∈ s.net.reqs, r.done = none) ∧ ∀ e ∈ s.net.dest, e.2.failed = false

/-- R309: a port once an ACK has come at a time: the flits up to it leave the replay buffer. -/
def Port.acked (x : Port) (ack now : Nat) : Port :=
  let rest := x.replay.dropWhile (fun f => decide ((ack + 4096 - f.fseq) % 4096 < 2048))
  if rest.length < x.replay.length then { x with replay := rest, lastAck := ack, resends := 0, ackAt := now } else x

/-- R311: a port sends what is unacknowledged again: what leaves, and what it records. -/
def State.resent (s t : State) (p : Nat) (x : Port) : Prop :=
  (x.replay = [] → t.portOf p = x ∧ t.out = s.out ∧ t.regs = s.regs)
  ∧ (∀ f l, x.replay = f :: l → t.portOf p = { x with resendSeq := f.fseq, resends := if x.resendSeq = f.fseq then min 63 (x.resends + 1) else 1,
                                                      ackAt := s.now }
      ∧ t.out = s.out ++ x.replay.map (fun f => .flit p f) ∧ t.get (f_AVL_PORT_STATUS_RETRY p) = 1
      ∧ t.get (f_AVL_REPLAYS_COUNT p) = min (s.get (f_AVL_REPLAYS_COUNT p) + 1) (2 ^ 32 - 1))

/-- R310: the NAK of a gap or a bad CRC: one for each gap. -/
def State.naks (s t : State) (p : Nat) : Prop :=
  let x := s.portOf p
  t.portOf p = { x with nakSent := true }
  ∧ t.out = s.out ++ (if x.nakSent then [] else [.flit p { typ := .idle, ack := (x.rxNext + 4095) % 4096, nak := true }])
  ∧ ∀ q, q ≠ p → t.portOf q = s.portOf q

/-! Threads of the signal cores (R366, R371, R384). -/

/-- Thread k of core c issues bundle w: it may run, its fetch succeeds, the bundle is legal, no register of it holds an error. -/
def State.sigIssues (s : State) (c k : Nat) (w : BitVec 128) : Prop :=
  s.live = true ∧ s.sigMayRun c k = true ∧ s.sigFetchBad (s.sigThr c k) = false ∧ bundleLegal w.toNat = true
  ∧ (s.sigThr c k).pc % 16 = 0 ∧ (s.sigThr c k).ecc = 0

/-- A bundle whose load, store and complex slots are empty and whose scalar slot holds an operation. -/
def onlyXop (w : BitVec 128) (op : Nat) : Prop :=
  bits w.toNat 3 0 = 0 ∧ bits w.toNat 27 24 = 0 ∧ bits w.toNat 53 48 = 0 ∧ bits w.toNat 93 88 = op

/-- The thread with its PC past the bundle. -/
def State.sigPast (s : State) (c k : Nat) : SigThr := { s.sigThr c k with pc := ((s.sigThr c k).pc + 16) % 2 ^ 48 }

/-- R385: one more bundle is counted, and no other register changes but those of a list. -/
def State.bundled (s t : State) (c : Nat) (l : List Nat) : Prop :=
  t.reg64 (r_SIG_BUNDLE_CNT_LO c) = (s.reg64 (r_SIG_BUNDLE_CNT_LO c) + 1) % 2 ^ 64
  ∧ s.regsBut t (r_SIG_BUNDLE_CNT_LO c :: (r_SIG_BUNDLE_CNT_LO c + 4) :: l)

/-- Every signal thread but thread k of core c is as it was. -/
def State.sigOnly (s t : State) (c k : Nat) : Prop := ∀ d j, 8 * d + j ≠ 8 * c + k → t.sigThr d j = s.sigThr d j

/-- A bundle whose whole effect is on its thread, which becomes x. -/
def State.bundleDone (s t : State) (c k : Nat) (x : SigThr) : Prop :=
  s.onlyIn t { regs := true, sig := true, acct := true, free := true } ∧ s.bundled t c [] ∧ s.sigOnly t c k ∧ t.sigThr c k = x
  ∧ t.sig.eng = s.sig.eng ∧ t.sig.rerun = s.sig.rerun

/-- R374: the result of a scalar operation of a bundle; shifts by less than 32. -/
def sigScalarSpec (op : Nat) (p q : BitVec 32) (imm : Int) : BitVec 32 :=
  match op with
  | 1 => p + q
  | 2 => p - q
  | 3 => p &&& q
  | 4 => p ||| q
  | 5 => p ^^^ q
  | 6 => p <<< q.toNat
  | 7 => p >>> q.toNat
  | 8 => p.sshiftRight q.toNat
  | _ => BitVec.ofInt 32 imm

/-- R373: I and Q of a complex operation before the limit, from the operands a and b and the accumulator c. -/
def macSpec (op : Nat) (a b c : Int × Int) : Int × Int :=
  let prod : Int × Int := (a.1 * b.1 - a.2 * b.2, a.1 * b.2 + a.2 * b.1)
  let conj : Int × Int := (a.1 * b.1 + a.2 * b.2, a.2 * b.1 - a.1 * b.2)
  match op with
  | 1 => prod
  | 2 => conj
  | 3 => (c.1 + prod.1, c.2 + prod.2)
  | 4 => (c.1 + conj.1, c.2 + conj.2)
  | 5 => (c.1 - prod.1, c.2 - prod.2)
  | 6 => (c.1 + a.1 * b.1, c.2 + a.2 * b.1)
  | 7 => (c.1 + (a.1 * a.1 + a.2 * a.2), c.2)
  | _ => (0, 0)

/-- Limit an integer to a signed width. -/
def clampSpec (w : Nat) (v : Int) : Int := max (-(2 ^ (w - 1))) (min (2 ^ (w - 1) - 1) v)

/-! The references (R574 to R580). -/

/-- R574: the last counts after a window. -/
def lastWindows (l : List Nat) (c : Nat) : List Nat := (l ++ [c]).drop ((l ++ [c]).length - 16)

/-- R574: the last windows qualify the crystal. -/
def qualifies (l : List Nat) : Prop := l.length = 16 ∧ (∀ c ∈ l, 49250 ≤ c ∧ c ≤ 50750) ∧ ∀ a ∈ l, ∀ b ∈ l, a ≤ b + 2

/-- R592: what the registers show of a window that ended with a count. -/
def State.showsWindows (t : State) (l : List Nat) (c : Nat) : Prop :=
  t.get f_CLK_XTAL_CNT_LAST = c ∧ t.get f_CLK_SRC_RUN = l.length
  ∧ t.get f_CLK_XTAL_CNT_RANGE = (if l.length < 16 then 0xFFFF else (l.foldl max 0 - l.foldl min 65535) % 2 ^ 16)

/-- Fields that a window changes. -/
def windowFields : List FRef := [f_CLK_XTAL_CNT_LAST, f_CLK_XTAL_CNT_RANGE, f_CLK_SRC_RUN]

/-- R579: the crystal is lost while TIMEREF is valid. -/
def State.crystalLost (s t : State) : Prop :=
  t.clk = { s.clk with win := [], run := 0 } ∧ t.get f_CLK_SRC_XTAL_STATE = 3 ∧ t.get f_CLK_SRC_AON_XTAL = 0 ∧ t.get f_CLK_STATUS_XTAL_LOST = 1
  ∧ s.sends t 0x2C0 0x61 0 0 ∧ t.get f_CLK_SRC_REF_TREF = s.get f_CLK_SRC_REF_TREF

/-- R579: TIMEREF is lost while the crystal is qualified: the PLLs that use it move to the crystal. -/
def State.timerefGone (s t : State) : Prop :=
  t.clk = { s.clk with run := 0 } ∧ t.get f_CLK_SRC_TREF_VALID = 0 ∧ t.get f_CLK_SRC_REF_TREF = 0 ∧ t.get f_CLK_STATUS_TREF_LOST = 1
  ∧ s.sends t 0x2C0 0x60 0 0 ∧ (s.get f_CLK_SRC_REF_TREF = 1 → t.get f_CLK_STATUS_REF_SWITCH = 1)
  ∧ (s.get f_CLK_SRC_REF_TREF = 0 → t.get f_CLK_STATUS_REF_SWITCH = s.get f_CLK_STATUS_REF_SWITCH)

/-- Fields that the loss of a reference changes. -/
def lossFields : List FRef :=
  [f_CLK_SRC_XTAL_STATE, f_CLK_SRC_AON_XTAL, f_CLK_SRC_RUN, f_CLK_STATUS_XTAL_LOST, f_CLK_SRC_TREF_VALID, f_CLK_SRC_REF_TREF,
   f_CLK_STATUS_TREF_LOST, f_CLK_STATUS_REF_SWITCH, f_CLK_STATUS_XTAL_LOST.count]

/-- R580: no PLL reference remains: the safelight state with its strip frozen, CLK_SRC_LOST its last entry unless it was frozen before,
FAULT_L and SAFE_L asserted, every other output in its reset state, every port and link down; what lies outside LPDDR6 is untouched. -/
def State.noReference (s t : State) : Prop :=
  t.flt.phase = .safelight ∧ t.flt.frozen = true ∧ t.flt.safeL = true ∧ t.faultL = true ∧ t.clk.gone = true
  ∧ (s.flt.frozen = false →
      (sget {} t.flt.strip s.flt.ptr).msg.source = 0x2C0 ∧ (sget {} t.flt.strip s.flt.ptr).msg.kind = 0x60 ∧ t.flt.ptr = (s.flt.ptr + 1) % 64)
  ∧ (∀ g : PinGroup, g.output = true → g ≠ .faultSafe → t.pinDrive g = g.inReset)
  ∧ t.hst.linkUp = [] ∧ (∀ p, p < 24 → t.portSt p = 0) ∧ (∀ a, inLpddr a = false → t.readByte a = s.readByte a)

/-! The audit log (R532 to R543). -/

/-- A whole register. -/
def FRef.whole (off : Nat) : FRef := ⟨off, 31, 0⟩

/-- Registers that show a new record. -/
def audFields : List FRef :=
  [f_AUD_QUEUE_DEPTH, .whole r_AUD_SEQ_LO, .whole (r_AUD_SEQ_LO + 4), f_AUD_LOST_CNT_COUNT, f_AUD_STATUS_LOST, f_AUD_STATUS_LOST.count]

/-- R532, R534: one record is created with the next SEQ; with room in the queue it is the last of those not yet in a block. -/
def State.records (s t : State) (kind flags n : Nat) (body : List Byte) : Prop :=
  s.aud.lost = none → s.aud.q.length < 4096 →
    t.aud.blk ++ t.aud.q = s.aud.blk ++ s.aud.q ++ [auditRecord kind flags s.tim.tick s.audChip s.aud.seq n body] ∧ t.aud.seq = s.aud.seq + 1

/-! Windows of the hosts (R474, R477). -/

/-- An entry for a window's completion ring was written to the host, or waits for room, or is discarded because the window no longer
runs (R479). -/
def State.entryOut (s t : State) (w : Nat) (e : List Byte) : Prop :=
  s.winSt w = 0 ∨ s.winSt w = 5 ∨ s.winSt w = 6 ∨ e ∈ (t.winOf w).cpl
  ∨ ∃ a, Out.hostWrite (s.winPort w) (s.winPasid w) a e ∈ t.out

/-- R474: a command leaves its window with a status and a result: on error, and on success when CPL asks, with an entry. -/
def State.completes (s t : State) (w : Nat) (c : Cmd) (status result : Nat) : Prop :=
  (t.winOf w).cmds = (s.winOf w).cmds.filter (fun d => d.pos ≠ c.pos) ∧ (∀ v, v ≠ w → t.winOf v = s.winOf v)
  ∧ (status ≠ 0 ∨ bitAt c.flags 0 = true → s.entryOut t w (cplEntry 3 status c.op c.ctxWord result (c.arrival % 2 ^ 32) c.tag))
  ∧ (status = 0 ∧ bitAt c.flags 0 = false → t.out = s.out ∧ (t.winOf w).cpl = (s.winOf w).cpl)

/-- R409: a radio submission leaves its window with a completion entry of a status. -/
def State.radioDone (s t : State) (w : Nat) (c : Cmd) (status : Nat) : Prop :=
  (t.winOf w).cmds = (s.winOf w).cmds.filter (fun d => d.pos ≠ c.pos)
  ∧ s.entryOut t w (radioCplEntry (if c.op = 0x41 then 2 else 1) status (c.at 2 2) (c.at 4 2) (c.at 6 1) 0 0 c.tag)

/-- Fields that a message of a PTP domain may change (R436, R437, R454). -/
def domFields (d : Nat) : List FRef :=
  [f_PTP_DOM_OFFSET_OFFSET d, f_PTP_DOM_MPD_MPD d, f_PTP_DOM_VALID d, f_PTP_DOM_CFG_ACTIVE, f_PTP_SWITCH_CNT_COUNT, f_PTP_STATUS_DOM_SWITCH,
   f_PTP_STATUS_DOM0_LOST, f_PTP_STATUS_DOM1_LOST, f_PTP_STATUS_DOM_SWITCH.count, f_CLK_TIME_STATE_STATE, f_CLK_SHT_STATUS_HOLDOVER,
   f_CLK_SHT_STATUS_HOLDOVER.count]

/-- Fields that posting an entry to a window, or to the window of a cell, may change (R410, R477). -/
def State.postFields (s : State) (w n : Nat) : List FRef :=
  [f_TWN_CPL_DROP_COUNT w, f_TWN_CPL_DROP_COUNT ((s.cellWin n).getD w), f_RAD_NOBUF_CNT_COUNT, f_RAD_STATUS_IND_NOBUF, f_RAD_STATUS_IND_NOBUF.count]

/-- R410: an indication of a cell reached the oldest buffer that its window posted, or was dropped for want of one. -/
def State.indicated (s t : State) (n : Nat) (ind : FapiInd) : Prop :=
  ∀ v, s.cellWin n = some v →
    (sget [] s.rad.buf v = [] → t.get f_RAD_STATUS_IND_NOBUF = 1
      ∧ t.get f_RAD_NOBUF_CNT_COUNT = min (s.get f_RAD_NOBUF_CNT_COUNT + 1) (2 ^ 32 - 1) ∧ t.rad.buf = s.rad.buf)
    ∧ (∀ a size tag rest, sget [] s.rad.buf v = (a, size, tag) :: rest → sget [] t.rad.buf v = rest
      ∧ (∀ k, k ≠ v → sget [] t.rad.buf k = sget [] s.rad.buf k)
      ∧ ∃ len, len ≤ size ∧ Out.fapi v n ind a len ∈ t.out ∧ s.entryOut t v (radioCplEntry 2 0 n 0 0 a len tag))

/-- R478: the message of a vector of a link is sent, or held pending while the vector is masked. -/
def State.fired (s t : State) (l v : Nat) : Prop :=
  if bitAt (s.msixWord l v 3) 0 then t.out = s.out ∧ t.hst.pba = if s.hst.pba.contains (l, v) then s.hst.pba else s.hst.pba ++ [(l, v)]
  else t.hst.pba = s.hst.pba ∧ t.out = s.out ++ [.msix (l / 2) (s.msixWord l v 0 + 2 ^ 32 * s.msixWord l v 1) (s.msixWord l v 2)]

/-- R478: the event vector of a window. -/
def State.eventVec (s : State) (w : Nat) : Nat := s.get (f_TWN_VEC_BASE w) + (if s.get (f_TWN_VEC_COUNT w) = 2 then 1 else 0)

/-- R533: the body of a WINDOW record: what the window's registers hold. -/
def State.windowBody (s : State) (w action : Nat) : List Byte :=
  leBytes 1 w ++ leBytes 1 action ++ leBytes 2 (s.get (f_TWN_TENANT_TENANT w)) ++ leBytes 4 (s.get (f_TWN_PASID_PASID w))
    ++ leBytes 4 (s.get (f_TWN_CTX_CTX_BASE w)) ++ leBytes 4 (s.get (f_TWN_CTX_COUNT_CTX_COUNT w)) ++ leBytes 2 (s.get (f_TWN_PARTS_PARTS w))
    ++ leBytes 1 (s.get (f_TWN_TENANT_SLOT w)) ++ leBytes 1 ((if s.winAudited w then 1 else 0) + (if s.winReplay w then 2 else 0))

end Sys2Proof.Machine

/-- The commands that still act in the safelight state (R500 to R502, R580): reads, faults and audit, the SPDM responder, pins,
supplies, references, resets and start-up. -/
def Sys2Proof.Instr.actsInSafelight : Instr → Bool
  | .getVersion => true
  | .getCapabilities => true
  | .negotiateAlgorithms => true
  | .getDigests => true
  | .getCertificate _ _ _ => true
  | .challenge _ _ => true
  | .getMeasurements _ _ _ => true
  | .spdmUnsupported => true
  | .auditBlockClose => true
  | .auditBlockCommit _ _ => true
  | .identityDerive _ => true
  | .fwVerify _ _ => true
  | .lpTrain _ _ => true
  | .selfTest _ _ => true
  | .imgVerify => true
  | .imageApply _ => true
  | .bootRecover _ => true
  | .xtalWindow _ => true
  | .xtalQualTimeout => true
  | .timerefWindow _ => true
  | .timerefLost => true
  | .xtalLost => true
  | .referenceLoss => true
  | .faultMessage => true
  | .collectorSelfFault => true
  | .safelightEntry => true
  | .fltQueueRead _ => true
  | .fhMrxRead _ => true
  | .vectorUnmask _ _ => true
  | .aonSupplySwitch _ _ => true
  | .aonReturn => true
  | .registerWrite _ _ _ => true
  | .bar4Access _ _ _ _ _ => true
  | .coldReset _ _ => true
  | .chipReset => true
  | .watchdogExpiry => true
  | .bootReset _ => true
  | .resetRelease => true
  | .powerOnReset => true
  | .shutter _ => true
  | .lowWordRead _ _ _ => true
  | .unsupportedRequest _ _ _ _ => true
  | .pcieLinkDown _ => true
  | .pcieLinkUp _ _ _ => true
  | .perstRelease _ _ => true
  | _ => false
end

