-- ==== Sys2Proof/Certificates/Slice0/Obligations.lean ====
section
/-! DEFINITION. The statements for the provers. Each says, for commands of one family, under which conditions a command has its
effect, what the next state then holds, and what stays as it was. -/
open Sys2Proof Sys2Proof.Machine

/-! The block's step (the queue is the model's own, log entries 5 and 6). -/

/-- A step with a command at the front of the queue is `exec` of that command on the state with the rest of the queue; an empty queue idles
(the model's choice, log entry 6). -/
def Obligations.StepRunsFrontCommand : Prop :=
  (∀ (s : State) (c : Instr), step { s with pending := c :: s.pending } = exec c s :)
  ∧ (∀ s : State, s.pending = [] → step s = .next s :)
/-- No command ends in a fault or a refusal, and a command takes effect on everything but the queue: every step of every state answers a
next state, whose queue is the queue without its front. Clauses may rest on choices of the model: log entry 9. -/
def Obligations.StepTakesExactlyOneCommand : Prop := ∀ s : State, ∃ t, step s = .next t ∧ t.pending = s.pending.tail
/-- The invariant of memory, registers and the context table: one canonical form, kept by every step. -/
def Obligations.StepKeepsCanonicalForm : Prop := ∀ s t : State, s.canonical → step s = .next t → t.canonical
/-- What the spec says of reset: memory reads 0 (R618), every register its reset value (R35), no command waits, VALID is 0 (R39), the phase
is BOOT, the tick is 0 (R43); and the canonical form holds. Clauses may rest on choices of the model: log entries 2 and 3. -/
def Obligations.ResetState : Prop :=
  State.reset.canonical ∧ State.reset.pending = [] ∧ State.reset.valid = false ∧ State.reset.live = true
  ∧ State.reset.tim.tick = 0 ∧ (∀ a, State.reset.readByte a = 0)
  ∧ (∀ off, State.reset.reg off = BitVec.ofNat 32 (resetAt off))
/-- In the safelight state, and in power-on reset, nothing but the management side, resets and reads acts: every other command leaves the
whole state as it is (R500, R501, R585). Clauses may rest on choices of the model: log entry 18. -/
def Obligations.SafelightStopsWork : Prop :=
  ∀ (s : State) (c : Instr), (s.flt.phase = .safelight ∨ s.boot.por = true) → c.actsInSafelight = false → exec c s = .next s
/-! Register access (chapter 0, R9 to R13, R458, R502). -/

/-- R12, R13: what a write of a stored register by the manager does, field by field, and that it does nothing else. R502: in the safelight
state a register write but that of `BOOT_RESET` is ignored; so is every write in power-on reset. Clauses may rest on choices of the model:
log entries 12 and 13. -/
def Obligations.RegisterWrites : Prop :=
  (∀ (s : State) (req : Nat) (off : BitVec 28) (v : BitVec 32) (r : RegRow),
    s.boot.por = false → s.flt.phase ≠ .safelight → s.isManager req = true → off.toNat % 4 = 0
    → ¬(0x404000 ≤ off.toNat ∧ off.toNat < 0x405000) → off.toNat ≠ r_HST_MGR_CLAIM → s.hiddenOff off.toNat = false
    → s.ownWrite off.toNat v.toNat = none → rowOf off.toNat = some r
    → Runs (.registerWrite req off v) s (fun t =>
        s.onlyIn t { regs := true } ∧ s.regsBut t [off.toNat]
        ∧ ∀ f ∈ r.fields,
            let o := s.get ⟨off.toNat, f.hi, f.lo⟩
            let w := bits v.toNat f.hi f.lo
            let n := t.get ⟨off.toNat, f.hi, f.lo⟩
            (f.acc = .ro ∨ f.acc = .wo → n = o) ∧ (f.acc = .w1c → n = o - (o &&& w)) ∧ (f.acc = .w1s → n = o ||| w)
            ∧ (f.acc = .rw → f.rng = none → n = w) ∧ (f.acc = .rwl → s.valid = true → n = o)
            ∧ (f.acc = .rwl → s.valid = false → f.rng = none → n = w)) :)
  ∧ (∀ (s : State) (req : Nat) (off : BitVec 28) (v : BitVec 32),
    (s.boot.por = true ∨ (s.flt.phase = .safelight ∧ off.toNat ≠ r_BOOT_RESET)) → exec (.registerWrite req off v) s = .next s :)

/-- R10: an access of BAR0 that is not an aligned 32-bit access is answered with Unsupported Request, and it has no other effect: no read
side effect and no write. -/
def Obligations.UnsupportedAccessHasNoEffect : Prop :=
  ∀ (s : State) (req : Nat) (off : BitVec 28) (size : Nat) (write : Bool), s.boot.por = false → ¬(size = 4 ∧ off.toNat % 4 = 0) →
    exec (.unsupportedRequest req off size write) s = .next { s with out := s.out ++ [.unsupported req off.toNat] }

/-- R9, R10, R11: what a read of a register answers, for every requester, BAR and offset: an offset that is not aligned is answered with
Unsupported Request, a low word latches its high word for the requester alone, and the requester's next read of a high word, whatever
happened in between, answers what was latched. R458: offset o of BAR4 is byte o of stage memory: a write by the manager stores there and
nowhere else, other writes store nothing, and a read answers what is there. Clauses may rest on choices of the model: log entries 11, 12 and
14. -/
def Obligations.RegisterReadsAndBar4 : Prop :=
  ((∀ (s : State) (req : Nat) (bar2 : Bool) (off : BitVec 28), s.boot.por = true → exec (.lowWordRead req bar2 off) s = .next s :)
  ∧ (∀ (s : State) (req : Nat) (bar2 : Bool) (off : BitVec 28), s.boot.por = false → off.toNat % 4 ≠ 0 →
    Runs (.lowWordRead req bar2 off) s (fun t => s.onlyIn t { out := true } ∧ t.out = s.out ++ [.unsupported req (barTag bar2 off.toNat)]) :)
  ∧ (∀ (s : State) (req : Fin 4),
    exec (.lowWordRead req false (BitVec.ofNat 28 r_FLT_Q_W0)) s = exec (.fltQueueRead req) s
    ∧ exec (.lowWordRead req false (BitVec.ofNat 28 r_FH_MRX_W0)) s = exec (.fhMrxRead req) s :)
  ∧ (∀ (s : State) (req : Nat) (bar2 : Bool) (off : BitVec 28),
    s.boot.por = false → off.toNat % 4 = 0 → (bar2 = false → off.toNat ≠ r_FLT_Q_W0 ∧ off.toNat ≠ r_FH_MRX_W0) →
    Runs (.lowWordRead req bar2 off) s (fun t =>
      s.onlyIn t { latch := true, out := true } ∧ (∀ q, q ≠ req → sget 0 t.latch q = sget 0 s.latch q)
      ∧ (s.halfAt bar2 off.toNat = .none → t.latch = s.latch
        ∧ t.out = s.out ++ [.regData req (barTag bar2 off.toNat) (BitVec.ofNat 32 (s.wordAt req bar2 off.toNat))])
      ∧ (s.halfAt bar2 off.toNat = .high → t.latch = s.latch ∧ t.out = s.out ++ [.regData req (barTag bar2 off.toNat) (sget 0 s.latch req)])
      ∧ (s.halfAt bar2 off.toNat = .low →
        t.out = s.out ++ [.regData req (barTag bar2 off.toNat) (BitVec.ofNat 32 (s.wordAt req bar2 off.toNat))]
        ∧ ∀ (u : State) (b : Bool) (hi : BitVec 28), sget 0 u.latch req = sget 0 t.latch req → u.boot.por = false → hi.toNat % 4 = 0
          → u.halfAt b hi.toNat = .high → (b = false → hi.toNat ≠ r_FLT_Q_W0 ∧ hi.toNat ≠ r_FH_MRX_W0)
          → Runs (.lowWordRead req b hi) u (fun v => u.onlyIn v { out := true }
            ∧ v.out = u.out ++ [.regData req (barTag b hi.toNat) (BitVec.ofNat 32 (s.wordAt req bar2 (off.toNat + 4)))]))) :))
  ∧ ((∀ (s : State) (req : Fin 4) (off : BitVec 28) (data : List Byte) (len : Nat),
    s.boot.por = true ∨ s.flt.phase = .safelight ∨ s.isManager req = false ∨ data = [] →
    exec (.bar4Access req off true data len) s = .next s :)
  ∧ (∀ (s : State) (req : Fin 4) (off : BitVec 28) (data : List Byte) (len : Nat),
    s.boot.por = false → s.flt.phase ≠ .safelight → s.isManager req = true → data ≠ [] → off.toNat + data.length ≤ 2 ^ 28
    → s.guardedAt (0x020000000000 + off.toNat) = false → s.guardedAt (0x020000000000 + off.toNat + data.length - 1) = false →
    (touched (coveredBy s.ms.uncorr (0x020000000000 + off.toNat) data.length) (0x020000000000 + off.toNat) data.length = [] →
      Runs (.bar4Access req off true data len) s (fun t =>
        s.onlyIn t { mem := true, ms := true, regs := true, flt := true }
        ∧ (∀ i, i < data.length → t.readByte (0x020000000000 + off.toNat + i) = data.getD i 0)
        ∧ s.memBut t (0x020000000000 + off.toNat) data.length
        ∧ (touched s.ms.corr (0x020000000000 + off.toNat) data.length = [] → t.regs = s.regs ∧ t.flt = s.flt)))
    ∧ (touched (coveredBy s.ms.uncorr (0x020000000000 + off.toNat) data.length) (0x020000000000 + off.toNat) data.length ≠ [] →
      Runs (.bar4Access req off true data len) s (fun t => s.onlyIn t { regs := true, flt := true } ∧ t.get f_MEM_STATUS_UNCORR = 1)) :)
  ∧ (∀ (s : State) (req : Fin 4) (off : BitVec 28) (data : List Byte), s.boot.por = false →
    (∀ len, len = 0 → exec (.bar4Access req off false data len) s = .next s)
    ∧ (∀ len, 0 < len → off.toNat + len ≤ 2 ^ 28 →
      (touched s.ms.uncorr (0x020000000000 + off.toNat) len = [] →
        Runs (.bar4Access req off false data len) s (fun t =>
          s.onlyIn t { regs := true, flt := true, ms := true, out := true }
          ∧ t.out = s.out ++ [.barData req.val off.toNat ((List.range len).map (fun i => s.readByte (0x020000000000 + off.toNat + i)))]
          ∧ (touched s.ms.corr (0x020000000000 + off.toNat) len = [] → s.onlyIn t { out := true })))
      ∧ (touched s.ms.uncorr (0x020000000000 + off.toNat) len ≠ [] →
        Runs (.bar4Access req off false data len) s (fun t =>
          s.onlyIn t { regs := true, flt := true, ms := true, out := true } ∧ t.get f_MEM_STATUS_UNCORR = 1
          ∧ t.out = s.out ++ [.barData req.val off.toNat (List.replicate len 0)]))) :))

/-! Time and leases (chapter 2). -/

/-- R45, R46, R47: the moves of the time state. R439: in FREE a pulse on PPS_IN fixes where a second starts for the step that leaves FREE
(how it aligns: log entry 48); outside FREE it does nothing. R51, R70: the radio lease begins when the guard of a resource ends, and its
open lease when its radio work is over. R62: a write of REBASE or of PERIOD changes only what the next step start reads. Clauses may rest on
choices of the model: log entries 15, 16, 17 and 48. -/
def Obligations.TimeAndLeases : Prop :=
  ((∀ s : State, s.live = true → s.tim.srcValid = false → s.sourceNow = true →
    Runs .timeSourceValid s (fun t =>
      s.onlyIn t { regs := true, tim := true } ∧ t.tim = { s.tim with srcValid := true, stepPend := decide (s.get f_CLK_TIME_STATE_STATE = 0), lockRun := 0 }
      ∧ s.bitsBut t [f_CLK_TIME_STATE_STATE]
      ∧ t.get f_CLK_TIME_STATE_STATE = if s.get f_CLK_TIME_STATE_STATE = 3 then 1 else s.get f_CLK_TIME_STATE_STATE) :)
  ∧ (∀ s : State, s.live = true → s.sourceNow = false → s.get f_CLK_TIME_STATE_STATE = 1 ∨ s.get f_CLK_TIME_STATE_STATE = 2 →
    Runs .timeSourceLost s (fun t =>
      s.onlyIn t { regs := true, tim := true } ∧ t.tim = { s.tim with srcValid := false, stepPend := false, refused := false, holdStart := s.now, holdDone := false, lockRun := 0 }
      ∧ t.get f_CLK_TIME_STATE_STATE = 3 ∧ t.get f_CLK_SHT_STATUS_HOLDOVER = 1
      ∧ s.bitsBut t [f_CLK_TIME_STATE_STATE, f_CLK_SHT_STATUS_HOLDOVER, f_CLK_SHT_STATUS_HOLDOVER.count]) :)
  ∧ (∀ s : State, s.live = true → s.get f_CLK_TIME_STATE_STATE = 1 → 16 ≤ s.tim.lockRun →
    Runs .timeLock s (fun t =>
      s.onlyIn t { regs := true } ∧ t.get f_CLK_TIME_STATE_STATE = 2 ∧ t.get f_CLK_SHT_STATUS_LOCKED = 1
      ∧ s.bitsBut t [f_CLK_TIME_STATE_STATE, f_CLK_SHT_STATUS_LOCKED, f_CLK_SHT_STATUS_LOCKED.count]) :)
  ∧ (∀ s : State, s.live = true → s.get f_CLK_TIME_STATE_STATE = 3 → s.tim.holdDone = false
      → s.get f_CLK_HOLD_CFG_HOLD_LIMIT_MS * 1000000 ≤ s.now - s.tim.holdStart →
    Runs .holdExpired s (fun t =>
      s.onlyIn t { regs := true, flt := true, tim := true } ∧ t.tim = { s.tim with holdDone := true } ∧ t.get f_CLK_SHT_STATUS_HOLD_EXPIRED = 1
      ∧ s.sends t 0x268 0x50 0 0 ∧ s.bitsBut t [f_CLK_SHT_STATUS_HOLD_EXPIRED, f_CLK_SHT_STATUS_HOLD_EXPIRED.count]) :)
  ∧ (∀ s : State, s.live = true → s.sourceNow = false → s.get f_CLK_TIME_STATE_STATE = 0 ∨ s.get f_CLK_TIME_STATE_STATE = 3 →
    Runs .timeSourceLost s (fun t =>
      s.onlyIn t { tim := true } ∧ t.tim = { s.tim with srcValid := false, stepPend := false, refused := false }) :)
  ∧ (∀ s : State, s.live = true →
    (s.get f_CLK_TIME_STATE_STATE = 0 →
      Runs .ppsPulse s (fun t => s.onlyIn t { tim := true } ∧ ∃ a : Int, t.tim = { s.tim with pps := some a }
        ∧ ((s.now : Int) + a) % 1000000000 = 0 ∧ -500000000 ≤ a ∧ a ≤ 500000000 ∧ ∀ d : Int, (t.ppsStep d - a) % 1000000000 = 0))
    ∧ (s.get f_CLK_TIME_STATE_STATE ≠ 0 → exec .ppsPulse s = .next s) :))
  ∧ (((∀ (s : State) (r : Nat), s.live = true → s.leaseOf r = .guard →
    (s.openOver r = true →
      Runs (.guardEnd r) s (fun t => s.onlyIn t { regs := true, te := true, sig := true, tim := true } ∧ t.tim = { s.tim with lease := t.tim.lease }
        ∧ t.leaseOf r = .radio ∧ (∀ q, q ≠ r → t.leaseOf q = s.leaseOf q) ∧ s.bitsBut t [f_SIG_CORE_IN_RADIO (r - 0x100)]
        ∧ (r < 64 → t.regs = s.regs ∧ t.sig = s.sig ∧ ∀ n k, (s.thr n k).radio = false → t.thr n k = s.thr n k)
        ∧ (64 ≤ r → t.te = s.te)
        ∧ (0x160 ≤ r → t.regs = s.regs ∧ t.sig.thr = s.sig.thr ∧ t.engOf r = { s.engOf r with guard := false }
          ∧ ∀ q, q ≠ r → t.engOf q = s.engOf q)))
    ∧ (s.openOver r = false → exec (.guardEnd r) s = .next s) :)
  ∧ (∀ (s : State) (r e : Nat), s.live = true → s.leaseOf r = .radio →
    (s.radioOver r = true →
      Runs (.openLeaseStart r e) s (fun t =>
        s.onlyIn t { regs := true, te := true, sig := true, tim := true } ∧ t.tim = { s.tim with lease := t.tim.lease }
        ∧ t.leaseOf r = .openLease ∧ (∀ q, q ≠ r → t.leaseOf q = s.leaseOf q)
        ∧ t.get f_CLK_RADIO_HWM_MAX_FINISH = max (s.get f_CLK_RADIO_HWM_MAX_FINISH) (min e (2 ^ 21 - 1))
        ∧ t.get f_CLK_SHT_STATUS_HEADROOM = (if s.get f_CLK_SHT_CFG_MARGIN_PCT * s.periodNs * s.mhz < e * 100000 then 1 else s.get f_CLK_SHT_STATUS_HEADROOM)
        ∧ (0x160 ≤ r → t.te = s.te ∧ t.sig = s.sig)
        ∧ s.bitsBut t [f_SIG_CORE_IN_RADIO (r - 0x100), f_CLK_RADIO_HWM_MAX_FINISH, f_CLK_SHT_STATUS_HEADROOM, f_CLK_SHT_STATUS_HEADROOM.count]))
    ∧ (s.radioOver r = false → exec (.openLeaseStart r e) s = .next s) :)
  ∧ (∀ s : State, s.live = true →
    Runs .radioHwmClear s (fun t => s.onlyIn t { regs := true } ∧ t.get f_CLK_RADIO_HWM_MAX_FINISH = 0 ∧ s.bitsBut t [f_CLK_RADIO_HWM_MAX_FINISH]) :))
  ∧ ((∀ (s : State) (p : Fin 16), s.live = true →
    Runs (.pipeRebase p) s (fun t => s.onlyIn t { tim := true } ∧ t.tim = { s.tim with pipe := t.tim.pipe }
      ∧ sget {} t.tim.pipe p = { sget ({} : Pipe) s.tim.pipe p with rebase := true }
      ∧ ∀ q, q ≠ p.val → sget ({} : Pipe) t.tim.pipe q = sget {} s.tim.pipe q) :)
  ∧ (∀ (s : State) (p : Fin 16) (v : BitVec 8), s.live = true →
    Runs (.pipePeriodWrite p v) s (fun t => s.onlyIn t { regs := true, tim := true } ∧ t.tim = { s.tim with pipe := t.tim.pipe }
      ∧ sget {} t.tim.pipe p = { sget ({} : Pipe) s.tim.pipe p with rebase := true }
      ∧ (∀ q, q ≠ p.val → sget ({} : Pipe) t.tim.pipe q = sget {} s.tim.pipe q)
      ∧ t.get (f_SRV_PIPE_CFG_PERIOD p) = v.toNat ∧ s.bitsBut t [f_SRV_PIPE_CFG_PERIOD p]) :)))

/-! Reference clocks (chapter 19, R573 to R580). -/

/-- R574, R575, R592: a window that ends counts toward the qualification of the crystal, qualifies it, keeps it, or shows its loss; R580:
after the loss of every reference the qualification is a CHIP reset. R578, R579: windows that keep TIMEREF, and the loss of one reference
while the other is there. R580: what the loss of the last reference does. In every other state these rows change nothing but the run of good
windows. Clauses may rest on choices of the model: log entry 80. -/
def Obligations.ReferenceClocks : Prop :=
  ((∀ (s : State) (c : BitVec 16), s.boot.por = true → exec (.xtalWindow c) s = .next s :)
  ∧ (∀ (s : State) (c : BitVec 16), s.boot.por = false →
    let l := lastWindows s.clk.win c.toNat
    (s.get f_CLK_SRC_XTAL_STATE ≠ 2 → ¬ qualifies l →
      Runs (.xtalWindow c) s (fun t => s.onlyIn t { regs := true, clk := true } ∧ t.clk = { s.clk with win := l } ∧ t.showsWindows l c.toNat
        ∧ t.get f_CLK_SRC_XTAL_STATE = (if s.get f_CLK_SRC_XTAL_STATE = 0 then 1 else s.get f_CLK_SRC_XTAL_STATE)
        ∧ s.bitsBut t (f_CLK_SRC_XTAL_STATE :: windowFields)))
    ∧ (s.get f_CLK_SRC_XTAL_STATE ≠ 2 → qualifies l → s.clk.gone = false →
      Runs (.xtalWindow c) s (fun t => s.onlyIn t { regs := true, clk := true } ∧ t.clk = { s.clk with win := l } ∧ t.showsWindows l c.toNat
        ∧ t.get f_CLK_SRC_XTAL_STATE = 2 ∧ t.get f_CLK_SRC_AON_XTAL = 1 ∧ t.get f_CLK_STATUS_XTAL_QUAL = 1
        ∧ t.stage = (if s.stage = 2 then 3 else s.stage)
        ∧ s.bitsBut t (f_CLK_SRC_XTAL_STATE :: f_CLK_SRC_AON_XTAL :: f_CLK_STATUS_XTAL_QUAL :: f_CLK_STATUS_XTAL_QUAL.count :: f_BOOT_STAGE_STAGE :: windowFields)))
    ∧ (s.get f_CLK_SRC_XTAL_STATE ≠ 2 → qualifies l → s.clk.gone = true →
      Runs (.xtalWindow c) s (fun t => t.clk = { s.clk with win := l, gone := false } ∧ t.showsWindows l c.toNat
        ∧ t.get f_CLK_SRC_XTAL_STATE = 2 ∧ t.get f_CLK_SRC_AON_XTAL = 1 ∧ t.get f_BOOT_STAGE_RESET_KIND = 1
        ∧ t.flt = {} ∧ t.stage = (if s.stage < 3 then s.stage else 3) ∧ t.img = none))
    ∧ (s.get f_CLK_SRC_XTAL_STATE = 2 → 49250 ≤ c.toNat → c.toNat ≤ 50750 →
      Runs (.xtalWindow c) s (fun t => s.onlyIn t { regs := true, clk := true } ∧ t.clk = { s.clk with win := l } ∧ t.showsWindows l c.toNat
        ∧ s.bitsBut t windowFields))
    ∧ (s.get f_CLK_SRC_XTAL_STATE = 2 → c.toNat < 49250 ∨ 50750 < c.toNat →
      (s.get f_CLK_SRC_TREF_VALID = 1 →
        Runs (.xtalWindow c) s (fun t => s.onlyIn t { regs := true, flt := true, clk := true } ∧ s.crystalLost t
          ∧ t.get f_CLK_XTAL_CNT_LAST = c.toNat ∧ s.bitsBut t (lossFields ++ windowFields)))
      ∧ (s.get f_CLK_SRC_TREF_VALID = 0 → s.clk.gone = false → Runs (.xtalWindow c) s (fun t => s.noReference t))) :)
  ∧ (∀ s : State,
    (s.stage ≤ 2 → s.get f_CLK_SRC_XTAL_STATE ≠ 2 → s.clk.tmo = false → s.boot.por = false →
      Runs .xtalQualTimeout s (fun t => s.onlyIn t { regs := true, flt := true, clk := true } ∧ t.clk = { s.clk with tmo := true }
        ∧ t.get f_CLK_SRC_XTAL_STATE = 1 ∧ s.sends t 0x2C0 0x61 0 0 ∧ s.bitsBut t [f_CLK_SRC_XTAL_STATE]))
    ∧ (2 < s.stage ∨ s.get f_CLK_SRC_XTAL_STATE = 2 ∨ s.clk.tmo = true ∨ s.boot.por = true → exec .xtalQualTimeout s = .next s) :))
  ∧ ((∀ (s : State) (ppm : BitVec 16),
    (s.boot.por = true ∨ s.get f_CLK_SRC_XTAL_STATE ≠ 2 → exec (.timerefWindow ppm) s = .next s)
    ∧ (s.boot.por = false → s.get f_CLK_SRC_XTAL_STATE = 2 →
      (-100 ≤ ppm.toInt → ppm.toInt ≤ 100 →
        Runs (.timerefWindow ppm) s (fun t => s.onlyIn t { regs := true, clk := true } ∧ t.clk = { s.clk with run := min (s.clk.run + 1) 16 }
          ∧ t.get f_CLK_TREF_PPM_PPM = ppm.toNat
          ∧ t.get f_CLK_SRC_TREF_VALID = (if 15 ≤ s.clk.run then 1 else s.get f_CLK_SRC_TREF_VALID)
          ∧ s.bitsBut t [f_CLK_TREF_PPM_PPM, f_CLK_SRC_TREF_VALID]))
      ∧ (ppm.toInt < -100 ∨ 100 < ppm.toInt → s.get f_CLK_SRC_TREF_VALID = 0 →
        Runs (.timerefWindow ppm) s (fun t => s.onlyIn t { regs := true, clk := true } ∧ t.clk = { s.clk with run := 0 }
          ∧ t.get f_CLK_TREF_PPM_PPM = ppm.toNat ∧ s.bitsBut t [f_CLK_TREF_PPM_PPM]))
      ∧ (ppm.toInt < -100 ∨ 100 < ppm.toInt → s.get f_CLK_SRC_TREF_VALID = 1 →
        Runs (.timerefWindow ppm) s (fun t => s.onlyIn t { regs := true, flt := true, clk := true } ∧ s.timerefGone t
          ∧ t.get f_CLK_TREF_PPM_PPM = ppm.toNat
          ∧ s.bitsBut t (f_CLK_TREF_PPM_PPM :: f_CLK_STATUS_TREF_LOST.count :: lossFields)))) :)
  ∧ (∀ s : State,
    (s.boot.por = true → exec .timerefLost s = .next s)
    ∧ (s.boot.por = false → s.get f_CLK_SRC_TREF_VALID = 0 →
      Runs .timerefLost s (fun t => s.onlyIn t { clk := true } ∧ t.clk = { s.clk with run := 0 }))
    ∧ (s.boot.por = false → s.get f_CLK_SRC_TREF_VALID = 1 → s.get f_CLK_SRC_XTAL_STATE = 2 →
      Runs .timerefLost s (fun t => s.onlyIn t { regs := true, flt := true, clk := true } ∧ s.timerefGone t
        ∧ s.bitsBut t (f_CLK_STATUS_TREF_LOST.count :: lossFields)))
    ∧ (s.boot.por = false → s.get f_CLK_SRC_TREF_VALID = 1 → s.get f_CLK_SRC_XTAL_STATE ≠ 2 → s.clk.gone = false →
      Runs .timerefLost s (fun t => s.noReference t)) :)
  ∧ (∀ s : State,
    (s.boot.por = true ∨ s.get f_CLK_SRC_XTAL_STATE ≠ 2 → exec .xtalLost s = .next s)
    ∧ (s.boot.por = false → s.get f_CLK_SRC_XTAL_STATE = 2 → s.get f_CLK_SRC_TREF_VALID = 1 →
      Runs .xtalLost s (fun t => s.onlyIn t { regs := true, flt := true, clk := true } ∧ s.crystalLost t ∧ s.bitsBut t lossFields))
    ∧ (s.boot.por = false → s.get f_CLK_SRC_XTAL_STATE = 2 → s.get f_CLK_SRC_TREF_VALID = 0 → s.clk.gone = false →
      Runs .xtalLost s (fun t => s.noReference t)) :)
  ∧ (∀ s : State,
    (s.boot.por = true ∨ s.get f_CLK_SRC_TREF_VALID = 1 ∨ s.get f_CLK_SRC_XTAL_STATE < 2 → exec .referenceLoss s = .next s)
    ∧ (s.boot.por = false → s.get f_CLK_SRC_TREF_VALID = 0 → 2 ≤ s.get f_CLK_SRC_XTAL_STATE → s.clk.gone = false →
      Runs .referenceLoss s (fun t => s.noReference t)) :))

/-! The shutter (chapter 1, R41, R43, R48, R51, R57). -/

/-- R43, R48: at a shutter the time base stands at its edge, the tick is the number of the grid point and the next edge is the first grid
point at least a period on; in the safelight state nothing else happens (R502). Outside it a resource with radio work begins in its guard
and every other in its open lease, no radio pass is left, and unfinished radio work is an overrun. R46: on leaving FREE the time base is
stepped once, unless it would go back by more than 1 s. Clauses may rest on choices of the model: log entries 17 and 18. -/
def Obligations.ShutterEdge : Prop :=
  (∀ (s : State) (i : ShutterIn), s.live = false → Runs (.shutter i) s (fun t => s.onlyIn t { tim := true }
    ∧ t.tim = { s.tim with tb := s.tim.nextEdge, subNs := 0, frac := 0, tick := s.tim.nextEdge / s.periodNs % 2 ^ 64
                           nextEdge := t.tim.nextEdge, expo := s.tim.expo + 1 }
    ∧ t.tim.nextEdge % s.periodNs = 0 ∧ s.tim.nextEdge + s.periodNs ≤ t.tim.nextEdge ∧ t.tim.nextEdge < s.tim.nextEdge + 2 * s.periodNs) :)
  ∧ (∀ (s : State) (i : ShutterIn), s.live = true → Runs (.shutter i) s (fun t =>
      t.tim.subNs = 0 ∧ t.tim.tick = s.tim.nextEdge / s.periodNs % 2 ^ 64 ∧ t.tim.expo = s.tim.expo + 1
      ∧ (s.tim.stepPend = false ∨ s.get f_CLK_TIME_STATE_STATE ≠ 0 →
        t.tim.tb = s.tim.nextEdge
        ∧ t.tim.nextEdge % s.periodNs = 0 ∧ s.tim.nextEdge + s.periodNs ≤ t.tim.nextEdge ∧ t.tim.nextEdge < s.tim.nextEdge + 2 * s.periodNs)
      ∧ (s.tim.stepPend = true → s.get f_CLK_TIME_STATE_STATE = 0 →
        let d := s.ppsStep i.srcOffset
        (d < -1000000000 ∨ (s.tim.nextEdge : Int) + d < 0 → t.tim.tb = s.tim.nextEdge ∧ t.get f_CLK_SHT_STATUS_STEP_REFUSED = 1)
        ∧ (-1000000000 ≤ d → 0 ≤ (s.tim.nextEdge : Int) + d → (t.tim.tb : Int) = s.tim.nextEdge + d ∧ t.get f_CLK_SHT_STATUS_TIME_STEP = 1))
      ∧ (∀ n, (t.arrOf n).radioQ = [] ∧ ∀ p ∈ (t.arrOf n).run, p.d.radio = false)
      ∧ (∀ r, (s.radioRes r = true ∧ ∃ e ∈ i.radioWork, e.res = r ∧ e.cells ≠ []) → t.leaseOf r = .guard)
      ∧ (∀ r, ¬(s.radioRes r = true ∧ ∃ e ∈ i.radioWork, e.res = r ∧ e.cells ≠ []) → t.leaseOf r = .openLease)
      ∧ (s.tim.radioWork ≠ [] → t.get f_CLK_SHT_STATUS_HEADROOM = 1)
      ∧ (s.unfinished ≠ [] → t.get f_CLK_SHT_STATUS_RADIO_OVERRUN = 1)) :)
/-! The arrays (chapters 3 and 4). -/

/-- R85, R96, R163: a pass issue puts the descriptor, with the thread's job, priority and number in it, at the end of its queue and answers
0; with no room, or past 32 outstanding passes, the thread is held with it, and after ISSUE_TMO exposures takes 0xB and the descriptor is
discarded. A descriptor that cannot be read stops the thread (R185). R88: a descriptor that a check refuses leaves its queue and completes
with its code: the poison of its chain, else 0x7 after a rejection, else the lowest-numbered of the checks it fails. Clauses may rest on
choices of the model: log entries 49 and 50. -/
def Obligations.PassIssueAndRejection : Prop :=
  ((∀ (s : State) (n k : Fin 64) (w : BitVec 64), s.issues n k w → (teWord w).op = 12 → (teWord w).num = 0
      → s.pissueFault n k (teWord w) = none →
    let a := storeBase n + (s.thr n k).sr (teWord w).a
    let radio := bitAt (teWord w).func 0
    (touched s.ms.uncorr a 64 = [] → s.issueFull n k radio = false →
      Runs (.pissue n k w) s (fun t => s.onlyIn t { regs := true, te := true, arr := true, flt := true, ms := true } ∧ s.thrOnly t n k
        ∧ (touched s.ms.corr a 64 = [] → s.onlyIn t { regs := true, te := true, arr := true } ∧ s.counted t n)
        ∧ t.thr n k = { (s.past n k w).setS (teWord w).d 0 with outst := (s.thr n k).outst + 1, accOut := (s.thr n k).accOut + 1 }
        ∧ (∀ m, m ≠ n.val → t.arrOf m = s.arrOf m)
        ∧ ∃ d : Desc, s.descAt a n k d
          ∧ t.arrOf n = (if radio then { s.arrOf n with radioQ := (s.arrOf n).radioQ ++ [{ d := d, cpl := bitAt (teWord w).func 1 }] }
            else { s.arrOf n with openQ := (s.arrOf n).openQ ++ [{ d := d, cpl := bitAt (teWord w).func 1 }] })))
    ∧ (touched s.ms.uncorr a 64 = [] → s.issueFull n k radio = true →
      Runs (.pissue n k w) s (fun t => s.onlyIn t { regs := true, te := true, flt := true, ms := true } ∧ s.thrOnly t n k
        ∧ (touched s.ms.corr a 64 = [] → s.onlyIn t { regs := true, te := true } ∧ s.counted t n)
        ∧ ∃ d : Desc, s.descAt a n k d
          ∧ t.thr n k = { s.past n k w with st := .wait, why := .issue, wD := (teWord w).d, wA := (if radio then 1 else 0)
                                            wHeld := some { d := d, cpl := bitAt (teWord w).func 1 }, wSince := s.tim.expo }))
    ∧ (touched s.ms.uncorr a 64 ≠ [] →
      Runs (.pissue n k w) s (fun t => t.arr = s.arr ∧ t.mem = s.mem ∧ (t.thr n k).st = .faulted ∧ (t.thr n k).kind = 0x29
        ∧ (t.thr n k).pc = (s.thr n k).pc ∧ t.get f_MEM_STATUS_UNCORR = 1)) :)
  ∧ (∀ (s : State) (n k : Fin 64), s.live = true →
    ((s.thr n k).why = .issue → s.get (f_ARR_CTRL_ISSUE_TMO n) ≤ s.tim.expo - (s.thr n k).wSince →
      Runs (.issueTimeout n k) s (fun t => s.onlyIn t { te := true } ∧ s.thrOnly t n k
        ∧ (t.thr n k).why = .none ∧ (t.thr n k).wHeld = none ∧ (t.thr n k).pc = (s.thr n k).pc
        ∧ (t.thr n k).st = (if (s.thr n k).st = .wait then .ready else (s.thr n k).st)
        ∧ ((s.thr n k).wD ≠ 0 → (t.thr n k).sr (s.thr n k).wD = 0xB)
        ∧ (∀ r, r ≠ (s.thr n k).wD → (t.thr n k).sr r = (s.thr n k).sr r)))
    ∧ ((s.thr n k).why ≠ .issue ∨ s.tim.expo - (s.thr n k).wSince < s.get (f_ARR_CTRL_ISSUE_TMO n) → exec (.issueTimeout n k) s = .next s) :))
  ∧ ((∀ (s : State) (n : Fin 64) (radio : Bool) (p : Pass) (code : Nat), s.live = true → s.hasArray n = true
      → (s.arrOf n).next radio = some p → s.mayIssue n radio p = true
      → s.descCode n radio (s.thr n p.d.thread).radio p.lost p.d (s.maskBytes n p.d) = code → code ≠ 0 → code < 16 →
    Runs (.passStart n radio) s (fun t =>
      (∀ m, m ≠ n.val → t.arrOf m = s.arrOf m) ∧ (t.arrOf n).run = (s.arrOf n).run
      ∧ (∃ l, (t.arrOf n).radioQ = (if radio then (s.arrOf n).radioQ.erase p else (s.arrOf n).radioQ) ++ l)
      ∧ (∃ l, (t.arrOf n).openQ = (if radio then (s.arrOf n).openQ else (s.arrOf n).openQ.erase p) ++ l)
      ∧ t.get (f_ARR_STATUS_DESC_ERR n) = 1 ∧ t.get (f_ARR_DESC_ERR_CODE n) = code ∧ t.get (f_ARR_DESC_ERR_SEQ n) = p.d.seq % 2 ^ 16
      ∧ s.msg (srcArray (s.physRun n radio)) 0x02 n (code + 16 * (p.d.seq % 4096)) ∈ t.flt.inbox
      ∧ s.delivered t n p.d (completionWord p.d.seq code ((s.arrOf n).satOf radio p.d) false p.d.ends radio)
      ∧ t.mem = s.mem
      ∧ (code ≠ 0xA → s.onlyIn t { regs := true, te := true, arr := true, flt := true, tim := true }
        ∧ t.tim = { s.tim with radioWork := t.tim.radioWork, gaveUp := t.tim.gaveUp } ∧ (radio = false → t.tim = s.tim)
        ∧ s.sends t (srcArray (s.physRun n radio)) 0x02 n (code + 16 * (p.d.seq % 4096))
        ∧ s.bitsBut t [f_ARR_STATUS_DESC_ERR n, (f_ARR_STATUS_DESC_ERR n).count, f_ARR_DESC_ERR_CODE n, f_ARR_DESC_ERR_SEQ n])) :)
  ∧ (∀ (s : State) (n : Nat) (radioQ bound lost : Bool) (d : Desc) (mask : List Byte),
      ((∀ c, (s.arrOf n).chainOf radioQ d.job = some c → d.starts = true ∨ c.bad = 0) →
        (lost = true → s.descCode n radioQ bound lost d mask = 0xA)
        ∧ (lost = false →
          (s.descCode n radioQ bound lost d mask = 0 → ∀ e ∈ s.descChecks n radioQ bound d mask, e.2 = false)
          ∧ (∀ code, s.descCode n radioQ bound lost d mask = code → code ≠ 0 →
              (code, true) ∈ s.descChecks n radioQ bound d mask ∧ ∀ e ∈ s.descChecks n radioQ bound d mask, e.1 < code → e.2 = false)))
      ∧ (∀ c, (s.arrOf n).chainOf radioQ d.job = some c → d.starts = false → c.bad ≠ 0 → s.descCode n radioQ bound lost d mask = c.bad) :))
/-- R77, R83: a queue's next pass starts when its weights are in a slot (an active hit is counted, a ready spare that was loaded for it
becomes the active one), with its beats tagged with that set, and leaves the queue; when they are in neither, the spare slot begins to load
them and no pass starts; while they load, or rows of its tile wait for a convert-out, it waits. R82: a load that completes leaves the slot
ready with the bytes that memory holds then. -/
def Obligations.PassStartAndWeights : Prop :=
  (∀ (s : State) (n : Fin 64) (radio : Bool) (p : Pass), s.live = true → s.hasArray n = true → (s.arrOf n).next radio = some p
      → s.mayIssue n radio p = true → s.descCode n radio (s.thr n p.d.thread).radio p.lost p.d (s.maskBytes n p.d) = 0 →
    let hit := (s.arrOf n).active.holds p.d
    let w : WSlot := if hit then (s.arrOf n).active else { (s.arrOf n).spareSlot with load := none }
    (hit = true ∨ ((s.arrOf n).spareSlot.loadFor p.d = true ∧ (s.arrOf n).spareSlot.ready = true)
      → (p.d.starts = true → (s.arrOf n).rowsPending p.d = false) →
      Runs (.passStart n radio) s (fun t => s.onlyIn t { regs := true, te := true, arr := true }
        ∧ (∀ m, m ≠ n.val → t.arrOf m = s.arrOf m)
        ∧ (∃ cid, (t.arrOf n).run = (s.arrOf n).run ++ [{ p with cid := cid, w := w }] ∧ ∃ c ∈ (t.arrOf n).chains, c.cid = cid)
        ∧ (∃ l, (t.arrOf n).radioQ = (if radio then (s.arrOf n).radioQ.erase p else (s.arrOf n).radioQ) ++ l)
        ∧ (∃ l, (t.arrOf n).openQ = (if radio then (s.arrOf n).openQ else (s.arrOf n).openQ.erase p) ++ l)
        ∧ (t.arrOf n).active = w ∧ (t.arrOf n).cur = (if radio then (s.arrOf n).cur else if p.d.ends then none else some p.d.job)
        ∧ t.get (f_ARR_WHIT_CNT_COUNT n) = (if hit then min (s.get (f_ARR_WHIT_CNT_COUNT n) + 1) (2 ^ 32 - 1) else s.get (f_ARR_WHIT_CNT_COUNT n))
        ∧ s.bitsBut t [f_ARR_WHIT_CNT_COUNT n]))
    ∧ (hit = false → (s.arrOf n).spareSlot.loadFor p.d = false →
      Runs (.passStart n radio) s (fun t => s.onlyIn t { arr := true } ∧ (∀ m, m ≠ n.val → t.arrOf m = s.arrOf m)
        ∧ (t.arrOf n).spareSlot = { valid := true, ready := false, addr := p.d.wgtAddr, fmts := p.d.wkey, load := some p.d }
        ∧ (t.arrOf n).active = (s.arrOf n).active ∧ (t.arrOf n).run = (s.arrOf n).run ∧ (t.arrOf n).openQ = (s.arrOf n).openQ
        ∧ (t.arrOf n).radioQ = (s.arrOf n).radioQ ∧ (t.arrOf n).chains = (s.arrOf n).chains))
    ∧ (hit = true ∨ (s.arrOf n).spareSlot.loadFor p.d = true →
        (hit = false ∧ (s.arrOf n).spareSlot.ready = false) ∨ (p.d.starts = true ∧ (s.arrOf n).rowsPending p.d = true) →
      exec (.passStart n radio) s = .next s) :)
  ∧ (∀ (s : State) (n : Fin 64), s.live = true →
    let w := (s.arrOf n).spareSlot
    let d : Desc := { ctrl := (w.fmts % 16) * 16 + (w.fmts / 16 % 16) * 256 + (if w.fmts ≥ 256 then 2 ^ 12 else 0) }
    (w.valid = true → w.ready = false →
      Runs (.weightLoadComplete n) s (fun t => s.onlyIn t { arr := true, regs := true, flt := true, ms := true }
        ∧ (∀ m, m ≠ n.val → t.arrOf m = s.arrOf m) ∧ (t.arrOf n).active = (s.arrOf n).active
        ∧ (t.arrOf n).spareSlot
            = { w with ready := true, bytes := (t.arrOf n).spareSlot.bytes, err := !(touched s.ms.uncorr (storeBase n + w.addr) d.wbytes).isEmpty }
        ∧ (∀ j, j < d.wbytes → sget 0 (t.arrOf n).spareSlot.bytes j = s.readByte (storeBase n + w.addr + j))
        ∧ (touched s.ms.corr (storeBase n + w.addr) d.wbytes = [] → touched s.ms.uncorr (storeBase n + w.addr) d.wbytes = [] →
          s.onlyIn t { arr := true })))
    ∧ (w.valid = false ∨ w.ready = true → exec (.weightLoadComplete n) s = .next s) :)

/-- R81, R97, R119 to R122: a beat writes the entries of its row for the enabled and unmasked outputs, each as the rule of its numerics
gives it, and nothing else in memory; a masked beat, and a beat of a failed pass, writes none; a residue difference of an output that is
written is reported, and the pass then writes no more and poisons its chain, but for a radio pass that the die's free spare re-runs with its
results. R120, R121: an entry takes the exact sum of what it held and the column sum while both are finite and the result fits 80 bits with
the most negative value kept for SAT; otherwise it becomes SAT, and SAT stays. A first update ignores what was there. Clauses may rest on
choices of the model: log entries 50 and 51. -/
def Obligations.BeatsAndEntries : Prop :=
  ((∀ (s : State) (n : Fin 64) (b : Option (Fin 512)) (p : Pass), s.live = true
      → (s.arrOf n).run.find? (fun p => decide (p.beat < p.d.m)) = some p →
    let outs := p.d.outs.filter (fun o => !(maskedAt p.d.maskMode ((s.arrOf n).chainNo p.cid).mask p.beat o))
    let row := p.d.tileRow + p.beat
    let ups := s.beatEntries n p p.w.bytes outs
    let ph := s.physRun n p.d.radio
    (outs = [] →
      Runs (.beatWrite n b) s (fun t => s.onlyIn t { regs := true, arr := true } ∧ { p with beat := p.beat + 1 } ∈ (t.arrOf n).run
        ∧ (∀ m, m ≠ n.val → t.arrOf m = s.arrOf m)
        ∧ t.get (f_ARR_BUBBLE_CNT_COUNT n) = min (s.get (f_ARR_BUBBLE_CNT_COUNT n) + 1) (2 ^ 32 - 1) ∧ s.bitsBut t [f_ARR_BUBBLE_CNT_COUNT n]))
    ∧ (outs ≠ [] → p.failed = true →
      Runs (.beatWrite n b) s (fun t => s.onlyIn t { arr := true } ∧ { p with beat := p.beat + 1 } ∈ (t.arrOf n).run
        ∧ ∀ m, m ≠ n.val → t.arrOf m = s.arrOf m))
    ∧ (outs ≠ [] → p.failed = false → beatErrors s.ms.uncorr n p outs = [] → (p.w.err = false ∨ p.beat ≠ 0) →
      ((∀ x, b = some x → x.val ∉ outs ∨ p.mism = true) →
        Runs (.beatWrite n b) s (fun t => s.onlyIn t { regs := true, mem := true, arr := true, flt := true, ms := true }
          ∧ (∀ m, m ≠ n.val → t.arrOf m = s.arrOf m)
          ∧ (∀ e ∈ ups, t.readLE (entryAddr n row e.1) 10 = e.2.val % 2 ^ 80)
          ∧ (∀ a, (∀ o ∈ outs, a < entryAddr n row o ∨ entryAddr n row o + 10 ≤ a) → t.readByte a = s.readByte a)
          ∧ (t.arrOf n).run.length = (s.arrOf n).run.length ∧ { p with beat := p.beat + 1 } ∈ (t.arrOf n).run
          ∧ ((∃ e ∈ ups, e.2.cause ≠ 0) → t.get (f_ARR_STATUS_OVERFLOW n) = 1)
          ∧ ((∀ e ∈ ups, e.2.cause = 0) → beatErrors s.ms.corr n p outs = [] → t.flt = s.flt
              ∧ s.regsBut t [(f_ARR_SAT_ROWS_0_ROWS n).off + 4 * (row / 32)])))
      ∧ (∀ x, b = some x → x.val ∈ outs → p.mism = false → (p.d.radio = false ∨ s.spareFree n = false) →
        Runs (.beatWrite n b) s (fun t => t.mem = s.mem ∧ t.get (f_ARR_STATUS_RESIDUE n) = 1
          ∧ (∀ m, m ≠ n.val → t.arrOf m = s.arrOf m)
          ∧ t.get (f_ARR_RES_CNT_COUNT n) = min (s.get (f_ARR_RES_CNT_COUNT n) + 1) (2 ^ 32 - 1)
          ∧ (t.physOf ph).resCnt = min ((s.physOf ph).resCnt + 1) 65535
          ∧ { p with beat := p.beat + 1, failed := true } ∈ (t.arrOf n).run
          ∧ (∀ c ∈ (t.arrOf n).chains, c.cid = p.cid → c.bad = 0xA)
          ∧ ∃ m ∈ t.flt.inbox, m.source = srcArray ph ∧ m.kind = 0x01 ∧ m.addr = n.val ∧ m.aux = x.val))
      ∧ (∀ x, b = some x → x.val ∈ outs → p.mism = false → p.d.radio = true → s.spareFree n = true →
        Runs (.beatWrite n b) s (fun t => t.get (f_ARR_STATUS_RESIDUE n) = 1 ∧ t.get f_CLK_SHT_STATUS_RERUN = 1
          ∧ (∀ m, m ≠ n.val → t.arrOf m = s.arrOf m)
          ∧ (∀ e ∈ ups, t.readLE (entryAddr n row e.1) 10 = e.2.val % 2 ^ 80)
          ∧ (∀ a, (∀ o ∈ outs, a < entryAddr n row o ∨ entryAddr n row o + 10 ≤ a) → t.readByte a = s.readByte a)
          ∧ t.get f_CLK_RERUN_CNT_COUNT = min (s.get f_CLK_RERUN_CNT_COUNT + 1) (2 ^ 32 - 1)
          ∧ (t.arrOf n).rerun = true ∧ (t.dieOf (s.dieOfArr n)).rerun = true
          ∧ { p with beat := p.beat + 1, mism := true } ∈ (t.arrOf n).run
          ∧ ∃ m ∈ t.flt.inbox, m.source = srcArray ph ∧ m.kind = 0x01 ∧ m.addr = n.val ∧ m.aux = x.val))) :)
  ∧ (∀ (s : State) (n : Fin 64) (b : Option (Fin 512)), (s.arrOf n).run.find? (fun p => decide (p.beat < p.d.m)) = none →
    exec (.beatWrite n b) s = .next s :))
  ∧ ((∀ (old : Nat) (sum : Int), old < 2 ^ 80 → old ≠ sat80 → (toSigned 80 old + sum).natAbs < 2 ^ 79 →
    let e := entryUpdate false old ⟨sum, false, false⟩
    e.cause = 0 ∧ e.val < 2 ^ 80 ∧ e.val ≠ sat80 ∧ toSigned 80 e.val = toSigned 80 old + sum)
  ∧ (∀ (old : Nat) (sum : Int), sum.natAbs < 2 ^ 79 → toSigned 80 (entryUpdate true old ⟨sum, false, false⟩).val = sum)
  ∧ (∀ (old : Nat) (sum : Int), old < 2 ^ 80 → old ≠ sat80 → 2 ^ 79 ≤ (toSigned 80 old + sum).natAbs →
    entryUpdate false old ⟨sum, false, false⟩ = ⟨sat80, 1⟩)
  ∧ (∀ (first : Bool) (old : Nat) (sum : Int) (r : Bool), (first = false → old ≠ sat80) → entryUpdate first old ⟨sum, r, true⟩ = ⟨sat80, 2⟩)
  ∧ (∀ c : ColSum, entryUpdate false sat80 c = ⟨sat80, 0⟩))

/-- R84, R93, R99, R123, R163: a finished pass leaves the array, is counted and completes when its issue asked for it; a poisoned one
completes with 0xA; the end of a chain writes the converted rows to the output region, a masked entry as its fill value or not at all, and
nothing else to memory; with nothing finished both rows change nothing. Clauses may rest on choices of the model: log entry 51. -/
def Obligations.PassAndChainEnd : Prop :=
  (∀ (s : State) (n : Fin 64), s.live = true →
    ((s.arrOf n).run.find? (fun p => decide (p.beat ≥ p.d.m) && (!p.d.ends || (s.arrOf n).poisoned p)) = none → exec (.passEnd n) s = .next s)
    ∧ (∀ p : Pass, (s.arrOf n).run.find? (fun p => decide (p.beat ≥ p.d.m) && (!p.d.ends || (s.arrOf n).poisoned p)) = some p →
      Runs (.passEnd n) s (fun t => s.onlyIn t { regs := true, te := true, arr := true, acct := true, tim := true }
        ∧ (t.arrOf n).run = (s.arrOf n).run.erase p ∧ (∀ m, m ≠ n.val → t.arrOf m = s.arrOf m)
        ∧ t.tim = { s.tim with radioWork := t.tim.radioWork, gaveUp := t.tim.gaveUp } ∧ (p.d.radio = false → t.tim = s.tim)
        ∧ t.reg64 (r_ARR_PASS_CNT_LO n) = (if (s.arrOf n).poisoned p then s.reg64 (r_ARR_PASS_CNT_LO n) else (s.reg64 (r_ARR_PASS_CNT_LO n) + 1) % 2 ^ 64)
        ∧ s.regsBut t [r_ARR_PASS_CNT_LO n, r_ARR_PASS_CNT_LO n + 4]
        ∧ ((s.arrOf n).poisoned p = true → t.acct = s.acct
          ∧ s.delivered t n p.d (completionWord p.d.seq 0xA (p.d.ends && ((s.arrOf n).chainNo p.cid).sat) p.failed p.d.ends p.d.radio))
        ∧ ((s.arrOf n).poisoned p = false → p.cpl = true → s.delivered t n p.d (completionWord p.d.seq 0 false p.mism false p.d.radio))
        ∧ ((s.arrOf n).poisoned p = false → p.cpl = false → (t.thr n p.d.thread).comps = (s.thr n p.d.thread).comps))) :)
  ∧ (∀ (s : State) (n : Fin 64), s.live = true →
    ((s.arrOf n).run.find? (fun p => decide (p.beat ≥ p.d.m) && p.d.ends && !((s.arrOf n).poisoned p)) = none → exec (.chainEnd n) s = .next s)
    ∧ (∀ p : Pass, (s.arrOf n).run.find? (fun p => decide (p.beat ≥ p.d.m) && p.d.ends && !((s.arrOf n).poisoned p)) = some p
        → p.d.outAddr + (p.d.m - 1) * (p.d.outStride * 64) + p.d.outs.length * outBytes p.d.outFmt ≤ 0x400000 →
      let c := (s.arrOf n).chainNo p.cid
      let w := outBytes p.d.outFmt
      Runs (.chainEnd n) s (fun t => s.onlyIn t { regs := true, mem := true, te := true, arr := true, acct := true, tim := true, flt := true, ms := true }
        ∧ (t.arrOf n).run = (s.arrOf n).run.erase p ∧ (∀ m, m ≠ n.val → t.arrOf m = s.arrOf m)
        ∧ (∀ k ∈ (t.arrOf n).chains, k.cid = p.cid → k.ending = true ∧ ∃ q ∈ (t.arrOf n).run, q.cid = p.cid)
        ∧ t.tim = { s.tim with radioWork := t.tim.radioWork } ∧ (p.d.radio = false → t.tim = s.tim)
        ∧ (s.ms.corr = [] → s.ms.uncorr = [] → t.flt = s.flt ∧ t.ms = s.ms)
        ∧ t.reg64 (r_ARR_PASS_CNT_LO n) = (s.reg64 (r_ARR_PASS_CNT_LO n) + 1) % 2 ^ 64
        ∧ s.delivered t n p.d (completionWord p.d.seq 0 c.sat c.res true p.d.radio)
        ∧ (∀ a, (∀ i, i < p.d.m → a < storeBase n + p.d.outAddr + i * p.d.outStride * 64
              ∨ storeBase n + p.d.outAddr + i * p.d.outStride * 64 + p.d.outs.length * w ≤ a) → t.readByte a = s.readByte a)
        ∧ (s.ms.uncorr = [] → (1 < p.d.m → p.d.outs.length * w ≤ p.d.outStride * 64) → ∀ i, i < p.d.m → ∀ j, j < p.d.outs.length →
            let a := storeBase n + p.d.outAddr + i * p.d.outStride * 64 + j * w
            t.readLE a w =
              if maskedAt p.d.maskMode c.mask i (p.d.outs.getD j 0) then (if p.d.maskFill then fillValue p.d.outFmt % 2 ^ (8 * w) else s.readLE a w)
              else (convertOut (s.arrZs7 n p.d.radio && fmtGroup p.d.fmtA ≠ 2) p.d.anchorInt p.d.outFmt
                (s.readLE (entryAddr n (p.d.tileRow + i) (p.d.outs.getD j 0)) 10)).1 % 2 ^ (8 * w)))) :)
/-- R104, R105: a write of HALT; HALTED reads 1 when no open chain and no open pass is left. R100, R101, R111: substitution of a logical
array by its die's spare: requested, refused, copied, given up at its timeout. Clauses may rest on choices of the model: log entries 50 and
53. -/
def Obligations.HaltsAndSubstitution : Prop :=
  (∀ (s : State) (n : Fin 64) (v : Bool), s.live = true → s.hasArray n = true →
    Runs (.arrayHalt n v) s (fun t => s.onlyIn t { regs := true } ∧ t.get (f_ARR_CTRL_HALT n) = (if v then 1 else 0)
      ∧ (∃ x, t.arrView (r_ARR_CTRL n) = some x ∧ bitAt x 0 = v
        ∧ bitAt x 1 = (v && (s.arrOf n).cur.isNone && (s.arrOf n).run.all (fun p => p.d.radio)))
      ∧ s.bitsBut t [f_ARR_CTRL_HALT n]) :)
  ∧ ((∀ (s : State) (v : BitVec 32), s.live = true → bitAt v.toNat 7 = false →
    Runs (.arrSubstGo v) s (fun t => s.onlyIn t { regs := true } ∧ t.get f_ARR_SUBST_LOGICAL = bits v.toNat 5 0
      ∧ t.get f_ARR_SUBST_TMO = (if 1 ≤ bits v.toNat 14 8 ∧ bits v.toNat 14 8 ≤ 64 then bits v.toNat 14 8 else s.get f_ARR_SUBST_TMO)
      ∧ s.bitsBut t [f_ARR_SUBST_LOGICAL, f_ARR_SUBST_TMO]) :)
  ∧ (∀ (s : State) (v : BitVec 32), s.live = true → bitAt v.toNat 7 = true → s.flag f_ARR_SUBST_PENDING = false
      → s.hasArray (bits v.toNat 5 0) = true → (s.arrOf (bits v.toNat 5 0)).map = .inService →
    let n := bits v.toNat 5 0
    (s.dieOf (s.dieOfArr n)).spareFor = 127 → (s.dieOf (s.dieOfArr n)).spareBusy = false → (s.physOf (9 * s.dieOfArr n + 8)).isolated = false →
    Runs (.arrSubstGo v) s (fun t => s.onlyIn t { regs := true, arr := true, die := true, flt := true }
      ∧ t.arrOf n = { s.arrOf n with map := .swapPending, subReq := s.tim.expo, copyDone := false } ∧ (∀ m, m ≠ n → t.arrOf m = s.arrOf m)
      ∧ t.dieOf (s.dieOfArr n) = { s.dieOf (s.dieOfArr n) with spareBusy := true, spareFor := n } ∧ (∀ d, d ≠ s.dieOfArr n → t.dieOf d = s.dieOf d)
      ∧ t.get f_ARR_SUBST_PENDING = 1 ∧ t.flt.phase = (if s.flt.phase = .service then .recovery else s.flt.phase)
      ∧ s.bitsBut t [f_ARR_SUBST_LOGICAL, f_ARR_SUBST_TMO, f_ARR_SUBST_PENDING]) :)
  ∧ (∀ (s : State) (v : BitVec 32), s.live = true → bitAt v.toNat 7 = true
      → s.flag f_ARR_SUBST_PENDING = true ∨ s.hasArray (bits v.toNat 5 0) = false ∨ (s.arrOf (bits v.toNat 5 0)).map = .offline
        ∨ (s.arrOf (bits v.toNat 5 0)).map = .onSpare →
    Runs (.arrSubstGo v) s (fun t => s.onlyIn t { regs := true } ∧ t.get f_ARR_MAP_STATUS_SUBST_REFUSED = 1
      ∧ s.bitsBut t [f_ARR_MAP_STATUS_SUBST_REFUSED, f_ARR_MAP_STATUS_SUBST_REFUSED.count]) :)
  ∧ (∀ (s : State) (v : BitVec 32), s.live = true → bitAt v.toNat 7 = true → s.flag f_ARR_SUBST_PENDING = false
      → s.hasArray (bits v.toNat 5 0) = true → (s.arrOf (bits v.toNat 5 0)).map = .inService →
    let n := bits v.toNat 5 0
    (s.dieOf (s.dieOfArr n)).spareFor ≠ 127 ∨ (s.dieOf (s.dieOfArr n)).spareBusy = true ∨ (s.physOf (9 * s.dieOfArr n + 8)).isolated = true →
    Runs (.arrSubstGo v) s (fun t => t.mem = s.mem ∧ (t.arrOf n).map = .offline ∧ (t.arrOf n).openQ = [] ∧ (∀ m, m ≠ n → t.arrOf m = s.arrOf m)
      ∧ (t.physOf (s.defaultPhys n)).isolated = true ∧ t.get f_ARR_MAP_STATUS_NO_SPARE = 1 ∧ t.get (f_ARR_STATUS_OFFLINE n) = 1
      ∧ ∃ m ∈ t.flt.inbox, m.source = srcArray (s.defaultPhys n) ∧ m.kind = 0x04 ∧ m.addr = n) :)
  ∧ (∀ (s : State) (n : Fin 64), s.live = true → s.copyReady n = true →
    Runs (.substCopyStart n) s (fun t => s.onlyIn t { arr := true } ∧ t.arrOf n = { s.arrOf n with map := .copying }
      ∧ ∀ m, m ≠ n.val → t.arrOf m = s.arrOf m) :)
  ∧ (∀ (s : State) (n : Fin 64), s.live = true → (s.arrOf n).map = .copying →
    Runs (.substCopyComplete n) s (fun t => s.onlyIn t { arr := true } ∧ t.arrOf n = { s.arrOf n with copyDone := true }
      ∧ ∀ m, m ≠ n.val → t.arrOf m = s.arrOf m) :)
  ∧ (∀ (s : State) (n : Fin 64) (a : BitVec 48), s.live = true → (s.arrOf n).map = .copying
      → s.region a.toNat = .store n ∨ s.region a.toNat = .acc n →
    Runs (.arraySwapData n a) s (fun t => (∀ b, a.toNat / 64 * 64 ≤ b → b < a.toNat / 64 * 64 + 64 → t.readByte b = 0)
      ∧ s.memBut t (a.toNat / 64 * 64) 64 ∧ (∀ m, m ≠ n.val → t.arrOf m = s.arrOf m) ∧ (t.arrOf n).map = .copying
      ∧ ∃ m ∈ t.flt.inbox, m.source = srcArray (s.physFor n) ∧ m.kind = 0x05 ∧ m.addr = a.toNat) :)
  ∧ (∀ (s : State) (n : Fin 64), s.live = true → (s.arrOf n).map = .swapPending ∨ (s.arrOf n).map = .copying
      → s.get f_ARR_SUBST_TMO ≤ s.tim.expo - (s.arrOf n).subReq →
    Runs (.arraySwapTimeout n) s (fun t => t.mem = s.mem ∧ (t.arrOf n).map = .offline ∧ (t.arrOf n).openQ = []
      ∧ (∀ m, m ≠ n.val → t.arrOf m = s.arrOf m) ∧ (t.physOf (s.physFor n)).isolated = true
      ∧ ((s.dieOf (s.dieOfArr n)).spareFor = n.val → (t.dieOf (s.dieOfArr n)).spareFor = 127 ∧ (t.dieOf (s.dieOfArr n)).spareBusy = false)
      ∧ t.get (f_ARR_STATUS_OFFLINE n) = 1
      ∧ ∃ m ∈ t.flt.inbox, m.source = srcArray (s.physFor n) ∧ m.kind = 0x06 ∧ m.addr = n.val) :))

/-! Thread engines: control and scalar instructions (chapter 5, R148 to R156, R161). -/

/-- R149, R150, R151, R154, R157, R177, R178, R180, R183, R505: what an issue may meet before its instruction, for every instruction of a
thread but the two that take completions: a thread that is not the ready one of the highest rank issues nothing; a bad fetch, a reserved
encoding or an uncorrectable register is a fault with its kind, at the thread's PC, which stops its job and is a step fault of a serving
one; a thread whose operand a remote request has still to bring waits; a correctable register error is corrected and counted. Clauses may
rest on choices of the model: log entries 55 and 84. -/
def Obligations.ThreadIssueChecks : Prop :=
  (∀ (s : State) (c : Instr) (n k : Fin 64) (w : BitVec 64), issueCommand c n k w → s.live = true → s.mayRun n k = false → exec c s = .next s :)
  ∧ (∀ (s : State) (n k : Fin 64), s.mayRun n k = true →
      (s.thr n k).st = .ready ∧ s.leaseOf n = (if (s.thr n k).radio then .radio else .openLease)
      ∧ ∀ j : Fin 64, s.thrReady n j = true → (s.thr n j).rank ≤ (s.thr n k).rank :)
  ∧ (∀ (s : State) (c : Instr) (n k : Fin 64) (w : BitVec 64) (kind : Nat), issueCommand c n k w → s.live = true → s.mayRun n k = true →
      (s.fetchBad (s.thr n k) (teWord w).len = true ∧ kind = 0x11)
      ∨ (s.fetchBad (s.thr n k) (teWord w).len = false ∧ (teWord w).legal = false ∧ kind = 0x10) →
      Runs c s (fun t => s.faulted t n k kind (s.thr n k).pc) :)
  ∧ (∀ (s : State) (n k : Fin 64) (w : BitVec 64), s.live = true → s.mayRun n k = true → s.fetchBad (s.thr n k) (teWord w).len = false
      → (teWord w).legal = true → (teWord w).op = 1 →
      ((∀ r ∈ (teWord w).regs, r ∉ s.pendRegs n k) → (s.thr n k).ecc = 2 →
        Runs (.teScalarOp n k w) s (fun t => s.faulted t n k 0x15 (s.thr n k).pc))
      ∧ ((∃ r ∈ (teWord w).regs, r ∈ s.pendRegs n k) →
        Runs (.teScalarOp n k w) s (fun t => s.onlyIn t { te := true } ∧ s.thrOnly t n k
          ∧ t.thr n k = { s.thr n k with st := .wait, why := .access, ipc := (s.thr n k).pc }))
      ∧ ((∀ r ∈ (teWord w).regs, r ∉ s.pendRegs n k) → (s.thr n k).ecc = 1 →
        exec (.teScalarOp n k w) s = exec (.teScalarOp n k w) ((s.setThr n k { s.thr n k with ecc := 0 }).status (f_TE_STATUS_REG_CORR n))) :)
/-- R155, R156: control flow. A branch goes to its own address plus four times IMM when its condition holds, else on; `call` leaves the next
address in D, `ret` goes to the address in A (log entry 23 on the compare and on the link register). R151, R505: `halt` makes the thread
IDLE. When it is the last thread of a serving job to halt and a remote error or an unknown outcome shows in one of them, the partition takes
a step fault. Clauses may rest on choices of the model: log entry 23. -/
def Obligations.TeControlFlowAndHalt : Prop :=
  (∀ (s : State) (n k : Fin 64) (w : BitVec 64), s.issues n k w → (teWord w).op = 0 → (teWord w).func ≤ 7 →
    let i := teWord w
    let x := s.thr n k
    let y := s.past n k w
    let target := (((x.pc : Int) + 4 * i.imm) % 2 ^ 48).toNat
    let a := BitVec.ofNat 64 (x.sr i.a)
    let b := BitVec.ofNat 64 (x.sr i.b)
    Runs (.teControlFlow n k w) s (fun t => s.teDone t n k
      (match i.func with
       | 1 => if a = b then { y with pc := target } else y
       | 2 => if a ≠ b then { y with pc := target } else y
       | 3 => if a.slt b then { y with pc := target } else y
       | 4 => if b.sle a then { y with pc := target } else y
       | 5 => { y with pc := target }
       | 6 => { y with pc := target }.setS i.d y.pc
       | 7 => { y with pc := x.sr i.a / 4 * 4 % 2 ^ 48 }
       | _ => y)) :)
  ∧ (∀ (s : State) (n k : Fin 64) (w : BitVec 64), s.issues n k w → (teWord w).op = 0 → (teWord w).func = 8 →
    let x := s.thr n k
    let last := (∀ e ∈ s.te.thr, e.1 ≠ thrKey n k → e.2.job = x.job → e.2.st = .idle)
      ∧ (bitAt x.tstat 0 = true ∨ bitAt x.tstat 1 = true
        ∨ ∃ e ∈ s.te.thr, e.1 ≠ thrKey n k ∧ e.2.job = x.job ∧ (bitAt e.2.tstat 0 = true ∨ bitAt e.2.tstat 1 = true))
    (s.servedBy x.job = none ∨ ¬ last → Runs (.teHalt n k w) s (fun t => s.teDone t n k { s.past n k w with st := .idle, why := .none }))
    ∧ (∀ p, s.servedBy x.job = some p → last → (sget {} s.flt.part p).st ≠ .stepFault → (sget {} s.sp p).phase ≠ .retiring →
      Runs (.teHalt n k w) s (fun t => (t.thr n k).st = .idle ∧ (sget {} t.flt.part p).st = .stepFault ∧ t.mem = s.mem
        ∧ t.get f_FLT_STATUS_STEP_FAULT = 1 ∧ s.sends { t with flt := { t.flt with part := s.flt.part, phase := s.flt.phase, headValid := s.flt.headValid } }
            srcServe 0x33 ((sget {} s.sp p).step % 2 ^ 48) p
        ∧ (∀ e, e ∈ t.te.thr → e.2.job = x.job → e.2.st = .idle))) :)

/-- R153, R161: the fence waits for exactly what its reach covers; the control registers read as R153 gives them, and a write of FPFLAGS or
TSTAT changes only it (log entry 24 on the register number). -/
def Obligations.TeFenceAndControlRegisters : Prop :=
  (∀ (s : State) (n k : Fin 64) (w : BitVec 64), s.issues n k w → (teWord w).op = 0 → (teWord w).func = 9 →
    let x := s.thr n k
    let reach := ((teWord w).imm % 4).toNat
    let ovr : Prop := reach = 0 ∨ (x.rmtOut = [] ∧ (reach = 1 ∨ x.accOut = 0))
    Runs (.teFence n k w) s (fun t => (ovr → s.teDone t n k (s.past n k w))
      ∧ (¬ovr → s.teDone t n k { s.past n k w with st := .wait, why := .fence, wB := reach })) :)
  ∧ (∀ (s : State) (n k : Fin 64) (w : BitVec 64) (cyc : BitVec 64), s.issues n k w → (teWord w).op = 0 → (teWord w).func = 10 →
    let x := s.thr n k
    Runs (.teCsrr n k w cyc) s (fun t => s.teDone t n k ((s.past n k w).setS (teWord w).d
      (match (teWord w).imm with
       | 0 => k.val + n.val * 2 ^ 6 + s.get f_ID_CHIP_CHIP_ID * 2 ^ 12
       | 1 => x.fpflags
       | 2 => x.tstat
       | 3 => s.tim.tick
       | 4 => cyc.toNat
       | _ => x.job + x.prio * 2 ^ 32 + x.tenant * 2 ^ 35 + x.part * 2 ^ 51 + (if x.radio then 2 ^ 55 else 0)))) :)
  ∧ (∀ (s : State) (n k : Fin 64) (w : BitVec 64), s.issues n k w → (teWord w).op = 0 → (teWord w).func = 11 →
    Runs (.teCsrw n k w) s (fun t => s.teDone t n k
      (if (teWord w).imm = 1 then { s.past n k w with fpflags := (s.thr n k).sr (teWord w).a % 32 }
       else if (teWord w).imm = 2 then { s.past n k w with tstat := (s.thr n k).sr (teWord w).a % 8 } else s.past n k w)) :)
/-- R152, R156: every scalar instruction's result; s0 stays 0; the result of a shift by 64 or more, which no rule states, is a free value
(log entry 25). -/
def Obligations.TeScalarResults : Prop :=
  (∀ (s : State) (n k : Fin 64) (w : BitVec 64), s.issues n k w → (teWord w).op = 1 →
    let i := teWord w
    let x := s.thr n k
    (6 ≤ i.func → i.func ≤ 8 → x.sr i.b < 64) →
    Runs (.teScalarOp n k w) s (fun t => s.teDone t n k ((s.past n k w).setS i.d
        (scalarSpec i.func (BitVec.ofNat 64 (x.sr i.a)) (BitVec.ofNat 64 (x.sr i.b)) i.imm).toNat)
      ∧ (t.thr n k).sr 0 = 0) :)
  ∧ (∀ (s : State) (n k : Fin 64) (w : BitVec 64), s.issues n k w → (teWord w).op = 1 →
    let i := teWord w
    6 ≤ i.func → i.func ≤ 8 → 64 ≤ (s.thr n k).sr i.b →
    Runs (.teScalarOp n k w) s (fun t => s.onlyIn t { regs := true, te := true, free := true } ∧ s.counted t n ∧ s.thrOnly t n k
      ∧ t.free = s.free + 1 ∧ t.thr n k = (s.past n k w).setS i.d (Config.freeWord s.free).toNat) :)
/-! Vector instructions (R135 to R137, R156, R158, R619). -/

/-- R137, R156: a vector floating-point instruction acts lane by lane on the lanes that its predicate enables, sets the flags of those
lanes, and leaves every other lane and register as it was; a compare writes the predicate register D, but not p0. R136: an operation with a
NaN operand answers the canonical NaN of its type, and sets invalid exactly for a signalling one. Clauses may rest on choices of the model:
log entries 8 and 21. -/
def Obligations.TeFloatLanes : Prop :=
  (∀ (s : State) (n k : Fin 64) (w : BitVec 64), s.issues n k w → (teWord w).op = 2 →
    let i := teWord w
    let x := s.thr n k
    let code := vfpCode (i.func / 32)
    let f := fmtOf code
    let m := i.func % 32
    let val (l : Nat) := vfpResult f m (x.fpLane code i.a l) (x.fpLane code i.b l) (x.fpLane code i.c l)
    let cmp (l : Nat) := fcompare (m - 13) (f.decode (x.fpLane code i.a l)) (f.decode (x.fpLane code i.b l))
    Runs (.teVectorFpOp n k w) s (fun t => s.onlyIn t { regs := true, te := true } ∧ s.counted t n ∧ s.thrOnly t n k
      ∧ t.thr n k = { s.past n k w with v := (t.thr n k).v, p := (t.thr n k).p, fpflags := (t.thr n k).fpflags }
      ∧ (m < 13 → (t.thr n k).p = x.p
        ∧ (∀ l, l < 32 → bitAt (x.pr i.pr) l = true → (t.thr n k).fpLane code i.d l = (val l).1 % 2 ^ codeWidth code)
        ∧ (∀ r l, r < 32 → l < 32 → (r ≠ i.d ∧ (code = 0 → r ≠ i.d + 1)) ∨ bitAt (x.pr i.pr) l = false → (t.thr n k).lane r l = x.lane r l)
        ∧ (t.thr n k).fpflags = (x.lanes i.pr).foldl (fun g l => g ||| (val l).2) x.fpflags)
      ∧ (13 ≤ m → (t.thr n k).v = x.v ∧ (∀ r, r ≠ i.d → (t.thr n k).pr r = x.pr r) ∧ (t.thr n k).pr 0 = 2 ^ 32 - 1
        ∧ (i.d ≠ 0 → ∀ l, l < 32 → bitAt ((t.thr n k).pr i.d) l = if bitAt (x.pr i.pr) l then (cmp l).1 else bitAt (x.pr i.d) l)
        ∧ (t.thr n k).fpflags = (x.lanes i.pr).foldl (fun g l => g ||| (cmp l).2) x.fpflags)) :)
  ∧ (∀ (f : Fmt) (g : Bool) (y : Fv),
    f.fadd (.nan g) y = (f.qnan, if g || y.isSnan then flInvalid else 0) ∧ f.fadd y (.nan g) = (f.qnan, if g || y.isSnan then flInvalid else 0)
    ∧ f.fmul (.nan g) y = (f.qnan, if g || y.isSnan then flInvalid else 0) ∧ f.fmul y (.nan g) = (f.qnan, if g || y.isSnan then flInvalid else 0)
    ∧ f.fdiv (.nan g) y = (f.qnan, if g || y.isSnan then flInvalid else 0))

/-- R156: a vector integer instruction acts on the enabled lanes; compares write the predicate register D, `select` takes its predicate from
C, and the others write vector D; the lanes that a shift by 32 or more leaves unstated are free (log entries 25 and 26). -/
def Obligations.TeVectorInteger : Prop :=
  ∀ (s : State) (n k : Fin 64) (w : BitVec 64), s.issues n k w → (teWord w).op = 3 →
    let i := teWord w
    let x := s.thr n k
    let a (l : Nat) := BitVec.ofNat 32 (x.lane i.a l)
    let b (l : Nat) := BitVec.ofNat 32 (x.lane i.b l)
    let c (l : Nat) := BitVec.ofNat 32 (x.lane i.c l)
    let on (l : Nat) := bitAt (x.pr i.pr) l
    Runs (.teVectorIntOp n k w) s (fun t => s.onlyIn t { regs := true, te := true, free := true } ∧ s.counted t n ∧ s.thrOnly t n k
      ∧ t.thr n k = { s.past n k w with v := (t.thr n k).v, p := (t.thr n k).p }
      ∧ (∀ r l, r < 32 → l < 32 → r ≠ i.d ∨ on l = false → (t.thr n k).lane r l = x.lane r l)
      ∧ (∀ l, l < 32 → on l = true → i.func ≤ 11 → (7 ≤ i.func → i.func ≤ 9 → x.lane i.b l < 32)
          → (t.thr n k).lane i.d l = (laneSpec i.func (a l) (b l) (c l)).toNat)
      ∧ (∀ l, l < 32 → on l = true → i.func = 14 → (t.thr n k).lane i.d l = if bitAt (x.pr i.c) l then x.lane i.a l else x.lane i.b l)
      ∧ (∀ l, l < 32 → on l = true → i.func = 15 → (t.thr n k).lane i.d l = x.sr i.a % 2 ^ 32)
      ∧ (∀ l, l < 32 → on l = true → i.func = 16 → (t.thr n k).lane i.d l = l)
      ∧ (i.func ≠ 12 → i.func ≠ 13 → (t.thr n k).p = x.p)
      ∧ (i.func = 12 ∨ i.func = 13 → (t.thr n k).v = x.v ∧ (∀ r, r ≠ i.d → (t.thr n k).pr r = x.pr r) ∧ t.free = s.free
          ∧ (i.d ≠ 0 → ∀ l, l < 32 → bitAt ((t.thr n k).pr i.d) l
              = if on l then (if i.func = 12 then (a l).slt (b l) else a l == b l) else bitAt (x.pr i.d) l)))
/-- R127, R158, R619: conversions lane by lane; the reductions' fixed tree over the enabled lanes, and the scan in lane order. With no lane
enabled the spec states no reduction (a free value, log entry 27). Clauses may rest on choices of the model: log entry 27. -/
def Obligations.TeConvertAndReduce : Prop :=
  (∀ (s : State) (n k : Fin 64) (w : BitVec 64), s.issues n k w → (teWord w).op = 4 →
    let i := teWord w
    let x := s.thr n k
    let dst := i.func % 16
    let val (l : Nat) := convertTo dst (decodeCode (i.func / 16) (x.cvtLane (i.func / 16) i.a l)) false
    Runs (.teConvert n k w) s (fun t => s.onlyIn t { regs := true, te := true } ∧ s.counted t n ∧ s.thrOnly t n k
      ∧ t.thr n k = { s.past n k w with v := (t.thr n k).v, fpflags := (t.thr n k).fpflags }
      ∧ (∀ l, l < 32 → bitAt (x.pr i.pr) l = true → (t.thr n k).fpLane dst i.d l = (val l).1 % 2 ^ codeWidth dst)
      ∧ (∀ r l, r < 32 → l < 32 → (r ≠ i.d ∧ (dst = 0 → r ≠ i.d + 1)) ∨ bitAt (x.pr i.pr) l = false → (t.thr n k).lane r l = x.lane r l)
      ∧ (t.thr n k).fpflags = (x.lanes i.pr).foldl (fun g l => g ||| (val l).2) x.fpflags) :)
  ∧ (∀ (s : State) (n k : Fin 64) (w : BitVec 64), s.issues n k w → (teWord w).op = 5 → (teWord w).func ≤ 2 →
    let i := teWord w
    let x := s.thr n k
    let red := treeReduce (redFn i.func) 5 ((List.range 32).map (fun l => if bitAt (x.pr i.pr) l then some (x.lane i.a l) else none))
    Runs (.teReduction n k w) s (fun t =>
      (∀ v, red.1 = some v → s.teDone t n k { (s.past n k w).setS i.d v with fpflags := x.fpflags ||| red.2 })
      ∧ (red.1 = none ↔ ∀ l, l < 32 → bitAt (x.pr i.pr) l = false)
      ∧ (red.1 = none → s.onlyIn t { regs := true, te := true, free := true } ∧ t.free = s.free + 1
          ∧ t.thr n k = (s.past n k w).setS i.d (Config.freeWord s.free).toNat)) :)
  ∧ (∀ (s : State) (n k : Fin 64) (w : BitVec 64), s.issues n k w → (teWord w).op = 5 → (teWord w).func = 3 →
    let i := teWord w
    let x := s.thr n k
    let on (l : Nat) := bitAt (x.pr i.pr) l
    Runs (.teReduction n k w) s (fun t => s.onlyIn t { regs := true, te := true } ∧ s.counted t n ∧ s.thrOnly t n k
      ∧ (t.thr n k).s = x.s ∧ (t.thr n k).p = x.p
      ∧ (∀ r l, r < 32 → l < 32 → r ≠ i.d ∨ on l = false → (t.thr n k).lane r l = x.lane r l)
      ∧ (∀ l, l < 32 → on l = true → (∀ j, j < l → on j = false) → (t.thr n k).lane i.d l = x.lane i.a l)
      ∧ (∀ j l, j < l → l < 32 → on j = true → on l = true → (∀ h, j < h → h < l → on h = false) →
          (t.thr n k).lane i.d l = (redFn 0 ((t.thr n k).lane i.d j) (x.lane i.a l)).1 % 2 ^ 32)) :)
/-! Greedy selection, sampling and random numbers (R167 to R169). -/

/-- R169: greedy selection answers the lowest index of the largest element, a NaN below every number. R169: `argmax` and `sample` read a
vector of 1 to 2^20 FP32 values from the array's store and answer an index in D; a count out of that range has no stated result (a free
value, log entry 28), and a NaN, a negative value or an infinity below zero makes `sample` answer 0 with invalid set. -/
def Obligations.GreedyAndSampling : Prop :=
  (∀ l : List Nat, l ≠ [] →
    let f (j : Nat) := (fmtOf 1).decode (l.getD j 0)
    argmaxOf l < l.length ∧ (∀ j, j < l.length → argLess (f (argmaxOf l)) (f j) = false)
    ∧ ∀ j, j < argmaxOf l → argLess (f j) (f (argmaxOf l)) = true)
  ∧ ((∀ (s : State) (n k : Fin 64) (w : BitVec 64), s.issues n k w → (teWord w).op = 5 → (teWord w).func = 4 →
    let x := s.thr n k
    let off := x.sr (teWord w).a
    let m := x.sr (teWord w).b
    1 ≤ m → m ≤ 2 ^ 20 → s.storeFault n x off (m * 4) 4 = none → s.plain (storeBase n + off) (4 * m) →
    Runs (.argmax n k w) s (fun t => s.teDone t n k ((s.past n k w).setS (teWord w).d
      (argmaxOf ((List.range m).map (fun j => s.readLE (storeBase n + off + 4 * j) 4))))) :)
  ∧ (∀ (s : State) (n k : Fin 64) (w : BitVec 64), s.issues n k w → (teWord w).op = 5 → (teWord w).func = 5 →
    let x := s.thr n k
    let off := x.sr (teWord w).a
    let m := x.sr (teWord w).b
    1 ≤ m → m ≤ 2 ^ 20 → s.storeFault n x off (m * 4) 4 = none → s.plain (storeBase n + off) (4 * m) →
    let r := sampleOf ((List.range m).map (fun j => s.readLE (storeBase n + off + 4 * j) 4)) (x.sr (teWord w).c % 2 ^ 32)
    Runs (.sample n k w) s (fun t => s.teDone t n k { (s.past n k w).setS (teWord w).d r.1 with fpflags := x.fpflags ||| r.2 }) :)
  ∧ (∀ (s : State) (n k : Fin 64) (w : BitVec 64), s.issues n k w → (teWord w).op = 5 → (teWord w).func = 4 →
    ¬(1 ≤ (s.thr n k).sr (teWord w).b ∧ (s.thr n k).sr (teWord w).b ≤ 2 ^ 20) →
    Runs (.argmax n k w) s (fun t => s.onlyIn t { regs := true, te := true, free := true } ∧ s.thrOnly t n k
      ∧ t.thr n k = (s.past n k w).setS (teWord w).d (Config.freeWord s.free).toNat) :)
  ∧ (∀ (l : List Nat) (u : Nat), (∃ v ∈ l, (match (fmtOf 1).decode v with
      | .nan _ => true
      | .inf neg => neg
      | .fin neg m _ => neg && m ≠ 0) = true) → sampleOf l u = (0, flInvalid)))

/-- R167, R168: the random instructions write the words of the counter-based generator's call, or the uniforms that they give. R129, R131,
R133, R172: the exact functions: AP128 addition is exact or SAT, the seven digits of a split write their value, and the bound of a magnitude
is the smallest. Clauses may rest on choices of the model: log entry 21. -/
def Obligations.RandomAndExactFunctions : Prop :=
  ((∀ (s : State) (n k : Fin 64) (w : BitVec 64), s.issues n k w → (teWord w).op = 16 → (teWord w).func = 0 →
    let o := (s.thr n k).rng (teWord w) 0
    Runs (.rngS n k w) s (fun t => s.teDone t n k (((s.past n k w).setS (teWord w).d (o.getD 0 0 + 2 ^ 32 * o.getD 1 0)).setS
      ((teWord w).d + 1) (o.getD 2 0 + 2 ^ 32 * o.getD 3 0))) :)
  ∧ (∀ (s : State) (n k : Fin 64) (w : BitVec 64), s.issues n k w → (teWord w).op = 16 → (teWord w).func = 1 →
    let i := teWord w
    let x := s.thr n k
    Runs (.rngV n k w) s (fun t => s.onlyIn t { regs := true, te := true } ∧ s.counted t n ∧ s.thrOnly t n k
      ∧ t.thr n k = { s.past n k w with v := (t.thr n k).v }
      ∧ (∀ l j, l < 32 → j < 4 → bitAt (x.pr i.pr) l = true → (t.thr n k).lane (i.d + j) l = (x.rng i l).getD j 0 % 2 ^ 32)
      ∧ (∀ r l, r < 32 → l < 32 → r < i.d ∨ i.d + 4 ≤ r ∨ bitAt (x.pr i.pr) l = false → (t.thr n k).lane r l = x.lane r l)) :)
  ∧ (∀ (s : State) (n k : Fin 64) (w : BitVec 64), s.issues n k w → (teWord w).op = 16 → (teWord w).func = 2 →
    let i := teWord w
    let x := s.thr n k
    Runs (.rngU24 n k w) s (fun t => s.onlyIn t { regs := true, te := true } ∧ s.counted t n ∧ s.thrOnly t n k
      ∧ t.thr n k = { s.past n k w with v := (t.thr n k).v }
      ∧ (∀ l j, l < 32 → j < 4 → bitAt (x.pr i.pr) l = true →
          (t.thr n k).lane (i.d + j) l = ((fmtOf 1).round false ((x.rng i l).getD j 0 / 2 ^ 8) (-24) false).1 % 2 ^ 32)
      ∧ (∀ r l, r < 32 → l < 32 → r < i.d ∨ i.d + 4 ≤ r ∨ bitAt (x.pr i.pr) l = false → (t.thr n k).lane r l = x.lane r l)) :)
  ∧ (∀ (s : State) (n k : Fin 64) (w : BitVec 64), s.issues n k w → (teWord w).op = 16 → (teWord w).func = 3 →
    let i := teWord w
    let x := s.thr n k
    Runs (.rngU53 n k w) s (fun t => s.onlyIn t { regs := true, te := true } ∧ s.counted t n ∧ s.thrOnly t n k
      ∧ t.thr n k = { s.past n k w with v := (t.thr n k).v }
      ∧ (∀ l, l < 32 → bitAt (x.pr i.pr) l = true →
          (t.thr n k).pair i.d l = ((fmtOf 0).round false (((x.rng i l).getD 0 0 + 2 ^ 32 * (x.rng i l).getD 1 0) / 2 ^ 11) (-53) false).1 % 2 ^ 64)
      ∧ (∀ r l, r < 32 → l < 32 → r < i.d ∨ i.d + 2 ≤ r ∨ bitAt (x.pr i.pr) l = false → (t.thr n k).lane r l = x.lane r l)) :))
  ∧ ((∀ a b : Nat, a < 2 ^ 128 → b < 2 ^ 128 → a ≠ sat128 → b ≠ sat128 →
    ((toSigned 128 a + toSigned 128 b).natAbs < 2 ^ 127 →
      (apAdd a b).2 = false ∧ (apAdd a b).1 ≠ sat128 ∧ toSigned 128 (apAdd a b).1 = toSigned 128 a + toSigned 128 b)
    ∧ (2 ^ 127 ≤ (toSigned 128 a + toSigned 128 b).natAbs → apAdd a b = (sat128, true)))
  ∧ (∀ a : Nat, apAdd a sat128 = (sat128, false) ∧ apAdd sat128 a = (sat128, false))
  ∧ (∀ (x : Int) (l : List Int), splitDigits 7 x [] = some l →
    l.length = 7 ∧ l.foldl (fun a d => 256 * a + d) 0 = x ∧ ∀ d ∈ l, -128 ≤ d ∧ d ≤ 127)
  ∧ (∀ (m : Nat) (x e : Int), boundExp m x = some e → 0 < m ∧ m < 2 ^ (e - x).toNat ∧ 2 ^ ((e - x).toNat - 1) ≤ m))
/-! Exact arithmetic in the array's store (R125, R128, R129, R131 to R133, R171 to R175). -/

/-- R129, R175: the AP128 instructions over n values: sums with the count of SAT results in D, values on a raised anchor, conversions; they
write their destination region and nothing else. A rescale amount above 127 has no stated result (free bytes, log entry 28). Clauses may
rest on choices of the model: log entries 21 and 28. -/
def Obligations.ApInstructions : Prop :=
  (∀ (s : State) (n k : Fin 64) (w : BitVec 64), s.issues n k w → (teWord w).op = 6 → (teWord w).num = 0 →
    let x := s.thr n k
    let m := (teWord w).imm.toNat
    let A := storeBase n + x.sr (teWord w).a
    let B := storeBase n + x.sr (teWord w).b
    let C := storeBase n + x.sr (teWord w).c
    let sum (j : Nat) := apAdd (s.readLE (A + 16 * j) 16) (s.readLE (B + 16 * j) 16)
    s.apFault n k m [(x.sr (teWord w).a, 16, 16), (x.sr (teWord w).b, 16, 16), (x.sr (teWord w).c, 16, 16)] = none
      → s.plain A (16 * m) → s.plain B (16 * m) → s.writable C (16 * m) →
    Runs (.apadd n k w) s (fun t => s.onlyIn t { regs := true, te := true, mem := true, flt := true } ∧ s.counted t n ∧ s.thrOnly t n k
      ∧ (∀ j, j < m → t.readLE (C + 16 * j) 16 = (sum j).1 % 2 ^ 128) ∧ s.memBut t C (16 * m)
      ∧ t.thr n k = (s.past n k w).setS (teWord w).d (((List.range m).filter (fun j => (sum j).1 == sat128)).length)
      ∧ ((∃ j, j < m ∧ (sum j).2 = true) → s.sends t (srcTe (s.physFor n)) 0x03 0 0)
      ∧ ((∀ j, j < m → (sum j).2 = false) → t.flt = s.flt)) :)
  ∧ (∀ (s : State) (n k : Fin 64) (w : BitVec 64), s.issues n k w → (teWord w).op = 6 → (teWord w).num = 1 →
    let x := s.thr n k
    let m := (teWord w).imm.toNat
    let A := storeBase n + x.sr (teWord w).a
    let C := storeBase n + x.sr (teWord w).c
    s.apFault n k m [(x.sr (teWord w).a, 16, 16), (x.sr (teWord w).c, 16, 16)] = none → s.plain A (16 * m) → s.writable C (16 * m) →
    Runs (.aprescale n k w) s (fun t => s.onlyIn t { regs := true, te := true, mem := true, free := true } ∧ s.counted t n
      ∧ s.thrOnly t n k ∧ t.thr n k = s.past n k w ∧ s.memBut t C (16 * m)
      ∧ (x.sr (teWord w).b ≤ 127 → t.free = s.free
          ∧ ∀ j, j < m → t.readLE (C + 16 * j) 16 = apRescale (x.sr (teWord w).b) (s.readLE (A + 16 * j) 16) % 2 ^ 128)
      ∧ (127 < x.sr (teWord w).b → ∀ j, j < 16 * m → t.readByte (C + j) = Config.freeByte (s.free + j))) :)
  ∧ (∀ (s : State) (n k : Fin 64) (w : BitVec 64), s.issues n k w → (teWord w).op = 6 → (teWord w).num = 2 →
    let i := teWord w
    let x := s.thr n k
    let m := i.imm.toNat
    let A := storeBase n + x.sr i.a
    let C := storeBase n + x.sr i.c
    let ob := codeWidth (i.func % 16) / 8
    let val (j : Nat) := apConvert (bitAt i.func 4) (toSigned 16 (x.sr i.b)) (i.func % 16) (s.readLE (A + i.apSrc * j) i.apSrc)
    s.apFault n k m [(x.sr i.a, i.apSrc, if bitAt i.func 4 then 2 else 16), (x.sr i.c, ob, ob)] = none
      → s.plain A (i.apSrc * m) → s.writable C (ob * m) →
    Runs (.apcvt n k w) s (fun t => s.onlyIn t { regs := true, te := true, mem := true } ∧ s.counted t n ∧ s.thrOnly t n k
      ∧ s.memBut t C (ob * m) ∧ (∀ j, j < m → t.readLE (C + ob * j) ob = (val j).1 % 2 ^ (8 * ob))
      ∧ t.thr n k = { s.past n k w with fpflags := (List.range m).foldl (fun g j => g ||| (val j).2) x.fpflags }) :)
/-- R131, R133, R173, R174: the split writes digit j of lane l at A + j × IMM + l, and the recombination puts the rounded value of the seven
diagonal sums into the FP64 pair. R125, R172: the pre-scan answers the smallest bound of its elements' magnitudes, or the anchor of R125
from it, saturated to 16 bits; a NaN, an infinity or a scale 0xFF makes the bound 32,767 and sets invalid; a count outside 1 to 2^20 has no
stated result (a free value, log entry 28). Clauses may rest on choices of the model: log entries 20 and 21. -/
def Obligations.SliceAndPreScan : Prop :=
  ((∀ (s : State) (n k : Fin 64) (w : BitVec 64), s.issues n k w → (teWord w).op = 7 → (teWord w).num = 0 →
    let i := teWord w
    let x := s.thr n k
    let at' (j l : Nat) := storeBase n + splitAddr x i j l
    s.splitFault n k i = none → (∀ j l, j < 7 → l ∈ x.lanes i.pr → s.writable (at' j l) 1)
      → (∀ j l j' l', j < 7 → j' < 7 → l ∈ x.lanes i.pr → l' ∈ x.lanes i.pr → at' j l = at' j' l' → j = j' ∧ l = l') →
    Runs (.s64split n k w) s (fun t => s.onlyIn t { regs := true, te := true, mem := true } ∧ s.counted t n ∧ s.thrOnly t n k
      ∧ t.thr n k = { s.past n k w with fpflags := (t.thr n k).fpflags }
      ∧ (∀ j l, j < 7 → l ∈ x.lanes i.pr → t.readByte (at' j l) = BitVec.ofInt 8 ((split64 (x.pair i.b l) (x.splitE i l)).1.getD j 0))
      ∧ (∀ a, (∀ j l, j < 7 → l ∈ x.lanes i.pr → a ≠ at' j l) → t.readByte a = s.readByte a)
      ∧ ((∀ l ∈ x.lanes i.pr, (split64 (x.pair i.b l) (x.splitE i l)).2 = false) → (t.thr n k).fpflags = x.fpflags)
      ∧ ((∃ l ∈ x.lanes i.pr, (split64 (x.pair i.b l) (x.splitE i l)).2 = true) → (t.thr n k).fpflags = x.fpflags ||| flInvalid)) :)
  ∧ (∀ (s : State) (n k : Fin 64) (w : BitVec 64), s.issues n k w → (teWord w).op = 7 → (teWord w).num = 1 →
    let i := teWord w
    let x := s.thr n k
    let at' (d l : Nat) := storeBase n + combAddr x i d l
    let val (l : Nat) := comb64 ((List.range 7).map (fun d => s.readLE (at' d l) 16)) (toSigned 64 (x.sr i.b)) (toSigned 32 (x.lane i.c l))
    s.combFault n k i = none → (∀ d l, d < 7 → l ∈ x.lanes i.pr → s.plain (at' d l) 16) →
    Runs (.s64comb n k w) s (fun t => s.onlyIn t { regs := true, te := true } ∧ s.counted t n ∧ s.thrOnly t n k
      ∧ t.thr n k = { s.past n k w with v := (t.thr n k).v, fpflags := (t.thr n k).fpflags }
      ∧ (∀ l ∈ x.lanes i.pr, (t.thr n k).pair i.d l = (val l).1 % 2 ^ 64)
      ∧ (∀ r l, r < 32 → l < 32 → (r ≠ i.d ∧ r ≠ i.d + 1) ∨ bitAt (x.pr i.pr) l = false → (t.thr n k).lane r l = x.lane r l)
      ∧ (t.thr n k).fpflags = (x.lanes i.pr).foldl (fun g l => g ||| (val l).2) x.fpflags) :))
  ∧ (∀ (s : State) (n k : Fin 64) (w : BitVec 64), s.issues n k w → (teWord w).op = 15 →
    let i := teWord w
    let x := s.thr n k
    let m := x.sr i.b
    let c := i.func % 16
    let A := storeBase n + x.sr i.a
    let S := storeBase n + ofSigned 64 (i.imm * 64)
    let v := s.readLE A (scanBytes c m)
    let scale (j : Nat) : Option Int := if bitAt i.func 4 then scaleVal (s.readByte (S + j / 32)).toNat else some 0
    let bound := scanBound c ((List.range m).map (fun j => v / 2 ^ (scanBits c * j) % 2 ^ scanBits c)) scale
    1 ≤ m → m ≤ 2 ^ 20 → s.pscanFault n k i = none → s.plain A (scanBytes c m) → (bitAt i.func 4 = true → s.plain S (ceilDiv m 32)) →
    let e := bound.getD 32767
    let r := if bitAt i.func 5 then e + toSigned 16 (x.sr i.c) + ceilLog2 (bits (x.sr i.c) 47 16) - 35 else e
    Runs (.pscan n k w) s (fun t => s.teDone t n k { (s.past n k w).setS i.d (BitVec.ofInt 64 (max (-32768) (min 32767 r))).toNat with
      fpflags := if bound = none then x.fpflags ||| flInvalid else x.fpflags }) :)
  ∧ (∀ (s : State) (n k : Fin 64) (w : BitVec 64), s.issues n k w → (teWord w).op = 15 →
    ¬(1 ≤ (s.thr n k).sr (teWord w).b ∧ (s.thr n k).sr (teWord w).b ≤ 2 ^ 20) →
    Runs (.pscan n k w) s (fun t => s.onlyIn t { regs := true, te := true, free := true } ∧ s.counted t n ∧ s.thrOnly t n k
      ∧ t.thr n k = (s.past n k w).setS (teWord w).d (Config.freeWord s.free).toNat) :)

/-- R170, R171, R176: a tree walk does IMM + 1 steps: in each, a lane at a leaf stays, and so does one at a node with reserved bits, which
sets invalid; another goes to the child that its feature chooses. An expired wait leaves the step it reached and sets its TSTAT bit. An
address out of reach is a fault at the instruction's PC, with no register changed. `twleaf` reads the values of the leaves; a node that is
none gives the canonical NaN and sets invalid. Clauses may rest on choices of the model: log entries 21 and 29. -/
def Obligations.TreeWalk : Prop :=
  (∀ (s : State) (n k : Fin 64) (w : BitVec 64) (tmo : Option (Fin 16 × BitVec 32)), s.issues n k w → (teWord w).op = 14 → (teWord w).func = 0 →
    let i := teWord w
    let x := s.thr n k
    let steps := (i.imm % 16).toNat + 1
    let table := x.sr i.a
    let feat (l m : Nat) := (x.sr i.b + (if i.c = i.d then m else x.lane i.c l)) % 2 ^ 64
    let node (l j : Nat) := s.nodeAfter n table (feat l) (x.lane i.d l) j
    let count (l : Nat) := match tmo with
      | none => steps
      | some (j, m) => if bitAt m.toNat l then j.val + 1 else j.val
    (∀ j m, tmo = some (j, m) → j.val < steps) →
    ((∀ l j, l ∈ x.lanes i.pr → j < count l → s.nodeFine n x table (feat l (node l j)) (node l j)) →
      Runs (.twalk n k w tmo) s (fun t => s.onlyIn t { regs := true, te := true } ∧ s.thrOnly t n k
        ∧ t.thr n k = { s.past n k w with
            v := (t.thr n k).v, fpflags := (t.thr n k).fpflags, tstat := if tmo = none then x.tstat else x.tstat ||| 4 }
        ∧ (∀ l ∈ x.lanes i.pr, (t.thr n k).lane i.d l = node l (count l))
        ∧ (∀ r l, r < 32 → l < 32 → r ≠ i.d ∨ bitAt (x.pr i.pr) l = false → (t.thr n k).lane r l = x.lane r l)
        ∧ ((∃ l j, l ∈ x.lanes i.pr ∧ j ≤ count l ∧ 0 < count l ∧ s.nodeRsv (teAddr table (16 * (node l j : Int))) = true
              ∧ s.memFault x 0x09 false (teAddr table (16 * (node l j : Int))) 16 16 = none) →
            (t.thr n k).fpflags = x.fpflags ||| flInvalid)
        ∧ ((∀ l j, l ∈ x.lanes i.pr → j ≤ count l → s.nodeRsv (teAddr table (16 * (node l j : Int))) = false) →
            (t.thr n k).fpflags = x.fpflags)
        ∧ (tmo = none → s.counted t n)
        ∧ (tmo ≠ none → t.get (f_TE_STATUS_WAIT_TMO n) = 1 ∧ t.reg (r_TE_TMO_CNT n) = BitVec.ofNat 32 (min ((s.reg (r_TE_TMO_CNT n)).toNat + 1) (2 ^ 32 - 1)))))
    ∧ (∀ l j kd ad, tmo = none → l ∈ x.lanes i.pr → j < steps →
        (∀ l' j', l' ∈ x.lanes i.pr → j' < j ∨ (j' = j ∧ l' < l) → s.nodeFine n x table (feat l' (node l' j')) (node l' j')) →
        s.nodeFault n x table (feat l (node l j)) (node l j) = some (kd, ad) →
      Runs (.twalk n k w tmo) s (fun t => (t.thr n k).st = .faulted ∧ (t.thr n k).kind = kd ∧ (t.thr n k).pc = x.pc % 2 ^ 48
        ∧ (t.thr n k).v = x.v ∧ t.get (f_TE_STATUS_FAULT n) = 1 ∧ s.msg (srcTe (s.physFor n)) kd ad k ∈ t.flt.inbox ∧ t.mem = s.mem)) :)
  ∧ (∀ (s : State) (n k : Fin 64) (w : BitVec 64), s.issues n k w → (teWord w).op = 14 → (teWord w).func = 1 →
    let i := teWord w
    let x := s.thr n k
    let at' (l : Nat) := teAddr (x.sr i.b) (16 * (x.lane i.a l : Int))
    let leaf (l : Nat) : Bool := bitAt (s.readByte (at' l + 6)).toNat 0
    s.leafFault n k i = none → (∀ l ∈ x.lanes i.pr, s.plain (at' l) 16) →
    Runs (.twleaf n k w) s (fun t => s.onlyIn t { regs := true, te := true } ∧ s.counted t n ∧ s.thrOnly t n k
      ∧ t.thr n k = { s.past n k w with v := (t.thr n k).v, fpflags := (t.thr n k).fpflags }
      ∧ (∀ l ∈ x.lanes i.pr, (t.thr n k).lane i.d l = if leaf l then s.readLE (at' l) 4 else 0x7FC00000)
      ∧ (∀ r l, r < 32 → l < 32 → r ≠ i.d ∨ bitAt (x.pr i.pr) l = false → (t.thr n k).lane r l = x.lane r l)
      ∧ ((∃ l ∈ x.lanes i.pr, leaf l = false) → (t.thr n k).fpflags = x.fpflags ||| flInvalid)
      ∧ ((∀ l ∈ x.lanes i.pr, leaf l = true) → (t.thr n k).fpflags = x.fpflags)) :)
/-! Memory accesses of threads (R159, R160, R177, R200, R331 to R340). -/

/-- R159, R160: a load puts each element's little-endian value into its register, a store puts the register's bytes at the element's
address, and neither changes anything else in memory; a store's elements that no other element overlaps hold their own value. An access to
ring memory reads or writes the DMA rings. R151, R177, R178: a faulting access leaves the thread FAULTED at its own instruction, with the
kind of the first check it fails, and stops its job. R185: a load that meets an uncorrectable error reads zeros and stops the job. R159: a
local atomic reads its word and writes the new value in one step; D takes the old value, but for `add`. R481: an access to a region that a
spill has yet to save stalls. Clauses may rest on choices of the model: log entries 22 and 54. -/
def Obligations.TeMemoryAccess : Prop :=
  (((∀ (s : State) (n k : Fin 64) (w : BitVec 64), s.issues n k w → (teWord w).isAccess 0 = true → s.accessStalls n k (teWord w) = false →
    let i := teWord w
    let x := s.thr n k
    let at' (a : Nat) := elemAddr n i.op i.accBit a
    s.accessFault n k false i = none → (∀ e ∈ x.elems i, i.inRing e.2.1 = false ∧ s.plain (at' e.2.1) e.2.2) →
    Runs (.teLoad n k w) s (fun t => s.onlyIn t { regs := true, te := true, acct := true } ∧ s.counted t n ∧ s.thrOnly t n k
      ∧ t.thr n k = { s.past n k w with v := (t.thr n k).v, s := (t.thr n k).s }
      ∧ (i.op = 8 → t.acct = s.acct)
      ∧ (∀ r, r ≠ i.d ∨ 4 ≤ i.size → (t.thr n k).sr r = x.sr r)
      ∧ (∀ e ∈ x.elems i, e.1 = 32 → i.d ≠ 0 → (t.thr n k).sr i.d = s.readLE (at' e.2.1) e.2.2)
      ∧ (∀ e ∈ x.elems i, e.1 < 32 → i.size ≠ 6 → (t.thr n k).lane i.d e.1 = s.readLE (at' e.2.1) 4)
      ∧ (∀ e ∈ x.elems i, e.1 < 32 → i.size = 6 → (t.thr n k).pair i.d e.1 = s.readLE (at' e.2.1) 8)
      ∧ (∀ r l, r < 32 → l < 32 → (r ≠ i.d ∧ (i.size = 6 → r ≠ i.d + 1)) ∨ (∀ e ∈ x.elems i, e.1 ≠ l) → (t.thr n k).lane r l = x.lane r l)) :)
  ∧ (∀ (s : State) (n k : Fin 64) (w : BitVec 64), s.issues n k w → (teWord w).isAccess 0 = true → s.accessStalls n k (teWord w) = false →
    let i := teWord w
    let x := s.thr n k
    s.accessFault n k false i = none → i.size ≤ 3 → (∀ e ∈ x.elems i, i.inRing e.2.1 = true) →
    Runs (.teLoad n k w) s (fun t => ∀ e ∈ x.elems i, s.teDone t n k ((s.past n k w).setS i.d (s.ringRead n (e.2.1 - 0x400000) e.2.2))) :)
  ∧ (∀ (s : State) (n k : Fin 64) (w : BitVec 64), s.issues n k w → (teWord w).isAccess 1 = true → s.accessStalls n k (teWord w) = false →
    let i := teWord w
    let x := s.thr n k
    let at' (a : Nat) := elemAddr n i.op false a
    let val (l : Nat) := if l = 32 then x.sr i.b else if i.size = 6 then x.pair i.b l else x.lane i.b l
    s.accessFault n k true i = none → (∀ e ∈ x.elems i, i.inRing e.2.1 = false ∧ s.writable (at' e.2.1) e.2.2) →
    Runs (.teStore n k w) s (fun t => s.onlyIn t { regs := true, te := true, mem := true, acct := true } ∧ s.counted t n ∧ s.thrOnly t n k
      ∧ t.thr n k = s.past n k w ∧ (i.op = 8 → t.acct = s.acct)
      ∧ (∀ e ∈ x.elems i, (∀ f ∈ x.elems i, f = e ∨ at' f.2.1 + f.2.2 ≤ at' e.2.1 ∨ at' e.2.1 + e.2.2 ≤ at' f.2.1) →
          t.readLE (at' e.2.1) e.2.2 = val e.1 % 2 ^ (8 * e.2.2))
      ∧ (∀ a, (∀ e ∈ x.elems i, a < at' e.2.1 ∨ at' e.2.1 + e.2.2 ≤ a) → t.readByte a = s.readByte a)) :)
  ∧ (∀ (s : State) (n k : Fin 64) (w : BitVec 64), s.issues n k w → (teWord w).isAccess 1 = true → s.accessStalls n k (teWord w) = false →
    let i := teWord w
    let x := s.thr n k
    s.accessFault n k true i = none → i.size ≤ 3 → (∀ e ∈ x.elems i, i.inRing e.2.1 = true ∧ e.2.1 % 64 ≠ 0) →
    Runs (.teStore n k w) s (fun t => s.onlyIn t { regs := true, te := true, ms := true } ∧ t.thr n k = s.past n k w
      ∧ ∀ e ∈ x.elems i, t.ringRead n (e.2.1 - 0x400000) e.2.2 = x.sr i.b % 2 ^ (8 * e.2.2)) :)
  ∧ (∀ (s : State) (n k : Fin 64) (w : BitVec 64) (c slot : Fin 16), s.issues n k w → (teWord w).isAccess 1 = true
      → s.accessStalls n k (teWord w) = false →
    let i := teWord w
    let x := s.thr n k
    s.accessFault n k true i = none → i.op = 8 → i.size = 2 → i.accBit = false → teAddr (x.sr i.a) i.imm = 0x400000 + c.val * 0x400 + slot.val * 64
      → bitAt (x.sr i.b) 0 = true → (s.dmaCh n c).slot = slot → (s.dmaCh n c).busy = false → (s.dmaCh n c).job.isSome ∨ (s.dmaCh n c).radio = true →
    Runs (.teStore n k w) s (fun t => s.onlyIn t { regs := true, te := true, ms := true } ∧ t.thr n k = s.past n k w
      ∧ (t.dmaCh n c).busy = true ∧ (t.dmaCh n c).desc = t.dmaDesc n c slot ∧ t.ringRead n (c.val * 0x400 + slot.val * 64) 4 = x.sr i.b % 2 ^ 32) :))
  ∧ ((∀ (s : State) (n k : Fin 64) (w : BitVec 64) (kind a : Nat), s.issues n k w →
      ((teWord w).isAccess 0 = true → s.accessStalls n k (teWord w) = false →
          s.accessFault n k false (teWord w) = some (kind, a) → Runs (.teLoad n k w) s (fun t => s.faulted t n k kind a))
      ∧ ((teWord w).isAccess 1 = true → s.accessStalls n k (teWord w) = false →
          s.accessFault n k true (teWord w) = some (kind, a) → Runs (.teStore n k w) s (fun t => s.faulted t n k kind a))
      ∧ ((teWord w).isAccess 2 = true → s.atomicFault n k (teWord w) = some (kind, a) → Runs (.teAtomic n k w) s (fun t => s.faulted t n k kind a)) :)
  ∧ (∀ (s : State) (n k : Fin 64) (w : BitVec 64), s.issues n k w → s.accessStalls n k (teWord w) = true →
      ((teWord w).isAccess 0 = true → exec (.teLoad n k w) s = .next s) ∧ ((teWord w).isAccess 1 = true → exec (.teStore n k w) s = .next s) :)
  ∧ (∀ (s : State) (n k : Fin 64) (w : BitVec 64) (a len : Nat), s.issues n k w → (teWord w).isAccess 0 = true → s.accessStalls n k (teWord w) = false →
    let i := teWord w
    let x := s.thr n k
    let b := elemAddr n i.op i.accBit a
    s.accessFault n k false i = none → x.elems i = [(32, a, len)] → i.inRing a = false → s.region b ≠ .reserved → s.region b ≠ .regSpace
      → s.region (b + len - 1) = s.region b → touched s.ms.corr b len = [] → touched s.ms.uncorr b len ≠ [] →
    Runs (.teLoad n k w) s (fun t => (t.thr n k).st = .faulted ∧ (t.thr n k).kind = 0x29 ∧ (t.thr n k).pc = x.pc ∧ t.mem = s.mem
      ∧ (i.d ≠ 0 → (t.thr n k).sr i.d = 0) ∧ t.get f_MEM_STATUS_UNCORR = 1 ∧ t.get (f_TE_STATUS_FAULT n) = 1
      ∧ ∀ m j, thrKey m j ≠ thrKey n k → x.radio = false → (s.thr m j).stops x.job = true → (t.thr m j).st = .faulted) :)
  ∧ (∀ (s : State) (n : Nat) (x : Thr) (off len al : Nat), off % al ≠ 0 → s.storeFault n x off len al = some (0x12, storeBase n + off) :)
  ∧ (∀ (s : State) (n : Nat) (x : Thr) (off len : Nat) (al : Nat), off % al = 0 →
      (s.storeFault n x off len al = none ↔ if x.radio then off + len ≤ s.radioStore n else s.radioStore n ≤ off ∧ off + len ≤ 0x400000) :)
  ∧ (∀ (s : State) (x : Thr) (cls a len al : Nat) (write : Bool), a % al = 0 → s.region a = .reserved →
      s.memFault x cls write a len al = some (0x16, a) :)))
  ∧ (∀ (s : State) (n k : Fin 64) (w : BitVec 64), s.issues n k w → (teWord w).isAccess 2 = true →
    let i := teWord w
    let x := s.thr n k
    let a := teAddr (x.sr i.a) i.imm
    let b := 8 * i.atomBytes
    s.atomicFault n k i = none → s.writable a i.atomBytes → i.atomOp ≤ 5 →
    Runs (.teAtomic n k w) s (fun t => s.onlyIn t { regs := true, te := true, mem := true } ∧ s.counted t n ∧ s.thrOnly t n k
      ∧ t.readLE a i.atomBytes = (atomicSpec i.atomOp i.atomSigned (BitVec.ofNat b (s.readLE a i.atomBytes)) (BitVec.ofNat b (x.sr i.b))
          (BitVec.ofNat b (x.sr i.c))).toNat
      ∧ s.memBut t a i.atomBytes
      ∧ t.thr n k = (if i.atomOp = 0 then s.past n k w else (s.past n k w).setS i.d (s.readLE a i.atomBytes))))

/-- R33, R34, R162, R331 to R340: a remote access: rejected when its address is not one that a request reaches, denied by the reach table
with a fault, applied at once on this chip, or sent to another chip as an ordered request, whose tag the thread waits for. An engine that
holds 512 requests holds the access. Clauses may rest on choices of the model: log entries 54 and 65. -/
def Obligations.TeRemoteAccess : Prop :=
  (∀ (s : State) (n k : Fin 64) (w : BitVec 64), s.live = true → 512 < s.engineOut n + ((s.thr n k).rmtElems (teWord w)).length →
    exec (.teRemoteAccess n k w) s = .next s :)
  ∧ (∀ (s : State) (n k : Fin 64) (w : BitVec 64) (kind a : Nat), s.issues n k w → (teWord w).op = 11
      → s.engineOut n + ((s.thr n k).rmtElems (teWord w)).length ≤ 512 → s.rmtFault n k (teWord w) = some (kind, a) →
    Runs (.teRemoteAccess n k w) s (fun t => s.faulted t n k kind a) :)
  ∧ (∀ (s : State) (n k : Fin 64) (w : BitVec 64) (a len : Nat), s.issues n k w → (teWord w).op = 11 → s.engineOut n + 1 ≤ 512
      → (s.thr n k).why = .none → (teWord w).func % 4 = 0 → (s.thr n k).rmtElems (teWord w) = [(32, a, len)] → s.rmtFault n k (teWord w) = none
      → s.badReq n k (teWord w) a len = true → 65536 ∉ (s.thr n k).rmtOut →
    Runs (.teRemoteAccess n k w) s (fun t => s.onlyIn t { regs := true, te := true } ∧ s.thrOnly t n k
      ∧ t.thr n k = { (s.past n k w).setS (teWord w).d 0 with tstat := (s.thr n k).tstat ||| 1 } ∧ t.get (f_TE_STATUS_REMOTE_ERR n) = 1) :)
  ∧ (∀ (s : State) (n k : Fin 64) (w : BitVec 64) (a len : Nat), s.issues n k w → (teWord w).op = 11 → s.engineOut n + 1 ≤ 512
      → (s.thr n k).rmtElems (teWord w) = [(32, a, len)] → s.rmtFault n k (teWord w) = none → badGlobal a = false
      → s.reachOk (s.thr n k).slot 0 (teWord w).perm (s.globalChip a) (a % 2 ^ 48) len = false →
    Runs (.teRemoteAccess n k w) s (fun t => (t.thr n k).st = .faulted ∧ (t.thr n k).kind = 0x14 ∧ (t.thr n k).pc = (s.thr n k).pc % 2 ^ 48
      ∧ t.mem = s.mem ∧ t.net.reqs = s.net.reqs ∧ t.get f_AVL_RMT_STATUS_REACH_DENY = 1
      ∧ t.get f_AVL_REACH_DENY_CNT_COUNT = min (s.get f_AVL_REACH_DENY_CNT_COUNT + 1) (2 ^ 32 - 1)
      ∧ s.msg (srcTe (s.physFor n)) 0x14 (a % 2 ^ 48) k ∈ t.flt.inbox) :)
  ∧ (∀ (s : State) (n k : Fin 64) (w : BitVec 64), s.remoteIssues n k w → (s.thr n k).why = .none → (teWord w).func % 4 = 0
      → 65536 ∉ (s.thr n k).rmtOut →
    let i := teWord w
    let x := s.thr n k
    (∀ e ∈ x.rmtElems i, s.globalChip e.2.1 = s.chipId ∧ s.plain (e.2.1 % 2 ^ 48) e.2.2) →
    Runs (.teRemoteAccess n k w) s (fun t => s.onlyIn t { regs := true, te := true } ∧ s.counted t n ∧ s.thrOnly t n k
      ∧ t.thr n k = { s.past n k w with v := (t.thr n k).v, s := (t.thr n k).s }
      ∧ (∀ e ∈ x.rmtElems i, e.1 = 32 → t.thr n k = (s.past n k w).setS i.d (s.readLE (e.2.1 % 2 ^ 48) e.2.2))
      ∧ (∀ e ∈ x.rmtElems i, e.1 < 32 → i.size ≠ 6 → (t.thr n k).lane i.d e.1 = s.readLE (e.2.1 % 2 ^ 48) 4)
      ∧ (∀ e ∈ x.rmtElems i, e.1 < 32 → i.size = 6 → (t.thr n k).pair i.d e.1 = s.readLE (e.2.1 % 2 ^ 48) 8)
      ∧ (∀ e ∈ x.rmtElems i, e.1 = 33 → ∀ l, l < 32 → (t.thr n k).lane i.d l = s.readLE (e.2.1 % 2 ^ 48 + 4 * l) 4)
      ∧ (∀ r l, r < 32 → l < 32 → (r ≠ i.d ∧ (i.size = 6 → r ≠ i.d + 1)) ∨ (∀ e ∈ x.rmtElems i, e.1 ≠ l ∧ e.1 ≠ 33) →
          (t.thr n k).lane r l = x.lane r l)) :)
  ∧ (∀ (s : State) (n k : Fin 64) (w : BitVec 64) (a len : Nat), s.remoteIssues n k w → (s.thr n k).why = .none
      → 65536 ∉ (s.thr n k).rmtOut → (s.thr n k).rmtElems (teWord w) = [(32, a, len)] → s.globalChip a = s.chipId → s.writable (a % 2 ^ 48) len →
    let i := teWord w
    let x := s.thr n k
    let b := 8 * len
    let old := s.readLE (a % 2 ^ 48) len
    (i.func % 4 = 1 → Runs (.teRemoteAccess n k w) s (fun t => s.onlyIn t { regs := true, te := true, mem := true } ∧ s.counted t n
      ∧ s.thrOnly t n k ∧ t.thr n k = s.past n k w ∧ t.readLE (a % 2 ^ 48) len = x.sr i.b % 2 ^ b ∧ s.memBut t (a % 2 ^ 48) len))
    ∧ (i.func % 4 = 2 → i.atomOp ≤ 5 → Runs (.teRemoteAccess n k w) s (fun t => s.onlyIn t { regs := true, te := true, mem := true }
      ∧ s.counted t n ∧ s.thrOnly t n k ∧ s.memBut t (a % 2 ^ 48) len
      ∧ t.readLE (a % 2 ^ 48) len
        = (atomicSpec i.atomOp i.atomSigned (BitVec.ofNat b old) (BitVec.ofNat b (x.sr i.b)) (BitVec.ofNat b (x.sr i.c))).toNat
      ∧ t.thr n k = if i.atomOp = 0 then s.past n k w else (s.past n k w).setS i.d old)) :)
  ∧ (∀ (s : State) (n k : Fin 64) (w : BitVec 64) (l a len p : Nat), s.remoteIssues n k w → (teWord w).func % 4 ≤ 1
      → (s.thr n k).rmtElems (teWord w) = [(l, a, len)] → s.globalChip a ≠ s.chipId → s.canReach (s.globalChip a) → s.quiet
      → s.usableAlts (s.globalChip a) = [p] → (s.destOf (s.globalChip a)).port = none →
    Runs (.teRemoteAccess n k w) s (fun t => s.onlyIn t { regs := true, te := true, net := true, tm := true, acct := true } ∧ s.counted t n
      ∧ ∃ r : Req, ∃ i, t.net.reqs = s.net.reqs ++ [r] ∧ r.who = .thread n k ∧ r.phase = .sent ∧ r.done = none ∧ r.kind = (teWord w).func % 4
        ∧ r.reg = (teWord w).d ∧ r.lane = l ∧ r.pkt.op = (teWord w).func % 4 + 1 ∧ r.pkt.dst = s.globalChip a ∧ r.pkt.src = s.chipId
        ∧ r.pkt.addr = a % 2 ^ 48 ∧ r.pkt.count = len ∧ r.pkt.cls = 0
        ∧ (l = 32 → r.pkt.data = if (teWord w).func % 4 = 1 then leBytes len ((s.thr n k).sr (teWord w).b) else [])
        ∧ (∀ q ∈ s.net.reqs, q.pkt.tag ≠ r.pkt.tag) ∧ (t.thr n k).rmtOut = (s.thr n k).rmtOut ++ [r.pkt.tag]
        ∧ t.tm = { s.tm with inb := s.tm.inb ++ [(32 + p, i, { load := .pkt { r.pkt with ts := s.now }, len := 16 * r.pkt.units })] }) :)
/-! Waits and queues (R165, R166, R176, R212, R332, R349, R350). -/

/-- R165: `pwait` and `ppoll` take the oldest completion; with none, the first waits and the second answers 0. R166, R212: a message joins
the end of its queue, or reaches the thread that waits for it; a receive takes the oldest word with VALID set, and an empty queue answers 0
with VALID clear, or waits; a full queue makes the sender wait. R176: a wait that reaches its bound ends: `pwait` with 0, `mwait` with 0 and
VALID 0, `msend` with 1, a fence as it is; TSTAT says so and the wait is counted. R210: the error marks of a queue's words move with them.
Clauses may rest on choices of the model: log entries 21 and 55. -/
def Obligations.ThreadWaits : Prop :=
  ((∀ (s : State) (n k : Fin 64) (w : BitVec 64) (c : Nat) (rest : List Nat), s.issues n k w → (teWord w).op = 12
      → (teWord w).num = 1 ∨ (teWord w).num = 2 → (s.thr n k).why = .none → (s.thr n k).comps = c :: rest →
    Runs (if (teWord w).num = 1 then .pwait n k w else .ppoll n k w) s (fun t => s.onlyIn t { regs := true, te := true, arr := true } ∧ s.counted t n
      ∧ t.thr n k = { (s.past n k w).setS (teWord w).d c with comps := rest, outst := (s.thr n k).outst - 1 }) :)
  ∧ (∀ (s : State) (n k : Fin 64) (w : BitVec 64), s.issues n k w → (teWord w).op = 12 → (teWord w).num = 1 → (s.thr n k).comps = [] →
    Runs (.pwait n k w) s (fun t => s.onlyIn t { regs := true, te := true, arr := true } ∧ s.counted t n
      ∧ t.thr n k = { s.past n k w with st := .wait, why := .pwait, wD := (teWord w).d }) :)
  ∧ (∀ (s : State) (n k : Fin 64) (w : BitVec 64), s.issues n k w → (teWord w).op = 12 → (teWord w).num = 2 → (s.thr n k).why = .none
      → (s.thr n k).comps = [] →
    Runs (.ppoll n k w) s (fun t => s.onlyIn t { regs := true, te := true, arr := true } ∧ s.counted t n
      ∧ t.thr n k = (s.past n k w).setS (teWord w).d 0) :))
  ∧ ((∀ (s : State) (n k : Fin 64) (w : BitVec 64), s.issues n k w → s.isMsg n k 0 (teWord w) = true → s.msendFault n k (teWord w) = none
      → (s.thr n k).why = .none →
    let a := (s.thr n k).sr (teWord w).a
    let b := (s.thr n k).sr (teWord w).b
    let m := bits a 21 16
    let q := a % 16
    let waits (e : Nat × Thr) : Prop := e.1 / 64 = m ∧ e.2.why = .mwait ∧ e.2.wA % 16 = q ∧ bitAt e.2.wA 63 = false
    Runs (.msend n k w) s (fun t => s.onlyIn t { regs := true, te := true, ms := true } ∧ s.counted t n
      ∧ (sget [] s.ms.fifoErr (0x1000 + 16 * m + q) = [] → t.ms = s.ms)
      ∧ (128 ≤ (s.mqOf m q).length → t.te.mq = s.te.mq
          ∧ t.thr n k = { s.past n k w with st := .wait, why := .msend, wD := (teWord w).d, wA := a, wB := b })
      ∧ ((s.mqOf m q).length < 128 → t.thr n k = (s.past n k w).setS (teWord w).d 0
          ∧ (∀ m' q', 16 * m' + q' ≠ 16 * m + q → t.mqOf m' q' = s.mqOf m' q')
          ∧ ((∀ e ∈ s.te.thr, ¬waits e) → t.mqOf m q = s.mqOf m q ++ [b])
          ∧ (s.mqOf m q = [] → (∃ e ∈ s.te.thr, waits e) → t.mqOf m q = []
              ∧ ∃ e ∈ s.te.thr, waits e ∧ t.thr (e.1 / 64) (e.1 % 64) = ((e.2.setS e.2.wD b).setS (e.2.wD + 1) 1).wake))) :)
  ∧ (∀ (s : State) (n k : Fin 64) (w : BitVec 64) (v : Nat) (rest : List Nat), s.issues n k w
      → s.isMsg n k 1 (teWord w) = true ∨ s.isMsg n k 2 (teWord w) = true
      → s.mqOf n ((s.thr n k).sr (teWord w).a % 16) = v :: rest → (s.thr n k).why = .none → (∀ e ∈ s.te.thr, e.2.why ≠ .msend) →
    let q := (s.thr n k).sr (teWord w).a % 16
    let marks := sget [] s.ms.fifoErr (0x1000 + 16 * n.val + q)
    Runs (if (teWord w).func = 1 then .mrecv n k w else .mwait n k w) s (fun t => s.onlyIn t { regs := true, te := true, ms := true } ∧ s.counted t n
      ∧ (marks = [] → t.ms = s.ms) ∧ (∀ e, e ∈ sget [] t.ms.fifoErr (0x1000 + 16 * n.val + q) ↔ (e.1 + 1, e.2) ∈ marks)
      ∧ t.thr n k = ((s.past n k w).setS (teWord w).d v).setS ((teWord w).d + 1) 1
      ∧ t.mqOf n q = rest ∧ ∀ m j, thrKey m j ≠ thrKey n k → t.thr m j = s.thr m j) :)
  ∧ (∀ (s : State) (n k : Fin 64) (w : BitVec 64), s.issues n k w → s.isMsg n k 1 (teWord w) = true
      → s.mqOf n ((s.thr n k).sr (teWord w).a % 16) = [] →
    Runs (.mrecv n k w) s (fun t => s.teDone t n k (((s.past n k w).setS (teWord w).d 0).setS ((teWord w).d + 1) 0)) :)
  ∧ (∀ (s : State) (n k : Fin 64) (w : BitVec 64), s.issues n k w → s.isMsg n k 2 (teWord w) = true
      → s.mqOf n ((s.thr n k).sr (teWord w).a % 16) = [] →
    Runs (.mwait n k w) s (fun t => s.teDone t n k { s.past n k w with st := .wait, why := .mwait, wD := (teWord w).d, wA := (s.thr n k).sr (teWord w).a }) :))
  ∧ (∀ (s : State) (n k : Fin 64), s.live = true → (s.thr n k).st = .wait → (s.thr n k).why = .pwait ∨ (s.thr n k).why = .mwait
      ∨ (s.thr n k).why = .msend ∨ (s.thr n k).why = .fence →
    Runs (.teWaitTimeout n k) s (fun t => s.onlyIn t { regs := true, te := true, net := true } ∧ s.thrOnly t n k
      ∧ (t.thr n k).st = .ready ∧ (t.thr n k).why = .none ∧ (t.thr n k).tstat = (s.thr n k).tstat ||| 4
      ∧ ((s.thr n k).why = .pwait → ∀ r, (t.thr n k).sr r = ((s.thr n k).setS (s.thr n k).wD 0).sr r)
      ∧ ((s.thr n k).why = .mwait → ∀ r, (t.thr n k).sr r = (((s.thr n k).setS (s.thr n k).wD 0).setS ((s.thr n k).wD + 1) 0).sr r)
      ∧ ((s.thr n k).why = .msend → ∀ r, (t.thr n k).sr r = ((s.thr n k).setS (s.thr n k).wD 1).sr r)
      ∧ ((s.thr n k).why = .fence → (t.thr n k).s = (s.thr n k).s)
      ∧ t.get (f_TE_STATUS_WAIT_TMO n) = 1 ∧ s.bitsBut t [f_TE_STATUS_WAIT_TMO n, (f_TE_STATUS_WAIT_TMO n).count, ⟨r_TE_TMO_CNT n, 31, 0⟩]) :)

/-- R332, R333, R349, R350: a sync operation of a thread on an object of this chip: a signal adds to it, a `mwait` read takes its value, a
WAIT_GE goes on when the value has been reached and waits otherwise, an arrival counts at its barrier; one that its instruction may not
carry is illegal, and one for another chip waits while its engine is full. Clauses may rest on choices of the model: log entry 65. -/
def Obligations.SyncOperations : Prop :=
  (∀ (s : State) (n k : Fin 64) (w : BitVec 64), s.issues n k w → (teWord w).op = 13 → (s.thr n k).why = .none →
    let i := teWord w
    let x := s.thr n k
    let a := x.sr i.a
    let o := a % 8192
    let sop := bits a 27 25
    bitAt a 63 = true → bits a 62 28 = 0 → bits a 24 13 = 0xFFF ∨ bits a 24 13 = s.chipId → s.reachOk x.slot 1 (syncPerm sop) s.chipId o 1 = true
      → s.flag (f_SYN_OBJ_CFG_ENABLE o) = true → s.net.waits = [] → 65536 ∉ x.rmtOut → (∀ c ∈ s.syn.hist, c < 4096) → ∀ cyc : BitVec 21,
    Runs (.syncOpIssue n k w cyc) s (fun t =>
      (i.func = 0 → sop = 0 → s.onlyIn t { regs := true, te := true, net := true } ∧ t.thr n k = (s.past n k w).setS i.d 0
          ∧ t.synVal o = (s.synVal o + x.sr i.b) % 2 ^ 64 ∧ ∀ o', o' ≠ o → o' < 8192 → t.synVal o' = s.synVal o')
      ∧ (i.func = 0 → sop = 1 → s.flag (f_SYN_OBJ_CFG_BARRIER o) = false → t.thr n k = (s.past n k w).setS i.d 0 ∧ t.synVal o = x.sr i.b)
      ∧ (i.func = 1 ∨ i.func = 2 → sop = 3 → t.thr n k = ((s.past n k w).setS i.d (s.synVal o)).setS (i.d + 1) 1 ∧ t.synVal o = s.synVal o)
      ∧ (i.func = 2 → sop = 4 → x.sr i.b ≤ s.synVal o → t.thr n k = ((s.past n k w).setS i.d (s.synVal o)).setS (i.d + 1) 1)
      ∧ (i.func = 2 → sop = 4 → s.synVal o < x.sr i.b → t.thr n k = { s.past n k w with st := .wait, why := .mwait, wD := i.d, wA := 2 ^ 63 }
          ∧ t.net.waits = [(o, x.sr i.b, thrKey n k, none)])
      ∧ (i.func = 2 → sop = 2 → s.flag (f_SYN_OBJ_CFG_BARRIER o) = true → s.get (f_SYN_OBJ_CFG_EXPECT o) ≠ 0 →
          t.thr n k = ((s.past n k w).setS i.d (s.synVal o)).setS (i.d + 1) 1
          ∧ (if (s.synObj o).arrived + 1 = s.get (f_SYN_OBJ_CFG_EXPECT o) then t.synVal o = (s.synVal o + 1) % 2 ^ 64 ∧ (t.synObj o).arrived = 0
             else t.synVal o = s.synVal o ∧ (t.synObj o).arrived = (s.synObj o).arrived + 1))) :)
  ∧ (∀ (s : State) (n k : Fin 64) (w : BitVec 64) (cyc : BitVec 21), s.issues n k w → (teWord w).op = 13
      → bitAt ((s.thr n k).sr (teWord w).a) 63 = true → bits ((s.thr n k).sr (teWord w).a) 62 28 ≠ 0 → s.engineOut n < 512 →
    Runs (.syncOpIssue n k w cyc) s (fun t => (t.thr n k).st = .faulted ∧ (t.thr n k).kind = 0x10
      ∧ (t.thr n k).pc = (s.thr n k).pc % 2 ^ 48 ∧ t.net.reqs = s.net.reqs ∧ t.mem = s.mem) :)
  ∧ (∀ (s : State) (n k : Fin 64) (w : BitVec 64) (cyc : BitVec 21), 512 ≤ s.engineOut n →
      let c := bits ((s.thr n k).sr (teWord w).a) 24 13
      c ≠ 0xFFF → c ≠ s.chipId → s.live = true → exec (.syncOpIssue n k w cyc) s = .next s :)

/-! Stage memory, LPDDR6 and the movers (chapter 6, R184 to R218). -/

/-- R187 to R192: a request enters at the input that the image gives its master, and at a free bank is granted; at a held bank it joins the
queue, or takes the grant from a lower input, which counts as a revocation once the holder has moved a beat; past eight entries it stalls.
R185, R191: one that waits too long for an entry ends with error status, and its data mover or thread goes on with that. A free bank grants
the highest input, and of it the oldest. R197, R198: refresh rates, postponed refreshes, and the patrol scrub, which reads one populated
line at a time and corrects it. Clauses may rest on choices of the model: log entry 58. -/
def Obligations.MemoryUpkeep : Prop :=
  ((∀ (s : State) (b : Fin 512) (x : Transfer) (m : Fin 65), s.live = true → x.ok = true → s.bankOf b = {} →
    Runs (.stageTransferRequest b x m) s (fun t => s.onlyIn t { ms := true } ∧ t.bankOf b = { cur := some (s.atInput b x) }
      ∧ ∀ c, c ≠ b.val → t.bankOf c = s.bankOf c) :)
  ∧ (∀ (s : State) (b : Fin 512) (x c : Transfer) (m : Fin 65), s.live = true → x.ok = true → (s.bankOf b).cur = some c → m.val < c.beats →
    let k := s.bankOf b
    let y := s.atInput b x
    (7 ≤ k.pend.length → Runs (.stageTransferRequest b x m) s (fun t => s.onlyIn t { ms := true } ∧ t.bankOf b = { k with stall := k.stall ++ [y] }
      ∧ ∀ d, d ≠ b.val → t.bankOf d = s.bankOf d))
    ∧ (k.pend.length < 7 → k.stall = [] → y.input ≤ c.input → Runs (.stageTransferRequest b x m) s (fun t => s.onlyIn t { ms := true }
      ∧ t.bankOf b = { k with pend := k.pend ++ [y] } ∧ ∀ d, d ≠ b.val → t.bankOf d = s.bankOf d))
    ∧ (k.pend.length < 7 → k.stall = [] → c.input < y.input → Runs (.stageTransferRequest b x m) s (fun t =>
      t.bankOf b = { k with cur := some y, pend := c :: k.pend } ∧ (∀ d, d ≠ b.val → t.bankOf d = s.bankOf d)
      ∧ (m.val ≠ 0 → t.get (f_MEM_ARB_REVOKE_COUNT c.input) = min (s.get (f_MEM_ARB_REVOKE_COUNT c.input) + 1) (2 ^ 32 - 1))
      ∧ (m.val = 0 → s.onlyIn t { ms := true }))) :)
  ∧ (∀ (s : State) (b : Fin 512) (c : Transfer), s.live = true → (s.bankOf b).cur = some c → c.write = true → c.xfer = none → c.mv = none
      → c.te = none → c.skip = 0 → c.beats ≠ 0 → c.data.length = 64 * c.beats → s.writable (stageBase + b.val * 0x80000 + c.line * 64) (64 * c.beats) →
    Runs (.stageBankGrant b) s (fun t => s.onlyIn t { ms := true, mem := true }
      ∧ (∀ i, i < 64 * c.beats → t.readByte (stageBase + b.val * 0x80000 + c.line * 64 + i) = c.data.getD i 0)
      ∧ s.memBut t (stageBase + b.val * 0x80000 + c.line * 64) (64 * c.beats)
      ∧ t.bankOf b = ({ s.bankOf b with cur := none } : Bank).grant ∧ ∀ d, d ≠ b.val → t.bankOf d = s.bankOf d) :)
  ∧ (∀ k : Bank, k.cur = none → k.stall = [] → k.pend ≠ [] → ∃ g ∈ k.pend, k.grant = { k with cur := some g, pend := k.pend.erase g }
      ∧ (∀ y ∈ k.pend, y.input ≤ g.input) ∧ k.pend.find? (fun y => y.input == g.input) = some g)
  ∧ (∀ (s : State) (b : Fin 512) (x : Transfer) (rest : List Transfer), s.live = true → (s.bankOf b).stall = x :: rest →
    Runs (.stageArbTmo b) s (fun t => t.mem = s.mem ∧ t.bankOf b = { s.bankOf b with stall := rest } ∧ t.get f_MEM_STATUS_ARB_TMO = 1
      ∧ s.msg (srcStage (b.val / 128)) 0x2A (stageBase + b.val * 0x80000 + x.line * 64) 0 ∈ t.flt.inbox
      ∧ (x.xfer = none → x.te = none → s.sends t (srcStage (b.val / 128)) 0x2A (stageBase + b.val * 0x80000 + x.line * 64) 0
          ∧ s.bitsBut t [f_MEM_STATUS_ARB_TMO, f_MEM_STATUS_ARB_TMO.count])
      ∧ (∀ k id read sk n, x.xfer = none → x.te = none → x.mv = some (k, id) → (s.mvOf k).wait = .bank read id sk n →
          t.mvOf k = (s.mvOf k).fails (if read then .srcBad else .dstBad))
      ∧ (∀ n k, x.xfer = none → x.mv = none → x.te = some (n, k) → x.write = false → (t.thr n k).st = .faulted)) :))
  ∧ ((∀ (s : State) (rates : List (Fin 24 × Fin 3)), s.live = true → (rates.map (·.1)).Nodup →
    Runs (.refreshRateRead rates) s (fun t => s.onlyIn t { regs := true, flt := true, ms := true }
      ∧ t.ms = { s.ms with refRate := t.ms.refRate } ∧ (∀ r ∈ rates, sget 0 t.ms.refRate r.1 = r.2)
      ∧ (∀ k : Nat, (∀ r ∈ rates, r.1.val ≠ k) → sget 0 t.ms.refRate k = sget 0 s.ms.refRate k)
      ∧ ((∃ r ∈ rates, r.2.val > s.get f_MEM_LP_CFG_REF_BUDGET) → t.get f_MEM_STATUS_REF_OVER = 1)
      ∧ ((∀ r ∈ rates, r.2.val ≤ s.get f_MEM_LP_CFG_REF_BUDGET) → t.regs = s.regs ∧ t.flt = s.flt)
      ∧ s.bitsBut t [f_MEM_STATUS_REF_OVER, f_MEM_STATUS_REF_OVER.count]) :)
  ∧ (∀ (s : State) (c : Fin 24) (post : Bool), s.live = true →
    Runs (.lpddrRefresh c post) s (fun t => s.onlyIn t { ms := true } ∧ t.ms = { s.ms with refPost := t.ms.refPost }
      ∧ sget 0 t.ms.refPost c = (if post = true ∧ sget 0 s.ms.refRate c > s.get f_MEM_LP_CFG_REF_BUDGET then sget 0 s.ms.refPost c + 1
          else sget 0 s.ms.refPost c - 1)
      ∧ ∀ k, k ≠ c.val → sget 0 t.ms.refPost k = sget 0 s.ms.refPost k) :)
  ∧ (∀ (s : State) (c : Fin 24), s.live = true → sget 0 s.ms.refPost c ≠ 0 →
    Runs (.refreshForced c) s (fun t => s.onlyIn t { regs := true, ms := true } ∧ sget 0 t.ms.refPost c = 0
      ∧ (∀ k, k ≠ c.val → sget 0 t.ms.refPost k = sget 0 s.ms.refPost k)
      ∧ t.get f_MEM_STATUS_REF_FORCED = 1 ∧ s.bitsBut t [f_MEM_STATUS_REF_FORCED, f_MEM_STATUS_REF_FORCED.count]) :)
  ∧ (∀ s : State, s.live = true → s.get f_MEM_SCRUB_CFG_ENABLE = 1 → 64 ≤ s.lpBytes → s.lpBytes ≤ 0x018000000000 →
    let a := 64 * (s.ms.scrub % (s.lpBytes / 64))
    Runs .patrolScrub s (fun t => t.mem = s.mem ∧ t.ms.scrub = (a / 64 + 1) % (s.lpBytes / 64) ∧ t.ms.uncorr = s.ms.uncorr
      ∧ (touched s.ms.corr a 64 = [] → touched s.ms.uncorr a 64 = [] → s.onlyIn t { ms := true } ∧ t.ms.corr = s.ms.corr)
      ∧ (touched s.ms.corr a 64 = [a] → touched s.ms.uncorr a 64 = [] → t.ms.corr = s.ms.corr.filter (· ≠ a)
          ∧ t.get f_MEM_CORR_CNT_COUNT = min (s.get f_MEM_CORR_CNT_COUNT + 1) (2 ^ 32 - 1) ∧ t.get f_MEM_STATUS_CORR = 1
          ∧ s.sends t (s.memSource a) 0x28 a 0)
      ∧ (touched s.ms.corr a 64 = [] → touched s.ms.uncorr a 64 = [a] → t.get f_MEM_UNCORR_CNT_COUNT = min (s.get f_MEM_UNCORR_CNT_COUNT + 1) (2 ^ 32 - 1)
          ∧ t.get f_MEM_STATUS_UNCORR = 1 ∧ (t.reg r_MEM_ERR_ADDR_LO).toNat = a % 2 ^ 32 ∧ s.sends t (s.memSource a) 0x29 a 0)) :))

/-- R199 to R204: a write of CTRL holds the fields of its slot and starts the slot that a bound channel serves next; at the end every row is
copied, the descriptor's STATUS reads 1 with GO clear, its message is queued and the channel goes to the next slot; a malformed or
unreachable descriptor moves nothing and is recorded. R187: a row in stage memory moves by transfers of its bank, which the channel waits
for. Clauses may rest on choices of the model: log entry 58. -/
def Obligations.ArrayDma : Prop :=
  (∀ (s : State) (n : Fin 64) (c slot : Fin 16) (ctrl : BitVec 32), s.live = true → s.hasArray n = true →
    let ch := s.dmaCh n c
    let rest := ch.go.filter (fun e => e.1 ≠ slot.val)
    Runs (.dmaDescriptorGo n c slot ctrl) s (fun t => s.onlyIn t { regs := true, ms := true }
      ∧ t.ringRead n (c.val * 0x400 + slot.val * 64) 4 = ctrl.toNat
      ∧ (∀ k, k < c.val * 0x400 + slot.val * 64 ∨ c.val * 0x400 + slot.val * 64 + 4 ≤ k → k < 0x4000 → t.ringRead n k 1 = s.ringRead n k 1)
      ∧ ((ch.job = none ∧ ch.radio = false) ∨ (ch.busy = true ∧ ch.slot = slot.val) → t.dmaCh n c = ch)
      ∧ (ch.job ≠ none ∨ ch.radio = true → ch.busy = false ∨ ch.slot ≠ slot.val →
          let go := if bitAt ctrl.toNat 0 then rest ++ [(slot.val, t.dmaDesc n c slot)] else rest
          t.dmaCh n c = if ch.busy then { ch with go := go }
            else { ch with go := go, busy := go.any (fun e => e.1 == ch.slot), row := 0, code := 0 })) :)
  ∧ (∀ (s : State) (n : Fin 64) (c : Fin 16) (ns : Nat) (a b : Nat → Nat), s.live = true →
    let ch := s.dmaCh n c
    let d := ch.desc
    let off := c.val * 0x400 + ch.slot * 64
    ch.slot < 16 → ch.busy = true → ch.stop = false → ch.row = 0 → ch.code = 0 → s.mvOf (16 * n.val + c.val) = {} → (s.arrOf n).spills = []
      → (∀ c', c' < 16 → c' ≠ c.val → (s.dmaCh n c').busy = false) → d.bad = false → (s.mqOf n (bits d.ctrl 7 4)).length < 128
      → (∀ e ∈ s.te.thr, e.2.why ≠ .mwait)
      → (∀ i, i < d.rows → s.dmaSide (bitAt d.ctrl 1) (d.rowAt i).1 = .loc (a i) ∧ s.dmaMay n ch (bitAt d.ctrl 1) false (d.rowAt i).1 d.len = true
          ∧ s.region (a i) ≠ .stage ∧ s.plain (linesOf (a i) d.len).1 (linesOf (a i) d.len).2
          ∧ s.dmaSide (bitAt d.ctrl 2) (d.rowAt i).2 = .loc (b i) ∧ s.dmaMay n ch (bitAt d.ctrl 2) true (d.rowAt i).2 d.len = true
          ∧ s.region (b i) ≠ .stage ∧ ∀ k, k < d.len → s.writable (b i + k) 1)
      → (∀ i j, i < d.rows → j < d.rows → (a i + d.len ≤ b j ∨ b j + d.len ≤ a i) ∧ (i = j ∨ b i + d.len ≤ b j ∨ b j + d.len ≤ b i)) →
    Runs (.dmaDescriptorEnd n c ns) s (fun t => s.onlyIn t { regs := true, tim := true, ms := true, mem := true, acct := true, te := true }
      ∧ t.tim = (s.atNs ns).tim
      ∧ (∀ i k, i < d.rows → k < d.len → t.readByte (b i + k) = s.readByte (a i + k))
      ∧ (∀ x, (∀ i, i < d.rows → x < b i ∨ b i + d.len ≤ x) → t.readByte x = s.readByte x)
      ∧ t.ringRead n (off + 0x1E) 2 = 1 ∧ t.ringRead n off 4 = (d.ctrl - d.ctrl % 2) % 2 ^ 32
      ∧ (t.dmaCh n c).slot = (ch.slot + 1) % 16
      ∧ t.mqOf n (bits d.ctrl 7 4) = (if bitAt d.ctrl 3 then s.mqOf n (bits d.ctrl 7 4) ++ [d.seq + 2 ^ 32 + c.val * 2 ^ 48] else s.mqOf n (bits d.ctrl 7 4))
      ∧ t.te.thr = s.te.thr) :)
  ∧ (∀ (s : State) (n : Fin 64) (c : Fin 16) (ns : Nat), s.live = true →
    let ch := s.dmaCh n c
    let d := ch.desc
    let may := s.dmaMay n ch (bitAt d.ctrl 1) false (d.rowAt 0).1 d.len && s.dmaMay n ch (bitAt d.ctrl 2) true (d.rowAt 0).2 d.len
    ch.slot < 16 → ch.busy = true → ch.stop = false → ch.row = 0 → ch.code = 0 → s.mvOf (16 * n.val + c.val) = {} → s.dmaStalls n ch = false
      → s.dmaFull n (s.dmaJob ch) = false → (∀ c', c' < 16 → c' ≠ c.val → (s.dmaCh n c').busy = false) →
    (bitAt d.ctrl 3 = false → d.bad = true ∨ may = false →
      Runs (.dmaDescriptorEnd n c ns) s (fun t => s.onlyIn t { regs := true, tim := true, ms := true } ∧ t.tim = (s.atNs ns).tim ∧ t.mem = s.mem
        ∧ (d.bad = true → t.ringRead n (c.val * 0x400 + ch.slot * 64 + 0x1E) 2 = 0x8001 ∧ t.get (f_ARR_DMA_ERR_CODE n) = 1)
        ∧ (d.bad = false → t.ringRead n (c.val * 0x400 + ch.slot * 64 + 0x1E) 2 = 0x8002 ∧ t.get (f_ARR_DMA_ERR_CODE n) = 2)
        ∧ t.get (f_ARR_DMA_ERR_CHANNEL n) = c.val ∧ t.get (f_ARR_DMA_ERR_SEQ n) = d.seq % 2 ^ 16 ∧ (t.dmaCh n c).slot = (ch.slot + 1) % 16))
    ∧ (∀ a, d.bad = false → may = true → s.dmaSide (bitAt d.ctrl 1) (d.rowAt 0).1 = .loc a → s.region a = .stage →
      let b := (a - stageBase) / 0x80000
      s.bankOf b = {} →
      Runs (.dmaDescriptorEnd n c ns) s (fun t => t.mem = s.mem ∧ (t.dmaCh n c).busy = true ∧ (t.dmaCh n c).slot = ch.slot
        ∧ (t.bankOf b).pend = [] ∧ ∃ x, (t.bankOf b).cur = some x ∧ x.line = (a - stageBase) % 0x80000 / 64 ∧ x.write = false
          ∧ x.mv = some (16 * n.val + c.val, s.ms.mvId) ∧ 64 * x.beats ≤ 4096)) :)
/-- R205 to R208: a submission joins its queue with the submitter's tenant, and an idle mover starts it; at the end a copy on this chip has
moved every byte, a fill has zeroed them, and nothing else has changed; the completion, in the submitter's FIFO, carries SEQ, status and
bytes; a malformed descriptor, or one that the reach table denies, moves nothing. Clauses may rest on choices of the model: log entry 58. -/
def Obligations.BulkMovers : Prop :=
  (∀ (s : State) (m : Fin 8) (q : Fin 4) (d : BulkDesc) (tn : BitVec 16), s.live = true → sget 0 s.ms.bulkCur m ≠ 0 →
    Runs (.bulkSubmit m q d tn) s (fun t => s.onlyIn t { regs := true, ms := true }
      ∧ t.bulkQ m q = s.bulkQ m q ++ [{ d with sub := .radio, tenant := tn.toNat }]
      ∧ (∀ m' q', 4 * m' + q' ≠ 4 * m.val + q.val → t.bulkQ m' q' = s.bulkQ m' q') ∧ t.ms.bulkCur = s.ms.bulkCur
      ∧ bitAt (t.get (f_MEM_BM_STATE_QUEUES m)) q = true ∧ s.bitsBut t [f_MEM_BM_STATE_QUEUES m]) :)
  ∧ (∀ (s : State) (m : Fin 8) (q : Fin 4) (d : BulkDesc) (tn : BitVec 16), s.live = true → sget 0 s.ms.bulkCur m = 0
      → (∀ r, r < 4 → s.bulkQ m r = []) →
    Runs (.bulkSubmit m q d tn) s (fun t => s.onlyIn t { regs := true, ms := true, free := true }
      ∧ t.bulkQ m q = [{ d with sub := .radio, tenant := tn.toNat }] ∧ sget 0 t.ms.bulkCur m = q.val + 1
      ∧ t.get (f_MEM_BM_STATE_BUSY m) = 1 ∧ t.get (f_MEM_BM_STATE_OUTSTANDING m) ≤ 2048) :)
  ∧ (∀ (s : State) (m : Fin 8) (q : Fin 4) (d : BulkDesc) (rest : List BulkDesc) (data : List Byte) (ok : Bool) (k ns : Nat), s.live = true
      → sget 0 s.ms.bulkCur m = q.val + 1 → s.bulkQ m q = d :: rest → s.mvOf (1024 + m) = {} → d.sub = .radio → d.ok = true
      → bitAt d.ctrl 4 = false → bitAt d.ctrl 5 = false
      → s.globalChip d.dst = s.chipId → s.slotOfTenant d.tenant = some k → s.reachOk k 0 27 s.chipId (d.dst % 2 ^ 48) d.len = true →
    let a := d.src % 2 ^ 48
    let b := d.dst % 2 ^ 48
    let here (x : Nat) : Prop := s.region x ≠ .stage ∧ s.region x ≠ .hostA ∧ s.region x ≠ .hostB
    here b → (∀ j, s.region b ≠ .acc j) → (∀ i, i < d.len → s.writable (b + i) 1) →
    let copy : Prop := bits d.ctrl 3 0 = 1 ∧ s.globalChip d.src = s.chipId ∧ s.reachOk k 0 26 s.chipId a d.len = true
      ∧ here a ∧ s.plain (linesOf a d.len).1 (linesOf a d.len).2 ∧ s.region a = s.region (linesOf a d.len).1 ∧ (a + d.len ≤ b ∨ b + d.len ≤ a)
    let fill : Prop := bits d.ctrl 3 0 = 2
    copy ∨ fill →
    Runs (.bulkComplete m data ok ns) s (fun t => s.onlyIn t { regs := true, tim := true, ms := true, mem := true, acct := true, free := true }
      ∧ t.tim = (s.atNs ns).tim
      ∧ (∀ i, i < d.len → t.readByte (b + i) = if bits d.ctrl 3 0 = 1 then s.readByte (a + i) else 0)
      ∧ s.memBut t b d.len ∧ t.bulkQ m q = rest
      ∧ sget [] t.ms.bulkCpl 2 = (if bitAt d.ctrl 6 then sget [] s.ms.bulkCpl 2 ++ [{ seq := d.seq, status := 0, bytes := d.len }]
          else sget [] s.ms.bulkCpl 2)) :)
  ∧ (∀ (s : State) (m : Fin 8) (q : Fin 4) (d : BulkDesc) (rest : List BulkDesc) (data : List Byte) (ok : Bool) (ns : Nat), s.live = true
      → sget 0 s.ms.bulkCur m = q.val + 1 → s.bulkQ m q = d :: rest → s.mvOf (1024 + m) = {} → d.sub = .radio
      → d.ok = false ∨ (d.ok = true ∧ s.bulkMay d 27 d.dst (d.span 5) = false) →
    Runs (.bulkComplete m data ok ns) s (fun t => t.tim = (s.atNs ns).tim ∧ t.mem = s.mem ∧ t.bulkQ m q = rest
      ∧ sget [] t.ms.bulkCpl 2 = sget [] s.ms.bulkCpl 2 ++ [{ seq := d.seq, status := 1, bytes := 0 }]
      ∧ (d.ok = true → t.get f_AVL_RMT_STATUS_REACH_DENY = 1)) :)
/-- R214 to R218, R482: a spill saves its regions one by one and its header last, pausing in a radio lease; a reload brings every region
that the header names back to where it was, restores the threads from their records, READY, and ends the spill; from a poisoned save area
they are FAULTED. Clauses may rest on choices of the model: log entries 38 and 59. -/
def Obligations.SpillAndReload : Prop :=
  (∀ (s : State) (n : Fin 64), s.live = true → s.leaseOf n = .radio → exec (.spillRegionSaved n) s = .next s :)
  ∧ (∀ (s : State) (n : Fin 64) (v : Spill), s.live = true → s.leaseOf n ≠ .radio → (s.arrOf n).spills.find? (fun v => v.begun && !v.hdr) = some v →
    (∀ j, lowBit v.accLeft = some j → touched s.ms.corr (accBase n + j * 81920) 81920 = [] → touched s.ms.uncorr (accBase n + j * 81920) 81920 = [] →
      Runs (.spillRegionSaved n) s (fun t => s.onlyIn t { mem := true, ms := true, arr := true, acct := true }
        ∧ (∀ i, i < 81920 → t.readByte (v.base + 0x50000 + j * 81920 + i) = s.readByte (accBase n + j * 81920 + i))
        ∧ s.memBut t (v.base + 0x50000 + j * 81920) 81920
        ∧ t.arrOf n = { s.arrOf n with spills := (s.arrOf n).spills.map (fun u => if u.job = v.job then { u with accLeft := setBits u.accLeft j j 0 } else u) }))
    ∧ (∀ j, lowBit v.accLeft = none → lowBit v.storeLeft = some j → touched s.ms.corr (storeBase n + j * 0x10000) 0x10000 = []
        → touched s.ms.uncorr (storeBase n + j * 0x10000) 0x10000 = [] →
      Runs (.spillRegionSaved n) s (fun t => s.onlyIn t { mem := true, ms := true, arr := true, acct := true }
        ∧ (∀ i, i < 0x10000 → t.readByte (v.base + 0x2D0000 + j * 0x10000 + i) = s.readByte (storeBase n + j * 0x10000 + i))
        ∧ s.memBut t (v.base + 0x2D0000 + j * 0x10000) 0x10000
        ∧ t.arrOf n = { s.arrOf n with spills := (s.arrOf n).spills.map (fun u => if u.job = v.job then { u with storeLeft := setBits u.storeLeft j j 0 } else u) }))
    ∧ (lowBit v.accLeft = none → lowBit v.storeLeft = none →
      Runs (.spillRegionSaved n) s (fun t => s.onlyIn t { regs := true, mem := true, arr := true, free := true }
        ∧ t.readLE v.base 4 = 0x45564153 ∧ t.readLE (v.base + 4) 4 = v.job % 2 ^ 32 ∧ t.readLE (v.base + 10) 1 = n.val
        ∧ t.readLE (v.base + 0x10) 8 = v.store % 2 ^ 64 ∧ t.readLE (v.base + 0x18) 4 = v.acc % 2 ^ 32 ∧ t.readLE (v.base + 0x20) 8 = v.thr % 2 ^ 64
        ∧ (∀ i, 0x440 ≤ i → i < 0x1000 → t.readByte (v.base + i) = 0) ∧ s.memBut t v.base 0x1000
        ∧ t.get f_MEM_STATUS_SAVE_POISON = (if v.poison then 1 else s.get f_MEM_STATUS_SAVE_POISON)
        ∧ t.arrOf n = { s.arrOf n with spills := (s.arrOf n).spills.map (fun u => if u.job = v.job then { u with hdr := true } else u) })) :)
  ∧ (∀ (s : State) (n : Fin 64) (v : Spill), s.live = true → (s.arrOf n).spills = [v] → v.hdr = true → v.back = false → s.reloadFree n v = true
      → (∀ j, s.jobOf v.job = some j → j.stop = false) → v.job < 2 ^ 32 →
    Runs (.reloadStart n (BitVec.ofNat 32 v.job)) s (fun t => s.onlyIn t { arr := true }
      ∧ t.arrOf n = { s.arrOf n with spills := [{ v with back := true, accLeft := v.acc, storeLeft := v.store }] }
      ∧ ∀ m, m ≠ n.val → t.arrOf m = s.arrOf m) :)
  ∧ (∀ (s : State) (n : Fin 64) (v : Spill), s.live = true → (s.arrOf n).spills.find? (fun v => v.back) = some v → s.leaseOf n ≠ .radio
      → v.base + 0x6D0000 ≤ s.lpBytes → s.lpBytes ≤ 0x018000000000 → s.ms.uncorr = [] → s.ms.corr = []
      → (∀ k, k < 64 → (s.thr n k).job = v.job → (s.thr n k).st ≠ .faulted) →
    let acc := s.readLE (v.base + 0x18) 4
    let store := s.readLE (v.base + 0x10) 8
    let thr := s.readLE (v.base + 0x20) 8
    let poisoned := bitAt (s.readLE (v.base + 0xB) 1) 0
    let back (e : Nat × Thr) : Prop := e ∈ v.thrs ∧ (v.thrs.filter (fun f => f.1 == e.1)).length = 1 ∧ e.1 < 64 ∧ bitAt thr e.1 = true
      ∧ e.2.job = v.job ∧ e.2.st ≠ .idle
    Runs (.reloadComplete n) s (fun t =>
      (∀ j i, j < 32 → bitAt acc j = true → i < 81920 → t.readByte (accBase n + j * 81920 + i) = s.readByte (v.base + 0x50000 + j * 81920 + i))
      ∧ (∀ j i, j < 64 → bitAt store j = true → i < 0x10000 → t.readByte (storeBase n + j * 0x10000 + i) = s.readByte (v.base + 0x2D0000 + j * 0x10000 + i))
      ∧ (∀ a, (∀ j, bitAt acc j = true → a < accBase n + j * 81920 ∨ accBase n + (j + 1) * 81920 ≤ a)
          → (∀ j, bitAt store j = true → a < storeBase n + j * 0x10000 ∨ storeBase n + (j + 1) * 0x10000 ≤ a) → t.readByte a = s.readByte a)
      ∧ (t.arrOf n).spills = (s.arrOf n).spills.filter (fun u => u.job ≠ v.job)
      ∧ (poisoned = false → ∀ e, back e →
          t.thr n e.1 = { e.2.ofRecord (s.readBytes (v.base + 0x1000 + e.1 * 4608) 4608) with st := .ready, why := .none })
      ∧ (poisoned = true → ∀ e, back e → (t.thr n e.1).st = .faulted)) :)
/-! The serving engine (chapters 2, 7 and 18: R59 to R62, R232 to R256, R470, R505, R525 to R528). -/

/-- R59 to R62, R240, R242, R248, R256, R274, R525, R527: a step that is due is planned and not before, a CACHE partition runs none, a ready
step starts, a hold or a wait that is too long stops the partition, and the control bits of a partition. R230: a bad cached entry is a step
fault. R232, R239, R251 to R253: expiry of paused contexts, zero fill of released pages, and the copies of a pause and of a resume. Clauses
may rest on choices of the model: log entry 60. -/
def Obligations.StepsAndContexts : Prop :=
  ((∀ (s : State) (p : Fin 16) (trees : List (Nat × Option (List Byte))), s.live = true →
    let u := ((s.srvPump.retireStep p).drainRecords p).settleHalt p
    let started := ((u.spOf p).job.bind u.jobOf).any (fun j => j.st == .started && !j.stop)
    (u.role p ≠ 2 → (u.stepDue p = none ∨ (u.spOf p).model.bind u.modelOf = none ∨ (u.spOf p).phase ≠ .idle ∨ u.flag (f_SRV_PART_CTL_HALTED p) = true
        ∨ (sget {} u.flt.part p).st ≠ .running ∨ started = false) → exec (.stepPlan p trees) s = .next u)
    ∧ (u.role p = 2 → Runs (.stepPlan p trees) s (fun t => (t.spOf p).phase = (u.spOf p).phase ∧ (t.spOf p).step = (u.spOf p).step
        ∧ (t.spOf p).next = (u.spOf p).next ∧ (t.spOf p).batch = (u.spOf p).batch ∧ t.arr = u.arr ∧ t.sig = u.sig ∧ t.rad = u.rad
        ∧ t.tim = u.tim ∧ (u.flag (f_SRV_PART_CTL_HALTED p) = true → t = u)))
    ∧ (∀ (m : Model) (base cut lag : Nat), (u.spOf p).model.bind u.modelOf = some m → u.stepDue p = some (base, cut, lag)
        → (u.spOf p).phase = .idle → u.flag (f_SRV_PART_CTL_HALTED p) = false → (sget {} u.flt.part p).st = .running → u.role p ≠ 2
        → started = true →
      Runs (.stepPlan p trees) s (fun t => (t.spOf p).phase = .planned ∧ (t.spOf p).step = (u.spOf p).next ∧ (t.spOf p).next = (u.spOf p).next + 1
        ∧ (t.spOf p).start = u.tim.tick ∧ (t.spOf p).holdAt = u.tim.expo ∧ (t.spOf p).cut = cut ∧ (t.spOf p).ended = false
        ∧ (t.spOf p).batch.Pairwise (fun a b => a.ctx ≤ b.ctx) ∧ t.reg64 (r_SRV_PART_STEP_LO p) = (u.spOf p).next % 2 ^ 64
        ∧ t.get (f_SRV_PART_CTX_RUNNING p) = ((t.spOf p).batch.filter (fun e => !e.out)).length % 1024
        ∧ (sget ({} : Pipe) t.tim.pipe p).base = base ∧ (sget ({} : Pipe) t.tim.pipe p).rebase = false
        ∧ (∀ q, q ≠ p.val → sget ({} : Pipe) t.tim.pipe q = sget {} u.tim.pipe q)
        ∧ t.arr = u.arr ∧ t.sig = u.sig ∧ t.rad = u.rad ∧ t.syn = u.syn ∧ t.boot = u.boot ∧ t.clk = u.clk ∧ t.pwr = u.pwr ∧ t.img = u.img)) :)
  ∧ (∀ (s : State) (p : Fin 16) (id : Nat) (j : Job), s.live = true →
    let u := s.srvPump
    (u.spOf p).job = some id → u.jobOf id = some j → (u.spOf p).phase = .planned → (sget {} u.flt.part p).st ≠ .stepFault
      → (sget {} u.flt.part p).cmd = false → (∀ e ∈ (u.spOf p).batch, u.ctxReady e = true) → u.stepHalted p = true →
    ((∃ e ∈ (u.spOf p).batch, e.out = false ∧ e.ctx ∈ u.srv.bad) →
      Runs (.stepStart p) s (fun t => u.onlyIn t { regs := true, flt := true, te := true, sig := true, srv := true, net := true }
      ∧ u.msg 0x280 0x30 0 0 ∈ t.flt.inbox ∧ (sget {} t.flt.part p).st = .stepFault ∧ t.srv.ctx = u.srv.ctx
      ∧ (∀ e ∈ (u.spOf p).batch, e.out = false → e.ctx ∉ t.srv.bad) ∧ t.get f_FLT_STATUS_STEP_FAULT = 1
      ∧ t.get f_SRV_STATUS_CTX_ECC = 1))
    ∧ ((∀ e ∈ (u.spOf p).batch, e.out = false → e.ctx ∉ u.srv.bad) → Runs (.stepStart p) s (fun t => u.onlyIn t { te := true, sig := true, sp := true }
      ∧ t.spOf p = { u.spOf p with phase := .running } ∧ (∀ q, q ≠ p.val → t.spOf q = u.spOf q)
      ∧ (∀ n k, n < 64 → k < 64 → n ∈ j.arrayList → (u.thr n k).job = id → (t.thr n k).pc = j.entry ∧ (t.thr n k).sr 1 = j.arg % 2 ^ 64
          ∧ (t.thr n k).job = id ∧ (t.thr n k).st = if u.leaseOf n = .openLease then .ready else .parked)
      ∧ (∀ n k, n < 64 → k < 64 → (n ∉ j.arrayList ∨ (u.thr n k).job ≠ id) → t.thr n k = u.thr n k)
      ∧ t.te.mq = u.te.mq)) :)
  ∧ (∀ (s : State) (p : Fin 16), s.live = true → (s.spOf p).phase = .planned → (sget {} s.flt.part p).cmd = false
      → (sget {} s.flt.part p).st ≠ .stepFault → s.get f_SRV_STREAM_CFG_HOLD_TMO ≤ s.tim.expo - (s.spOf p).holdAt →
    Runs (.stepHoldTimeout p) s (fun t => s.onlyIn t { regs := true, flt := true, te := true, sig := true, net := true }
      ∧ (sget {} t.flt.part p).st = .stepFault ∧ (∀ q, q ≠ p.val → sget {} t.flt.part q = sget {} s.flt.part q)
      ∧ t.flt.inbox = s.flt.inbox ++ [s.msg 0x280 0x33 ((s.spOf p).step % 2 ^ 48) p] ∧ t.get f_FLT_STATUS_STEP_FAULT = 1
      ∧ (∀ n k, (some (s.thr n k).job = (s.spOf p).job ∧ (s.thr n k).radio = false ∧ (s.thr n k).st ≠ .idle → (t.thr n k).st = .faulted)
          ∧ (some (s.thr n k).job ≠ (s.spOf p).job → t.thr n k = s.thr n k))
      ∧ t.net = { s.net with waits := t.net.waits }
      ∧ s.bitsBut t ((List.range 64).flatMap (fun m => [f_TE_STATUS_FAULT m, (f_TE_STATUS_FAULT m).count])
          ++ [f_SIG_STATUS_FAULT, f_SIG_STATUS_FAULT.count, f_FLT_STATUS_STEP_FAULT, f_FLT_STATUS_STEP_FAULT.count])) :)
  ∧ (∀ (s : State) (p : Fin 16) (e : Nat), s.live = true → (s.spOf p).waitAt = some e → (s.spOf p).halt = 0
      → s.get f_SRV_STREAM_CFG_TMO ≤ s.tim.expo - e →
    Runs (.streamTimeout p) s (fun t => s.onlyIn t { regs := true, flt := true, sp := true } ∧ t.spOf p = { s.spOf p with halt := 1, resumed := false }
      ∧ (∀ q, q ≠ p.val → t.spOf q = s.spOf q) ∧ t.get (f_SRV_PART_CTL_HALTED p) = 1 ∧ t.get f_SRV_STATUS_STREAM_TMO = 1
      ∧ s.sends t 0x280 0x31 0 0 ∧ s.bitsBut t [f_SRV_PART_CTL_HALTED p, f_SRV_STATUS_STREAM_TMO, f_SRV_STATUS_STREAM_TMO.count]) :)
  ∧ (∀ (s : State) (p : Fin 16) (v : Bool), s.live = true →
    Runs (.partHalt p v) s (fun t => s.onlyIn t { regs := true } ∧ t.get (f_SRV_PART_CTL_HALT p) = v.toNat ∧ s.bitsBut t [f_SRV_PART_CTL_HALT p])
    ∧ ((s.spOf p).halt ≠ 0 → Runs (.partResume p) s (fun t => s.onlyIn t { sp := true } ∧ t.spOf p = { s.spOf p with resumed := true }
        ∧ ∀ q, q ≠ p.val → t.spOf q = s.spOf q))
    ∧ ((s.spOf p).halt = 0 → exec (.partResume p) s = .next s) :)
  ∧ (∀ (s : State) (p : Fin 16) (v : Bool), s.live = true →
    ((∃ e ∈ s.srv.ctx, e.2.st ≠ .free ∧ e.2.owner = p.val ∧ e.2.away = false) → exec (.replayEnable p v) s = .next s)
    ∧ ((∀ e ∈ s.srv.ctx, e.2.st = .free ∨ e.2.owner ≠ p.val ∨ e.2.away = true) →
      Runs (.replayEnable p v) s (fun t => s.onlyIn t { regs := true, sp := true } ∧ t.partReplay p = v ∧ (∀ q, q < 16 → q ≠ p.val → t.partReplay q = s.partReplay q)
        ∧ (v = true → (t.spOf p).next = 0 ∧ (t.spOf p).hznAt = some s.tim.expo) ∧ (v = false → t.spOf p = s.spOf p)
        ∧ (∀ q, q ≠ p.val → t.spOf q = s.spOf q) ∧ s.bitsBut t [f_AUD_PART_REPLAY])) :)
  ∧ (∀ (s : State) (p : Fin 16) (e : Nat), s.live = true → (s.spOf p).hznAt = some e → s.partReplay p = true → (s.spOf p).phase = .idle
      → (s.spOf p).halt = 0 → (∀ h, s.horizon p = some h → h < s.rplCut p (s.spOf p).next) → s.get f_AUD_RPL_CFG_TMO ≤ s.tim.expo - e →
    Runs (.replayHorizonTimeout p) s (fun t => s.onlyIn t { regs := true, flt := true, sp := true } ∧ t.spOf p = { s.spOf p with halt := 3, resumed := false }
      ∧ (∀ q, q ≠ p.val → t.spOf q = s.spOf q) ∧ t.get (f_SRV_PART_CTL_HALTED p) = 1 ∧ t.get f_AUD_STATUS_RPL_TMO = 1
      ∧ s.sends t 0x280 0x34 ((s.spOf p).next % 2 ^ 48) (p.val + 2 ^ 15)
      ∧ s.bitsBut t [f_SRV_PART_CTL_HALTED p, f_AUD_STATUS_RPL_TMO, f_AUD_STATUS_RPL_TMO.count]) :))
  ∧ ((∀ s : State, s.live = true → swf {} s.srv.ctx = true →
    let due (n : Nat) : Prop := (s.ctx n).away = false ∧ s.partReplay (s.ctx n).owner = false ∧ s.cmdDue n (s.ctx n) = false
      ∧ (s.ctx n).expires (s.tim.tick) = true
    Runs .contextExpiry s (fun t =>
      (∀ n, due n → (t.ctx n).st = .expired ∧ (t.ctx n).reason = 6 ∧ (t.ctx n).archUnits = 0)
      ∧ (∀ n, ¬due n → t.ctx n = s.ctx n) ∧ ((∃ n, due n) → t.get f_SRV_STATUS_EXPIRED = 1) ∧ ((∀ n, ¬due n) → t = s)
      ∧ t.mem = s.mem ∧ t.arr = s.arr ∧ t.sig = s.sig ∧ t.rad = s.rad ∧ t.syn = s.syn ∧ t.tim = s.tim ∧ t.hst = s.hst ∧ t.srv.used = s.srv.used) :)
  ∧ (∀ (s : State) (u : BitVec 28), s.live = true →
    let l := sget [] s.ms.bulkCpl 0
    ((∀ c ∈ l, c.sub ≠ .zero u.toNat) → (∀ e ∈ s.srv.ctx, e.2.reloading ≠ 1) → exec (.pageZeroFillComplete u) s = .next s)
    ∧ (∀ c e, l.find? (fun c => c.sub == .zero u.toNat) = some c → s.srv.zero.find? (fun e => e.1 == u.toNat) = some e →
      Runs (.pageZeroFillComplete u) s (fun t => s.onlyIn t { regs := true, mem := true, ms := true, srv := true, acct := true, free := true }
        ∧ sget [] t.ms.bulkCpl 0 = l.erase c
        ∧ t.srv.zero = (if c.status = 0 then s.srv.zero.erase e else s.srv.zero)
        ∧ t.srv.used = s.srv.used ∧ t.srv.leave = s.srv.leave ∧ t.srv.gen = s.srv.gen
        ∧ (c.status = 0 → ∀ p, p < 16 → t.get (f_SRV_PART_ZERO_ZEROING p) = t.zeroing p % 2 ^ 28)
        ∧ (c.status ≠ 0 → t.mem = s.mem)
        ∧ (∀ n, (s.ctx n).reloading ≠ 1 → t.ctx n = s.ctx n)
        ∧ (∀ n, (s.ctx n).reloading = 1 → (∀ r ∈ s.copyRuns (s.ctx n), t.runReady r (s.ctxUnits (s.ctx n)) = true) → (t.ctx n).reloading = 2))) :)
  ∧ (∀ (s : State) (n : BitVec 18) (ns : Nat), s.live = true →
    let c := s.ctx n.toNat
    let l := (sget [] s.ms.bulkCpl 0).filter (fun x => x.sub == .copy n.toNat)
    (c.st ≠ .pausing ∨ s.bulkWaits (.copy n.toNat) = true → exec (.archiveCopyComplete n ns) s = .next s)
    ∧ (c.st = .pausing → s.bulkWaits (.copy n.toNat) = false → (∃ x ∈ l, x.status ≠ 0) →
      Runs (.archiveCopyComplete n ns) s (fun t => (t.ctx n.toNat).st = .expired ∧ (t.ctx n.toNat).reason = 9 ∧ (t.ctx n.toNat).archUnits = 0
        ∧ (∀ k, k ≠ n.toNat → t.ctx k = s.ctx k) ∧ t.mem = s.mem ∧ t.arr = s.arr ∧ t.sig = s.sig ∧ t.hst = s.hst ∧ t.tim = (s.atNs ns).tim))
    ∧ (c.st = .pausing → s.bulkWaits (.copy n.toNat) = false → (∀ x ∈ l, x.status = 0) →
      Runs (.archiveCopyComplete n ns) s (fun t =>
        (c.late = false → (t.ctx n.toNat).expiry = s.expiryFrom c (s.partTick c.owner) ∧ (t.ctx n.toNat).root = 0 ∧ (t.ctx n.toNat).leaf = []
          ∧ (t.ctx n.toNat).archAddr = c.archAddr ∧ (t.ctx n.toNat).archUnits = c.archUnits ∧ t.mem = s.mem)
        ∧ (c.late = false → c.autoResume = false → (t.ctx n.toNat).st = .paused)
        ∧ (c.late = false → c.autoResume = true → (t.ctx n.toNat).st = .queued ∧ (t.ctx n.toNat).resume = true)
        ∧ (c.late = true → (t.ctx n.toNat).st = .free ∧ (t.ctx n.toNat).reason = 4)
        ∧ (∀ j, j ≠ n.toNat → t.ctx j = s.ctx j) ∧ t.arr = s.arr ∧ t.sig = s.sig ∧ t.hst = s.hst ∧ t.tim = (s.atNs ns).tim)) :)
  ∧ (∀ (s : State) (n : BitVec 18) (ns : Nat), s.live = true →
    let c := s.ctx n.toNat
    let l := (sget [] s.ms.bulkCpl 0).filter (fun x => x.sub == .reload n.toNat)
    (c.reloading ≠ 2 ∨ s.bulkWaits (.reload n.toNat) = true → exec (.archiveReloadComplete n ns) s = .next s)
    ∧ (c.reloading = 2 → s.bulkWaits (.reload n.toNat) = false → (∀ x ∈ l, x.status = 0) →
      Runs (.archiveReloadComplete n ns) s (fun t => s.onlyIn t { regs := true, tim := true, ms := true, srv := true, acct := true, free := true }
        ∧ t.tim = (s.atNs ns).tim
        ∧ t.ctx n.toNat = { c with reloading := 0, archAddr := 0, archUnits := 0 } ∧ (∀ j, j ≠ n.toNat → t.ctx j = s.ctx j)
        ∧ (∀ x ∈ sget [] t.ms.bulkCpl 0, x.sub ≠ .reload n.toNat)))
    ∧ (c.reloading = 2 → s.bulkWaits (.reload n.toNat) = false → (∃ x ∈ l, x.status ≠ 0) →
      Runs (.archiveReloadComplete n ns) s (fun t => s.onlyIn t { regs := true, tim := true, ms := true, srv := true, acct := true, free := true }
        ∧ t.tim = (s.atNs ns).tim
        ∧ (∀ j, j ≠ n.toNat → t.ctx j = s.ctx j) ∧ (t.ctx n.toNat).archAddr = c.archAddr ∧ (t.ctx n.toNat).archUnits = c.archUnits
        ∧ (t.ctx n.toNat).reloading = (if (s.copyRuns c).all (fun r => s.runReady r (s.ctxUnits c)) then 2 else 1))) :))

/-- R232, R233, R259, R470: a context command is taken in and waits for the planning of its partition; one on a context that has none ends
with STATE; CTX_TREE acts at once. R234, R235, R470, R521, R523: MODEL_LOAD fills a slot from a descriptor in range, MODEL_UNLOAD empties
one that no live context names, and PART_MODEL gives a partition its model and its serving job, pending. Clauses may rest on choices of the
model: log entries 41 and 61. -/
def Obligations.ServingCommands : Prop :=
  ((∀ (s : State) (w : Fin 128) (op : Nat) (i : Instr) (c : Cmd), s.live = true → s.frontCmd w op = some c
      → (op = 0x10 ∧ i = .ctxOpen w) ∨ (op = 0x11 ∧ i = .ctxPrefill w) ∨ (op = 0x12 ∧ i = .ctxPause w) ∨ (op = 0x13 ∧ i = .ctxResume w)
        ∨ (op = 0x14 ∧ i = .ctxClose w) ∨ (op = 0x16 ∧ i = .ctxDigest w) →
    let n := c.at 0x10 4 % 2 ^ 18
    let x := s.ctx n
    let opening (p : Nat) : Prop := ∃ q ∈ (s.spOf p).cmds, q.op = 0x10 ∧ q.ctx = n
    let taken (p : Nat) : Prop := Runs i s (fun t => s.onlyIn t { hst := true, sp := true }
      ∧ t.spOf p = { s.spOf p with cmds := (s.spOf p).cmds ++ [{ win := w, pos := c.pos, home := s.chipId, op := op, ctx := n, arrival := c.arrival
                                                                 ns := c.ns, body := c.body, log := if s.winReplay w then 1 else 0 }] }
      ∧ (∀ q, q ≠ p → t.spOf q = s.spOf q) ∧ (∀ v, v ≠ w.val → t.winOf v = s.winOf v)
      ∧ (t.winOf w).cmds = (s.winOf w).cmds.map (fun d => if d.pos = c.pos then { d with begun := true } else d))
    (op = 0x10 → taken (bits (c.at 0x10 4) 21 18))
    ∧ (op ≠ 0x10 → x.st ≠ .free → taken (if x.away then x.part else x.owner))
    ∧ (op ≠ 0x10 → x.st = .free → (∀ p, p < 16 → ¬opening p) → Runs i s (fun t => s.completes t w c 6 0 ∧ t.srv = s.srv ∧ t.sp = s.sp ∧ s.memSame t))
    ∧ (op ≠ 0x10 → x.st = .free → ∀ p, p < 16 → opening p → (∀ q, q < p → ¬opening q) → taken p) :)
  ∧ (∀ (s : State) (w : Fin 128) (c : Cmd), s.live = true → s.frontCmd w 0x15 = some c →
    let n := c.at 0x10 4 % 2 ^ 18
    let a := c.at 0x28 8
    let owner := wOwner (s.ownWord n) / 16
    let far : Prop := (s.ctx n).away = true ∧ s.isHome (s.ctx n) = true ∧ wState (s.ownWord n) = 1 ∧ owner ≠ s.chipId
    ((s.ctx n).st ≠ .free → ¬far → Runs (.ctxTree w) s (fun t => s.completes t w c 0 0
      ∧ t.ctx n = { s.ctx n with hostTree := if bitAt a 63 then (if w.val < 64 then 0x400000000000 else 0x500000000000) + w.val % 64 * 2 ^ 37 + a % 2 ^ 37 else a }
      ∧ (∀ k, k ≠ n → t.ctx k = s.ctx k) ∧ t.sp = s.sp ∧ s.memSame t))
    ∧ ((s.ctx n).st ≠ .free → far → s.quiet → s.canReach owner → Runs (.ctxTree w) s (fun t => t.srv.ctx = s.srv.ctx ∧ t.sp = s.sp ∧ s.memSame t
      ∧ (t.winOf w).cmds = (s.winOf w).cmds.map (fun d => if d.pos = c.pos then { d with begun := true } else d)
      ∧ ∃ r ∈ t.net.reqs, r.who = .serve ∧ r.done = none ∧ r.pkt.op = 8 ∧ r.pkt.dst = owner
        ∧ r.pkt.srv.take 6 = [1, w.val, c.pos, 0x15, n, c.arrival]))
    ∧ ((s.ctx n).st = .free → Runs (.ctxTree w) s (fun t => s.completes t w c 6 0 ∧ t.srv = s.srv ∧ t.sp = s.sp ∧ s.memSame t)) :)
  ∧ (∀ (s : State) (p n : Nat) (k : SrvCmd), k.ctx = n →
    let t := s.applyCtx p k
    (∀ m : Model, k.op = 0x10 → (s.ctx n).st = .free → (s.ctx n).leaving = false → wState (s.ownWord n) = 0 → s.role p = 0 ∨ s.role p = 3 → s.modelOf (k.at 0x18 4) = some m
        → (s.spOf p).model = some (k.at 0x18 4) → k.at 0x30 4 ≤ m.maxCtx → k.at 0x60 1 = 0 →
      (t.ctx n).st = .queued ∧ (t.ctx n).model = k.at 0x18 4 ∧ (t.ctx n).seed = k.at 0x20 8 ∧ (t.ctx n).promptLen = k.at 0x30 4
      ∧ (t.ctx n).genLimit = k.at 0x34 4 ∧ (t.ctx n).owner = p ∧ (t.ctx n).home = s.chipId ∧ (t.ctx n).pos = 0 ∧ (t.ctx n).arrival = k.arrival
      ∧ (t.ctx n).prio = k.at 0x14 1 % 8 ∧ (t.ctx n).autoResume = bitAt (k.at 0x14 1) 4)
    ∧ (k.op = 0x11 → (s.ctx n).st = .expired → (t.ctx n).st = .queued ∧ (t.ctx n).resume = false ∧ (t.ctx n).pos = 0 ∧ (t.ctx n).promptDone = 0
        ∧ (t.ctx n).promptLen = k.at 0x30 4 ∧ (t.ctx n).arrival = k.arrival)
    ∧ (k.op = 0x13 → (s.ctx n).st = .paused → k.arrival < (s.ctx n).expiry → (t.ctx n).st = .queued ∧ (t.ctx n).resume = true ∧ (t.ctx n).arrival = k.arrival)
    ∧ (k.op = 0x12 → (s.ctx n).st = .prefill ∨ (s.ctx n).st = .decode →
        ((t.ctx n).st = .pausing ∧ (t.ctx n).reason = 4) ∨ ((t.ctx n).st = .expired ∧ (t.ctx n).reason = 7))
    ∧ (k.op = 0x14 → (s.ctx n).st ≠ .free → (s.ctx n).st ≠ .pausing → (t.ctx n).st = .free ∧ (t.ctx n).reason = 4
        ∧ ((t.ctx n).leaving = true ↔ (s.ctx n).st = .prefill ∨ (s.ctx n).st = .decode))
    ∧ (k.op = 0x14 → k.pos = 2 ^ 32 → (s.ctx n).st = .pausing → t.ctx n = { s.ctx n with late := true })
    ∧ (k.op = 0x11 ∧ (s.ctx n).st ≠ .expired ∨ k.op = 0x13 ∧ ((s.ctx n).st ≠ .paused ∨ (s.ctx n).expiry ≤ k.arrival)
        ∨ k.op = 0x12 ∧ (s.ctx n).st ≠ .prefill ∧ (s.ctx n).st ≠ .decode → t.ctx n = s.ctx n ∧ t = s.endCtxCmd k 6 [])
    ∧ ∀ j, j ≠ n → t.ctx j = s.ctx j :))
  ∧ ((∀ (s : State) (w : Fin 129) (data : Option (List Byte)) (c : Cmd), s.live = true → s.frontCmd w 0x30 = some c →
    let slot := c.at 0x10 1
    let a := s.cmdAddr w (c.at 0x18 8)
    let old := s.model slot
    let host : Prop := s.region a = .hostA ∨ s.region a = .hostB
    (∀ (u : State) (desc : List Byte),
        ((s.region a = .lpddr ∨ s.region a = .stage) ∧ s.plain a 128 ∧ desc = s.readBytes a 128 ∧ u = s)
        ∨ (host ∧ ∃ port pasid h d, s.hostAddr a 128 = some (port, pasid, h) ∧ data = some d ∧ desc = padTo 128 d
            ∧ u = s.hostR (s.winSlot w) port (pasid.getD 0) h 128) →
      let m : Model := { loaded := true, count := (old.count + 1) % 2 ^ 26, desc := desc }
      (m.ok = true → (old.loaded = false ∨ s.modelNamed (s.modelHandle slot) = false) →
        Runs (.modelLoad w data) s (fun t => t.model slot = m ∧ (∀ k, k ≠ slot → t.model k = s.model k) ∧ u.completes t w c 0 (slot + 64 * m.count)
          ∧ s.records t 3 0 144 (leBytes 1 slot ++ leBytes 1 1 ++ leBytes 2 0 ++ leBytes 4 (slot + 64 * m.count) ++ m.digest ++ padTo 48 m.desc)
          ∧ t.srv.ctx = s.srv.ctx ∧ t.sp = s.sp ∧ s.memSame t))
      ∧ (m.ok = true → old.loaded = true → s.modelNamed (s.modelHandle slot) = true →
        Runs (.modelLoad w data) s (fun t => u.completes t w c 6 0 ∧ t.srv = s.srv ∧ t.aud = s.aud ∧ s.memSame t))
      ∧ (m.ok = false → Runs (.modelLoad w data) s (fun t => u.completes t w c 4 0 ∧ t.srv = s.srv ∧ t.aud = s.aud ∧ s.memSame t)))
    ∧ (host → (s.hostAddr a 128 = none ∨ data = none) →
      Runs (.modelLoad w data) s (fun t => (t.winOf w).cmds = (s.winOf w).cmds.filter (fun d => d.pos ≠ c.pos)
        ∧ s.entryOut t w (cplEntry 3 1 c.op c.ctxWord 0 (c.arrival % 2 ^ 32) c.tag) ∧ t.srv = s.srv ∧ t.aud = s.aud ∧ s.memSame t)) :)
  ∧ (∀ (s : State) (w : Fin 129) (c : Cmd), s.live = true → s.frontCmd w 0x31 = some c →
    let h := c.at 0x10 4
    (s.modelOf h = none → Runs (.modelUnload w) s (fun t => s.completes t w c 7 0 ∧ t.srv = s.srv ∧ s.memSame t))
    ∧ (s.modelOf h ≠ none → s.modelNamed h = true → Runs (.modelUnload w) s (fun t => s.completes t w c 6 0 ∧ t.srv = s.srv ∧ s.memSame t))
    ∧ (s.modelOf h ≠ none → s.modelNamed h = false → Runs (.modelUnload w) s (fun t => s.completes t w c 0 0
        ∧ t.model (h % 64) = { s.model (h % 64) with loaded := false, desc := [] } ∧ (∀ k, k ≠ h % 64 → t.model k = s.model k)
        ∧ t.modelOf h = none ∧ t.srv.ctx = s.srv.ctx ∧ t.sp = s.sp ∧ s.memSame t)) :)
  ∧ (∀ (s : State) (w : Fin 129) (c : Cmd), s.live = true → s.frontCmd w 0x32 = some c →
    let h := c.at 0x14 4
    let p := c.at 0x10 1 % 16
    let unused : Prop := ∀ e ∈ s.srv.ctx, e.2.st = .free ∨ (e.2.owner ≠ p ∧ (e.2.part ≠ p ∨ s.isHome e.2 = false))
    let refused (code : Nat) : Prop := Runs (.partModel w) s (fun t => s.completes t w c code 0 ∧ t.sp = s.sp ∧ t.hst.jobs = s.hst.jobs ∧ s.memSame t)
    (s.modelOf h = none → refused 7)
    ∧ (∀ m : Model, s.modelOf h = some m → ¬unused → refused 6)
    ∧ (∀ m : Model, s.modelOf h = some m → unused → s.partAudited p = true → m.anchorKind = 2 → refused 7)
    ∧ (∀ (m : Model) (j0 : Job), s.modelOf h = some m → unused → ¬(s.partAudited p = true ∧ m.anchorKind = 2) → (s.spOf p).job.bind s.jobOf = some j0 →
      Runs (.partModel w) s (fun t => (t.spOf p).model = some h ∧ (t.spOf p).modelArrival = c.arrival ∧ t.get (f_SRV_PART_CFG_MODEL p) = h % 64
        ∧ ∃ j ∈ t.hst.jobs, (t.spOf p).job = some j.id ∧ j.st = .pending ∧ j.serve = some p ∧ j.part = p ∧ j.entry = c.at 0x34 8 ∧ j.arrays = c.at 0x18 8))
    ∧ (∀ m : Model, s.modelOf h = some m → unused → ¬(s.partAudited p = true ∧ m.anchorKind = 2) → (s.spOf p).job.bind s.jobOf = none →
      let id := (if w.val = 128 then 0xFF else w.val) * 2 ^ 24 + ((s.winOf w).jobs + 1) % 2 ^ 24
      Runs (.partModel w) s (fun t => s.completes t w c 0 id ∧ t.spOf p = { s.spOf p with job := some id, model := some h, modelArrival := c.arrival }
        ∧ (∀ q, q ≠ p → t.spOf q = s.spOf q) ∧ t.get (f_SRV_PART_CFG_MODEL p) = h % 64 ∧ t.srv = s.srv
        ∧ ∃ j : Job, t.hst.jobs = s.hst.jobs ++ [j] ∧ j.id = id ∧ j.st = .pending ∧ j.serve = some p ∧ j.part = p ∧ j.prio = c.at 0x11 1 % 8
            ∧ j.entry = c.at 0x34 8 ∧ j.arrays = c.at 0x18 8 ∧ j.arrival = c.arrival)) :))

/-! Ownership, compositions and accounting (chapter 8, R273 to R300). -/

/-- R282, R283, R286, R343: an operation of a kind on the ownership record at home changes the record only when it holds the word that the
sender expects, and answers the word found; a request that was already applied is answered from the dedupe table and not applied again. R276
to R279, R284, R285, R288, R289: a hand-over: release by the owner, the notice at its target, its acknowledgement, a refusal, a time-out
that orphans the record, and the reassignment of an orphaned one. Clauses may rest on choices of the model: log entries 62 and 63. -/
def Obligations.OwnershipAndHandOver : Prop :=
  ((∀ (s u : State) (src : BitVec 12) (op : OwnOp) (i : Instr) (k : Pkt), s.live = true → s.valid = true
      → (op = .release ∧ i = .ownRelease src) ∨ (op = .acquire ∧ i = .ownAcquire src) ∨ (op = .redirect ∧ i = .ownRedirect src) ∨ (op = .close ∧ i = .ownClose src)
      → s.takeReq src.toNat 3 (fun q => q.own && ownOp q.compare q.operand == some op) = some (k, u) → k.operand < 2 ^ 64 →
    let n := u.ownIndex k.addr
    let d := u.dedupAt k.src 0
    let e := u.reg64 r_SRV_CTX_BASE_LO + n * 256
    u.newTag k → (d + 8192 ≤ u.ownAt n ∨ u.ownAt n + 32 ≤ d) → (d + 8192 ≤ e ∨ e + 256 ≤ d) → (e + 256 ≤ u.ownAt n ∨ u.ownAt n + 32 ≤ e) →
    (u.ownWord n ≠ k.compare → Runs i s (fun t => u.onlyIn t { answerParts with mem := true } ∧ u.answered t k 0 (u.ownWord n) false []
        ∧ t.tagHeld k 0 (u.ownWord n) ∧ u.memBut t (u.dedupAt k.src (k.atag % 256)) 32 ∧ u.bitsBut t noRouteFields))
    ∧ (u.ownWord n = k.compare → op = .release ∨ op = .redirect ∨ op = .acquire →
        Runs i s (fun t => u.onlyIn t { answerParts with mem := true, srv := true } ∧ u.answered t k 0 (u.ownWord n) false []
        ∧ t.tagHeld k 0 (u.ownWord n) ∧ t.ownWord n = k.operand ∧ t.ownRelNs n = (if op = .acquire then 0 else u.now % 2 ^ 64)
        ∧ (∀ a, (a < u.dedupAt k.src (k.atag % 256) ∨ u.dedupAt k.src (k.atag % 256) + 32 ≤ a) → (a < u.ownAt n ∨ u.ownAt n + 32 ≤ a)
            → (op = .acquire ∨ a < e ∨ e + 256 ≤ a) → t.readByte a = u.readByte a)
        ∧ (op = .release ∨ op = .redirect → t.readBytes e 256 = (t.ctx n).bytes (t.unitsFixed (t.ctx n)))
        ∧ (op = .release → (t.ctx n).away = true) ∧ (op = .release ∨ op = .redirect → (t.ctx n).epoch = wEpoch k.operand)
        ∧ (op = .acquire → t.get f_CMP_HANDOVERS_COUNT = min (u.get f_CMP_HANDOVERS_COUNT + 1) (2 ^ 32 - 1))
        ∧ (op = .acquire → wOwner k.operand / 16 = u.chipId → (t.ctx n).away = false ∧ (t.ctx n).owner = wOwner k.operand % 16)
        ∧ (∀ j, j ≠ n → t.ctx j = u.ctx j)))
    ∧ (u.ownWord n = k.compare → op = .close → Runs i s (fun t => t.ownWord n = 0 ∧ (t.ctx n).st = .free ∧ (∀ j, j ≠ n → t.ctx j = u.ctx j))) :)
  ∧ (∀ (s u : State) (src : BitVec 12) (op : OwnOp) (i : Instr) (k : Pkt), s.live = true → s.valid = true
      → (op = .release ∧ i = .ownRelease src) ∨ (op = .acquire ∧ i = .ownAcquire src) ∨ (op = .redirect ∧ i = .ownRedirect src) ∨ (op = .close ∧ i = .ownClose src)
      → s.takeReq src.toNat 3 (fun q => q.own && ownOp q.compare q.operand == some op) = some (k, u) →
    let d := u.dedupAt k.src 0
    let a := u.dedupAt k.src (k.atag % 256)
    u.readLE (d + 0x1A) 1 % 2 = 1 → u.readLE (d + 0x18) 2 = k.sepoch → u.readLE (a + 6) 1 = 128 → u.readLE (a + 4) 2 = k.sepoch → u.readLE a 4 = k.atag →
    Runs i s (fun t => u.onlyIn t answerParts ∧ u.answered t k 0 (u.readLE (a + 0x10) 8) false []
      ∧ t.get f_AVL_DEDUP_HIT_CNT_COUNT = min (u.get f_AVL_DEDUP_HIT_CNT_COUNT + 1) (2 ^ 32 - 1)
      ∧ u.bitsBut t (f_AVL_DEDUP_HIT_CNT_COUNT :: noRouteFields)) :))
  ∧ ((∀ (s : State) (n : BitVec 18), s.live = true
      → ((s.ctx n.toNat).hand = false ∨ (s.ctx n.toNat).rel = true ∨ (s.ctx n.toNat).away = true
        ∨ (s.ctx n.toNat).reloading ≠ 0 ∨ s.fenceHome (s.ctx n.toNat).home = false) →
    exec (.handoverRelease n) s = .next s :)
  ∧ (∀ (s : State) (n : BitVec 18), s.live = true →
    let c := s.ctx n.toNat
    c.hand = true → c.rel = false → c.away = false → c.reloading = 0 → s.fenceHome c.home = true
      → (s.partComp c.owner).bind (fun k => (s.comp k).cfg.route c.wantsDecode c.homeCtx) = none →
    Runs (.handoverRelease n) s (fun t => t.get f_CMP_STATUS_NO_ROUTE = 1 ∧ (∀ j, j ≠ n.toNat → t.ctx j = s.ctx j)
      ∧ (((t.ctx n.toNat).st = .pausing ∧ (t.ctx n.toNat).reason = 4) ∨ ((t.ctx n.toNat).st = .expired ∧ (t.ctx n.toNat).reason = 7))) :)
  ∧ (∀ (s : State) (n : BitVec 18) (k g : Nat), s.live = true →
    let c := s.ctx n.toNat
    let word := stateWord 2 (s.me c.owner) g (c.epoch + 1)
    let e := s.reg64 r_SRV_CTX_BASE_LO + n.toNat * 256
    let r := s.ownAt n.toNat
    c.hand = true → c.rel = false → c.away = false → c.reloading = 0 → s.partComp c.owner = some k
      → (s.comp k).cfg.route c.wantsDecode c.homeCtx = some g →
    (s.isHome c = false → s.quiet → s.canReach c.home → s.reachOk 0 0 28 c.home (s.ownAt c.homeCtx) 8 = true →
      Runs (.handoverRelease n) s (fun t => (t.ctx n.toNat).rel = true ∧ (t.ctx n.toNat).target = g
        ∧ (∀ j, j ≠ n.toNat → t.ctx j = s.ctx j) ∧ s.memSame t
        ∧ ∃ r ∈ t.net.reqs, r.who = .serve ∧ r.done = none ∧ r.pkt.op = 3 ∧ r.pkt.own = true ∧ r.pkt.dst = c.home
          ∧ r.pkt.addr = s.ownAt c.homeCtx ∧ r.pkt.compare = stateWord 1 (s.me c.owner) 0 c.epoch ∧ r.pkt.operand = word))
    ∧ (s.isHome c = true → s.ownWord n.toNat = stateWord 1 (s.me c.owner) 0 c.epoch →
      Runs (.handoverRelease n) s (fun t => (t.ctx n.toNat).away = true ∧ (t.ctx n.toNat).epoch = wEpoch word ∧ (t.ctx n.toNat).hand = false
        ∧ (∀ j, j ≠ n.toNat → t.ctx j = s.ctx j)
        ∧ (c.pt = [] → e + 256 ≤ r ∨ r + 32 ≤ e → t.ownWord n.toNat = word % 2 ^ 64 ∧ t.ownRelNs n.toNat = s.now % 2 ^ 64
            ∧ ∀ a, (a < r ∨ r + 32 ≤ a) → (a < e ∨ e + 256 ≤ a) → t.readByte a = s.readByte a)
        ∧ (g / 16 = s.chipId → ∃ q, t.net.inbox = s.net.inbox ++ [q] ∧ q.op = 8 ∧ q.src = s.chipId
            ∧ q.srv.take 5 = [0, g % 16, s.chipId, c.homeCtx, wEpoch word])))
    ∧ (s.isHome c = true → s.ownWord n.toNat ≠ stateWord 1 (s.me c.owner) 0 c.epoch → Runs (.handoverRelease n) s (fun t =>
        s.onlyIn t { srv := true } ∧ t.ctx n.toNat = { c with hand := false, away := true } ∧ ∀ j, j ≠ n.toNat → t.ctx j = s.ctx j)) :)
  ∧ (∀ (s u : State) (src : BitVec 12) (k : Pkt), s.live = true → s.valid = true → src.toNat = s.chipId
      → s.takeReq src.toNat 8 (fun q => q.srv.getD 0 0 == 0) = some (k, u) →
    let f (i : Nat) : Nat := k.srv.getD i 0
    let code := (u.noticeCode (f 5) (f 6) (f 1)).1
    Runs (.handoverNotice src) s (fun t => u.onlyIn t { net := true, own := true } ∧ t.own.comp = u.own.comp
      ∧ (code = 0 → t.own.notices = u.own.notices ++ [{ part := f 1, home := f 2, ctx := f 3, epoch := f 4, comp := f 5, cepoch := f 6, frm := f 7,
                                                         tick := u.tim.tick, entry := k.srv.drop 8 }])
      ∧ (code ≠ 0 → t.own = u.own)
      ∧ ∃ q, t.net.inbox = u.net.inbox ++ [q] ∧ q.op = 9 ∧ q.src = s.chipId ∧ q.srv.headD 0 = code ∧ q.srv.drop 2 = k.srv.drop 1) :)
  ∧ (∀ (s u : State) (src : BitVec 12) (k : Pkt), s.live = true → s.valid = true → src.toNat ≠ s.chipId
      → s.takeReq src.toNat 8 (fun q => q.srv.getD 0 0 == 0) = some (k, u) → u.newTag k →
    let f (i : Nat) : Nat := k.srv.getD i 0
    let code := (u.noticeCode (f 5) (f 6) (f 1)).1
    Runs (.handoverNotice src) s (fun t => t.tagHeld k 0 0 ∧ u.memBut t (u.dedupAt k.src (k.atag % 256)) 32 ∧ t.srv = u.srv
      ∧ (code = 0 → t.own.notices = u.own.notices ++ [{ part := f 1, home := f 2, ctx := f 3, epoch := f 4, comp := f 5, cepoch := f 6, frm := f 7,
                                                         tick := u.tim.tick, entry := k.srv.drop 8 }])
      ∧ (code ≠ 0 → t.own = u.own)) :)
  ∧ (∀ (s : State) (id cepoch part : Nat) (j : Nat), s.compById id = some j →
    let x := s.comp j
    (x.st = .down → s.noticeCode id cepoch part = (2, x.cfg.epoch))
    ∧ (x.st ≠ .down → s.get (f_CMP_PART_CTL_DSTATE part) ≠ 0 → s.noticeCode id cepoch part = (1, x.cfg.epoch))
    ∧ (x.st ≠ .down → s.get (f_CMP_PART_CTL_DSTATE part) = 0 → (x.cfg.epoch = cepoch ∨ (x.shut = false ∧ ∃ o, x.old = some o ∧ o.epoch = cepoch)) →
        s.noticeCode id cepoch part = (0, x.cfg.epoch))
    ∧ (x.st ≠ .down → s.get (f_CMP_PART_CTL_DSTATE part) = 0 → x.cfg.epoch ≠ cepoch → (x.shut = true ∨ ∀ o, x.old = some o → o.epoch ≠ cepoch) →
        s.noticeCode id cepoch part = (1, x.cfg.epoch)) :)
  ∧ (∀ (s : State) (id cepoch part : Nat), s.compById id = none → s.noticeCode id cepoch part = (1, 0) :)
  ∧ (∀ (s u : State) (src : BitVec 12) (k : Pkt), s.live = true → s.valid = true → src.toNat = s.chipId
      → s.takeReq src.toNat 9 (fun q => q.srv.getD 0 0 == 0) = some (k, u) → exec (.noticeAck src) s = .next u :)
  ∧ (∀ (s u : State) (src : BitVec 12) (k : Pkt), s.live = true → s.valid = true → src.toNat ≠ s.chipId
      → s.takeReq src.toNat 9 (fun q => q.srv.getD 0 0 == 0) = some (k, u) → u.newTag k →
    Runs (.noticeAck src) s (fun t => u.onlyIn t { answerParts with mem := true, own := true }
      ∧ (∀ j, u.compById (k.srv.getD 6 0) = some j → (u.comp j).cfg.epoch = k.srv.getD 7 0 → t.comp j = { u.comp j with curIn := (u.comp j).curIn - 1 })
      ∧ (∀ j, u.compById (k.srv.getD 6 0) = some j → (u.comp j).cfg.epoch ≠ k.srv.getD 7 0 → (∃ o, (u.comp j).old = some o ∧ o.epoch = k.srv.getD 7 0) →
          t.comp j = { u.comp j with oldIn := (u.comp j).oldIn - 1 })
      ∧ (∀ i, u.compById (k.srv.getD 6 0) ≠ some i → t.comp i = u.comp i) ∧ u.answered t k 0 0 false [] ∧ t.tagHeld k 0 0
      ∧ u.memBut t (u.dedupAt k.src (k.atag % 256)) 32) :)
  ∧ (∀ (s u : State) (src : BitVec 12) (k : Pkt), s.live = true → s.valid = true → src.toNat = s.chipId
      → s.takeReq src.toNat 9 (fun q => decide (q.srv.getD 0 0 ≠ 0)) = some (k, u) → u.compById (k.srv.getD 6 0) = none →
    Runs (.staleRouteNack src) s (fun t => u.onlyIn t { regs := true }
      ∧ (k.srv.getD 0 0 = 1 → t.get f_CMP_STALE_ROUTES_COUNT = min (u.get f_CMP_STALE_ROUTES_COUNT + 1) (2 ^ 32 - 1) ∧ t.get f_CMP_STATUS_STALE_ROUTE = 1)
      ∧ (k.srv.getD 0 0 ≠ 1 → t.get f_CMP_STATUS_COMP_DOWN = 1)) :)
  ∧ (∀ (s u : State) (src : BitVec 12) (k : Pkt) (j g : Nat), s.live = true → s.valid = true → src.toNat = s.chipId
      → s.takeReq src.toNat 9 (fun q => decide (q.srv.getD 0 0 ≠ 0)) = some (k, u) →
    let f (i : Nat) : Nat := k.srv.getD (i + 1) 0
    let word := stateWord 2 (f 7) g (f 4 + 1)
    f 2 = s.chipId → u.compById (f 5) = some j → (u.comp j).cfg.route (({} : Ctx).ofBytes ((k.srv.drop 9).map (BitVec.ofNat 8))).wantsDecode (f 3) = some g
      → u.ownWord (f 3) = stateWord 2 (f 7) (s.chipId * 16 + f 1) (f 4) →
    let e := u.reg64 r_SRV_CTX_BASE_LO + f 3 * 256
    let r := u.ownAt (f 3)
    Runs (.staleRouteNack src) s (fun t => (t.ctx (f 3)).epoch = wEpoch word
      ∧ (e + 256 ≤ r ∨ r + 32 ≤ e → t.ownWord (f 3) = word % 2 ^ 64 ∧ t.ownRelNs (f 3) = u.now % 2 ^ 64)
      ∧ (∀ i, i ≠ f 3 → t.ctx i = u.ctx i) ∧ (∀ a, (a < r ∨ r + 32 ≤ a) → (a < e ∨ e + 256 ≤ a) → t.readByte a = u.readByte a) ∧ t.arr = u.arr ∧ t.sig = u.sig ∧ t.hst = u.hst) :)
  ∧ (∀ (s : State) (n : BitVec 18), s.live = true →
    let w := s.ownWord n.toNat
    let due : Prop := s.isHome (s.ctx n.toNat) = true ∧ wState w = 2 ∧ s.ownRelNs n.toNat + s.get f_CMP_HANDOVER_CFG_TMO_US * 1000 ≤ s.tim.tb
    (¬due → exec (.handoverTimeout n) s = .next s)
    ∧ (due → Runs (.handoverTimeout n) s (fun t => s.onlyIn t { regs := true, mem := true, flt := true } ∧ t.ownWord n.toNat = w + 1
        ∧ s.memBut t (s.ownAt n.toNat) 16 ∧ t.get f_CMP_ORPHANS_COUNT = min (s.get f_CMP_ORPHANS_COUNT + 1) (2 ^ 32 - 1)
        ∧ t.get f_CMP_STATUS_ORPHAN = 1 ∧ s.sends t 0x281 0x38 0 0
        ∧ s.bitsBut t [f_CMP_ORPHANS_COUNT, f_CMP_STATUS_ORPHAN, f_CMP_STATUS_ORPHAN.count])) :)
  ∧ (∀ (s : State) (v : BitVec 32), s.live = true →
    let n := v.toNat % 2 ^ 18
    let rseq := s.get f_CMP_REASSIGN_RSEQ
    let g := s.get f_CMP_REASSIGN_TARGET_CHIP * 16 + s.get f_CMP_REASSIGN_TARGET_PART
    let e := (wEpoch (s.ownWord n) + 1) % 65536
    (bitAt v.toNat 31 = false → Runs (.reassignGo v) s (fun t => s.onlyIn t { regs := true } ∧ t.get f_CMP_REASSIGN_GO_CTX = n ∧ s.bitsBut t [f_CMP_REASSIGN_GO_CTX]))
    ∧ (bitAt v.toNat 31 = true → rseq = s.ownRseq n → Runs (.reassignGo v) s (fun t => s.onlyIn t { regs := true }
        ∧ t.get f_CMP_REASSIGN_RES_RSEQ = rseq ∧ t.get f_CMP_REASSIGN_RES_RESULT = 1))
    ∧ (bitAt v.toNat 31 = true → rseq ≠ s.ownRseq n → wState (s.ownWord n) ≠ 3 → Runs (.reassignGo v) s (fun t => s.onlyIn t { regs := true }
        ∧ t.get f_CMP_REASSIGN_RES_RSEQ = rseq ∧ t.get f_CMP_REASSIGN_RES_RESULT = 2))
    ∧ (bitAt v.toNat 31 = true → rseq ≠ s.ownRseq n → wState (s.ownWord n) = 3 → Runs (.reassignGo v) s (fun t =>
        t.get f_CMP_REASSIGN_RES_RESULT = 0 ∧ t.ownWord n = stateWord 2 (s.me (s.ctx n).part) g e % 2 ^ 64 ∧ t.ownRseq n = rseq % 65536
        ∧ t.ownRelNs n = s.now % 2 ^ 64 ∧ (t.ctx n).epoch = e ∧ (t.ctx n).away = true ∧ (∀ j, j ≠ n → t.ctx j = s.ctx j)
        ∧ s.memBut t (s.ownAt n) 32)) :))

/-- R283, R286: requests of an owner at home: an update under the epoch test, or refused with STALE_APPEND; a KV append the same; pages of a
closed context are freed. R278, R291, R293, R294: the end of an overlap, the retirement of an old map, the drain of a partition, and the
accounting snapshot. Clauses may rest on choices of the model: log entries 62 and 64. -/
def Obligations.OwnerRequestsAndDrains : Prop :=
  ((∀ (s u : State) (src : BitVec 12) (k : Pkt), s.live = true → s.valid = true → s.takeReq src.toNat 0xA (fun q => s.updateRoom q) = some (k, u)
      → src.toNat = s.chipId → u.epochOk (k.srv.getD 0 0) (k.srv.getD 1 0) k.src = false →
    Runs (.retirementUpdate src) s (fun t => u.onlyIn t { regs := true, flt := true } ∧ t.get f_CMP_STATUS_STALE_APPEND = 1
      ∧ t.get f_CMP_STALE_APPENDS_COUNT = min (u.get f_CMP_STALE_APPENDS_COUNT + 1) (2 ^ 32 - 1) ∧ u.sends t 0x281 0x39 0 0
      ∧ u.bitsBut t [f_CMP_STALE_APPENDS_COUNT, f_CMP_STATUS_STALE_APPEND, f_CMP_STATUS_STALE_APPEND.count]) :)
  ∧ (∀ (s u : State) (src : BitVec 12) (k : Pkt), s.live = true → s.valid = true → s.takeReq src.toNat 0xA (fun q => s.updateRoom q) = some (k, u)
      → src.toNat ≠ s.chipId → u.newTag k → u.epochOk (k.srv.getD 0 0) (k.srv.getD 1 0) k.src = false →
    Runs (.retirementUpdate src) s (fun t => u.onlyIn t { answerParts with mem := true } ∧ t.get f_CMP_STATUS_STALE_APPEND = 1
      ∧ t.get f_CMP_STALE_APPENDS_COUNT = min (u.get f_CMP_STALE_APPENDS_COUNT + 1) (2 ^ 32 - 1) ∧ u.answered t k 4 0 false [] ∧ t.tagHeld k 4 0
      ∧ u.memBut t (u.dedupAt k.src (k.atag % 256)) 32) :)
  ∧ (∀ (s u : State) (src : BitVec 12) (k : Pkt), s.live = true → s.valid = true → s.takeReq src.toNat 0xA (fun q => s.updateRoom q) = some (k, u)
      → src.toNat ≠ s.chipId → u.newTag k → u.epochOk (k.srv.getD 0 0) (k.srv.getD 1 0) k.src = true →
    let n := k.srv.getD 0 0
    ((u.ctx n).steps ≠ k.srv.getD 2 0 → Runs (.retirementUpdate src) s (fun t => u.onlyIn t { answerParts with mem := true } ∧ t.srv = u.srv
        ∧ u.answered t k 0 0 false [] ∧ t.tagHeld k 0 0 ∧ u.memBut t (u.dedupAt k.src (k.atag % 256)) 32))
    ∧ ((u.ctx n).steps = k.srv.getD 2 0 →
      let c := u.ctx n
      let r := readRecs (k.srv.getD 3 0) (k.srv.drop 4)
      let q := readEnts (r.2.headD 0) (r.2.drop 1)
      let d := { c.ofBytes (q.2.map (BitVec.ofNat 8)) with
        root := c.root, home := c.home, part := c.part, win := c.win, epoch := c.epoch, unitTicks := c.unitTicks }
      let e := u.reg64 r_SRV_CTX_BASE_LO + n * 256
      Runs (.retirementUpdate src) s (fun t => (∀ j, j ≠ n → t.ctx j = u.ctx j)
        ∧ (t.ctx n).st = d.st ∧ (t.ctx n).pos = d.pos ∧ (t.ctx n).genCount = d.genCount ∧ (t.ctx n).steps = d.steps ∧ (t.ctx n).loupe = d.loupe
        ∧ (t.spOf c.part).stream = (u.spOf c.part).stream ++ r.1.map (fun b => ({ win := c.win, home := c.home, bytes := b } : Rec).packet c.part)
        ∧ (d.st ≠ .expired → q.1.Pairwise (fun a b => a.1 ≠ b.1) → ∀ x ∈ q.1, sget {} (t.ctx n).pt x.1 = x.2)
        ∧ (d.st = .expired → (t.ctx n).pt = [] ∧ (t.ctx n).leaf = [] ∧ (t.ctx n).root = 0)
        ∧ (q.1 = [] → d.st ≠ .expired → t.ctx n = d ∧ u.answered t k 0 0 false [] ∧ t.tagHeld k 0 0
            ∧ ∀ a, (a < u.dedupAt k.src (k.atag % 256) ∨ u.dedupAt k.src (k.atag % 256) + 32 ≤ a) → (a < e ∨ e + 256 ≤ a) → t.readByte a = u.readByte a))) :)
  ∧ (∀ (s u : State) (src : BitVec 12) (k : Pkt), s.live = true → s.valid = true → s.takeReq src.toNat 2 (fun q => q.own) = some (k, u)
      → remoteRegion k.addr = true → u.writable k.addr k.data.length → k.data ≠ [] → u.ms.uncorr = [] → u.ms.corr = [] →
    (∀ n, u.pageOwner k.addr = some n → u.epochOk n k.epoch k.src = true → Runs (.kvAppend src) s (fun t =>
        u.onlyIn t { answerParts with mem := true } ∧ u.answered t k 0 0 false []
        ∧ (∀ i, i < k.data.length → t.readByte (k.addr + i) = k.data.getD i 0) ∧ u.memBut t k.addr k.data.length ∧ u.bitsBut t noRouteFields))
    ∧ ((∀ n, u.pageOwner k.addr = some n → u.epochOk n k.epoch k.src = false) → Runs (.kvAppend src) s (fun t => u.onlyIn t answerParts
        ∧ u.answered t k 4 0 false [] ∧ t.get f_CMP_STATUS_STALE_APPEND = 1
        ∧ t.get f_CMP_STALE_APPENDS_COUNT = min (u.get f_CMP_STALE_APPENDS_COUNT + 1) (2 ^ 32 - 1))) :)
  ∧ (∀ (s u : State) (src : BitVec 12) (k : Pkt) (h : Nat), s.live = true → s.valid = true → s.takeReq src.toNat 0xB (fun _ => true) = some (k, u)
      → k.srv = [h] →
    let v := hUnit h
    let len := sget 0 u.srv.used v
    (u.handleOk h = true → len ≠ 0 → src.toNat = s.chipId →
      Runs (.pageRelease src) s (fun t => u.onlyIn t { srv := true, ms := true, regs := true, acct := true, free := true } ∧ sget 0 t.srv.used v = 0
        ∧ t.srv.zero = u.srv.zero ++ [(v, len)] ∧ t.bulkWaits (.zero v) = true ∧ t.srv.leave = u.srv.leave
        ∧ t.genOf v = (u.genOf v + 1) % 65536 ∧ t.srv.ctx = u.srv.ctx ∧ ∀ j, j ≠ v → sget 0 t.srv.used j = sget 0 u.srv.used j))
    ∧ (u.handleOk h = true → len ≠ 0 → src.toNat ≠ s.chipId → u.newTag k →
      Runs (.pageRelease src) s (fun t => sget 0 t.srv.used v = 0 ∧ t.srv.zero = u.srv.zero ++ [(v, len)] ∧ t.genOf v = (u.genOf v + 1) % 65536
        ∧ t.srv.ctx = u.srv.ctx ∧ u.answered t k 0 0 false [] ∧ t.tagHeld k 0 0))
    ∧ (u.handleOk h = false → src.toNat = s.chipId → exec (.pageRelease src) s = .next u)
    ∧ (u.handleOk h = false → src.toNat ≠ s.chipId → u.newTag k →
      Runs (.pageRelease src) s (fun t => u.onlyIn t { answerParts with mem := true } ∧ t.srv = u.srv ∧ u.answered t k 1 0 false [] ∧ t.tagHeld k 1 0)) :))
  ∧ ((∀ (s : State) (k : Fin 16), s.live = true →
    let x := s.comp k
    (x.st = .overlap → s.get f_CMP_EPOCH_CFG_OVERLAP ≤ s.tim.expo - x.since → Runs (.overlapExpiry k) s (fun t => s.onlyIn t { own := true }
        ∧ t.comp k = { x with shut := true } ∧ ∀ j, j ≠ k.val → t.comp j = s.comp j))
    ∧ (x.st ≠ .overlap ∨ s.tim.expo - x.since < s.get f_CMP_EPOCH_CFG_OVERLAP → exec (.overlapExpiry k) s = .next s)
    ∧ (x.st = .overlap → x.shut = true → x.oldIn = 0 → Runs (.epochMapRetire k) s (fun t => s.onlyIn t { regs := true, flt := true, own := true, aud := true }
        ∧ t.comp k = { x with st := .active, old := none, shut := false } ∧ (∀ j, j ≠ k.val → t.comp j = s.comp j) ∧ s.bitsBut t audFields
        ∧ s.records t 8 0 96 (leBytes 1 x.cfg.id ++ leBytes 1 1 ++ leBytes 2 x.cfg.epoch ++ leBytes 4 0 ++ sha384 x.cfg.bytes)))
    ∧ (x.st ≠ .overlap ∨ x.shut = false ∨ x.oldIn ≠ 0 → exec (.epochMapRetire k) s = .next s) :)
  ∧ (∀ (s : State) (p : Fin 16), s.live = true →
    (s.get (f_CMP_PART_CTL_DSTATE p) = 0 → Runs (.partDrain p) s (fun t => s.onlyIn t { regs := true, sp := true } ∧ t.get (f_CMP_PART_CTL_DSTATE p) = 1
        ∧ t.get (f_CMP_PART_CTL_DRAIN p) = 1 ∧ t.spOf p = { s.spOf p with drainAt := s.tim.expo, drainTmo := false }
        ∧ (∀ q, q ≠ p.val → t.spOf q = s.spOf q) ∧ s.bitsBut t [f_CMP_PART_CTL_DSTATE p, f_CMP_PART_CTL_DRAIN p]))
    ∧ (s.get (f_CMP_PART_CTL_DSTATE p) ≠ 0 → exec (.partDrain p) s = .next s)
    ∧ (s.get (f_CMP_PART_CTL_DSTATE p) = 1 → s.drained p = true → Runs (.drainComplete p) s (fun t => s.onlyIn t { regs := true }
        ∧ t.get (f_CMP_PART_CTL_DSTATE p) = 2 ∧ s.bitsBut t [f_CMP_PART_CTL_DSTATE p]))
    ∧ (s.get (f_CMP_PART_CTL_DSTATE p) ≠ 1 ∨ s.drained p = false → exec (.drainComplete p) s = .next s)
    ∧ (s.get (f_CMP_PART_CTL_DSTATE p) = 1 → (s.spOf p).drainTmo = false → s.get f_CMP_DRAIN_CFG_TMO ≤ s.tim.expo - (s.spOf p).drainAt → (s.spOf p).phase ≠ .idle →
      Runs (.drainTimeout p) s (fun t => s.onlyIn t { regs := true, sp := true } ∧ t.spOf p = { s.spOf p with drainTmo := true }
        ∧ (∀ q, q ≠ p.val → t.spOf q = s.spOf q) ∧ t.get f_CMP_STATUS_DRAIN_TMO = 1 ∧ s.bitsBut t [f_CMP_STATUS_DRAIN_TMO, f_CMP_STATUS_DRAIN_TMO.count]))
    ∧ (s.get (f_CMP_PART_CTL_DSTATE p) = 1 → (s.spOf p).drainTmo = false → s.get f_CMP_DRAIN_CFG_TMO ≤ s.tim.expo - (s.spOf p).drainAt → (s.spOf p).phase = .idle
        → swf {} s.srv.ctx = true → Runs (.drainTimeout p) s (fun t => t.get f_CMP_STATUS_DRAIN_TMO = 1
          ∧ (∀ n, (s.ctx n).owner = p.val → (s.ctx n).away = false → (s.ctx n).st = .prefill ∨ (s.ctx n).st = .decode →
              (t.ctx n).st = .pausing ∨ (t.ctx n).st = .expired)
          ∧ (∀ n, (s.ctx n).owner ≠ p.val → t.ctx n = s.ctx n))) :)
  ∧ (∀ s : State, s.live = true → s.tim.tick % 1024 ≠ 0 ∨ s.tim.subNs ≠ 0 ∨ s.own.acctAt = some s.tim.expo → exec .acctSnapshot s = .next s :)
  ∧ (∀ s : State, s.live = true → s.tim.tick % 1024 = 0 → s.tim.subNs = 0 → s.own.acctAt ≠ some s.tim.expo →
    let a := s.reg64 r_CMP_ACCT_BASE_LO + (s.tim.tick / 1024 % 2) * 0x10000
    Runs .acctSnapshot s (fun t => s.onlyIn t { regs := true, mem := true, own := true } ∧ t.own = { s.own with acctSeq := s.own.acctSeq + 1, acctAt := some s.tim.expo }
      ∧ t.readLE a 8 = s.tim.tick % 2 ^ 64 ∧ t.readLE (a + 8) 8 = (s.own.acctSeq + 1) % 2 ^ 64
      ∧ (∀ k i, k < 256 → i < 12 → t.readLE (a + 0x40 + k * 128 + 8 + 8 * i) 8 = sget 0 s.acct (16 * k + i) % 2 ^ 64)
      ∧ s.memBut t a 0x8040 ∧ t.get f_CMP_ACCT_SEQ_COUNT = (s.own.acctSeq + 1) % 2 ^ 32 ∧ s.bitsBut t [f_CMP_ACCT_SEQ_COUNT]) :))

/-! Asivipin ports, flits and time beacons (chapter 9, R302 to R330). -/

/-- R304, R313, R314, R329: the states of a port: training ends UP, MISWIRED or DOWN, an UP port retrains or goes DOWN, and the control
writes restart or disable one. A command that the port's state does not allow leaves everything as it is. R303, R306 to R312, R315, R316,
R318: a flit on an UP port: the next DATA flit is taken once and in order and its packets are delivered or sent on, one that was seen is
dropped, a gap or a bad CRC is answered by one NAK; a NAK or a missing ACK resends what is unacknowledged. Clauses may rest on choices of
the model: log entry 65. -/
def Obligations.PortsAndFlits : Prop :=
  ((∀ (s : State) (p : Fin 24) (good : BitVec 9) (chip : BitVec 12) (port : BitVec 5), s.live = true →
    (s.portSt p ≠ 1 → exec (.linkTrainingComplete p good chip port) s = .next s)
    ∧ (s.portSt p = 1 → popCount 9 good.toNat < 4 → Runs (.linkTrainingComplete p good chip port) s (fun t => t.portSt p = 4
        ∧ t.get (f_AVL_PORT_STATE_DOWN_WHY p) = 1 ∧ t.get (f_AVL_PORT_STATE_LANES p) = 0 ∧ s.msg (srcPort p) 0x40 0 0 ∈ t.flt.inbox
        ∧ (∀ q : Fin 24, q ≠ p → t.portSt q = s.portSt q) ∧ t.mem = s.mem ∧ t.tim = s.tim))
    ∧ (s.portSt p = 1 → 4 ≤ popCount 9 good.toNat → ((s.portOf p).nbrChip ≠ chip.toNat ∨ (s.portOf p).nbrPort ≠ port.toNat) →
        Runs (.linkTrainingComplete p good chip port) s (fun t => s.onlyIn t { regs := true, flt := true } ∧ t.portSt p = 6
        ∧ t.get (f_AVL_PORT_STATUS_MISWIRE p) = 1 ∧ t.get f_AVL_STATUS_MISWIRE = 1 ∧ s.sends t (srcPort p) 0x42 0 0
        ∧ t.get (f_AVL_PORT_STATE_NBR_CHIP p) = chip.toNat ∧ t.get (f_AVL_PORT_STATE_NBR_PORT p) = port.toNat
        ∧ ∀ q : Fin 24, q ≠ p → t.portSt q = s.portSt q))
    ∧ (s.portSt p = 1 → 4 ≤ popCount 9 good.toNat → (s.portOf p).nbrChip = chip.toNat → (s.portOf p).nbrPort = port.toNat →
        Runs (.linkTrainingComplete p good chip port) s (fun t => s.onlyIn t { regs := true, flt := true, net := true } ∧ t.portSt p = 2
        ∧ t.get (f_AVL_PORT_STATE_LANES p) = (if 8 ≤ popCount 9 good.toNat then 8 else 4)
        ∧ t.portOf p = { s.portOf p with lanesBad := 511 - good.toNat, laneWin := [], fresh := true, usable := false, pdDue := true, delays := [] }
        ∧ (8 ≤ popCount 9 good.toNat → t.flt = s.flt)
        ∧ (popCount 9 good.toNat < 8 → t.get (f_AVL_PORT_STATUS_DEGRADED p) = 1 ∧ s.sends t (srcPort p) 0x41 0 0)
        ∧ ∀ q : Fin 24, q ≠ p → t.portSt q = s.portSt q ∧ t.portOf q = s.portOf q)) :)
  ∧ (∀ (s : State) (p : Fin 24), s.live = true →
    let down (i : Instr) (why kind : Nat) : Prop := Runs i s (fun t => t.portSt p = 4 ∧ t.get (f_AVL_PORT_STATE_DOWN_WHY p) = why
        ∧ t.get (f_AVL_PORT_STATE_LANES p) = 0 ∧ t.get (f_AVL_PORT_STATUS_DOWN p) = 1 ∧ t.get f_AVL_STATUS_PORT_DOWN = 1
        ∧ s.msg (srcPort p) kind 0 0 ∈ t.flt.inbox ∧ (t.portOf p).replay = [] ∧ (t.portOf p).usable = false
        ∧ (∀ q : Fin 24, q ≠ p → t.portSt q = s.portSt q) ∧ t.tim = s.tim ∧ (s.noFar → t.mem = s.mem))
    let again (i : Instr) : Prop := Runs i s (fun t => s.onlyIn t { regs := true, net := true } ∧ t.portSt p = 1 ∧ t.get (f_AVL_PORT_STATE_LANES p) = 0
        ∧ t.portOf p = { listed := (s.portOf p).listed, nbrChip := (s.portOf p).nbrChip, nbrPort := (s.portOf p).nbrPort, since := s.now }
        ∧ (∀ q, q ≠ p.val → t.portOf q = s.portOf q) ∧ (∀ q : Fin 24, q ≠ p → t.portSt q = s.portSt q)
        ∧ s.bitsBut t [f_AVL_PORT_STATE_STATE p, f_AVL_PORT_STATE_LANES p, f_AVL_PORT_CTL_DISABLE p])
    let trainOver := (s.portOf p).since + s.get (f_AVL_PORT_CFG_TRAIN_TMO_MS p) * 1000000 ≤ s.tim.nextEdge
    let retrainOver := (s.portOf p).since + s.get (f_AVL_PORT_CFG2_RETRAIN_TMO_US p) * 1000 ≤ s.tim.nextEdge
    (s.portSt p ≠ 1 ∨ ¬trainOver → exec (.linkTrainTimeout p) s = .next s)
    ∧ (s.portSt p = 1 → trainOver → down (.linkTrainTimeout p) 1 0x40)
    ∧ (s.portSt p ≠ 3 ∨ ¬retrainOver → exec (.retrainTimeout p) s = .next s)
    ∧ (s.portSt p = 3 → retrainOver → down (.retrainTimeout p) 2 0x40)
    ∧ (s.portSt p ≠ 2 → exec (.safeFlitReceived p) s = .next s)
    ∧ (s.portSt p = 2 → down (.safeFlitReceived p) 3 0x43
        ∧ Runs (.safeFlitReceived p) s (fun t => t.get (f_AVL_PORT_STATUS_PEER_SAFE p) = 1 ∧ t.get f_AVL_STATUS_PEER_SAFE = 1))
    ∧ (s.portSt p = 4 ∨ s.portSt p = 6 → again (.portRetrainCmd p)) ∧ (s.portSt p ≠ 4 → s.portSt p ≠ 6 → exec (.portRetrainCmd p) s = .next s)
    ∧ (s.portSt p = 5 → again (.unquarantine p)) ∧ (s.portSt p ≠ 5 → exec (.unquarantine p) s = .next s)
    ∧ (s.portSt p = 0 → s.valid = true → (s.portOf p).listed = true → again (.portDisable p false)
        ∧ Runs (.portDisable p false) s (fun t => t.get (f_AVL_PORT_CTL_DISABLE p) = 0))
    ∧ (s.portSt p ≠ 0 ∨ s.valid = false ∨ (s.portOf p).listed = false → Runs (.portDisable p false) s (fun t => s.onlyIn t { regs := true }
        ∧ t.get (f_AVL_PORT_CTL_DISABLE p) = 0 ∧ s.bitsBut t [f_AVL_PORT_CTL_DISABLE p]))
    ∧ (s.portSt p = 7 → Runs (.portDisable p true) s (fun t => s.onlyIn t { regs := true }
        ∧ t.get (f_AVL_PORT_CTL_DISABLE p) = 1 ∧ s.bitsBut t [f_AVL_PORT_CTL_DISABLE p]))
    ∧ (s.portSt p ≠ 7 → Runs (.portDisable p true) s (fun t => t.portSt p = 0 ∧ t.get (f_AVL_PORT_STATE_LANES p) = 0
        ∧ t.get (f_AVL_PORT_CTL_DISABLE p) = 1 ∧ (t.portOf p).replay = [] ∧ (t.portOf p).usable = false
        ∧ (∀ q : Fin 24, q ≠ p → t.portSt q = s.portSt q) ∧ t.tim = s.tim ∧ (s.noFar → t.mem = s.mem))) :)
  ∧ (∀ (s : State) (p : Fin 24) (loss : Bool), s.live = true →
    (s.mustRetrain p loss = false → exec (.linkRetrain p loss) s = .next s)
    ∧ (s.mustRetrain p loss = true → Runs (.linkRetrain p loss) s (fun t => s.onlyIn t { regs := true, net := true } ∧ t.portSt p = 3
        ∧ t.portOf p = { s.portOf p with since := s.now, usable := false } ∧ (∀ q, q ≠ p.val → t.portOf q = s.portOf q)
        ∧ t.get (f_AVL_PORT_STATUS_RETRAIN p) = 1
        ∧ t.get (f_AVL_RETRAINS_COUNT p) = min (s.get (f_AVL_RETRAINS_COUNT p) + 1) (2 ^ 32 - 1)
        ∧ ((∃ k ∈ (s.portOf p).unacked ++ s.queuedPkts p, k.cls = 0) → t.get f_AVL_RMT_STATE_RECOVERING = 1)
        ∧ ((∀ k ∈ (s.portOf p).unacked ++ s.queuedPkts p, k.cls ≠ 0) → t.get f_AVL_RMT_STATE_RECOVERING = s.get f_AVL_RMT_STATE_RECOVERING)))
    ∧ (s.portSt p = 2 → loss = true ∨ s.get (f_AVL_PORT_CFG_RETRY_LIMIT p) ≤ (s.portOf p).resends
        ∨ (∃ e ∈ (s.portOf p).laneWin, s.get (f_AVL_PORT_CFG2_LANE_THR p) < e.2) → s.mustRetrain p loss = true)
    ∧ (s.portSt p ≠ 2 → s.mustRetrain p loss = false) :)
  ∧ (∀ (s : State) (p : Fin 24) (good : BitVec 9), s.live = true →
    (s.portSt p ≠ 3 ∨ popCount 9 good.toNat < 4 → exec (.retrainComplete p good) s = .next s)
    ∧ (s.portSt p = 3 → 4 ≤ popCount 9 good.toNat → Runs (.retrainComplete p good) s (fun t =>
        t.portSt p = 2 ∧ t.get (f_AVL_PORT_STATE_LANES p) = (if 8 ≤ popCount 9 good.toNat then 8 else 4) ∧ (t.portOf p).usable = true
        ∧ (t.portOf p).replay = (s.portOf p).replay ∧ ∀ q, q ≠ p.val → t.portOf q = s.portOf q))
    ∧ (s.portSt p = 3 → 4 ≤ popCount 9 good.toNat → s.net.held = [] → s.settled → Runs (.retrainComplete p good) s (fun t =>
        s.onlyIn t { regs := true, flt := true, net := true, out := true } ∧ t.net.reqs = s.net.reqs ∧ t.net.held = []
        ∧ t.out = s.out ++ (s.portOf p).replay.map (fun f => .flit p f))) :))
  ∧ ((∀ (s : State) (p : Fin 24) (f : Flit) (corr uncorr : Nat) (lanes : List Nat), s.live = true → s.portSt p ≠ 2 →
    exec (.flitReceive p f corr uncorr lanes) s = .next s :)
  ∧ (∀ (s : State) (p : Fin 24) (f : Flit) (corr uncorr : Nat) (lanes : List Nat), s.live = true → s.portSt p = 2 →
    let e := s.phyCounts p corr uncorr lanes
    (s.onlyIn e { regs := true, net := true } ∧ { e.portOf p with laneWin := (s.portOf p).laneWin } = s.portOf p
      ∧ (∀ q, q ≠ p.val → e.portOf q = s.portOf q)
      ∧ e.get (f_AVL_FEC_CORR_COUNT p) = min (s.get (f_AVL_FEC_CORR_COUNT p) + corr) (2 ^ 32 - 1)
      ∧ e.get (f_AVL_FEC_UNCORR_COUNT p) = min (s.get (f_AVL_FEC_UNCORR_COUNT p) + uncorr) (2 ^ 32 - 1)
      ∧ ∀ l n, l < 9 → lanes[l]? = some n → e.get ⟨r_AVL_LANE_ERR_0 p + 4 * l, 31, 0⟩ = min (s.get ⟨r_AVL_LANE_ERR_0 p + 4 * l, 31, 0⟩ + n) (2 ^ 32 - 1)
        ∧ sget 0 (e.portOf p).laneWin l = sget 0 (s.portOf p).laneWin l + n)
    ∧ (f.crcOk = false ∨ f.typ = .reserved → Runs (.flitReceive p f corr uncorr lanes) s (fun t => e.onlyIn t { regs := true, net := true, out := true }
        ∧ t.net.inbox = e.net.inbox ∧ e.naks t p ∧ t.get (f_AVL_CRC_ERR_COUNT p) = min (e.get (f_AVL_CRC_ERR_COUNT p) + 1) (2 ^ 32 - 1)
        ∧ e.bitsBut t [f_AVL_CRC_ERR_COUNT p]))
    ∧ (f.crcOk = true → f.typ = .beacon ∨ f.typ = .pdelayReq ∨ f.typ = .pdelayResp ∨ f.typ = .capability →
        exec (.flitReceive p f corr uncorr lanes) s = .next e)
    ∧ (f.crcOk = true → f.typ = .safe → Runs (.flitReceive p f corr uncorr lanes) s (fun t => t.portSt p = 4
        ∧ t.get (f_AVL_PORT_STATE_DOWN_WHY p) = 3 ∧ t.get f_AVL_STATUS_PEER_SAFE = 1 ∧ e.msg (srcPort p) 0x43 0 0 ∈ t.flt.inbox))
    ∧ (f.crcOk = true → f.typ = .idle →
        let x := (e.portOf p).acked f.ack e.now
        let y : Port := { x with credit := sset 0 x.credit f.credVc (sget 0 x.credit f.credVc - f.credits) }
        Runs (.flitReceive p f corr uncorr lanes) s (fun t => e.onlyIn t { regs := true, net := true, out := true } ∧ t.net.inbox = e.net.inbox
          ∧ (∀ q, q ≠ p.val → t.portOf q = e.portOf q)
          ∧ (f.nak = false → t.portOf p = y ∧ t.out = e.out ∧ t.regs = e.regs) ∧ (f.nak = true → e.resent t p y))) :)
  ∧ (∀ (s : State) (p : Fin 24) (f : Flit) (corr uncorr : Nat) (lanes : List Nat), s.live = true → s.portSt p = 2 → f.crcOk = true → f.typ = .data →
    let u := (s.phyCounts p corr uncorr lanes).flitControl p f
    let x := u.portOf p
    let behind := (x.rxNext + 4096 - f.fseq) % 4096
    let vc (k : Pkt) : Nat := if k.cls = 2 then 3 + k.hops else k.hops
    let taken (t : State) : Prop := t.portOf p = { x with rxNext := (f.fseq + 1) % 4096, nakSent := false }
      ∧ (∀ q, q ≠ p.val → t.portOf q = u.portOf q)
      ∧ t.reg64 (r_AVL_RX_FLITS_LO p) = (u.reg64 (r_AVL_RX_FLITS_LO p) + 1) % 2 ^ 64
      ∧ t.out = u.out ++ (if f.pkts = [] then [.flit p { typ := .idle, ack := f.fseq % 4096 }]
          else f.pkts.map (fun k => .flit p { typ := .idle, ack := f.fseq % 4096, credVc := vc k, credits := k.units }))
    (f.fseq = x.rxNext → (∀ k ∈ f.pkts, k.dst = u.chipId ∧ k.opKnown = true ∧ u.peerDead k.src = false) →
      Runs (.flitReceive p f corr uncorr lanes) s (fun t => u.onlyIn t { regs := true, net := true, out := true } ∧ taken t
        ∧ t.net.inbox = u.net.inbox ++ f.pkts ∧ u.regsBut t [r_AVL_RX_FLITS_LO p, r_AVL_RX_FLITS_LO p + 4]))
    ∧ (∀ k : Pkt, f.fseq = x.rxNext → f.pkts = [k] →
      let h : Pkt := if k.cls = 2 then { k with hops := k.hops + 1 } else { k with hops := k.hops + 1, ts := u.now }
      let on : Prop := u.peerDead k.src = false ∧ k.dst ≠ u.chipId ∧ u.valid = true
      (u.peerDead k.src = true → Runs (.flitReceive p f corr uncorr lanes) s (fun t => u.onlyIn t { regs := true, net := true, out := true } ∧ taken t
        ∧ t.net.inbox = u.net.inbox ∧ t.get f_FLT_PEER_DROP_COUNT = min (u.get f_FLT_PEER_DROP_COUNT + 1) (2 ^ 32 - 1)))
      ∧ (u.peerDead k.src = false → (k.dst = u.chipId ∧ k.opKnown = false) ∨ (k.dst ≠ u.chipId ∧ u.valid = false) →
        Runs (.flitReceive p f corr uncorr lanes) s (fun t => u.onlyIn t { regs := true, net := true, out := true } ∧ taken t ∧ t.net.inbox = u.net.inbox))
      ∧ (on → k.hops < 2 → ∀ q, u.routeOf h = .port q → Runs (.flitReceive p f corr uncorr lanes) s (fun t =>
          u.onlyIn t { regs := true, net := true, tm := true, out := true } ∧ taken t ∧ t.net.inbox = u.net.inbox ∧ t.net.held = u.net.held
          ∧ t.tm.inb = u.tm.inb ++ [(32 + q, u.pktQueue h, { load := .pkt h, len := 16 * h.units })] ∧ t.tm.q = u.tm.q))
      ∧ (on → k.hops < 2 → u.routeOf h = .wait → Runs (.flitReceive p f corr uncorr lanes) s (fun t =>
          u.onlyIn t { regs := true, net := true, out := true } ∧ taken t ∧ t.net.inbox = u.net.inbox ∧ t.net.held = u.net.held ++ [h]))
      ∧ (on → k.hops < 2 → u.routeOf h = .none → Runs (.flitReceive p f corr uncorr lanes) s (fun t =>
          t.get f_AVL_STATUS_NO_ROUTE = 1 ∧ u.msg 0x258 0x45 0 0 ∈ t.flt.inbox ∧ t.portSt p = 2 ∧ t.mem = u.mem))
      ∧ (on → 2 ≤ k.hops → Runs (.flitReceive p f corr uncorr lanes) s (fun t => t.get f_AVL_STATUS_HOP_LIMIT = 1
          ∧ t.get f_AVL_STATUS_NO_ROUTE = 1 ∧ u.msg 0x258 0x44 0 0 ∈ t.flt.inbox ∧ t.portSt p = 2 ∧ t.mem = u.mem)))
    ∧ (f.fseq ≠ x.rxNext → 1 ≤ behind → behind ≤ 2048 → exec (.flitReceive p f corr uncorr lanes) s = .next u)
    ∧ (f.fseq ≠ x.rxNext → (behind = 0 ∨ 2048 < behind) → Runs (.flitReceive p f corr uncorr lanes) s (fun t =>
        u.onlyIn t { net := true, out := true } ∧ t.net.inbox = u.net.inbox ∧ u.naks t p)) :)
  ∧ (∀ (s : State) (p : Fin 24) (ack : BitVec 12), s.live = true →
    let overdue := (s.portOf p).ackAt + s.get (f_AVL_PORT_CFG_ACK_TMO_US p) * 1000 ≤ s.tim.nextEdge
    (s.portSt p = 2 → Runs (.nakReceived p ack) s (fun t => s.onlyIn t { regs := true, net := true, out := true }
        ∧ s.resent t p ((s.portOf p).acked ack.toNat s.now) ∧ ∀ q, q ≠ p.val → t.portOf q = s.portOf q))
    ∧ (s.portSt p = 2 → overdue → Runs (.ackTimeout p) s (fun t => s.onlyIn t { regs := true, net := true, out := true }
        ∧ s.resent t p (s.portOf p) ∧ ∀ q, q ≠ p.val → t.portOf q = s.portOf q))
    ∧ (s.portSt p ≠ 2 → exec (.nakReceived p ack) s = .next s) ∧ (s.portSt p ≠ 2 ∨ ¬overdue → exec (.ackTimeout p) s = .next s) :)
  ∧ (∀ (s : State) (dst : BitVec 12), s.live = true → s.settled →
    let mine := s.net.held.filter (fun k => k.dst = dst.toNat)
    let u : State := { s with net := { s.net with held := s.net.held.filter (fun k => k.dst ≠ dst.toNat) } }
    (mine = [] → exec (.orderedReroute dst) s = .next s)
    ∧ (∀ (k : Pkt) (q : Nat), mine = [k] → u.routeOf k = .port q → Runs (.orderedReroute dst) s (fun t =>
        s.onlyIn t { regs := true, net := true, tm := true } ∧ t.net.held = u.net.held ∧ t.net.inbox = s.net.inbox
        ∧ (k.cls = 0 → (t.destOf k.dst).port = some q)
        ∧ t.tm.inb = s.tm.inb ++ [(32 + q, s.pktQueue k, { load := .pkt k, len := 16 * k.units })]))
    ∧ (∀ k : Pkt, mine = [k] → u.routeOf k = .here → Runs (.orderedReroute dst) s (fun t => s.onlyIn t { net := true }
        ∧ t.net.held = u.net.held ∧ t.net.inbox = s.net.inbox ++ [k]))
    ∧ (∀ k : Pkt, mine = [k] → u.routeOf k = .wait → Runs (.orderedReroute dst) s (fun t => s.onlyIn t { net := true }
        ∧ t.net.held = u.net.held ++ [k] ∧ t.net.inbox = s.net.inbox)) :))

/-- R321 to R325: a LOCKED root sends PER_EXP beacons in an exposure, a child takes the offset from its parent's and sends them on one link
deeper, a lost parent is replaced by its backup or the source is lost, the primary returns, and the link delay is measured. Clauses may rest
on choices of the model: log entry 67. -/
def Obligations.TimeBeacons : Prop :=
  (∀ (s : State) (ts : Nat), s.live = true →
    let sent := if s.net.bcnAt = s.tim.expo then s.net.bcnSent else 0
    (s.get f_AVL_BCN_CFG_ROOT = 1 → s.get f_CLK_TIME_STATE_STATE = 2 → sent ≤ s.get f_AVL_BCN_CFG_PER_EXP_M1 →
      Runs (.beaconSend ts) s (fun t => s.onlyIn t { tim := true, net := true, out := true }
        ∧ t.tim = (s.atNs (s.tim.tb + sent * s.periodNs / (s.get f_AVL_BCN_CFG_PER_EXP_M1 + 1))).tim
        ∧ t.net = { s.net with bcnSeq := (s.net.bcnSeq + 1) % 65536, bcnAt := s.tim.expo, bcnSent := sent + 1 }
        ∧ t.out = s.out ++ s.bcnPorts.map (fun p => .beacon p { origin := s.chipId, seq := s.net.bcnSeq, ts := ts })))
    ∧ (s.get f_AVL_BCN_CFG_ROOT = 0 ∨ s.get f_CLK_TIME_STATE_STATE ≠ 2 ∨ s.get f_AVL_BCN_CFG_PER_EXP_M1 < sent →
        exec (.beaconSend ts) s = .next s) :)
  ∧ (∀ (s : State) (p : Fin 24) (b : Beacon) (ingress : Nat) (residence : List Nat), s.live = true →
    let x := s.portOf p
    let since := if x.bcnExpo.any (fun e => decide (s.tim.expo ≤ e + 1)) = true then x.bcnSince else s.tim.expo
    (s.portSt p ≠ 2 ∨ x.delays = [] → exec (.beaconReceive p b ingress residence) s = .next s)
    ∧ (∀ d, s.portSt p = 2 → x.delay = some d → Runs (.beaconReceive p b ingress residence) s (fun t =>
        s.onlyIn t { regs := true, net := true, tim := true, out := true }
          ∧ t.portOf p = { x with bcnExpo := some s.tim.expo, bcnSince := since } ∧ (∀ q, q ≠ p.val → t.portOf q = s.portOf q)
          ∧ s.bitsBut t [f_AVL_BCN_CFG_ON_BACKUP]
          ∧ t.get f_AVL_BCN_CFG_ON_BACKUP = (if s.get f_AVL_BCN_CFG_PRIMARY_VALID = 1 ∧ p.val = s.get f_AVL_BCN_CFG_PRIMARY
              ∧ s.get f_AVL_BCN_CFG_LOSS_EXP ≤ s.tim.expo - since then 0 else s.get f_AVL_BCN_CFG_ON_BACKUP)
          ∧ (t.parentPort = some p.val → t.tim = { s.tim with srcOff := (ingress : Int) - ((b.ts : Int) + b.corr + d) }
            ∧ t.out = s.out ++ s.bcnPorts.map (fun q => .beacon q { b with depth := (b.depth + 1) % 256, corr := b.corr + d + residence.getD q 0 }))
          ∧ (t.parentPort ≠ some p.val → t.tim = s.tim ∧ t.out = s.out))) :)
  ∧ (∀ s : State, s.live = true →
    (s.parentPort = none ∨ s.tim.srcValid = false → exec .beaconLoss s = .next s)
    ∧ (∀ p, s.parentPort = some p → s.bcnFresh p = true → exec .beaconLoss s = .next s)
    ∧ (∀ p, s.parentPort = some p → s.bcnFresh p = false → s.tim.srcValid = true → s.get f_AVL_BCN_CFG_ON_BACKUP = 0
        → s.get f_AVL_BCN_CFG_BACKUP_VALID = 1 → s.bcnFresh (s.get f_AVL_BCN_CFG_BACKUP) = true → Runs .beaconLoss s (fun t =>
          s.onlyIn t { regs := true } ∧ t.get f_AVL_BCN_CFG_ON_BACKUP = 1 ∧ s.bitsBut t [f_AVL_BCN_CFG_ON_BACKUP]))
    ∧ (∀ p, s.parentPort = some p → s.bcnFresh p = false → s.tim.srcValid = true
        → (s.get f_AVL_BCN_CFG_ON_BACKUP = 1 ∨ s.get f_AVL_BCN_CFG_BACKUP_VALID = 0 ∨ s.bcnFresh (s.get f_AVL_BCN_CFG_BACKUP) = false) →
        Runs .beaconLoss s (fun t => s.onlyIn t { regs := true, flt := true, tim := true } ∧ t.get f_AVL_STATUS_BEACON_LOSS = 1
          ∧ s.sends t 0x268 0x51 0 0 ∧ t.tim.srcValid = false
          ∧ (s.get f_CLK_TIME_STATE_STATE = 1 ∨ s.get f_CLK_TIME_STATE_STATE = 2 → t.get f_CLK_TIME_STATE_STATE = 3 ∧ t.tim.holdStart = s.now)
          ∧ (s.get f_CLK_TIME_STATE_STATE ≠ 1 → s.get f_CLK_TIME_STATE_STATE ≠ 2 → t.get f_CLK_TIME_STATE_STATE = s.get f_CLK_TIME_STATE_STATE
            ∧ t.tim = { s.tim with srcValid := false, stepPend := false, refused := false })
          ∧ s.bitsBut t [f_AVL_STATUS_BEACON_LOSS, f_AVL_STATUS_BEACON_LOSS.count, f_CLK_TIME_STATE_STATE, f_CLK_SHT_STATUS_HOLDOVER, f_CLK_SHT_STATUS_HOLDOVER.count])) :)
  ∧ (∀ (s : State) (p : Fin 24) (t1 t2 t3 t4 : Nat), s.live = true →
    let x := s.portOf p
    (s.portSt p = 2 → (x.pdDue = true ∨ 8192 ≤ s.tim.expo - x.lastPd) → Runs (.pdelayMeasure p t1) s (fun t => s.onlyIn t { net := true, out := true }
        ∧ t.portOf p = { x with t1 := some t1, lastPd := s.tim.expo, pdDue := false } ∧ (∀ q, q ≠ p.val → t.portOf q = s.portOf q)
        ∧ t.out = s.out ++ [.pdelay p none]))
    ∧ (s.portSt p ≠ 2 ∨ (x.pdDue = false ∧ s.tim.expo - x.lastPd < 8192) → exec (.pdelayMeasure p t1) s = .next s)
    ∧ (s.portSt p = 2 → exec (.pdelayReqReceive p t2 t3) s = .next { s with out := s.out ++ [.pdelay p (some (t2, t3))] })
    ∧ (s.portSt p ≠ 2 → exec (.pdelayReqReceive p t2 t3) s = .next s)
    ∧ (s.portSt p ≠ 2 ∨ x.t1 = none → exec (.pdelayRespReceive p t2 t3 t4) s = .next s)
    ∧ (s.portSt p = 2 → x.t1 = some t1 → Runs (.pdelayRespReceive p t2 t3 t4) s (fun t => s.onlyIn t { regs := true, net := true }
        ∧ (let l := x.delays ++ [((((t4 : Int) - t1) - ((t3 : Int) - t2)) / 2).toNat]
          t.portOf p = { x with t1 := none, delays := l.drop (l.length - 16) })
        ∧ t.get (f_AVL_PORT_DELAY_DELAY p) = ((t.portOf p).delay.getD 0) / 4096 % 2 ^ 24
        ∧ (∀ q, q ≠ p.val → t.portOf q = s.portOf q) ∧ s.bitsBut t [f_AVL_PORT_DELAY_DELAY p])) :)
/-! Remote requests and sync objects (chapter 10, R331 to R362). -/

/-- R353: a write of an object's configuration sets its count of arrivals to 0 and clears its arrival record; its VALUE and the waits on it
stay, and so does every other object. -/
def Obligations.SyncConfigurationClearsArrivals : Prop :=
  ∀ (s : State) (o : Fin 8192) (v : BitVec 32), s.live = true →
    Runs (.synObjConfig o v) s (fun t => (t.synObj o).arrived = 0 ∧ t.synObj o = {} ∧ t.synVal o = s.synVal o ∧ t.net.waits = s.net.waits
      ∧ t.get (f_SYN_OBJ_CFG_ENABLE o) = bits v.toNat 0 0 ∧ t.get (f_SYN_OBJ_CFG_BARRIER o) = bits v.toNat 1 1
      ∧ t.get (f_SYN_OBJ_CFG_EXPECT o) = bits v.toNat 21 2 ∧ (∀ j, j ≠ o.val → t.synObj j = s.synObj j)
      ∧ s.onlyIn t { regs := true, syn := true })

/-- R331, R336, R337, R339, R343 to R345: a target serves loads, stores and atomics of other chips, an atomic at most once per tag, and
answers each request; a new epoch of a source clears its entries; one before an image is applied is answered NOT_READY. R343, R349 to R353,
R362, R512: sync operations that arrive from other chips, the expiry of a held wait, and the host's signal and configuration of an object.
Clauses may rest on choices of the model: log entry 66. -/
def Obligations.RemoteAndSyncTargets : Prop :=
  ((∀ (s u : State) (src : BitVec 12) (i : Instr) (k : Pkt), s.live = true → s.valid = false →
    ((i = .remoteLoad src ∧ s.takeReq src.toNat 1 (fun _ => true) = some (k, u)) ∨ (i = .remoteStore src ∧ s.takeReq src.toNat 2 (fun _ => true) = some (k, u))
      ∨ (i = .kvAppend src ∧ s.takeReq src.toNat 2 (fun q => q.own) = some (k, u)) ∨ (i = .remoteAtomic src ∧ s.takeReq src.toNat 3 (fun q => !q.own) = some (k, u))
      ∨ (i = .epochQuery src ∧ s.takeReq src.toNat 5 (fun _ => true) = some (k, u)) ∨ (i = .syncSignal src ∧ s.takeReq src.toNat 4 (fun q => q.aop == 0) = some (k, u))
      ∨ (i = .syncSet src ∧ s.takeReq src.toNat 4 (fun q => q.aop == 1) = some (k, u)) ∨ (i = .syncArrive src 0 ∧ s.takeReq src.toNat 4 (fun q => q.aop == 2) = some (k, u))
      ∨ (i = .syncRead src ∧ s.takeReq src.toNat 4 (fun q => q.aop == 3) = some (k, u)) ∨ (i = .syncWaitGe src ∧ s.takeReq src.toNat 4 (fun q => q.aop == 4) = some (k, u))) →
    Runs i s (fun t => u.onlyIn t answerParts ∧ u.answered t k 8 0 false (List.replicate k.count 0) ∧ u.bitsBut t noRouteFields) :)
  ∧ (∀ (s u : State) (src : BitVec 12) (k : Pkt), s.live = true → s.valid = true → s.takeReq src.toNat 1 (fun _ => true) = some (k, u) →
    (remoteRegion k.addr = true → u.plain k.addr k.count → Runs (.remoteLoad src) s (fun t => u.onlyIn t answerParts
        ∧ u.answered t k 0 0 false (u.readBytes k.addr k.count) ∧ u.bitsBut t noRouteFields))
    ∧ (remoteRegion k.addr = true → u.region k.addr ≠ .reserved → u.region (k.addr + k.count - 1) = u.region k.addr → touched u.ms.corr k.addr k.count = []
        → touched u.ms.uncorr k.addr k.count ≠ [] → Runs (.remoteLoad src) s (fun t => u.onlyIn t answerParts
          ∧ u.answered t k 2 0 false (List.replicate k.count 0) ∧ t.get f_MEM_STATUS_UNCORR = 1))
    ∧ (remoteRegion k.addr = false ∨ u.region k.addr = .reserved → Runs (.remoteLoad src) s (fun t => u.onlyIn t answerParts
        ∧ u.answered t k 1 0 false (List.replicate k.count 0) ∧ u.msg 0x259 0x16 k.addr 0 ∈ t.flt.inbox ∧ u.bitsBut t noRouteFields)) :)
  ∧ (∀ (s u : State) (src : BitVec 12) (k : Pkt), s.live = true → s.valid = true → s.takeReq src.toNat 2 (fun _ => true) = some (k, u) →
    (k.own = true → exec (.remoteStore src) s = exec (.kvAppend src) s)
    ∧ (k.own = false → remoteRegion k.addr = true → u.writable k.addr k.data.length → k.data ≠ [] → u.ms.uncorr = [] → u.ms.corr = [] →
      Runs (.remoteStore src) s (fun t => u.onlyIn t { answerParts with mem := true } ∧ u.answered t k 0 0 false []
        ∧ (∀ i, i < k.data.length → t.readByte (k.addr + i) = k.data.getD i 0) ∧ u.memBut t k.addr k.data.length ∧ u.bitsBut t noRouteFields))
    ∧ (k.own = false → remoteRegion k.addr = true → u.region k.addr ≠ .reserved → u.region (k.addr + k.data.length - 1) = u.region k.addr
        → u.guardedAt k.addr = true ∨ u.guardedAt (k.addr + k.data.length - 1) = true → Runs (.remoteStore src) s (fun t => u.onlyIn t answerParts
          ∧ u.answered t k 3 0 false [] ∧ u.msg 0x259 0x17 k.addr 0 ∈ t.flt.inbox ∧ u.bitsBut t noRouteFields))
    ∧ (k.own = false → remoteRegion k.addr = false ∨ u.region k.addr = .reserved → Runs (.remoteStore src) s (fun t => u.onlyIn t answerParts
        ∧ u.answered t k 1 0 false [] ∧ u.msg 0x259 0x16 k.addr 0 ∈ t.flt.inbox ∧ u.bitsBut t noRouteFields)) :)
  ∧ (∀ (s u : State) (src : BitVec 12) (k : Pkt), s.live = true → s.valid = true → s.takeReq src.toNat 3 (fun q => !q.own) = some (k, u) →
    let n := if k.wide then 8 else 4
    let a := u.dedupAt k.src (k.atag % 256)
    let b := u.dedupAt k.src 0
    let old := u.readLE k.addr n
    (remoteRegion k.addr = true → u.writable k.addr n → k.addr % n = 0 → u.ms.uncorr = [] → u.ms.corr = [] → k.aop ≤ 5 →
      let done (t : State) : Prop := u.onlyIn t { answerParts with mem := true } ∧ u.answered t k 0 old false [] ∧ t.tagHeld k 0 old
        ∧ t.readLE k.addr n
          = (atomicSpec (w := 8 * n) k.aop k.sgn (BitVec.ofNat _ old) (BitVec.ofNat _ k.operand) (BitVec.ofNat _ k.compare)).toNat
        ∧ u.bitsBut t noRouteFields
      (u.newTag k → Runs (.remoteAtomic src) s (fun t => done t
        ∧ ∀ x, (x < k.addr ∨ k.addr + n ≤ x) → (x < a ∨ a + 32 ≤ x) → t.readByte x = u.readByte x))
      ∧ (¬u.epochNow k → Runs (.remoteAtomic src) s (fun t => done t
        ∧ t.readLE (b + 0x18) 2 = k.sepoch % 2 ^ 16 ∧ t.readLE (b + 0x1A) 1 = 1
        ∧ (∀ j, j < 256 → j ≠ k.atag % 256 → bitAt (t.readLE (u.dedupAt k.src j + 6) 1) 7 = false)
        ∧ ∀ x, (x < k.addr ∨ k.addr + n ≤ x) → (x < b ∨ b + 8192 ≤ x) → t.readByte x = u.readByte x)))
    ∧ (u.epochNow k → bitAt (u.readLE (a + 6) 1) 7 = true → u.readLE (a + 4) 2 = k.sepoch →
      (u.readLE a 4 = k.atag → Runs (.remoteAtomic src) s (fun t => u.onlyIn t answerParts
        ∧ u.answered t k (u.readLE (a + 6) 1 % 16) (u.readLE (a + 0x10) 8) false []
        ∧ t.get f_AVL_DEDUP_HIT_CNT_COUNT = min (u.get f_AVL_DEDUP_HIT_CNT_COUNT + 1) (2 ^ 32 - 1)
        ∧ u.bitsBut t (f_AVL_DEDUP_HIT_CNT_COUNT :: noRouteFields)))
      ∧ (u.readLE a 4 ≠ k.atag → toSigned 32 (k.atag + 2 ^ 32 - u.readLE a 4) < 0 → Runs (.remoteAtomic src) s (fun t => u.onlyIn t answerParts
        ∧ u.answered t k 6 0 false [] ∧ t.get f_AVL_DUP_LATE_CNT_COUNT = min (u.get f_AVL_DUP_LATE_CNT_COUNT + 1) (2 ^ 32 - 1)
        ∧ u.bitsBut t (f_AVL_DUP_LATE_CNT_COUNT :: noRouteFields)))) :)
  ∧ (∀ (s u : State) (src : BitVec 12) (k : Pkt), s.live = true → s.valid = true → s.takeReq src.toNat 5 (fun _ => true) = some (k, u) →
    let b := u.dedupAt k.src 0
    Runs (.epochQuery src) s (fun t => u.onlyIn t answerParts ∧ u.bitsBut t noRouteFields
      ∧ u.answered t k 0 (u.readLE (b + 0x18) 2 + u.readLE (b + 0x1A) 1 % 2 * 65536) false []) :)
  ∧ (∀ (s : State) (src : BitVec 12) (cyc : BitVec 21) (i : Instr), s.live = true → (∀ k ∈ s.net.inbox, k.src ≠ src.toNat) →
    i ∈ [Instr.remoteLoad src, .remoteStore src, .kvAppend src, .remoteAtomic src, .epochQuery src, .syncSignal src, .syncSet src, .syncArrive src cyc,
      .syncRead src, .syncWaitGe src] → exec i s = .next s :))
  ∧ ((∀ (s u : State) (src : BitVec 12) (cyc : BitVec 21) (sop : Nat) (i : Instr) (k : Pkt), s.live = true → s.valid = true
      → (sop = 0 ∧ i = .syncSignal src) ∨ (sop = 1 ∧ i = .syncSet src) ∨ (sop = 2 ∧ i = .syncArrive src cyc)
      → s.takeReq src.toNat 4 (fun q => q.aop == sop) = some (k, u) →
    let o := k.addr
    let bar := u.get (f_SYN_OBJ_CFG_BARRIER o)
    let expect := u.get (f_SYN_OBJ_CFG_EXPECT o)
    let full : Prop := (u.synObj o).arrived + 1 = expect
    let bad : Prop := u.get (f_SYN_OBJ_CFG_ENABLE o) = 0 ∨ (sop = 1 ∧ bar = 1) ∨ (sop = 2 ∧ (bar = 0 ∨ expect = 0))
    (sop = 2 → s.peerDead k.src = true → exec i s = .next u)
    ∧ (∀ val, u.newTag k → (sop = 2 → s.peerDead k.src = false) → o < 8192 → ¬bad → (∀ c ∈ u.syn.hist, c < 4096)
        → (sop = 0 → val = (u.synVal o + k.operand) % 2 ^ 64) → (sop = 1 → val = k.operand % 2 ^ 64) → (sop = 2 → full → val = (u.synVal o + 1) % 2 ^ 64)
        → (sop = 2 → ¬full → val = u.synVal o) → (∀ w ∈ u.net.waits, w.1 = o → val < w.2.1) →
        Runs i s (fun t => u.onlyIn t { answerParts with mem := true, syn := true } ∧ u.answered t k 0 (u.synVal o) false []
          ∧ t.tagHeld k 0 (u.synVal o) ∧ u.memBut t (u.dedupAt k.src (k.atag % 256)) 32 ∧ t.synVal o = val ∧ t.net.waits = u.net.waits
          ∧ (∀ j, j < 8192 → j ≠ o → t.synVal j = u.synVal j ∧ t.synObj j = u.synObj j)
          ∧ (sop ≠ 2 → t.syn = u.syn)
          ∧ (sop = 2 → ¬full → t.synObj o = { u.synObj o with
              arrived := (u.synObj o).arrived + 1, last := some (k.src, u.tim.tick, cyc.toNat), prev := (u.synObj o).last
              chips := if (u.synObj o).chips.contains k.src then (u.synObj o).chips else (u.synObj o).chips ++ [k.src] })
          ∧ (sop = 2 → full → t.synObj o = { genLast := some (k.src, u.tim.tick, cyc.toNat) })))
    ∧ (u.newTag k → (sop = 2 → s.peerDead k.src = false) → o < 8192 → bad → (∀ w ∈ u.net.waits, w.1 = o → u.synVal o < w.2.1) →
        Runs i s (fun t => u.onlyIn t { answerParts with mem := true } ∧ u.answered t k 7 0 false [] ∧ t.tagHeld k 7 0 ∧ t.synVal o = u.synVal o
          ∧ t.get f_SYN_STATUS_BAD_OP = 1 ∧ u.memBut t (u.dedupAt k.src (k.atag % 256)) 32 ∧ t.net.waits = u.net.waits)) :)
  ∧ (∀ (s u : State) (src : BitVec 12) (k : Pkt), s.live = true → s.valid = true → s.takeReq src.toNat 4 (fun q => q.aop == 3) = some (k, u) →
    (k.addr < 8192 → u.get (f_SYN_OBJ_CFG_ENABLE k.addr) = 1 → Runs (.syncRead src) s (fun t => u.onlyIn t answerParts ∧ u.bitsBut t noRouteFields
        ∧ u.answered t k 0 (u.synVal k.addr) false []))
    ∧ (k.addr < 8192 → u.get (f_SYN_OBJ_CFG_ENABLE k.addr) = 0 → Runs (.syncRead src) s (fun t => u.onlyIn t answerParts ∧ t.get f_SYN_STATUS_BAD_OP = 1
        ∧ u.answered t k 7 0 false [])) :)
  ∧ (∀ (s u : State) (src : BitVec 12) (k : Pkt), s.live = true → s.valid = true → s.takeReq src.toNat 4 (fun q => q.aop == 4) = some (k, u)
      → k.addr < 8192 →
    let v := u.synVal k.addr
    let far := (u.net.waits.filter (fun w => w.2.2.2.isSome)).length
    let on : Prop := u.get (f_SYN_OBJ_CFG_ENABLE k.addr) = 1
    (u.get (f_SYN_OBJ_CFG_ENABLE k.addr) = 0 → Runs (.syncWaitGe src) s (fun t => u.onlyIn t answerParts ∧ t.get f_SYN_STATUS_BAD_OP = 1
        ∧ u.answered t k 7 0 false []))
    ∧ (on → k.operand ≤ v → Runs (.syncWaitGe src) s (fun t => u.onlyIn t answerParts ∧ u.bitsBut t noRouteFields ∧ u.answered t k 0 v true []))
    ∧ (on → v < k.operand → far < 4096 →
        exec (.syncWaitGe src) s = .next { u with net := { u.net with waits := u.net.waits ++ [(k.addr, k.operand, u.now, some k)] } })
    ∧ (on → v < k.operand → 4096 ≤ far → Runs (.syncWaitGe src) s (fun t => u.onlyIn t answerParts ∧ t.get f_SYN_STATUS_RWAIT_FULL = 1
        ∧ u.answered t k 0 v false [])) :)
  ∧ (∀ (s : State) (src : BitVec 12) (tag : BitVec 16), s.live = true →
    let mine (w : Nat × Nat × Nat × Option Pkt) : Bool := w.2.2.2.any (fun q => q.src == src.toNat && q.tag == tag.toNat)
    let u : State := { s with net := { s.net with waits := s.net.waits.filter (fun w => !(mine w)) } }
    (s.net.waits.find? mine = none → exec (.remoteWaitExpiry src tag) s = .next s)
    ∧ (∀ o v start k, s.net.waits.find? mine = some (o, v, start, some k) →
      (s.reached start (s.get f_SYN_CFG_RWAIT_US * 1000) = false → exec (.remoteWaitExpiry src tag) s = .next s)
      ∧ (s.reached start (s.get f_SYN_CFG_RWAIT_US * 1000) = true → Runs (.remoteWaitExpiry src tag) s (fun t => u.onlyIn t answerParts
          ∧ t.net.waits = u.net.waits ∧ u.bitsBut t noRouteFields ∧ u.answered t k 0 (s.synVal o) false []))) :)
  ∧ (∀ (s : State) (o : Fin 8192) (v : BitVec 32), s.live = true →
    (s.get (f_SYN_OBJ_CFG_ENABLE o) = 1 → (∀ w ∈ s.net.waits, w.1 = o.val → (s.synVal o + v.toNat) % 2 ^ 64 < w.2.1) →
      Runs (.synObjSignal o v) s (fun t => s.onlyIn t { regs := true }
        ∧ t.synVal o = (s.synVal o + v.toNat) % 2 ^ 64 ∧ s.regsBut t [r_SYN_OBJ_VALUE_LO o, r_SYN_OBJ_VALUE_LO o + 4]))
    ∧ (s.get (f_SYN_OBJ_CFG_ENABLE o) = 0 → (∀ w ∈ s.net.waits, w.1 = o.val → s.synVal o < w.2.1) →
      Runs (.synObjSignal o v) s (fun t => s.onlyIn t { regs := true } ∧ t.synVal o = s.synVal o ∧ t.get f_SYN_STATUS_BAD_OP = 1
        ∧ s.bitsBut t [f_SYN_STATUS_BAD_OP, f_SYN_STATUS_BAD_OP.count])) :)
  ∧ (∀ (s : State) (o : Fin 8192) (w : Nat) (n th : Nat) (l r : List (Nat × Nat × Nat × Option Pkt)) (v : BitVec 32), s.live = true
      → s.get (f_SYN_OBJ_CFG_ENABLE o) = 1 → n < 64 → th < 64 →
    let val := (s.synVal o + v.toNat) % 2 ^ 64
    (∀ e ∈ l ++ r, e.1 = o.val → val < e.2.1) → w ≤ val →
    (s.net.waits = l ++ (o.val, w, thrKey n th, none) :: r →
      let x := s.thr n th
      Runs (.synObjSignal o v) s (fun t => s.onlyIn t { regs := true, net := true, te := true } ∧ t.net = { s.net with waits := l ++ r } ∧ t.synVal o = val
        ∧ t.thr n th = ((x.setS x.wD val).setS (x.wD + 1) 1).wake ∧ s.thrOnly t n th))
    ∧ (∀ start k, s.net.waits = l ++ (o.val, w, start, some k) :: r →
      let u : State := { s with net := { s.net with waits := l ++ r } }
      Runs (.synObjSignal o v) s (fun t => u.onlyIn t answerParts ∧ t.net.waits = l ++ r ∧ t.synVal o = val ∧ u.answered t k 0 val true [])) :)
  ∧ (∀ (s : State) (o : Fin 8192) (v : BitVec 32), s.live = true →
    Runs (.synObjConfig o v) s (fun t => s.onlyIn t { regs := true, syn := true } ∧ t.get (f_SYN_OBJ_CFG_ENABLE o) = bits v.toNat 0 0
      ∧ t.get (f_SYN_OBJ_CFG_BARRIER o) = bits v.toNat 1 1 ∧ t.get (f_SYN_OBJ_CFG_EXPECT o) = bits v.toNat 21 2 ∧ t.synObj o = {}
      ∧ (∀ j, j ≠ o.val → t.synObj j = s.synObj j) ∧ s.bitsBut t [f_SYN_OBJ_CFG_ENABLE o, f_SYN_OBJ_CFG_BARRIER o, f_SYN_OBJ_CFG_EXPECT o]) :))

/-- R338, R341 to R344, R347: a requester takes its answers, gives up a dead target, resends an update, drops what has aged, and leaves the
recovering state. Clauses may rest on choices of the model: log entries 50 and 62. -/
def Obligations.RequestOutcomes : Prop :=
  (∀ (s : State) (src : BitVec 12) (tag : BitVec 16), s.live = true →
    let query (e : Nat × Dest) : Bool := e.2.query == some tag.toNat && e.1 == src.toNat
    let alone : Prop := (∀ q ∈ s.net.reqs, q.who = .serve → q.phase = .sent) ∧ (s.destOf src.toNat).failed = false
    (s.net.inbox.find? (fun k => k.src == src.toNat && k.op == 0x10 && k.tag == tag.toNat) = none → exec (.remoteResponse src tag) s = .next s)
    ∧ (∀ (k : Pkt), s.net.inbox.find? (fun k => k.src == src.toNat && k.op == 0x10 && k.tag == tag.toNat) = some k →
      (s.net.dest.any query = false → (∀ q ∈ s.net.reqs, q.pkt.tag ≠ tag.toNat ∨ q.pkt.dst ≠ src.toNat) →
        exec (.remoteResponse src tag) s = .next { s with net := { s.net with inbox := s.net.inbox.erase k } })
      ∧ (∀ (r : Req) (n th : Nat), s.net.dest.any query = false → alone → r ∈ s.net.reqs → r.pkt.tag = tag.toNat → r.pkt.dst = src.toNat
          → (∀ q ∈ s.net.reqs, q ≠ r → q.pkt.tag ≠ tag.toNat ∧ q.pkt.dst ≠ src.toNat) → r.who = .thread n th → r.phase = .sent → r.done = none
          → (r.kind = 0 ∧ r.lane = 32 ∧ r.pkt.op = 1) ∨ (1 ≤ r.kind ∧ r.kind ≤ 3 ∧ r.pkt.own = false) → (s.thr n th).why = .none
          → tag.toNat ∈ (s.thr n th).rmtOut →
        let x := s.thr n th
        let y := if r.kind = 0 then x.setS r.reg (leNat k.data) else if r.kind = 2 then x.setS r.reg k.operand else x
        Runs (.remoteResponse src tag) s (fun t => s.onlyIn t { regs := true, net := true, te := true } ∧ t.net.inbox = s.net.inbox.erase k
          ∧ t.net.reqs = s.net.reqs.filter (fun q => q.pkt.tag ≠ tag.toNat)
          ∧ t.thr n th = { y with rmtOut := x.rmtOut.erase tag.toNat, tstat := x.tstat ||| (if k.status ≠ 0 then 1 else 0) ||| (if k.status = 17 then 2 else 0) }
          ∧ s.thrOnly t n th ∧ (k.status = 0 → t.regs = s.regs) ∧ (k.status ≠ 0 → n < 64 → t.get (f_TE_STATUS_REMOTE_ERR n) = 1)))
      ∧ (s.net.dest.any query = true → (∀ q ∈ s.net.reqs, q.pkt.dst ≠ src.toNat) → (∀ q ∈ s.net.reqs, q.who = .serve → q.phase = .sent) →
        let e := s.get f_AVL_RMT_STATE_SEPOCH
        Runs (.remoteResponse src tag) s (fun t => s.onlyIn t { net := true } ∧ t.net.reqs = s.net.reqs ∧ t.net.inbox = s.net.inbox.erase k
          ∧ (k.status = 0 → (s.destOf src.toNat).failed = false → t.destOf src.toNat = { s.destOf src.toNat with
              query := none, known := true, sepoch := if bitAt k.operand 16 ∧ k.operand % 65536 = e then (e + 1) % 65536 else e })
          ∧ (k.status ≠ 0 → t.destOf src.toNat = { s.destOf src.toNat with query := none, known := false, failed := false })
          ∧ ∀ d, d ≠ src.toNat → t.destOf d = s.destOf d))
      ∧ (∀ (r : Req) (p : Nat), s.net.dest.any query = true → k.status = 0 → (s.destOf src.toNat).failed = false → s.net.reqs = [r] → r.pkt.dst = src.toNat
          → r.pkt.tagged = true → r.phase = .waitQuery → r.done = none → r.who ≠ .serve → r.pkt.cls = 0 → s.routeOf r.pkt = .port p →
        let e := s.get f_AVL_RMT_STATE_SEPOCH
        let d := s.destOf src.toNat
        let x : Pkt := { r.pkt with atag := d.atag, sepoch := (if bitAt k.operand 16 ∧ k.operand % 65536 = e then (e + 1) % 65536 else e) }
        Runs (.remoteResponse src tag) s (fun t => s.onlyIn t { regs := true, net := true, tm := true }
          ∧ t.net.reqs = [{ r with phase := .sent, pkt := x, sentAt := s.now, lastAt := s.now }] ∧ (t.destOf src.toNat).atag = (d.atag + 1) % 2 ^ 32
          ∧ t.tm.inb = s.tm.inb ++ [(32 + p, s.pktQueue x, { load := .pkt { x with ts := s.now }, len := 16 * x.units })]))) :)
  ∧ (∀ (s : State) (tag : BitVec 16), s.live = true →
    let lim := s.get f_AVL_RMT_CFG_DEAD_US * 1000
    (∀ (d : Nat) (e : Dest), s.net.dest.find? (fun e => e.2.query == some tag.toNat) = some (d, e) →
      (s.reached e.queryAt lim = false → exec (.deadTargetTimeout tag) s = .next s)
      ∧ (s.reached e.queryAt lim = true → (∀ q ∈ s.net.reqs, q.pkt.dst ≠ d) → (∀ q ∈ s.net.reqs, q.who = .serve → q.phase = .sent) →
          Runs (.deadTargetTimeout tag) s (fun t => s.onlyIn t { net := true } ∧ t.net.reqs = s.net.reqs
            ∧ t.destOf d = { s.destOf d with query := none, known := false, failed := false } ∧ ∀ c, c ≠ d → t.destOf c = s.destOf c)))
    ∧ ((∀ e ∈ s.net.dest, e.2.query ≠ some tag.toNat) → s.net.reqs.find? (fun r => r.pkt.tag == tag.toNat && r.phase == .sent && r.done.isNone) = none →
        exec (.deadTargetTimeout tag) s = .next s)
    ∧ (∀ (r : Req), (∀ e ∈ s.net.dest, e.2.query ≠ some tag.toNat)
        → s.net.reqs.find? (fun r => r.pkt.tag == tag.toNat && r.phase == .sent && r.done.isNone) = some r →
      (s.reached r.sentAt lim = false → exec (.deadTargetTimeout tag) s = .next s)
      ∧ (∀ n th, s.reached r.sentAt lim = true → (∀ q ∈ s.net.reqs, q.who = .serve → q.phase = .sent) → (s.destOf r.pkt.dst).failed = false
          → (∀ q ∈ s.net.reqs, q ≠ r → q.pkt.tag ≠ tag.toNat ∧ q.pkt.dst ≠ r.pkt.dst) → r.who = .thread n th → n < 64
          → (r.kind = 0 ∧ r.lane = 32 ∧ r.pkt.op = 1) ∨ (1 ≤ r.kind ∧ r.kind ≤ 3) → (s.thr n th).why = .none → tag.toNat ∈ (s.thr n th).rmtOut →
        let x := s.thr n th
        let unk := r.pkt.tagged
        let y := if r.kind = 0 then x.setS r.reg (leNat (poison r.pkt.count)) else if r.kind = 2 then x.setS r.reg 0xDEADDEADDEADDEAD else x
        Runs (.deadTargetTimeout tag) s (fun t => s.onlyIn t { regs := true, flt := true, net := true, te := true }
          ∧ t.net.reqs = s.net.reqs.filter (fun q => q.pkt.tag ≠ tag.toNat) ∧ s.thrOnly t n th
          ∧ t.thr n th = { y with rmtOut := x.rmtOut.erase tag.toNat, tstat := x.tstat ||| 1 ||| (if unk then 2 else 0) }
          ∧ (unk = false → t.get f_AVL_RMT_DEAD_CNT_COUNT = min (s.get f_AVL_RMT_DEAD_CNT_COUNT + 1) (2 ^ 32 - 1) ∧ t.get f_AVL_RMT_STATUS_REMOTE_DEAD = 1)
          ∧ (unk = true → t.get f_AVL_RMT_UNKNOWN_CNT_COUNT = min (s.get f_AVL_RMT_UNKNOWN_CNT_COUNT + 1) (2 ^ 32 - 1)
            ∧ t.get f_AVL_RMT_STATUS_OUTCOME_UNKNOWN = 1)
          ∧ t.get f_AVL_RMT_STATE_RECOVERING = 1 ∧ t.net.recT = s.now ∧ t.get (f_TE_STATUS_REMOTE_ERR n) = 1
          ∧ ((r.pkt.dst, unk) ∉ s.net.deadRep → s.sends t 0x259 (if unk then 0x49 else 0x48) r.pkt.addr r.pkt.dst)
          ∧ ((r.pkt.dst, unk) ∈ s.net.deadRep → t.flt = s.flt)))) :)
  ∧ (∀ (s : State) (tag : BitVec 16), s.live = true →
    let mine := s.net.reqs.find? (fun q => q.pkt.tag == tag.toNat && q.phase == .sent && q.done.isNone && q.pkt.tagged)
    let us := s.get f_AVL_RMT_CFG_RETRY_US
    (mine = none → exec (.atomicResend tag) s = .next s)
    ∧ (∀ (r : Req) (p : Nat), mine = some r →
      (s.get f_AVL_RMT_CFG_DEAD_US ≤ us ∨ s.reached r.lastAt (us * 1000) = false → exec (.atomicResend tag) s = .next s)
      ∧ (us < s.get f_AVL_RMT_CFG_DEAD_US → s.reached r.lastAt (us * 1000) = true → s.settled → r.pkt.cls ≠ 2 → s.routeOf r.pkt = .port p →
        let a := 16 * s.reqSlot r + 4
        Runs (.atomicResend tag) s (fun t => s.onlyIn t { regs := true, net := true, tm := true, acct := true } ∧ t.get f_AVL_RMT_STATE_RECOVERING = 1
          ∧ t.net.recT = s.now ∧ t.net.reqs = s.net.reqs.map (fun q => if q.pkt.tag = tag.toNat then { q with resends := true, lastAt := s.now } else q)
          ∧ sget 0 t.acct a = (sget 0 s.acct a + 16 * r.pkt.units) % 2 ^ 64 ∧ (∀ b, b ≠ a → sget 0 t.acct b = sget 0 s.acct b)
          ∧ t.tm.inb = s.tm.inb ++ [(32 + p, s.pktQueue r.pkt, { load := .pkt { r.pkt with resent := true, ts := s.now }, len := 16 * r.pkt.units })]))) :)
  ∧ (∀ (s : State) (now : Nat) (p : Fin 24) (i : Fin 8), s.live = true →
    let x := s.tmQ (32 + p) i
    let counted (t : State) : Prop := t.get f_AVL_AGED_CNT_COUNT = min (s.get f_AVL_AGED_CNT_COUNT + 1) (2 ^ 32 - 1) ∧ t.get f_AVL_RMT_STATUS_AGED = 1
      ∧ s.bitsBut t [f_AVL_AGED_CNT_COUNT, f_AVL_RMT_STATUS_AGED, f_AVL_RMT_STATUS_AGED.count]
    (∀ k, s.aged k now = true ↔ k.cls ≠ 2 ∧ now ≤ s.tim.nextEdge ∧ s.get f_AVL_RMT_CFG_DEAD_US * 1000 < now - k.ts)
    ∧ (∀ it, x.items.find? (fun it => it.pkt?.any (fun k => s.aged k now)) = some it → Runs (.requestAged (some (p, i)) now) s (fun t =>
          s.onlyIn t { regs := true, tm := true } ∧ t.tmQ (32 + p) i = { x with items := x.items.erase it }
          ∧ (∀ e j, 8 * e + j ≠ 8 * (32 + p.val) + i.val → t.tmQ e j = s.tmQ e j) ∧ t.tm.inb = s.tm.inb ∧ counted t))
    ∧ (x.items.find? (fun it => it.pkt?.any (fun k => s.aged k now)) = none →
        let on (e : Nat × Nat × TmItem) : Bool := e.1 == 32 + p.val && e.2.1 == i.val && e.2.2.pkt?.any (fun k => s.aged k now)
        (∀ e, s.tm.inb.find? on = some e → Runs (.requestAged (some (p, i)) now) s (fun t => s.onlyIn t { regs := true, tm := true }
          ∧ t.tm = { s.tm with inb := s.tm.inb.erase e } ∧ counted t))
        ∧ (s.tm.inb.find? on = none → exec (.requestAged (some (p, i)) now) s = .next s))
    ∧ (∀ k, s.net.held.find? (fun k => s.aged k now) = some k → Runs (.requestAged none now) s (fun t => s.onlyIn t { regs := true, net := true }
        ∧ t.net = { s.net with held := s.net.held.erase k } ∧ counted t))
    ∧ (s.net.held.find? (fun k => s.aged k now) = none → exec (.requestAged none now) s = .next s) :)
  ∧ (∀ s : State, s.live = true →
    (s.get f_AVL_RMT_STATE_RECOVERING = 1 → s.mayRecover = true → Runs .recoveryDone s (fun t => s.onlyIn t { regs := true, flt := true }
        ∧ t.get f_AVL_RMT_STATE_RECOVERING = 0 ∧ t.get f_AVL_RMT_STATUS_RECOVERY_DONE = 1 ∧ s.sends t 0x259 0x80 0 0
        ∧ s.bitsBut t [f_AVL_RMT_STATE_RECOVERING, f_AVL_RMT_STATUS_RECOVERY_DONE, f_AVL_RMT_STATUS_RECOVERY_DONE.count]))
    ∧ (s.get f_AVL_RMT_STATE_RECOVERING = 0 ∨ s.mayRecover = false → exec .recoveryDone s = .next s)
    ∧ (s.mayRecover = true → s.tim.subNs = 0 ∧ s.net.recT + 4000 * s.get f_AVL_RMT_CFG_DEAD_US ≤ s.now ∧ (∀ k ∈ s.net.held, k.resent = false)
        ∧ ∀ p, p < 24 → s.portSt p ≠ 3) :)
/-! Signal cores and radio accelerators (chapter 11, R364 to R405). -/

/-- R371 to R378: the scalar, branch, register and complex operations of a bundle: the result, the flags and what stays. R372, R377, R378,
R384: what the load and the store slot of a bundle move, how they step their address registers, and what faults. Clauses may rest on choices
of the model: log entries 31, 32 and 56. -/
def Obligations.SignalThreads : Prop :=
  ((∀ (s : State) (c : Fin 96) (k : Fin 8) (w : BitVec 128), s.sigIssues c k w →
    let b := w.toNat
    let op := bits b 93 88
    let x := s.sigThr c k
    let y := s.sigPast c k
    let d := bits b 97 94
    let p := x.sr (bits b 101 98)
    let q := x.sr (bits b 105 102)
    let imm := toSigned 22 (bits b 127 106)
    let dest : SigThr := { x with pc := (((x.pc : Int) + imm * 16) % 2 ^ 48).toNat }
    let gives (z : SigThr) : Prop := Runs (.sigBundle c k w) s (fun t => s.bundleDone t c k z)
    onlyXop w op →
    (op = 0 → gives y)
    ∧ (1 ≤ op → op ≤ 9 → (6 ≤ op → op ≤ 8 → q < 32) → gives (y.setX d (sigScalarSpec op (BitVec.ofNat 32 p) (BitVec.ofNat 32 q) imm).toNat))
    ∧ (op = 10 → gives (if p = q then dest else y)) ∧ (op = 11 → gives (if p ≠ q then dest else y))
    ∧ (op = 12 → gives (if (BitVec.ofNat 32 p).slt (BitVec.ofNat 32 q) then dest else y)) ∧ (op = 13 → gives dest)
    ∧ (op = 14 → gives (dest.setX d ((x.pc + 16) % 2 ^ 32))) ∧ (op = 15 → gives { x with pc := x.pc / 2 ^ 32 * 2 ^ 32 + p / 16 * 16 })
    ∧ (op = 17 → gives (y.setX d (if imm = 0 then x.vl else if imm = 1 then x.rnd else if imm = 2 then x.flags else 0)))
    ∧ (op = 18 → imm = 0 → 1 ≤ p → p ≤ 16 → gives { y with vl := p }) ∧ (op = 18 → imm = 0 → p = 0 ∨ 16 < p → gives y)
    ∧ (op = 18 → imm = 1 → p % 64 ≤ 32 → gives { y with rnd := p % 128 }) ∧ (op = 18 → imm = 2 → gives { y with flags := p % 32 })
    ∧ (op = 19 → gives { y with ar := sset 0 x.ar d (p % 2 ^ 19) }) ∧ (op = 20 → gives { y with ofs := sset 0 x.ofs d (p % 2 ^ 20) })
    ∧ (op = 21 → gives { y with ml := sset 0 (sset 0 x.ml (2 * (d % 8)) (p % 2 ^ 19)) (2 * (d % 8) + 1) (q % 2 ^ 19) })
    ∧ (op = 27 → gives y) :)
  ∧ (∀ (s : State) (c : Fin 96) (k : Fin 8) (w : BitVec 128), s.sigIssues c k w → onlyXop w (bits w.toNat 93 88) → 6 ≤ bits w.toNat 93 88 → bits w.toNat 93 88 ≤ 8
      → 32 ≤ (s.sigThr c k).sr (bits w.toNat 105 102) →
    Runs (.sigBundle c k w) s (fun t => ∃ v, s.bundleDone t c k ((s.sigPast c k).setX (bits w.toNat 97 94) v)) :)
  ∧ (∀ (s : State) (c : Fin 96) (k : Fin 8) (w : BitVec 128), s.sigIssues c k w → bits w.toNat 3 0 = 0 → bits w.toNat 27 24 = 0 → bits w.toNat 93 88 = 0 →
    let b := w.toNat
    let op := bits b 53 48
    let x := s.sigThr c k
    let ra := bits b 57 54
    let rb := bits b 61 58
    let acc := bits b 63 62
    let d := bits b 67 64
    let pair (r l : Nat) : Int × Int := (x.cget r l 0, x.cget r l 1)
    let raw (l : Nat) : Int × Int := macSpec op (pair ra l) (pair rb l) (x.aget acc l 0, x.aget acc l 1)
    let ovr : Prop := ∃ l, l < x.vl ∧ (clampSpec 56 (raw l).1 ≠ (raw l).1 ∨ clampSpec 56 (raw l).2 ≠ (raw l).2)
    let sum (l q : Nat) : Int := if op = 8 then x.cget ra l q + x.cget rb l q else x.cget ra l q - x.cget rb l q
    let sat : Prop := ∃ l q, l < x.vl ∧ q < 2 ∧ clampSpec 24 (sum l q) ≠ sum l q
    x.vl ≤ 16 →
    (1 ≤ op → op ≠ 8 → op ≠ 9 → Runs (.sigBundle c k w) s (fun t =>
        s.onlyIn t { regs := true, sig := true, acct := true, free := true } ∧ s.sigOnly t c k
        ∧ t.sigThr c k = { s.sigPast c k with acc := (t.sigThr c k).acc, flags := (t.sigThr c k).flags }
        ∧ (∀ l, l < x.vl → (t.sigThr c k).aget acc l 0 = clampSpec 56 (raw l).1 ∧ (t.sigThr c k).aget acc l 1 = clampSpec 56 (raw l).2)
        ∧ (∀ r l q, r < 4 → l < 16 → q < 2 → r ≠ acc ∨ x.vl ≤ l → (t.sigThr c k).aget r l q = x.aget r l q)
        ∧ (¬ovr → (t.sigThr c k).flags = x.flags ∧ s.bundled t c [])
        ∧ s.bitsBut t [.whole (r_SIG_BUNDLE_CNT_LO c), .whole (r_SIG_BUNDLE_CNT_LO c + 4), f_SIG_STATUS_ACC_OVF, f_SIG_STATUS_ACC_OVF.count]
        ∧ (ovr → (t.sigThr c k).flags = x.flags ||| 4 ∧ t.get f_SIG_STATUS_ACC_OVF = 1)))
    ∧ (op = 8 ∨ op = 9 → Runs (.sigBundle c k w) s (fun t =>
        s.onlyIn t { regs := true, sig := true, acct := true, free := true } ∧ s.sigOnly t c k
        ∧ t.sigThr c k = { s.sigPast c k with c := (t.sigThr c k).c, flags := (t.sigThr c k).flags }
        ∧ (∀ l q, l < x.vl → q < 2 → (t.sigThr c k).cget d l q = clampSpec 24 (sum l q))
        ∧ (∀ r l q, r < 16 → l < 16 → q < 2 → r ≠ d ∨ x.vl ≤ l → (t.sigThr c k).cget r l q = x.cget r l q)
        ∧ (¬sat → (t.sigThr c k).flags = x.flags ∧ s.bundled t c [])
        ∧ s.bitsBut t [.whole (r_SIG_BUNDLE_CNT_LO c), .whole (r_SIG_BUNDLE_CNT_LO c + 4), f_SIG_STATUS_SAT, f_SIG_STATUS_SAT.count]
        ∧ (sat → (t.sigThr c k).flags = x.flags ||| 1 ∧ t.get f_SIG_STATUS_SAT = 1))) :))
  ∧ ((∀ (s : State) (c : Fin 96) (k : Fin 8) (w : BitVec 128), s.sigIssues c k w → bits w.toNat 27 24 = 0 → bits w.toNat 53 48 = 0 → bits w.toNat 93 88 = 0 →
    let b := w.toNat
    let op := bits b 3 0
    let x := s.sigThr c k
    let d := bits b 7 4
    let r := bits b 11 8
    let a := sget 0 x.ar r
    let step := toSigned 20 (sget 0 x.ofs (bits b 15 12))
    let base := sget 0 x.ml (2 * bits b 19 17)
    let len := sget 0 x.ml (2 * bits b 19 17 + 1)
    let n := if op = 1 then 8 * x.vl else if op = 2 then 4 * x.vl else if op = 3 then 4 else 8
    let al := if op = 1 ∨ op = 4 then 8 else 4
    let next := if bitAt b 16 then (base + (((a : Int) - base + step) % (len : Int)).toNat) % 2 ^ 19
      else if bitAt b 20 then rev19 ((rev19 a + rev19 (sget 0 x.ofs (bits b 15 12) % 2 ^ 19)) % 2 ^ 19)
      else (((a : Int) + step) % 2 ^ 19).toNat
    let m := sigBase c + a
    let word (o n : Nat) : Int := toSigned (8 * n) (s.readLE (m + o) n)
    1 ≤ op → x.vl ≤ 16 → 1 ≤ x.vl → a % al = 0 → (bitAt b 16 = true → len ≠ 0 ∧ base ≤ a ∧ a + n ≤ base + len) → s.localOk c x.radio a n = true → s.plain m n →
    Runs (.sigBundle c k w) s (fun t => s.onlyIn t { regs := true, sig := true, acct := true, free := true } ∧ s.bundled t c [] ∧ s.sigOnly t c k
      ∧ t.sigThr c k = { s.sigPast c k with c := (t.sigThr c k).c, x := (t.sigThr c k).x, ar := sset 0 x.ar r next }
      ∧ (op = 3 → (t.sigThr c k).c = x.c ∧ ∀ j, j < 16 → (t.sigThr c k).sr j = if j = d ∧ j ≠ 0 then s.readLE m 4 else x.sr j)
      ∧ (op ≠ 3 → (t.sigThr c k).x = x.x
        ∧ (∀ j l q, j < 16 → l < 16 → q < 2 → j ≠ d ∨ x.vl ≤ l → (t.sigThr c k).cget j l q = x.cget j l q)
        ∧ (∀ l q, l < x.vl → q < 2 → (t.sigThr c k).cget d l q =
            if op = 1 then word (8 * l + 4 * q) 3 else if op = 2 then word (4 * l + 2 * q) 2 * 256 else word (4 * q) 3))) :)
  ∧ (∀ (s : State) (c : Fin 96) (k : Fin 8) (w : BitVec 128), s.sigIssues c k w → bits w.toNat 3 0 = 0 → bits w.toNat 53 48 = 0 → bits w.toNat 93 88 = 0 →
    let b := w.toNat
    let op := bits b 27 24
    let x := s.sigThr c k
    let v := bits b 31 28
    let r := bits b 35 32
    let a := sget 0 x.ar r
    let next := (((a : Int) + toSigned 20 (sget 0 x.ofs (bits b 39 36))) % 2 ^ 19).toNat
    let n := if op = 2 then 4 * x.vl else if op = 4 then 4 else 8 * x.vl
    let al := if op = 1 ∨ op = 3 then 8 else 4
    let m := sigBase c + a
    let wide : Nat := if op = 2 then 16 else 24
    let sh := x.rnd % 64 + (24 - wide)
    1 ≤ op → 1 ≤ x.vl → x.vl ≤ 16 → a % al = 0 → bitAt b 40 = false → bitAt b 44 = false → s.localOk c x.radio a n = true → s.writable m n →
    Runs (.sigBundle c k w) s (fun t => s.onlyIn t { regs := true, mem := true, sig := true, acct := true, free := true } ∧ s.sigOnly t c k
      ∧ t.sigThr c k = { s.sigPast c k with ar := sset 0 x.ar r next, flags := (t.sigThr c k).flags } ∧ s.memBut t m n
      ∧ s.bitsBut t [.whole (r_SIG_BUNDLE_CNT_LO c), .whole (r_SIG_BUNDLE_CNT_LO c + 4), f_SIG_STATUS_SAT, f_SIG_STATUS_SAT.count, f_SIG_STATUS_WRAP, f_SIG_STATUS_WRAP.count]
      ∧ (op = 4 → t.readLE m 4 = x.sr v ∧ s.bundled t c [] ∧ (t.sigThr c k).flags = x.flags)
      ∧ (op = 3 → (∀ l q, l < x.vl → q < 2 → toSigned 32 (t.readLE (m + 8 * l + 4 * q) 4) = x.cget v l q) ∧ (t.sigThr c k).flags = x.flags)
      ∧ (op ≤ 2 → ∀ l q, l < x.vl → q < 2 →
          let u := x.aget (v % 4) l q
          let o := if op = 1 then toSigned 32 (t.readLE (m + 8 * l + 4 * q) 4) else toSigned 16 (t.readLE (m + 4 * l + 2 * q) 2)
          ∃ y : Int, 2 * (y * 2 ^ sh - u).natAbs ≤ 2 ^ sh ∧ (2 * (y * 2 ^ sh - u).natAbs = 2 ^ sh → sh ≠ 0 → y % 2 = 0)
            ∧ (bitAt x.rnd 6 = true → o = clampSpec wide y ∧ (clampSpec wide y ≠ y → (t.sigThr c k).flags % 2 = 1 ∧ t.get f_SIG_STATUS_SAT = 1))
            ∧ (bitAt x.rnd 6 = false → (o - y) % 2 ^ wide = 0 ∧ -(2 ^ (wide - 1)) ≤ o ∧ o < 2 ^ (wide - 1)
                ∧ (clampSpec wide y ≠ y → bitAt (t.sigThr c k).flags 1 = true ∧ t.get f_SIG_STATUS_WRAP = 1)))) :)
  ∧ (∀ (s : State) (c : Fin 96) (k : Fin 8) (w : BitVec 128) (i : Instr), s.live = true → s.sigMayRun c k = true →
    let b := w.toNat
    let x := s.sigThr c k
    let loadAl := if bits b 3 0 = 1 ∨ bits b 3 0 = 4 then 8 else 4
    let ready : Prop := s.sigFetchBad x = false ∧ bundleLegal b = true ∧ x.pc % 16 = 0
    let faults (kind addr : Nat) : Prop := Runs i s (fun t =>
      t.mem = s.mem ∧ t.rad = s.rad ∧ t.hst = s.hst ∧ t.arr = s.arr ∧ (t.sigThr c k).st = .faulted ∧ (t.sigThr c k).kind = kind
      ∧ (t.sigThr c k).pc = x.pc ∧ (t.sigThr c k).c = x.c ∧ (t.sigThr c k).acc = x.acc ∧ (t.sigThr c k).x = x.x ∧ (t.sigThr c k).ar = x.ar
      ∧ (x.radio = true → (∀ j, j < 8 → (s.sigThr c j).radio = true → (t.sigThr c j).st = .faulted) ∧ t.te = s.te ∧ s.sends t (srcCore (s.physCore c)) kind addr k
          ∧ (∀ d j, 8 * d + j < 8 * c.val ∨ 8 * c.val + 8 ≤ 8 * d + j → t.sigThr d j = s.sigThr d j) ∧ s.bitsBut t [f_SIG_STATUS_FAULT, f_SIG_STATUS_FAULT.count])
      ∧ (x.radio = false → s.msg (srcCore (s.physCore c)) kind addr k ∈ t.flt.inbox
          ∧ (∀ d j, (s.sigThr d j).job = x.job → (s.sigThr d j).radio = false → (s.sigThr d j).st ≠ .idle → (t.sigThr d j).st = .faulted))
      ∧ t.get f_SIG_STATUS_FAULT = 1)
    i = .sigBundle c k w ∨ i = .jsub c k w ∨ i = .jwait c k w ∨ i = .jpoll c k w ∨ i = .xwait c k w ∨ i = .sigHalt c k w
      ∨ (i = .xfer c k w 0 ∧ x.why ≠ .xfer) →
    (s.sigFetchBad x = true → faults 0x19 x.pc)
    ∧ (s.sigFetchBad x = false → bundleLegal b = false ∨ x.pc % 16 ≠ 0 → faults 0x18 x.pc)
    ∧ (ready → i = .sigBundle c k w → plainXop (bits b 93 88) = true → x.ecc = 2 → faults 0x1B x.pc)
    ∧ (ready → i = .sigBundle c k w → plainXop (bits b 93 88) = true → x.ecc = 0 → bits b 3 0 ≠ 0 → sget 0 x.ar (bits b 11 8) % loadAl ≠ 0 →
        faults 0x1A (sget 0 x.ar (bits b 11 8)))
    ∧ (ready → i = .jsub c k w → bits b 93 88 = 22 → bits b 3 0 = 0 → bits b 27 24 = 0 → x.ecc = 0
        → x.sr (bits b 101 98) % 64 ≠ 0 → faults 0x1A (x.sr (bits b 101 98)))
    ∧ (ready → i = .sigBundle c k w → plainXop (bits b 93 88) = true → x.ecc = 0 → bits b 3 0 ≠ 0 → bits b 27 24 = 0 → bitAt b 16 = false → x.vl ≤ 16 →
      let a := sget 0 x.ar (bits b 11 8)
      let m := sigBase c + a
      let n := if bits b 3 0 = 1 then 8 * x.vl else if bits b 3 0 = 2 then 4 * x.vl else if bits b 3 0 = 3 then 4 else 8
      a % loadAl = 0 → s.localOk c x.radio a n = true → s.region m ≠ .reserved → s.region m ≠ .regSpace → s.region (m + n - 1) = s.region m
        → touched s.ms.corr m n = [] → touched s.ms.uncorr m n ≠ [] →
      Runs i s (fun t => t.mem = s.mem ∧ (t.sigThr c k).st = .faulted ∧ (t.sigThr c k).kind = 0x29 ∧ (t.sigThr c k).pc = x.pc
        ∧ t.get f_MEM_STATUS_UNCORR = 1 ∧ t.get f_SIG_STATUS_FAULT = 1)) :)
  ∧ (∀ (s : State) (c : Fin 96) (k : Fin 8) (w : BitVec 128), s.sigMayRun c k = false → exec (.sigBundle c k w) s = .next s :))

/-- R367, R381, R382, R383, R385: transfers, jobs of the accelerators and their completions, waits and their limit, halting and re-runs.
Clauses may rest on choices of the model: log entries 17, 33 and 57. -/
def Obligations.SignalJobs : Prop :=
  (∀ (s : State) (c : Fin 96) (k : Fin 8) (w : BitVec 128), s.sigIssues c k w →
    let b := w.toNat
    let x := s.sigThr c k
    let y := s.sigPast c k
    let d := bits b 97 94
    let p := x.sr (bits b 101 98)
    let q := x.sr (bits b 105 102)
    let gives (i : Instr) (op : Nat) (z : SigThr) : Prop := onlyXop w op → Runs i s (fun t => s.bundleDone t c k z)
    (∀ v rest, x.comps = v :: rest →
      gives (.jwait c k w) 23 { (y.setX d v).setX (d + 1) (v / 2 ^ 32) with comps := rest } ∧ gives (.jpoll c k w) 24 { (y.setX d v).setX (d + 1) (v / 2 ^ 32) with comps := rest })
    ∧ (x.comps = [] → gives (.jwait c k w) 23 { y with st := .wait, why := .jwait, wD := d } ∧ gives (.jpoll c k w) 24 ((y.setX d 0).setX (d + 1) 0))
    ∧ gives (.xwait c k w) 26 (if x.xfers = 0 then y else { y with st := .wait, why := .xwait })
    ∧ (onlyXop w 16 →
      let f := sget 0 s.sig.rerun c
      let home := if f ≠ 0 then f - 1 else c.val
      let busy : Prop := ∃ j, j < 8 ∧ j ≠ k.val ∧ (s.sigThr c j).radio = true ∧ (s.sigThr c j).st ≠ .idle ∧ (s.sigThr c j).st ≠ .faulted
      Runs (.sigHalt c k w) s (fun t => s.onlyIn t { regs := true, sig := true, acct := true, free := true, tim := true } ∧ s.bundled t c []
        ∧ s.sigOnly t c k ∧ t.sigThr c k = { y with st := .idle, why := .none } ∧ t.sig.eng = s.sig.eng
        ∧ (x.radio = false → f = 0 → t.tim = s.tim)
        ∧ (x.radio = true → f = 0 ∨ busy → ∀ w, s.workOf (coreRes home) k = some w → t.tim = { s.tim with radioWork := s.tim.radioWork.erase w })
        ∧ (x.radio = true → f = 0 ∨ busy → s.workOf (coreRes home) k = none → t.tim = s.tim)
        ∧ (f = 0 ∨ busy → t.sig.rerun = s.sig.rerun)
        ∧ (f ≠ 0 → ¬busy → sget 0 t.sig.rerun c = 0 ∧ ∀ w ∈ t.tim.radioWork, w.res ≠ coreRes (f - 1) ∧ w ∈ s.tim.radioWork)))
    ∧ (onlyXop w 22 → p % 64 = 0 → s.localOk c x.radio p 64 = true → ¬(touched s.ms.uncorr (sigBase c + p) 64).isEmpty →
      Runs (.jsub c k w) s (fun t => (t.sigThr c k).st = .faulted ∧ (t.sigThr c k).kind = 0x29 ∧ t.sig.eng = s.sig.eng))
    ∧ (onlyXop w 22 → p % 64 = 0 → s.localOk c x.radio p 64 = true → s.plain (sigBase c + p) 64 →
      let a := sigBase c + p
      let j : AccJob := { core := c, thr := k, job := x.job, part := x.part, radio := x.radio, kind := q % 8, eng := q / 8 % 8, ctrl := s.readLE a 4, seq := s.readLE (a + 4) 4,
                          src := s.readLE (a + 8) 8, dst := s.readLE (a + 16) 8, inLen := s.readLE (a + 0x18) 4, outLen := s.readLE (a + 0x1C) 4,
                          param := s.readBytes (a + 0x20) 32, prio := x.prio }
      let r := srcEngine j.kind (s.coreDie c) j.eng
      let e := s.engOf r
      let full : Prop := (if x.radio then 32 ≤ e.radioQ.length else 64 ≤ e.openQ.length) ∨ 16 ≤ x.outst
      (engCount j.kind ≤ j.eng → x.why ≠ .jwait → Runs (.jsub c k w) s (fun t => s.bundleDone t c k { y with flags := x.flags ||| 16, comps := x.comps ++ [accWord j.seq 1 j.kind j.eng j.radio false] }))
      ∧ (j.eng < engCount j.kind → full → Runs (.jsub c k w) s (fun t => s.bundleDone t c k { y with st := .wait, why := .jsub, wJob := some j }))
      ∧ (j.eng < engCount j.kind → ¬full → Runs (.jsub c k w) s (fun t => s.onlyIn t { regs := true, sig := true, acct := true, free := true }
          ∧ s.sigOnly t c k ∧ t.sigThr c k = { y with outst := x.outst + 1 }
          ∧ t.engOf r = (if x.radio then { e with radioQ := e.radioQ ++ [j] } else { e with openQ := e.openQ ++ [j] })
          ∧ (∀ m, m ≠ r → t.engOf m = s.engOf m) ∧ s.bundled t c [(f_SIG_JOB_CNT_COUNT c).off]
          ∧ t.get (f_SIG_JOB_CNT_COUNT c) = min (s.get (f_SIG_JOB_CNT_COUNT c) + 1) (2 ^ 32 - 1))))
    ∧ (∀ moved : Fin 65, onlyXop w 25 → x.why ≠ .xfer → p % 64 = 0 → q % 64 = 0 →
      let n := bits b 111 106 + 1
      let bank := q / 0x80000
      s.localOk c x.radio p (64 * n) = true → q + 64 * n ≤ 2 ^ 28 → s.partReach x.part x.radio (stageBase + q) (64 * n) = true
        → (q + 64 * n - 1) / 0x80000 = bank → (bitAt b 112 = true → s.plain (sigBase c + p) (64 * n)) →
      let f : Transfer := { input := s.arbInput (srcCore (s.physCore c)) x.radio bank, line := q % 0x80000 / 64, beats := n, write := bitAt b 112, job := x.job,
                            master := srcCore (s.physCore c), data := if bitAt b 112 then s.readBytes (sigBase c + p) (64 * n) else [], xfer := some (c.val, k.val, p) }
      (x.xfers < 4 → s.bankOf bank = {} →
        Runs (.xfer c k w moved) s (fun t => s.onlyIn t { regs := true, sig := true, acct := true, free := true, ms := true } ∧ s.bundled t c [] ∧ s.sigOnly t c k
          ∧ t.sigThr c k = { y with xfers := x.xfers + 1 } ∧ (∀ o, o ≠ bank → t.bankOf o = s.bankOf o) ∧ t.bankOf bank = { cur := some f }))
      ∧ (4 ≤ x.xfers → Runs (.xfer c k w moved) s (fun t => s.bundleDone t c k { y with st := .wait, why := .xfer, wXfer := some f, wBank := bank }))) :)
  ∧ (∀ (s : State) (c : Fin 96) (k : Fin 8), s.live = true →
    let x := s.sigThr c k
    let y : SigThr := { x with st := .ready, prev := .ready, why := .none, wJob := none, wXfer := none, flags := x.flags ||| 8 }
    (x.st ≠ .wait → exec (.sigWaitTimeout c k) s = .next s)
    ∧ (x.st = .wait → Runs (.sigWaitTimeout c k) s (fun t => s.onlyIn t { regs := true, sig := true } ∧ s.sigOnly t c k ∧ t.sig.eng = s.sig.eng
        ∧ t.get f_SIG_STATUS_WAIT_TMO = 1 ∧ s.bitsBut t [f_SIG_STATUS_WAIT_TMO, f_SIG_STATUS_WAIT_TMO.count]
        ∧ (x.why = .jwait → t.sigThr c k = (y.setX x.wD 0).setX (x.wD + 1) 0)
        ∧ (∀ j, x.why = .jsub → x.wJob = some j → j.job = x.job →
            t.sigThr c k = { y with flags := x.flags ||| 8 ||| 16, comps := x.comps ++ [accWord j.seq 4 j.kind j.eng j.radio false] })
        ∧ (x.why = .jsub → x.wJob = none → t.sigThr c k = y)
        ∧ (x.why ≠ .jwait → x.why ≠ .jsub → t.sigThr c k = y))) :)
  ∧ (∀ (s : State) (c : Fin 96), s.live = true →
    let r := s.rerunCore (s.coreDie c)
    let may : Prop := s.coreLease c = .radio ∧ (∃ j, j < 8 ∧ (s.sigThr c j).radio = true ∧ (s.sigThr c j).st = .faulted) ∧ r < 96 ∧ r ≠ c.val ∧ sget 0 s.sig.rerun r = 0
      ∧ s.hasCore r = true ∧ s.get (f_SIG_CORE_ISOLATED r) = 0
    (¬may → exec (.sigRerun c) s = .next s)
    ∧ (may → Runs (.sigRerun c) s (fun t => s.onlyIn t { regs := true, tim := true, sig := true } ∧ t.coreLease r = .radio ∧ t.get (f_SIG_CORE_IN_RADIO r) = 1
        ∧ sget 0 t.sig.rerun r = c.val + 1 ∧ t.sig.eng = s.sig.eng ∧ t.get f_SIG_STATUS_RERUN = 1 ∧ t.get f_CLK_SHT_STATUS_RERUN = 1
        ∧ t.get f_CLK_RERUN_CNT_COUNT = min (s.get f_CLK_RERUN_CNT_COUNT + 1) (2 ^ 32 - 1)
        ∧ (∀ j, j < 8 → (s.sigThr r j).radio = true → (t.sigThr r j).st = .ready ∧ (t.sigThr r j).pc = s.radioEntry c ∧ (t.sigThr r j).tid = c.val ∧ (t.sigThr r j).x = [])
        ∧ (∀ j, j < 8 → (s.sigThr r j).radio = false → (t.sigThr r j).st = (if (s.sigThr r j).st = .ready ∨ (s.sigThr r j).st = .wait then .parked else (s.sigThr r j).st))
        ∧ (∀ d j, 8 * d + j < 8 * r ∨ 8 * r + 8 ≤ 8 * d + j → t.sigThr d j = s.sigThr d j))) :)
  ∧ (∀ (s : State) (kind : Fin 6) (die : Fin 4) (n : Fin 8) (cyc : BitVec 32) (j : AccJob), s.live = true → n.val < engCount kind →
    let r := srcEngine kind die n
    let e := s.engOf r
    let st := s.jobStatus j
    let x := s.sigThr j.core j.thr
    (st = 0 → j.inTime cyc.toNat = true) → e.isolated = false → s.leaseOf r ≠ .radio → (s.leaseOf r = .guard → e.guard = true) → bestAcc e.openQ = some j → (∀ g ∈ s.sig.thr, g.2.why ≠ .jsub)
      → x.job = j.job →
    let e' : Eng := { e with openQ := e.openQ.erase j, guard := false, jobs := min (e.jobs + 1) (2 ^ 32 - 1), busy := min (e.busy + cyc.toNat) (2 ^ 32 - 1) }
    (st ≠ 0 → x.why ≠ .jwait → Runs (.accelJobComplete kind die n false 0 cyc) s (fun t => s.onlyIn t { sig := true } ∧ t.engOf r = e'
        ∧ (∀ m, m ≠ r → t.engOf m = s.engOf m) ∧ s.sigOnly t j.core j.thr
        ∧ t.sigThr j.core j.thr = { x with flags := x.flags ||| 16, outst := x.outst - 1, comps := x.comps ++ [accWord j.seq st j.kind j.eng j.radio j.re] }))
    ∧ (st = 0 → x.why ≠ .jwait → (j.outLen ≠ 0 → s.writable j.dst j.outLen) → (j.side.2 ≠ 0 → s.writable j.side.1 j.side.2)
        → (∀ p ∈ j.reads, p.2 ≠ 0 → s.plain p.1 p.2) → Runs (.accelJobComplete kind die n false 0 cyc) s (fun t =>
        s.onlyIn t { sig := true, mem := true, free := true }
        ∧ (∀ b, b < j.dst ∨ j.dst + j.outLen ≤ b → b < j.side.1 ∨ j.side.1 + j.side.2 ≤ b → t.readByte b = s.readByte b)
        ∧ (j.side.1 + j.side.2 ≤ j.dst ∨ j.dst + j.outLen ≤ j.side.1 → j.header = true → ∀ i, 2 ≤ i → i < 8 → i < j.outLen → t.readByte (j.dst + i) = 0)
        ∧ (j.kind = 0 → ∀ i, i < j.side.2 → t.readByte (j.side.1 + i) ≠ 0x80#8) ∧ t.engOf r = e' ∧ (∀ m, m ≠ r → t.engOf m = s.engOf m)
        ∧ s.sigOnly t j.core j.thr
        ∧ t.sigThr j.core j.thr = { x with outst := x.outst - 1, comps := x.comps ++ [accWord j.seq 0 j.kind j.eng j.radio j.re] }))
    ∧ (∀ hw : Fin 3, hw ≠ 0 → x.why ≠ .jwait → Runs (.accelJobComplete kind die n false hw cyc) s (fun t => s.onlyIn t { sig := true, flt := true } ∧ s.sends t r 0x21 0 0
        ∧ t.engOf r = e' ∧ (∀ m, m ≠ r → t.engOf m = s.engOf m) ∧ s.sigOnly t j.core j.thr
        ∧ t.sigThr j.core j.thr = { x with flags := x.flags ||| 16, outst := x.outst - 1, comps := x.comps ++ [accWord j.seq 3 j.kind j.eng j.radio j.re] })) :)
  ∧ (∀ (s : State) (kind : Fin 6) (die : Fin 4) (n : Fin 8) (cyc : BitVec 32) (hw : Fin 3) (j : AccJob) (rest : List AccJob), s.live = true → n.val < engCount kind →
    let r := srcEngine kind die n
    let e := s.engOf r
    let st := s.jobStatus j
    let x := s.sigThr j.core j.thr
    (st = 0 → j.inTime cyc.toNat = true) → e.isolated = false → s.leaseOf r = .radio → e.radioQ = j :: rest → (∀ g ∈ s.sig.thr, g.2.why ≠ .jsub) → x.job = j.job → x.why ≠ .jwait →
    let again : Prop := hw ≠ 0 ∧ j.re = false ∧ s.otherEngine j.kind (s.coreDie j.core) r ≠ none
    let lost : Prop := hw = 2 ∨ (hw = 1 ∧ ¬again)
    let word (st : Nat) (again : Bool) := accWord j.seq st j.kind j.eng j.radio (j.re || again)
    let done (t : State) : Prop := t.engOf r = { e with radioQ := rest, jobs := min (e.jobs + 1) (2 ^ 32 - 1), busy := min (e.busy + cyc.toNat) (2 ^ 32 - 1) }
      ∧ (∀ m, m ≠ r → t.engOf m = s.engOf m) ∧ s.sigOnly t j.core j.thr
      ∧ (again → t.get f_RAD_STATUS_REISSUE = 1 ∧ t.get f_RAD_REISSUE_CNT_COUNT = min (s.get f_RAD_REISSUE_CNT_COUNT + 1) (2 ^ 32 - 1)
        ∧ t.get f_CLK_SHT_STATUS_RERUN = 1 ∧ t.get f_CLK_RERUN_CNT_COUNT = min (s.get f_CLK_RERUN_CNT_COUNT + 1) (2 ^ 32 - 1))
      ∧ (¬again → t.regs = s.regs) ∧ (hw ≠ 0 → s.sends t r 0x21 0 0) ∧ (hw = 0 → t.flt = s.flt)
      ∧ (s.workOf r 0 = none → t.tim = s.tim)
      ∧ (∀ w, s.workOf r 0 = some w → t.tim = { s.tim with radioWork := s.tim.radioWork.erase w, gaveUp := t.tim.gaveUp }
        ∧ (lost → t.tim.gaveUp = s.tim.gaveUp ++ w.cells) ∧ (¬lost → t.tim.gaveUp = s.tim.gaveUp))
    (lost ∨ st ≠ 0 → Runs (.accelJobComplete kind die n true hw cyc) s (fun t => s.onlyIn t { regs := true, sig := true, flt := true, tim := true } ∧ done t
      ∧ ∀ a : Bool, (a = true ↔ again) → ∀ v, (lost → v = 3) → (¬lost → v = st) →
        t.sigThr j.core j.thr = { x with flags := x.flags ||| 16, outst := x.outst - 1, comps := x.comps ++ [word v a] }))
    ∧ (¬lost → st = 0 → (j.outLen ≠ 0 → s.writable j.dst j.outLen) → (j.side.2 ≠ 0 → s.writable j.side.1 j.side.2) → (∀ p ∈ j.reads, p.2 ≠ 0 → s.plain p.1 p.2) →
      Runs (.accelJobComplete kind die n true hw cyc) s (fun t => s.onlyIn t { regs := true, sig := true, flt := true, tim := true, mem := true, free := true } ∧ done t
      ∧ (∀ b, b < j.dst ∨ j.dst + j.outLen ≤ b → b < j.side.1 ∨ j.side.1 + j.side.2 ≤ b → t.readByte b = s.readByte b)
      ∧ ∀ a : Bool, (a = true ↔ again) → t.sigThr j.core j.thr = { x with outst := x.outst - 1, comps := x.comps ++ [word 0 a] })) :)
  ∧ (∀ (s : State) (kind : Fin 6) (die : Fin 4) (n : Fin 8) (radio : Bool) (hw : Fin 3) (cyc : BitVec 32), s.live = true →
      let r := srcEngine kind die n
      engCount kind ≤ n ∨ (s.engOf r).isolated = true ∨ (radio = true ∧ ((s.engOf r).radioQ = [] ∨ s.leaseOf r ≠ .radio))
        ∨ (radio = false ∧ ((s.engOf r).openQ = [] ∨ s.leaseOf r = .radio ∨ (s.leaseOf r = .guard ∧ (s.engOf r).guard = false))) →
    exec (.accelJobComplete kind die n radio hw cyc) s = .next s :)
  ∧ (∀ (j : AccJob) (cyc : Nat), let bg := bitAt (j.par 0x22 1) 0
    let c := if bg then 50 else 66
    (j.kind = 0 → (j.inTime cyc = true ↔ cyc ≤ 32 + j.par 0x23 1 * ((c * j.par 0x20 2 + 95) / 96)))
    ∧ (j.kind = 1 → (j.inTime cyc = true ↔ cyc ≤ 42 + (c * j.par 0x20 2 + 39) / 40)) ∧ (j.kind = 5 → j.inTime cyc = true) :)
/-! Radio cells and their migration (chapter 12, R391 to R415). -/

/-- R391, R392, R408 to R411: what a radio window's requests do: the cell's state at the next frame boundary, the requests of a slot, late
and malformed requests, and the buffers that indications use. R414, R415: a migration: the offer and its acceptance at the target, the
copies of its two phases, the switch, and its failure. R406, R407: the link quality, SINR and EVM from what was measured. Clauses may rest
on choices of the model: log entries 46 and 70. -/
def Obligations.RadioCells : Prop :=
  ((∀ (s : State) (w : Fin 128) (c : Cmd) (m : FapiMsg) (e : Bool) (i : Instr), s.live = true →
      i ∈ [Instr.fapiStart w e, .fapiStop w e, .fapiUnsupported w e, .dlTtiRequest w m, .ulTtiRequest w m, .ulDciRequest w m, .txDataRequest w m] →
    (s.frontCmd w 0x40 = none → exec i s = .next s)
    ∧ (s.frontCmd w 0x40 = some c → s.hostAddr (s.cmdAddr w (c.at 8 8)) (c.at 0x10 4) = none → Runs i s (fun t =>
        s.onlyIn t { regs := true, hst := true, acct := true, out := true, flt := true } ∧ s.bitsBut t [f_TWN_CPL_DROP_COUNT w]
        ∧ s.radioDone t w c 1 ∧ s.sends t srcWin 0x16 (s.cmdAddr w (c.at 8 8)) 0)) :)
  ∧ (∀ (s : State) (w : Fin 128) (c : Cmd), s.live = true → s.frontCmd w 0x40 = some c → (s.hostAddr (s.cmdAddr w (c.at 8 8)) (c.at 0x10 4)).isSome = true →
    let n := c.at 2 2
    let x := s.cellOf n
    let quiet (t : State) (l : List FRef) : Prop := s.onlyIn t { regs := true, rad := true, hst := true, acct := true, out := true, free := true }
      ∧ s.bitsBut t (l ++ s.postFields w n)
    let others (t : State) : Prop := (∀ m, m ≠ n → t.cellOf m = s.cellOf m) ∧ t.rad.mig = s.rad.mig
    let same (t : State) : Prop := t.rad.cell = s.rad.cell ∧ t.rad.mig = s.rad.mig
    let refused (i : Instr) (e : FapiErr) : Prop := Runs i s (fun t => quiet t [] ∧ same t ∧ s.indicated t n (.error e (c.at 4 2) (c.at 6 1)) ∧ s.radioDone t w c 0)
    let failed (i : Instr) : Prop := Runs i s (fun t => quiet t [] ∧ same t ∧ s.radioDone t w c 1)
    let bad (i : Instr) : Prop := Runs i s (fun t => quiet t [f_RAD_STATUS_BAD_REQ, f_RAD_STATUS_BAD_REQ.count] ∧ same t ∧ t.get f_RAD_STATUS_BAD_REQ = 1
        ∧ s.indicated t n (.error .msgInvalidConfig (c.at 4 2) (c.at 6 1)) ∧ s.radioDone t w c 2)
    (x.st = .stopped → s.get f_CLK_TIME_STATE_STATE = 2 → Runs (.fapiStart w false) s (fun t => quiet t [] ∧ others t
        ∧ t.cellOf n = { x with next := some .running } ∧ s.radioDone t w c 0))
    ∧ (x.st ≠ .stopped ∨ s.get f_CLK_TIME_STATE_STATE ≠ 2 → refused (.fapiStart w false) .msgInvalidState)
    ∧ (x.st = .running → Runs (.fapiStop w false) s (fun t => quiet t [] ∧ others t ∧ t.cellOf n = { x with next := some .stopped } ∧ s.radioDone t w c 0))
    ∧ (x.st ≠ .running → refused (.fapiStop w false) .msgInvalidState)
    ∧ failed (.fapiStart w true) ∧ failed (.fapiStop w true) ∧ failed (.fapiUnsupported w true) ∧ bad (.fapiUnsupported w false)
    ∧ (∀ (m : FapiMsg) (i : Instr) (upd : SlotReq → SlotReq),
        (i = .dlTtiRequest w m ∧ upd = fun r => { r with dl := true, data := r.data || m.pdus.any (fun p => p.kind == .dlData || p.kind == .sunTx) })
        ∨ (i = .ulTtiRequest w m ∧ upd = fun r => { r with ul := true, pdus := r.pdus ++ m.pdus })
        ∨ (i = .ulDciRequest w m ∧ upd = fun r => { r with dci := true }) ∨ (i = .txDataRequest w m ∧ upd = fun r => { r with tx := true }) →
      (m.err = true → failed i)
      ∧ (m.err = false → (s.cellCfg n = none ∨ m.bad = true) → bad i)
      ∧ (∀ g, m.err = false → m.bad = false → s.cellCfg n = some g →
        let t0 := s.slotTick g (c.at 4 2) (c.at 6 1)
        let late : Prop := t0 ≤ (c.arrival : Int) + s.get f_RAD_CFG_REQ_LEAD
        (s.frameExpo ≤ c.at 6 1 * max 1 g.slotExpo → bad i)
        ∧ (c.at 6 1 * max 1 g.slotExpo < s.frameExpo → late → Runs i s (fun t => quiet t [f_RAD_LATE_CNT_COUNT, f_RAD_STATUS_LATE_REQ, f_RAD_STATUS_LATE_REQ.count]
            ∧ same t ∧ t.get f_RAD_LATE_CNT_COUNT = min (s.get f_RAD_LATE_CNT_COUNT + 1) (2 ^ 32 - 1) ∧ t.get f_RAD_STATUS_LATE_REQ = 1
            ∧ s.indicated t n (.error .msgSlotErr (c.at 4 2) (c.at 6 1)) ∧ s.radioDone t w c 0))
        ∧ (c.at 6 1 * max 1 g.slotExpo < s.frameExpo → ¬late → s.cellRuns g x t0.toNat = false → refused i .msgInvalidState)
        ∧ (c.at 6 1 * max 1 g.slotExpo < s.frameExpo → ¬late → s.cellRuns g x t0.toNat = true → Runs i s (fun t => quiet t [] ∧ others t
            ∧ t.cellOf n = { x with reqs := (t.cellOf n).reqs } ∧ s.radioDone t w c 0
            ∧ ((∃ r ∈ x.reqs, r.t0 = t0.toNat) → (t.cellOf n).reqs = x.reqs.map (fun r => if r.t0 = t0.toNat then upd r else r))
            ∧ ((∀ r ∈ x.reqs, r.t0 ≠ t0.toNat) → (t.cellOf n).reqs = x.reqs ++ [upd { t0 := t0.toNat }]))))) :)
  ∧ (∀ (s : State) (g : CellCfg) (sfn sl : Nat), sfn < 1024 → sl * max 1 g.slotExpo < s.frameExpo →
    let t0 := s.slotTick g sfn sl
    (s.tim.tick : Int) ≤ t0 + 512 * s.frameExpo ∧ t0 < (s.tim.tick : Int) + 512 * s.frameExpo ∧ (0 ≤ t0 → s.cellSfn g t0.toNat = sfn ∧ s.cellSlot g t0.toNat = sl) :)
  ∧ (∀ (s : State) (g : CellCfg) (x : Cell) (t0 : Nat),
    let b := s.tim.tick + (s.frameExpo - s.cellPhase g s.tim.tick % s.frameExpo)
    (x.st = .absent → s.cellRuns g x t0 = false) ∧ (x.st = .running → x.next = none → s.cellRuns g x t0 = true)
    ∧ (x.st = .running → x.next = some .stopped → (s.cellRuns g x t0 = true ↔ t0 < b)) ∧ (x.st = .stopped → x.next = none → s.cellRuns g x t0 = false)
    ∧ (x.st = .stopped → x.next = some .running → (s.cellRuns g x t0 = true ↔ b ≤ t0)) ∧ (x.st = .migOut → (s.cellRuns g x t0 = true ↔ t0 < x.migB))
    ∧ (x.st = .migIn → (s.cellRuns g x t0 = true ↔ x.migB ≤ t0)) :)
  ∧ (∀ (s : State) (w : Fin 128) (c : Cmd), s.live = true → s.frontCmd w 0x41 = some c →
    Runs (.indBuf w) s (fun t => s.onlyIn t { rad := true, hst := true } ∧ t.rad = { s.rad with buf := t.rad.buf }
      ∧ sget [] t.rad.buf w = sget [] s.rad.buf w ++ [(c.at 8 8, c.at 0x10 4, c.tag)] ∧ (∀ k, k ≠ w.val → sget [] t.rad.buf k = sget [] s.rad.buf k)
      ∧ t.winOf w = { s.winOf w with cmds := (s.winOf w).cmds.filter (fun d => d.pos ≠ c.pos) } ∧ ∀ v, v ≠ w.val → t.winOf v = s.winOf v) :))
  ∧ ((∀ (s : State) (v : BitVec 32), s.live = true →
    let n := v.toNat % 2048
    let dst := bits v.toNat 23 12
    let x := s.cellOf n
    let ready : Prop := bitAt v.toNat 31 = true ∧ s.rad.mig = .idle
    (¬ready → Runs (.radMigGo v) s (fun t => s.onlyIn t { regs := true } ∧ t.get f_RAD_MIG_CELL = n ∧ t.get f_RAD_MIG_TARGET = dst
        ∧ s.bitsBut t [f_RAD_MIG_CELL, f_RAD_MIG_TARGET]))
    ∧ (ready → s.cellCfg n = none ∨ x.st ≠ .running ∨ dst = s.chipId → Runs (.radMigGo v) s (fun t => s.onlyIn t { regs := true, rad := true } ∧ t.rad = s.rad
        ∧ t.get f_RAD_MIG_RES_RESULT = 2 ∧ t.get f_RAD_MIG_RES_BUSY = 0
        ∧ s.bitsBut t [f_RAD_MIG_CELL, f_RAD_MIG_TARGET, f_RAD_MIG_RES_RESULT, f_RAD_MIG_RES_BUSY]))
    ∧ (∀ g, ready → s.cellCfg n = some g → x.st = .running → dst ≠ s.chipId → s.canReach dst → 0 < s.frameExpo → Runs (.radMigGo v) s (fun t =>
        t.get f_RAD_MIG_RES_BUSY = 1 ∧ t.rad.mig = .offered ∧ t.rad.migCell = n ∧ t.rad.migTo = dst ∧ t.rad.buf = s.rad.buf
        ∧ t.cellOf n = { x with peer := dst } ∧ (∀ m, m ≠ n → t.cellOf m = s.cellOf m) ∧ t.mem = s.mem ∧ t.srv = s.srv ∧ t.own = s.own ∧ t.arr = s.arr
        ∧ s.frameAt g t.rad.migB = true ∧ s.tim.tick + s.get f_RAD_CFG_MIG_LEAD ≤ t.rad.migB
        ∧ t.rad.migB < s.tim.tick + s.get f_RAD_CFG_MIG_LEAD + s.frameExpo
        ∧ ∃ r ∈ t.net.reqs, r.who = .serve ∧ r.done = none ∧ r.pkt.op = 8 ∧ r.pkt.dst = dst ∧ r.pkt.srv = [3, n, g.digest, t.rad.migB])) :)
  ∧ (∀ (s u : State) (src : BitVec 12) (k : Pkt), s.live = true → s.valid = true → s.takeReq src.toNat 8 (fun q => q.srv.getD 0 0 == 3) = some (k, u) → u.newTag k →
    let n := k.srv.getD 1 0
    let x := u.cellOf n
    let ok : Prop := x.st = .stopped ∧ x.next = none ∧ u.get f_CLK_TIME_STATE_STATE = 2 ∧ ∃ g, u.cellCfg n = some g ∧ g.digest = k.srv.getD 2 0
    (ok → Runs (.migrationOffer src) s (fun t => u.onlyIn t { answerParts with mem := true, rad := true } ∧ u.answered t k 0 1 false [] ∧ t.tagHeld k 0 1
        ∧ t.cellOf n = { x with st := .migIn, migB := k.srv.getD 3 0, copied := false, harq := true, peer := k.src }
        ∧ (∀ m, m ≠ n → t.cellOf m = u.cellOf m) ∧ u.memBut t (u.dedupAt k.src (k.atag % 256)) 32))
    ∧ (¬ok → Runs (.migrationOffer src) s (fun t => u.onlyIn t { answerParts with mem := true } ∧ u.answered t k 0 0 false [] ∧ t.tagHeld k 0 0
        ∧ u.memBut t (u.dedupAt k.src (k.atag % 256)) 32)) :)
  ∧ (∀ (s : State) (n : BitVec 11) (r : Req) (st res : Nat) (met : Bool), s.live = true → s.net.srvDone = [r] → r.kind = 7 → r.done = some (st, res, met)
      → s.rad.mig = .offered → s.rad.migCell = n.toNat → (s.cellOf n.toNat).st = .running →
    let x := s.cellOf n.toNat
    (st = 0 ∧ res = 1 → s.radioCopies = false → Runs (.migPhase1Complete n) s (fun t => s.onlyIn t { net := true, rad := true } ∧ t.net = { s.net with srvDone := [] }
        ∧ t.rad.mig = .ready ∧ t.cellOf n.toNat = { x with st := .migOut, next := none, migB := s.rad.migB, copied := true } ∧ ∀ m, m ≠ n.toNat → t.cellOf m = s.cellOf m))
    ∧ (¬(st = 0 ∧ res = 1) → Runs (.migPhase1Complete n) s (fun t => s.onlyIn t { regs := true, net := true, rad := true } ∧ t.rad = { s.rad with mig := .idle }
        ∧ t.get f_RAD_MIG_RES_RESULT = 2 ∧ t.get f_RAD_MIG_RES_BUSY = 0 ∧ s.bitsBut t [f_RAD_MIG_RES_RESULT, f_RAD_MIG_RES_BUSY])) :)
  ∧ (∀ (s : State) (n : BitVec 11), s.live = true → (∀ r ∈ s.net.srvDone, r.kind ≠ 7) →
    let x := s.cellOf n.toNat
    let only (t : State) : Prop := ∀ m, m ≠ n.toNat → t.cellOf m = s.cellOf m
    (x.st = .migOut → s.rad.mig = .phase1 → s.rad.migCell = n.toNat → s.radioCopies = true → exec (.migPhase1Complete n) s = .next s)
    ∧ (x.st = .migOut → s.rad.mig = .phase1 → s.rad.migCell = n.toNat → s.radioCopies = false → Runs (.migPhase1Complete n) s (fun t => s.onlyIn t { rad := true } ∧ only t
        ∧ t.cellOf n.toNat = { x with copied := true } ∧ t.rad.mig = .ready))
    ∧ (x.st = .migIn → Runs (.migPhase1Complete n) s (fun t => s.onlyIn t { rad := true } ∧ only t ∧ t.cellOf n.toNat = { x with copied := true } ∧ t.rad.mig = s.rad.mig))
    ∧ (x.st ≠ .migOut → x.st ≠ .migIn → exec (.migPhase1Complete n) s = .next s ∧ exec (.migSwitch n) s = .next s)
    ∧ (s.tim.tick < x.migB → exec (.migSwitch n) s = .next s)
    ∧ (x.migB ≤ s.tim.tick → x.st = .migOut → x.copied = true → Runs (.migSwitch n) s (fun t => s.onlyIn t { regs := true, rad := true } ∧ only t
        ∧ t.cellOf n.toNat = { x with st := .stopped } ∧ t.rad.mig = .phase2 ∧ (∀ g, s.cellCfg n.toNat = some g → t.get f_RAD_MIG_RES_SFN = s.cellSfn g x.migB % 1024)
        ∧ s.bitsBut t [f_RAD_MIG_RES_SFN]))
    ∧ (x.migB ≤ s.tim.tick → x.st = .migOut → x.copied = false → Runs (.migSwitch n) s (fun t => s.onlyIn t { regs := true, flt := true, rad := true } ∧ only t
        ∧ t.cellOf n.toNat = { x with st := .running } ∧ t.rad.mig = .idle ∧ t.get f_RAD_MIG_RES_RESULT = 3 ∧ t.get f_RAD_MIG_RES_BUSY = 0
        ∧ t.get f_RAD_STATUS_MIG_FAIL = 1 ∧ s.sends t srcTime 0x22 0 0
        ∧ s.bitsBut t [f_RAD_MIG_RES_RESULT, f_RAD_MIG_RES_BUSY, f_RAD_STATUS_MIG_FAIL, f_RAD_STATUS_MIG_FAIL.count]))
    ∧ (x.migB ≤ s.tim.tick → x.st = .migIn → Runs (.migSwitch n) s (fun t => s.onlyIn t { rad := true } ∧ only t ∧ t.rad.mig = s.rad.mig
        ∧ t.cellOf n.toNat = if x.copied then { x with st := .running } else { x with st := .stopped, harq := false })) :)
  ∧ (∀ (s : State) (n : BitVec 11), s.live = true →
    let x := s.cellOf n.toNat
    let source : Prop := s.rad.mig = .phase2 ∧ s.rad.migCell = n.toNat
    (source → s.radioCopies = true → exec (.migPhase2Complete n) s = .next s)
    ∧ (source → s.radioCopies = false → Runs (.migPhase2Complete n) s (fun t => s.onlyIn t { regs := true, rad := true } ∧ t.rad = { s.rad with mig := .idle }
        ∧ t.get f_RAD_MIG_RES_RESULT = 1 ∧ t.get f_RAD_MIG_RES_BUSY = 0 ∧ t.get f_RAD_STATUS_MIG_DONE = 1
        ∧ s.bitsBut t [f_RAD_MIG_RES_RESULT, f_RAD_MIG_RES_BUSY, f_RAD_STATUS_MIG_DONE, f_RAD_STATUS_MIG_DONE.count]))
    ∧ (¬source → x.st = .running → x.harq = true → Runs (.migPhase2Complete n) s (fun t => s.onlyIn t { rad := true } ∧ t.cellOf n.toNat = { x with harq := false }
        ∧ (∀ m, m ≠ n.toNat → t.cellOf m = s.cellOf m) ∧ t.rad.mig = s.rad.mig))
    ∧ (¬source → x.st ≠ .running ∨ x.harq = false → exec (.migPhase2Complete n) s = .next s) :))
  ∧ (∀ (room : Nat) (l : List Nat), (l.take (pdusIn room l)).sum ≤ room ∧ pdusIn room l ≤ l.length
    ∧ (pdusIn room l < l.length → room < (l.take (pdusIn room l + 1)).sum) :)
  ∧ ((∀ sq var q : Nat, linkQuality sq var ≤ 255 ∧ (1 ≤ q → q ≤ 255 → (q ≤ linkQuality sq var ↔ var ^ 160 * 10 ^ (2 * q) < sq ^ 160 * 10 ^ 81)) :)
  ∧ (∀ (pow noise : Nat) (v : Int), -32767 ≤ sinrOf pow noise ∧ sinrOf pow noise ≤ 32767
    ∧ (-32767 < v → v ≤ 32767 → (v ≤ sinrOf pow noise ↔ noise ^ 10000 * 10 ^ (2 * (v + 32767)).toNat < pow ^ 10000 * 10 ^ 65535)) :)
  ∧ (∀ err ref : Nat, let r := evmOf err ref
    (ref = 0 → r = 65535) ∧ (ref ≠ 0 → r ≤ 65534 ∧ (r = 0 ∨ (2 * r - 1) ^ 2 * ref ≤ 4 * 10 ^ 8 * err) ∧ (r < 65534 → 4 * 10 ^ 8 * err ≤ (2 * r + 1) ^ 2 * ref)) :))

/-! Fronthaul, PTP and the traffic managers (chapter 13, R420 to R455). -/

/-- R421 to R429: a received frame is discarded, terminated, switched or handed to the manager; U-plane samples are written inside their
window; the manager's FIFO is read word by word. R420, R433 to R438, R449, R452: the messages of a PTP domain, its path delay and offset,
its VALID bit and the active domain, its move to the backup port and back, links of the sub-ports, and a snapshot of the time base. Clauses
may rest on choices of the model: log entries 47, 68 and 69. -/
def Obligations.FronthaulAndPtp : Prop :=
  ((∀ (s : State) (sub : Fin 32) (f : EthFrame), s.live = true →
    let bad : Prop := f.fcsOk = false ∨ f.len < 64 ∨ 9216 < f.len ∨ 1 < f.tags ∨ f.load = .pause
    let u := s.atNs (f.stamp / 65536)
    let stamp : Int := (f.stamp : Int) + 4096 * s.get (f_PTP_PORT_LAT_INGRESS sub)
    let f' : EthFrame := { f with ingress := stamp - 65536 * s.tim.steps }
    let row := (s.imgList (·.fwd)).find? (fun x => x.mac == f.dst && x.vlan == f.vlan)
    let ok : Prop := s.subUp sub = true ∧ ¬bad
    let slave : Prop := f.dst = 0x0180C200000E ∨ (f.dst = 0x011B19000000 ∧ s.ptpSub sub = true)
    let toMgr : Prop := f.load = .esmc ∨ (s.ownMac f.dst = true ∧ (f.load = .other ∨ (∃ m, f.load = .ecpri m ∧ s.eaxcCell m.eaxc = none)
      ∨ ∃ m, f.load = .ptp m ∧ ¬slave))
    let switched : Prop := s.ownMac f.dst = false ∧ (f.load = .other ∨ (∃ m, f.load = .ecpri m) ∨ ∃ m, f.load = .ptp m ∧ ¬slave)
    let listed (m : EcpriMsg) : Prop := m.ok = true ∧ m.rev = 1 ∧ m.conc = false ∧ m.ebit = true ∧ m.subseq = 0 ∧ m.typ ∈ [0, 2, 5]
      ∧ (m.typ = 0 → if m.bfp then m.iqWidth ∈ [6, 7, 8, 9, 10, 12, 14, 16] else m.iqWidth = 16) ∧ (m.typ = 2 → m.sec ∈ [0, 1, 3])
    let sent (t : State) (x : FwdEnt) (q : Nat) : Prop :=
      t.tm = { u.tm with inb := u.tm.inb ++ (x.ports.filter (fun p => p ≠ sub.val)).map (fun p => (p, q, ({ load := .frame f', len := f.len } : TmItem))) }
    (s.subUp sub = false → exec (.fhFrameReceive sub f) s = .next s)
    ∧ (s.subUp sub = true → bad → Runs (.fhFrameReceive sub f) s (fun t => s.onlyIn t { regs := true }
        ∧ t.get f_FH_FCS_CNT_COUNT = min (s.get f_FH_FCS_CNT_COUNT + 1) (2 ^ 32 - 1) ∧ s.bitsBut t [f_FH_FCS_CNT_COUNT]))
    ∧ (ok → toMgr → s.fh.mrx.length + (f.len + 7) / 8 + 1 ≤ 4096 → Runs (.fhFrameReceive sub f) s (fun t => u.onlyIn t { regs := true, fh := true }
        ∧ (∃ l, t.fh = { s.fh with mrx := s.fh.mrx ++ l } ∧ l.length = (f.len + 7) / 8 + 1
            ∧ l.head? = some ((f.len + 7) / 8 + sub.val * 2 ^ 16 + f.len * 2 ^ 21, true)
            ∧ ∀ i, i < (f.len + 7) / 8 → l[i + 1]? = some (leNat (((padTo (8 * ((f.len + 7) / 8)) f.body).drop (8 * i)).take 8), false))
        ∧ t.get f_FH_MRX_DEPTH_WORDS = s.fh.mrx.length + (f.len + 7) / 8 + 1 ∧ t.get f_FH_STATUS_MGR_RX = 1
        ∧ s.bitsBut t [f_FH_MRX_DEPTH_WORDS, f_FH_STATUS_MGR_RX, f_FH_STATUS_MGR_RX.count]))
    ∧ (ok → toMgr → 4096 < s.fh.mrx.length + (f.len + 7) / 8 + 1 → Runs (.fhFrameReceive sub f) s (fun t => u.onlyIn t { regs := true }
        ∧ t.get f_FH_MRX_DROP_CNT_COUNT = min (s.get f_FH_MRX_DROP_CNT_COUNT + 1) (2 ^ 32 - 1) ∧ t.get f_MEM_STATUS_FIFO_DROP = 1
        ∧ s.bitsBut t [f_FH_MRX_DROP_CNT_COUNT, f_MEM_STATUS_FIFO_DROP, f_MEM_STATUS_FIFO_DROP.count]))
    ∧ (ok → switched → row = none → Runs (.fhFrameReceive sub f) s (fun t => u.onlyIn t { regs := true }
        ∧ t.get f_FH_UNK_CNT_COUNT = min (s.get f_FH_UNK_CNT_COUNT + 1) (2 ^ 32 - 1) ∧ t.get f_FH_STATUS_UNKNOWN = 1
        ∧ s.bitsBut t [f_FH_UNK_CNT_COUNT, f_FH_STATUS_UNKNOWN, f_FH_STATUS_UNKNOWN.count]))
    ∧ (∀ x, ok → switched → row = some x → Runs (.fhFrameReceive sub f) s (fun t => u.onlyIn t { tm := true }
        ∧ (f.load = .other → sent t x x.queue) ∧ ((∃ m, f.load = .ecpri m) → sent t x 3) ∧ ((∃ m, f.load = .ptp m) → sent t x 0)))
    ∧ (∀ m, ok → f.load = .ecpri m → s.ownMac f.dst = true → (s.eaxcCell m.eaxc).isSome = true → ¬listed m → Runs (.fhFrameReceive sub f) s (fun t =>
        u.onlyIn t { regs := true } ∧ t.get f_FH_COMP_CNT_COUNT = min (s.get f_FH_COMP_CNT_COUNT + 1) (2 ^ 32 - 1) ∧ t.get f_FH_STATUS_COMP = 1
        ∧ s.bitsBut t [f_FH_COMP_CNT_COUNT, f_FH_STATUS_COMP, f_FH_STATUS_COMP.count]))
    ∧ (∀ m, ok → f.load = .ecpri m → s.ownMac f.dst = true → (s.eaxcCell m.eaxc).isSome = true → listed m → m.typ = 5 → Runs (.fhFrameReceive sub f) s (fun t => u.onlyIn t {}))
    ∧ (∀ m, ok → f.load = .ecpri m → s.ownMac f.dst = true → (s.eaxcCell m.eaxc).isSome = true → listed m → m.typ ≠ 5 →
      let want := sget 0 s.fh.seq m.eaxc
      Runs (.fhFrameReceive sub f) s (fun t => u.onlyIn t { regs := true, fh := true } ∧ s.bitsBut t [f_FH_SEQ_CNT_COUNT]
        ∧ t.fh = { s.fh with seq := sset 0 s.fh.seq m.eaxc ((m.seq + 1) % 256 + 1), rxU := if m.typ = 0 then s.fh.rxU ++ [(sub.val, m, u.now)] else s.fh.rxU }
        ∧ t.get f_FH_SEQ_CNT_COUNT = if want ≠ 0 ∧ want ≠ m.seq % 256 + 1 then min (s.get f_FH_SEQ_CNT_COUNT + 1) (2 ^ 32 - 1) else s.get f_FH_SEQ_CNT_COUNT))
    ∧ (∀ m, ok → f.load = .ptp m → slave → Runs (.fhFrameReceive sub f) s (fun t => u.onlyIn t { fh := true, tm := true }
        ∧ (m.typ = .sync ∨ m.typ = .followUp ∨ m.typ = .delayResp ∨ m.typ = .announce → t.fh = { s.fh with rxP := s.fh.rxP ++ [(sub.val, m, stamp)] })
        ∧ (m.typ ≠ .sync → m.typ ≠ .followUp → m.typ ≠ .delayResp → m.typ ≠ .announce → t.fh = s.fh)
        ∧ (f.dst = 0x0180C200000E ∨ row = none → t.tm = s.tm) ∧ (∀ x, f.dst ≠ 0x0180C200000E → row = some x → sent t x 0))) :)
  ∧ (∀ (s : State) (sub t0 : Nat) (m : EcpriMsg) (rest : List (Nat × EcpriMsg × Nat)), s.live = true → s.fh.rxU = (sub, m, t0) :: rest →
    let inside : Prop := s.isLane m.eaxc = true ∨ ∀ x, (s.imgList (·.eaxcs)).find? (fun e => e.id == m.eaxc) = some x → m.air + x.ta4Min ≤ t0 ∧ t0 ≤ m.air + x.ta4Max
    let v := m.prbs.flatMap (fun p => p.mant.map (fun q => q * 2 ^ p.exp))
    let n := (v.filter (fun q => clampSpec 16 q ≠ q)).length
    let staged : Prop := s.partReach 0 true m.addr (2 * v.length) = true
    let counted (t : State) : Prop := t.get f_FH_COMP_CNT_COUNT = min (s.get f_FH_COMP_CNT_COUNT + n) (2 ^ 32 - 1)
      ∧ (n ≠ 0 → t.get f_FH_STATUS_COMP = 1) ∧ s.bitsBut t [f_FH_COMP_CNT_COUNT, f_FH_STATUS_COMP, f_FH_STATUS_COMP.count] ∧ t.fh = { s.fh with rxU := rest }
    (¬inside → Runs .uplaneReceive s (fun t => s.onlyIn t { regs := true, fh := true } ∧ t.fh = { s.fh with rxU := rest }
        ∧ t.get f_FH_LATE_CNT_COUNT = min (s.get f_FH_LATE_CNT_COUNT + 1) (2 ^ 32 - 1) ∧ t.get f_FH_STATUS_RX_LATE = 1
        ∧ s.bitsBut t [f_FH_LATE_CNT_COUNT, f_FH_STATUS_RX_LATE, f_FH_STATUS_RX_LATE.count]))
    ∧ (inside → v = [] ∨ ¬staged → Runs .uplaneReceive s (fun t => s.onlyIn t { regs := true, fh := true } ∧ counted t))
    ∧ (inside → v ≠ [] → staged → s.writable m.addr (2 * v.length) → Runs .uplaneReceive s (fun t => s.onlyIn t { regs := true, mem := true, fh := true }
        ∧ counted t ∧ (∀ i, i < v.length → toSigned 16 (t.readLE (m.addr + 2 * i) 2) = clampSpec 16 (v.getD i 0))
        ∧ s.memBut t m.addr (2 * v.length))) :)
  ∧ (∀ (w : Nat) (l : List Int) (p : UPrb), UPrb.compress w l = some p →
    let fits (e : Nat) : Prop := ∀ v ∈ l, -2 ^ (w - 1) ≤ rneInt v e ∧ rneInt v e < 2 ^ (w - 1)
    p.exp ≤ 15 ∧ p.mant = l.map (fun v => rneInt v p.exp) ∧ fits p.exp ∧ ∀ e, e < p.exp → ¬fits e :)
  ∧ (∀ s : State, s.fh.rxU = [] → exec .uplaneReceive s = .next s :)
  ∧ (∀ (s : State) (m : FhMsg) (x : EaxcCfg), (s.imgList (·.eaxcs)).find? (fun x => x.id == m.eaxc) = some x →
    let t := s.fhSend m
    let seq := sget 0 s.fh.tx x.id
    let plane := if m.sec.isSome then 1 else 2
    sget 0 t.fh.tx x.id = (seq + 1) % 256 ∧ (∀ k, k ≠ x.id → sget 0 t.fh.tx k = sget 0 s.fh.tx k)
    ∧ ∃ (f : EthFrame) (e : EcpriMsg), t.tm = { s.tm with inb := s.tm.inb ++ [(x.sub, plane,
          { load := .frame f, len := f.len, notBefore := m.air - (if m.sec.isSome then x.t1aC else x.t1aU) })] }
      ∧ f.dst = x.mac ∧ f.vlan = x.vlan ∧ 64 ≤ f.len ∧ f.load = .ecpri e ∧ e.eaxc = x.id ∧ e.seq = seq ∧ e.air = m.air
      ∧ (∀ k, m.sec = some k → e.typ = 2 ∧ e.sec = k ∧ t.fh.secs = s.fh.secs ++ [(m.eaxc, m.air, m.prbs)])
      ∧ (m.sec = none → e.typ = 0 ∧ e.prbs.length = m.prbs) :)
  ∧ (∀ (s : State) (req : Fin 4),
    (s.boot.por = true → exec (.fhMrxRead req) s = .next s)
    ∧ (s.boot.por = false → s.live = false ∨ s.stage ≠ 7 ∨ req.val / 2 ≠ s.get f_HST_ROLE_MGR_PORT →
      Runs (.fhMrxRead req) s (fun t => s.onlyIn t { out := true } ∧ t.out = s.out ++ [.regData req r_FH_MRX_W0 0])) :)
  ∧ (∀ (s : State) (req : Fin 4), s.boot.por = false → s.live = true → s.stage = 7 → req.val / 2 = s.get f_HST_ROLE_MGR_PORT →
    let marks := sget [] s.ms.fifoErr 1
    (s.fh.mrx = [] → Runs (.fhMrxRead req) s (fun t => s.onlyIn t { regs := true, out := true } ∧ t.out = s.out ++ [.regData req r_FH_MRX_W0 0]
        ∧ t.reg r_FH_MRX_W1 = 0 ∧ t.reg r_FH_MRX_TAG = 0 ∧ s.regsBut t [r_FH_MRX_W1, r_FH_MRX_TAG]))
    ∧ (∀ w first rest, s.fh.mrx = (w, first) :: rest → rest.length < 4096 → Runs (.fhMrxRead req) s (fun t =>
        s.onlyIn t { regs := true, fh := true, out := true, ms := true } ∧ (marks = [] → t.ms = s.ms)
        ∧ (∀ e, e ∈ sget [] t.ms.fifoErr 1 ↔ (e.1 + 1, e.2) ∈ marks) ∧ (∀ k, k ≠ 1 → sget [] t.ms.fifoErr k = sget [] s.ms.fifoErr k)
        ∧ t.fh = { s.fh with mrx := rest } ∧ t.out = s.out ++ [.regData req r_FH_MRX_W0 (BitVec.ofNat 32 w)]
        ∧ t.get f_FH_MRX_W1_WORD_HI = w / 2 ^ 32 % 2 ^ 32 ∧ t.get f_FH_MRX_TAG_VALID = 1 ∧ t.get f_FH_MRX_TAG_FIRST = (if first then 1 else 0)
        ∧ t.get f_FH_MRX_TAG_CORR = (if (0, false) ∈ marks then 1 else 0) ∧ t.get f_FH_MRX_TAG_UNCORR = (if (0, true) ∈ marks then 1 else 0)
        ∧ t.get f_FH_MRX_DEPTH_WORDS = rest.length
        ∧ s.bitsBut t [.whole r_FH_MRX_W1, .whole r_FH_MRX_TAG, f_FH_MRX_DEPTH_WORDS])) :))
  ∧ ((∀ (s : State) (e : Nat × PtpMsg × Int) (d : Nat), s.live = true → s.fh.rxP.find? (fun x => x.2.1.typ == .sync) = some e → s.domFor e.1 e.2.1.domain = some d → d < 2 →
    let m := e.2.1
    let x := s.domOf d
    let used : Prop := e.1 = s.domPort d
    let ms : Int := e.2.2 - m.ts - m.corr - s.asym e.1
    Runs .ptpSyncReceive s (fun t => s.onlyIn t { regs := true, tim := true, fh := true } ∧ t.fh.rxP = s.fh.rxP.erase e ∧ t.fh.rxU = s.fh.rxU ∧ t.fh.mrx = s.fh.mrx
      ∧ (∀ k, k ≠ d → t.domOf k = s.domOf k)
      ∧ (e.1 = s.get (f_PTP_DOM_PORT d) → (t.domOf d).slave.sync = some s.now ∧ (t.domOf d).slave.ann = x.slave.ann ∧ (t.domOf d).back = x.back)
      ∧ (e.1 ≠ s.get (f_PTP_DOM_PORT d) → (t.domOf d).back.sync = some s.now ∧ (t.domOf d).back.ann = x.back.ann ∧ (t.domOf d).slave = x.slave)
      ∧ (used → m.twoStep = true → (t.domOf d).pend = some (m.seq, e.2.2, m.corr)) ∧ (¬used ∨ m.twoStep = true ∨ x.sm = none → (t.domOf d).offset = x.offset)
      ∧ (∀ sm, used → m.twoStep = false → x.sm = some sm →
        let l := (x.mpds ++ [(ms + sm) / 2]).drop (x.mpds.length + 1 - 16)
        let mean : Int := l.foldl (· + ·) 0 / (l.length : Int)
        (t.domOf d).mpds = l ∧ (t.domOf d).offset = ms - mean ∧ toSigned 32 (t.get (f_PTP_DOM_OFFSET_OFFSET d)) = clampSpec 32 ((ms - mean) / 4096)
          ∧ t.get (f_PTP_DOM_MPD_MPD d) = min (mean / 4096).toNat (2 ^ 24 - 1))
      ∧ t.flag (f_PTP_DOM_VALID d) = t.domValid d ∧ s.bitsBut t (domFields d)
      ∧ (let sel := s.get f_PTP_DOM_CFG_SELECT
         let byHand : Prop := s.get f_PTP_DOM_CFG_MANUAL = 1 ∧ t.get (f_PTP_DOM_VALID sel) = 1
         let act := s.get f_PTP_DOM_CFG_ACTIVE
         (byHand → t.get f_PTP_DOM_CFG_ACTIVE = sel)
         ∧ (¬byHand → t.get (f_PTP_DOM_VALID act) = 0 → t.get (f_PTP_DOM_VALID d) = 1 → t.get f_PTP_DOM_CFG_ACTIVE = d)
         ∧ (¬byHand → t.get (f_PTP_DOM_VALID act) = 1 ∨ t.get (f_PTP_DOM_VALID d) = 0 → t.get f_PTP_DOM_CFG_ACTIVE = act))) :)
  ∧ (∀ (s : State) (typ : PtpTyp) (i : Instr), s.live = true →
      (typ = .sync ∧ i = .ptpSyncReceive) ∨ (typ = .followUp ∧ i = .ptpFollowUpReceive) ∨ (typ = .delayResp ∧ i = .ptpDelayRespReceive) ∨ (typ = .announce ∧ i = .ptpAnnounceReceive) →
    (s.fh.rxP.find? (fun x => x.2.1.typ == typ) = none → exec i s = .next s)
    ∧ (∀ e, s.fh.rxP.find? (fun x => x.2.1.typ == typ) = some e → s.domFor e.1 e.2.1.domain = none →
        Runs i s (fun t => s.onlyIn t { fh := true } ∧ t.fh = { s.fh with rxP := s.fh.rxP.erase e })) :)
  ∧ (∀ (s : State) (e : Nat × PtpMsg × Int) (d : Nat), s.live = true → s.fh.rxP.find? (fun x => x.2.1.typ == .followUp) = some e → s.domFor e.1 e.2.1.domain = some d → d < 2 →
    let m := e.2.1
    let x := s.domOf d
    (∀ seq t2 cf, x.pend = some (seq, t2, cf) → seq = m.seq → e.1 = s.domPort d → x.sm = none →
      Runs .ptpFollowUpReceive s (fun t => s.onlyIn t { fh := true } ∧ t.fh.rxP = s.fh.rxP.erase e ∧ t.domOf d = { x with pend := none }
        ∧ ∀ k, k ≠ d → t.domOf k = s.domOf k))
    ∧ (∀ seq t2 cf sm, x.pend = some (seq, t2, cf) → seq = m.seq → e.1 = s.domPort d → x.sm = some sm →
      let ms : Int := t2 - m.ts - (cf + m.corr) - s.asym e.1
      let l := (x.mpds ++ [(ms + sm) / 2]).drop (x.mpds.length + 1 - 16)
      let mean : Int := l.foldl (· + ·) 0 / (l.length : Int)
      Runs .ptpFollowUpReceive s (fun t => s.onlyIn t { regs := true, tim := true, fh := true } ∧ t.fh.rxP = s.fh.rxP.erase e
        ∧ t.domOf d = { x with pend := none, mpds := l, offset := ms - mean } ∧ (∀ k, k ≠ d → t.domOf k = s.domOf k)
        ∧ toSigned 32 (t.get (f_PTP_DOM_OFFSET_OFFSET d)) = clampSpec 32 ((ms - mean) / 4096)
        ∧ t.get (f_PTP_DOM_MPD_MPD d) = min (mean / 4096).toNat (2 ^ 24 - 1) ∧ s.bitsBut t [f_PTP_DOM_OFFSET_OFFSET d, f_PTP_DOM_MPD_MPD d]
        ∧ (s.ptpSource = true → s.get f_PTP_DOM_CFG_ACTIVE = d → t.tim = { s.tim with srcOff := ms - mean })
        ∧ (s.ptpSource = false ∨ s.get f_PTP_DOM_CFG_ACTIVE ≠ d → t.tim = s.tim)))
    ∧ (e.1 ≠ s.domPort d ∨ (∀ y, x.pend = some y → y.1 ≠ m.seq) → Runs .ptpFollowUpReceive s (fun t => s.onlyIn t { fh := true } ∧ t.fh = { s.fh with rxP := s.fh.rxP.erase e })) :)
  ∧ (∀ (s : State) (e : Nat × PtpMsg × Int) (d : Nat), s.live = true → s.fh.rxP.find? (fun x => x.2.1.typ == .delayResp) = some e → s.domFor e.1 e.2.1.domain = some d →
    let m := e.2.1
    let fits : Prop := m.mine = true ∧ e.1 = s.domPort d ∧ ∃ y, (s.domOf d).t3 = some y ∧ y.1 = m.seq
    (∀ seq t3, fits → (s.domOf d).t3 = some (seq, t3) → Runs .ptpDelayRespReceive s (fun t => s.onlyIn t { fh := true } ∧ t.fh.rxP = s.fh.rxP.erase e ∧ (∀ k, k ≠ d → t.domOf k = s.domOf k)
        ∧ t.domOf d = { s.domOf d with sm := some ((m.ts : Int) - t3 - m.corr + s.asym e.1), t3 := none }))
    ∧ (¬fits → Runs .ptpDelayRespReceive s (fun t => s.onlyIn t { fh := true } ∧ t.fh = { s.fh with rxP := s.fh.rxP.erase e })) :)
  ∧ (∀ (s : State) (e : Nat × PtpMsg × Int) (d : Nat), s.live = true → s.fh.rxP.find? (fun x => x.2.1.typ == .announce) = some e → s.domFor e.1 e.2.1.domain = some d → d < 2 →
    Runs .ptpAnnounceReceive s (fun t => s.onlyIn t { regs := true, tim := true, fh := true } ∧ t.fh.rxP = s.fh.rxP.erase e ∧ (∀ k, k ≠ d → t.domOf k = s.domOf k)
      ∧ (e.1 = s.get (f_PTP_DOM_PORT d) → (t.domOf d).slave.ann = some s.now ∧ (t.domOf d).slave.sync = (s.domOf d).slave.sync)
      ∧ (e.1 ≠ s.get (f_PTP_DOM_PORT d) → (t.domOf d).back.ann = some s.now ∧ (t.domOf d).back.sync = (s.domOf d).back.sync)
      ∧ t.get (f_PTP_DOM_CLOCK_CLASS d) = (if e.1 = s.domPort d then e.2.1.clockClass % 256 else s.get (f_PTP_DOM_CLOCK_CLASS d))
      ∧ t.flag (f_PTP_DOM_VALID d) = t.domValid d ∧ s.bitsBut t (f_PTP_DOM_CLOCK_CLASS d :: domFields d)) :)
  ∧ (∀ (s : State) (d : Fin 2) (seq : BitVec 16) (ns : Nat), s.live = true →
    let sub := s.domPort d
    let may : Prop := d.val < (s.imgList (·.doms)).length ∧ s.subUp sub = true
    (may → exec (.delayReqSend d seq ns) s
      = .next { s.atNs ns with tm := { s.tm with inb := s.tm.inb ++ [(sub, 0, { load := .delayReq d seq.toNat, len := 64 })] } })
    ∧ (¬may → exec (.delayReqSend d seq ns) s = .next s) :)
  ∧ (∀ (s : State) (d : Fin 2), s.live = true →
    let x := s.domOf d
    let moves : Prop := s.get (f_PTP_DOM_ON_BACKUP d) = 0 ∧ s.get (f_PTP_DOM_BACKUP_VALID d) = 1 ∧ ¬(s.subUp (s.get (f_PTP_DOM_PORT d)) = true ∧ s.ptpFresh x.slave = true)
      ∧ s.ptpFresh x.back = true
    Runs (.ptpDomainTimeout d) s (fun t => s.onlyIn t { regs := true, tim := true, fh := true } ∧ t.fh.rxP = s.fh.rxP ∧ (∀ k, k ≠ d.val → t.domOf k = s.domOf k)
      ∧ t.flag (f_PTP_DOM_VALID d) = t.domValid d ∧ s.bitsBut t (f_PTP_DOM_ON_BACKUP d :: f_PTP_STATUS_PORT_BACKUP :: domFields d)
      ∧ (s.get (f_PTP_DOM_VALID d) = 0 → t.domValid d = true → (t.domOf d).validAt = s.now)
      ∧ (moves → t.get (f_PTP_DOM_ON_BACKUP d) = 1 ∧ t.get f_PTP_STATUS_PORT_BACKUP = 1 ∧ (t.domOf d).mpds = [] ∧ (t.domOf d).sm = none ∧ (t.domOf d).offset = x.offset)
      ∧ (¬moves → t.get (f_PTP_DOM_ON_BACKUP d) = s.get (f_PTP_DOM_ON_BACKUP d) ∧ (t.domOf d).mpds = x.mpds)
      ∧ (s.get (f_PTP_DOM_VALID d) = 1 → t.domValid d = false →
          t.get (if d = 0 then f_PTP_STATUS_DOM0_LOST else f_PTP_STATUS_DOM1_LOST) = 1)) :)
  ∧ (∀ s : State, s.live = true →
    let hold := s.get f_PTP_DOM_CFG_REVERT_S * 1000000000
    let stays (d : Nat) : Prop := s.get (f_PTP_DOM_ON_BACKUP d) = 0 ∨ s.subUp (s.get (f_PTP_DOM_PORT d)) = false ∨ s.ptpFresh (s.domOf d).slave = false
      ∨ s.now < (s.domOf d).slave.since + hold
    let p := s.get f_PTP_DOM_CFG_PREFERRED
    ((∀ d, d < (s.imgList (·.doms)).length → stays d) → s.get f_PTP_DOM_CFG_MANUAL = 0 → s.get (f_PTP_DOM_VALID p) = 1 → (s.domOf p).validAt + hold ≤ s.now
        → s.get f_PTP_DOM_CFG_ACTIVE ≠ p → Runs .ptpRevert s (fun t => s.onlyIn t { regs := true, tim := true } ∧ t.get f_PTP_DOM_CFG_ACTIVE = p
          ∧ t.get f_PTP_STATUS_DOM_SWITCH = 1 ∧ t.get f_PTP_SWITCH_CNT_COUNT = min (s.get f_PTP_SWITCH_CNT_COUNT + 1) (2 ^ 32 - 1)
          ∧ t.tim.srcOff = (if s.ptpSource then (s.domOf p).offset else s.tim.srcOff)
          ∧ s.bitsBut t [f_PTP_DOM_CFG_ACTIVE, f_PTP_STATUS_DOM_SWITCH, f_PTP_STATUS_DOM_SWITCH.count, f_PTP_SWITCH_CNT_COUNT]))
    ∧ ((∀ d, d < (s.imgList (·.doms)).length → stays d) → s.get f_PTP_DOM_CFG_MANUAL = 0 → s.get (f_PTP_DOM_VALID p) = 0 ∨ s.now < (s.domOf p).validAt + hold →
        exec .ptpRevert s = .next s)
    ∧ ((∀ d, d < (s.imgList (·.doms)).length → stays d) → s.get f_PTP_DOM_CFG_MANUAL = 1 → s.get (f_PTP_DOM_VALID (s.get f_PTP_DOM_CFG_SELECT)) = 1 →
        Runs .ptpRevert s (fun t => s.onlyIn t { regs := true, tim := true } ∧ t.get f_PTP_DOM_CFG_ACTIVE = s.get f_PTP_DOM_CFG_SELECT))
    ∧ ((∀ d, d < (s.imgList (·.doms)).length → stays d) → s.get f_PTP_DOM_CFG_MANUAL = 1 → s.get (f_PTP_DOM_VALID (s.get f_PTP_DOM_CFG_SELECT)) = 0 →
        exec .ptpRevert s = .next s)
    ∧ (∀ d, (s.imgList (·.doms)).length ≤ 2 → d < (s.imgList (·.doms)).length → ¬stays d → Runs .ptpRevert s (fun t => s.onlyIn t { regs := true, tim := true, fh := true }
        ∧ t.get (f_PTP_DOM_ON_BACKUP d) = 0 ∧ (t.domOf d).mpds = [] ∧ (t.domOf d).sm = none ∧ (t.domOf d).offset = (s.domOf d).offset)) :)
  ∧ (∀ (s : State) (sub : Fin 32), s.live = true → (s.imgList (·.doms)).length ≤ 2 →
    (s.subUp sub = false → exec (.fhLinkDown sub) s = .next s)
    ∧ (s.subUp sub = true → Runs (.fhLinkDown sub) s (fun t => s.onlyIn t { regs := true, tim := true, fh := true } ∧ t.subUp sub = false ∧ t.get f_FH_STATUS_LINK_DOWN = 1
        ∧ (∀ k, k < 32 → k ≠ sub.val → t.subUp k = s.subUp k) ∧ t.fh.rxP = s.fh.rxP ∧ t.fh.rxU = s.fh.rxU ∧ t.fh.mrx = s.fh.mrx))
    ∧ (s.subUsed sub = false → exec (.fhLinkUp sub) s = .next s)
    ∧ (s.subUsed sub = true → Runs (.fhLinkUp sub) s (fun t => s.onlyIn t { regs := true, tim := true, fh := true } ∧ t.subUp sub = true
        ∧ (∀ k, k < 32 → k ≠ sub.val → t.subUp k = s.subUp k) ∧ t.fh.rxP = s.fh.rxP ∧ t.fh.rxU = s.fh.rxU ∧ t.fh.mrx = s.fh.mrx)) :)
  ∧ (∀ s : State, s.live = true → Runs .ptpSnap s (fun t => s.onlyIn t { regs := true }
      ∧ (t.get f_PTP_TIME_SEC_LO_SEC_LO + 2 ^ 32 * t.get f_PTP_TIME_SEC_HI_SEC_HI) * 1000000000 + t.get f_PTP_TIME_NS_NS = s.now % (2 ^ 48 * 1000000000)
      ∧ t.get f_PTP_TIME_NS_NS < 1000000000 ∧ t.get f_PTP_TIME_FRAC_FRAC = s.tim.frac % 2 ^ 16
      ∧ s.bitsBut t [f_PTP_TIME_SEC_LO_SEC_LO, f_PTP_TIME_SEC_HI_SEC_HI, f_PTP_TIME_NS_NS, f_PTP_TIME_FRAC_FRAC]) :))

/-- R444: a queue with a calendar shaper may send its head when the time base is at or past its next eligible time E (a packet also needs
its credits). When it starts a frame of L bytes at time t, E becomes max(E, t − B) plus the number of ns nearest to L × 8,000 / R, the even
one on a tie. -/
def Obligations.CalendarShaper : Prop :=
  (∀ (s : State) (e : Nat) (x : TmQ) (it : TmItem) (rest : List TmItem), x.shaper = 2 → x.items = it :: rest →
    ((∀ k, it.load ≠ .pkt k) → (s.tmEligible e x = true ↔ x.elig ≤ s.now))
    ∧ (∀ k, it.load = .pkt k → (s.tmEligible e x = true ↔ x.elig ≤ s.now ∧ s.maySend (e - 32) k = true)))
  ∧ (∀ (s : State) (e : Fin 56) (eg i : Nat) (it : TmItem) (rest : List TmItem) (f : EthFrame), s.live = true →
    let u := s.atNs (eg / 65536)
    let x := s.tmQ e i
    u.tmPick e = some i → x.items = it :: rest → it.load = .frame f → x.shaper = 2 → 0 < x.rate →
    Runs (.tmSelect e eg) s (fun t => ∃ n : Nat, (t.tmQ e i).elig = max x.elig (u.now - x.burst) + n
      ∧ 2 * n * x.rate ≤ 2 * (it.len * 8000) + x.rate ∧ 2 * (it.len * 8000) ≤ 2 * n * x.rate + x.rate
      ∧ (2 * n * x.rate = 2 * (it.len * 8000) + x.rate ∨ 2 * (it.len * 8000) = 2 * n * x.rate + x.rate → n % 2 = 0)))

/-- R320, R435, R440 to R447: a frame enters its queue with its tags or is dropped; the egress takes queue 0 first and else the smallest
finish tag; shapers, samples and high-water marks. Clauses may rest on choices of the model: log entry 86. -/
def Obligations.TrafficManager : Prop :=
  (∀ (s : State) (e : Fin 56) (i : Fin 8), s.live = true → s.tm.inb.find? (fun x => x.1 == e.val && x.2.1 == i.val && decide (x.2.2.notBefore ≤ s.now)) = none → exec (.tmEnqueue e i) s = .next s :)
  ∧ (∀ (s : State) (e : Fin 56) (i : Fin 8) (y : Nat × Nat × TmItem), s.live = true → s.tm.inb.find? (fun x => x.1 == e.val && x.2.1 == i.val && decide (x.2.2.notBefore ≤ s.now)) = some y →
    let it := y.2.2
    let x := (s.tmQ e i).upTo e s.now
    let v := sget 0 s.tm.v e
    let start := if tagBefore v x.f then x.f else v
    let fin := (start + it.len * x.cost) % 2 ^ 48
    let ovr : Prop := e.val < 32 ∧ x.limit * 1024 < x.depth + it.len
    let q := 8 * e.val + i.val
    (ovr → Runs (.tmEnqueue e i) s (fun t => s.onlyIn t { regs := true, tm := true } ∧ t.tm.inb = s.tm.inb.erase y ∧ t.tm.v = s.tm.v
        ∧ t.tmQ e i = { x with drop := min (x.drop + 1) (2 ^ 32 - 1) } ∧ (∀ k, k ≠ q → sget {} t.tm.q k = sget {} s.tm.q k)
        ∧ t.get f_TM_STATUS_DROP = 1 ∧ s.bitsBut t [f_TM_STATUS_DROP, f_TM_STATUS_DROP.count]))
    ∧ (¬ovr → Runs (.tmEnqueue e i) s (fun t => s.onlyIn t { tm := true } ∧ t.tm.inb = s.tm.inb.erase y ∧ t.tm.v = s.tm.v
        ∧ t.tmQ e i = { x with items := x.items ++ [{ it with start := start, finish := fin, enq := s.now }], f := fin,
                               hwmDepth := (t.tmQ e i).hwmDepth, hwmDelay := (t.tmQ e i).hwmDelay }
        ∧ (x.radio = true → (t.tmQ e i).hwmDepth = x.hwmDepth ∧ (t.tmQ e i).hwmDelay = x.hwmDelay)
        ∧ (x.radio = false → (t.tmQ e i).hwmDepth = max x.hwmDepth (min (t.tmQ e i).depth (2 ^ 24 - 1)))
        ∧ ∀ k, k ≠ q → sget {} t.tm.q k = sget {} s.tm.q k)) :)
  ∧ (∀ (x : TmQ) (e now : Nat),
    (x.shaper ≠ 1 ∨ now ≤ x.credAt → x.upTo e now = x) ∧ (x.shaper = 1 → x.credAt < now → x.items = [] → x.upTo e now = { x with credit := min x.credit 0, credAt := now })
    ∧ (x.shaper = 1 → x.credAt < now → x.items ≠ [] → (x.upTo e now).credAt = now ∧ (x.upTo e now).items = x.items ∧ (x.upTo e now).credit ≤ 2 * maxFrameBits e * 1000
        ∧ (x.credit + x.idle * (now - x.credAt : Nat) ≤ 2 * maxFrameBits e * 1000 → (x.upTo e now).credit = x.credit + x.idle * (now - x.credAt : Nat)))
    ∧ (0 < x.weight → x.weight < 256 → 2 * (x.cost * x.weight : Int) ≤ 2 * 65536 + x.weight ∧ 2 * 65536 ≤ 2 * (x.cost * x.weight : Int) + x.weight))
  ∧ (∀ (s : State) (e : Fin 56) (eg : Nat), s.live = true →
    let head (i : Nat) : Nat := ((s.tmQ e i).items.head?.map (·.finish)).getD 0
    let u := s.atNs (eg / 65536)
    let lat : Int := 4096 * s.get (f_PTP_PORT_LAT_EGRESS e)
    (u.tmPick e = none → exec (.tmSelect e eg) s = .next s)
    ∧ (s.tmPick e = none ↔ ∀ i, i < 8 → s.tmEligible e (s.tmQ e i) = false)
    ∧ (∀ i, s.tmPick e = some i → i < 8 ∧ s.tmEligible e (s.tmQ e i) = true ∧ (i ≠ 0 → s.tmEligible e (s.tmQ e 0) = false)
        ∧ (i ≠ 0 → (∀ j, j < 8 → head j < 2 ^ 47) → ∀ j, 1 ≤ j → j < 8 → s.tmEligible e (s.tmQ e j) = true → head i ≤ head j ∧ (head i = head j → i ≤ j)))
    ∧ (∀ i it rest, u.tmPick e = some i → (s.tmQ e i).items = it :: rest →
      let v := sget 0 s.tm.v e
      let q := s.tmQ e i
      let taken (t : State) : Prop := t.tm.inb = s.tm.inb ∧ (t.tmQ e i).items = rest
        ∧ (∀ k, k ≠ 8 * e.val + i → sget {} t.tm.q k = sget {} s.tm.q k) ∧ sget 0 t.tm.v e = (if i = 0 then v else it.start)
        ∧ (∀ k, k ≠ e.val → sget 0 t.tm.v k = sget 0 s.tm.v k)
        ∧ (q.shaper = 2 → (t.tmQ e i).elig = max q.elig (u.now - q.burst) + rneDiv (it.len * 8000) (max 1 q.rate))
        ∧ (q.shaper = 1 → (t.tmQ e i).credit = max ((q.upTo e u.now).credit - it.len * 8000 * (q.port - q.idle : Int) / max 1 q.port) (-2 * maxFrameBits e * 1000))
      (∀ f, it.load = .frame f → Runs (.tmSelect e eg) s (fun t => u.onlyIn t { regs := true, tm := true, out := true } ∧ taken t
        ∧ ((∀ m, f.load ≠ .ptp m) → t.out = s.out ++ [.frame e f] ∧ t.regs = s.regs)
        ∧ (∀ m, f.load = .ptp m →
            let res : Int := m.corr + ((eg : Int) - lat - 65536 * s.tim.steps) - f.ingress
            let event : Prop := m.typ = .sync ∨ m.typ = .delayReq ∨ m.typ = .pdelayReq ∨ m.typ = .pdelayResp
            (¬event → t.out = s.out ++ [.frame e f] ∧ t.regs = s.regs)
            ∧ (event → res ≤ 2 ^ 63 - 1 → t.out = s.out ++ [.frame e { f with load := .ptp { m with corr := res } }] ∧ t.regs = s.regs)
            ∧ (event → 2 ^ 63 - 1 < res → t.out = s.out ++ [.frame e { f with load := .ptp { m with corr := 2 ^ 63 - 1 } }] ∧ t.get f_PTP_STATUS_TC_OVF = 1
              ∧ s.bitsBut t [f_PTP_STATUS_TC_OVF, f_PTP_STATUS_TC_OVF.count]))))
      ∧ (∀ d seq, it.load = .delayReq d seq → Runs (.tmSelect e eg) s (fun t => u.onlyIn t { fh := true, tm := true, out := true } ∧ taken t
        ∧ t.out = s.out ++ [.delayReq d e seq] ∧ t.domOf d = { s.domOf d with t3 := some (seq, (eg : Int) - lat) } ∧ ∀ k, k ≠ d → t.domOf k = s.domOf k))
      ∧ (∀ b, it.load = .ctl b → Runs (.tmSelect e eg) s (fun t => u.onlyIn t { tm := true, out := true } ∧ taken t
        ∧ t.out = s.out ++ b.toList.map (fun x => .beacon (e.val - 32) x)))
      ∧ (∀ k, it.load = .pkt k →
        let p := e.val - 32
        let x := s.portOf p
        let n := if k.units ≤ 15 then 1 else 2
        let vc := if k.cls = 2 then 3 + k.hops else k.hops
        Runs (.tmSelect e eg) s (fun t => u.onlyIn t { regs := true, net := true, tm := true, out := true } ∧ taken t
          ∧ (∃ l : List Flit, l.length = n ∧ l.flatMap (·.pkts) = [k] ∧ (t.portOf p).replay = x.replay ++ l ∧ t.out = s.out ++ l.map (fun f => .flit p f)
            ∧ ∀ j f, l[j]? = some f → f.typ = .data ∧ f.fseq % 4096 = (x.txNext + j) % 4096 ∧ f.ack = (x.rxNext + 4095) % 4096)
          ∧ (t.portOf p).txNext = (x.txNext + n) % 4096 ∧ (∀ m, m ≠ p → t.portOf m = s.portOf m)
          ∧ sget 0 (t.portOf p).credit vc = sget 0 x.credit vc + k.units ∧ (∀ c, c ≠ vc → sget 0 (t.portOf p).credit c = sget 0 x.credit c)
          ∧ t.reg64 (r_AVL_TX_FLITS_LO p) = (s.reg64 (r_AVL_TX_FLITS_LO p) + n) % 2 ^ 64))) :)
  ∧ (∀ (s : State) (n : Nat), s.live = true → (∀ e ∈ s.tm.q, e.2.radio = true → e.2.cur.length = n) → (∃ e ∈ s.tm.q, e.2.radio = true) → 16 ≤ n →
      exec .tmSample s = .next s :)
  ∧ (∀ (s : State) (n : Nat), s.live = true → (∀ e ∈ s.tm.q, e.2.radio = true → e.2.cur.length = n) → (∃ e ∈ s.tm.q, e.2.radio = true) → n < 16 →
      let u := s.atNs (s.tim.tb + n * s.periodNs / 16)
      Runs .tmSample s (fun t => u.onlyIn t { tm := true } ∧ t.tm = { s.tm with q := t.tm.q }
      ∧ ∀ k, let x := sget {} s.tm.q k
             let y := sget {} t.tm.q k
             let wait := min (match x.items with | it :: _ => u.now - it.enq | [] => 0) (2 ^ 32 - 1)
             (x.radio = false → y = x)
             ∧ (x.radio = true → y = { x with cur := x.cur ++ [(min x.depth (2 ^ 24 - 1), wait)], hwmDepth := max x.hwmDepth (min x.depth (2 ^ 24 - 1)),
                                              hwmDelay := max x.hwmDelay wait })) :)
  ∧ (∀ s : State, s.live = true →
    let e := (if s.get f_TM_SEL_FABRIC = 1 then 32 else 0) + s.get f_TM_SEL_PORT
    let i := s.get f_TM_SEL_QUEUE
    let x := s.tmQ e i
    let wait := match x.items with | it :: _ => s.now - it.enq | [] => 0
    Runs .tmQClear s (fun t => s.onlyIn t { tm := true } ∧ t.tmQ e i = { x with
          hwmDepth := if x.radio then 0 else min x.depth (2 ^ 24 - 1), hwmDelay := if x.radio then 0 else min wait (2 ^ 32 - 1) }
      ∧ (∀ k, k ≠ 8 * e + i → sget {} t.tm.q k = sget {} s.tm.q k) ∧ t.tm = { s.tm with q := t.tm.q }) :)
/-! The host interface (chapter 15, R456 to R484). -/

/-- R465, R477 to R479: the states of a window: enable, stop, drain, abort, quiesce, reset and remove, the limits of a drain and of an
abort, and the errors that stop it. R457 to R463, R478: the PCIe links and their resets, the mask of a vector, and the manager's heartbeat,
its lapse and a claim. Clauses may rest on choices of the model: log entries 34 and 71. -/
def Obligations.WindowsAndLinks : Prop :=
  ((∀ (s : State) (w : Fin 128), s.live = true →
    let st := s.winSt w
    let x := s.winOf w
    let one (t : State) : Prop := ∀ v, v ≠ w.val → t.winOf v = s.winOf v ∧ (v < 128 → t.winSt v = s.winSt v)
    let part (t : State) (l : List FRef) : Prop := s.onlyIn t { regs := true, flt := true, hst := true, acct := true, aud := true, out := true } ∧ s.bitsBut t (l ++ audFields) ∧ one t
    let notes (t : State) (a : Nat) : Prop := s.records t 1 (if s.winReplay w then 1 else 0) 64 (t.windowBody w a)
    let refused (i : Instr) : Prop := Runs i s (fun t => s.onlyIn t { regs := true } ∧ t.get f_HST_STATUS_RESET_REFUSED = 1
      ∧ s.bitsBut t [f_HST_STATUS_RESET_REFUSED, f_HST_STATUS_RESET_REFUSED.count])
    let moves (i : Instr) (k : Nat) : Prop := Runs i s (fun t => s.onlyIn t { regs := true, hst := true } ∧ one t ∧ t.winSt w = k ∧ t.winOf w = { x with stAt := s.tim.expo }
      ∧ s.bitsBut t [f_TWN_STATE_STATE w])
    let errs (i : Instr) (code : Nat) : Prop := Runs i s (fun t =>
      part t [f_TWN_STATE_STATE w, f_TWN_STATE_ERR w, f_TWN_CPL_DROP_COUNT w, f_HST_STATUS_WIN_ERROR, f_HST_STATUS_WIN_ERROR.count]
      ∧ t.winSt w = 6 ∧ t.get (f_TWN_STATE_ERR w) = code ∧ t.get f_HST_STATUS_WIN_ERROR = 1 ∧ t.winOf w = { x with cpl := [], fullAt := none }
      ∧ t.get (f_TWN_CPL_DROP_COUNT w) = min (s.get (f_TWN_CPL_DROP_COUNT w) + x.cpl.length) (2 ^ 32 - 1) ∧ notes t 4 ∧ s.fired t (s.winLink w) (s.eventVec w))
    let zeroed (t : State) : Prop := t.get (f_TWN_STATE_STATE w) = 0 ∧ t.get (f_TWN_STATE_ERR w) = 0 ∧ t.get (f_TWN_STATE_FORCED w) = 0
      ∧ t.get (f_TWN_FETCH_CNT_COUNT w) = 0 ∧ t.get (f_TWN_CPL_DROP_COUNT w) = 0 ∧ t.get (f_TWN_SKIP_CNT_COUNT w) = 0 ∧ t.winOf w = {}
    let counters : List FRef := [f_TWN_STATE_STATE w, f_TWN_STATE_ERR w, f_TWN_STATE_FORCED w, f_TWN_FETCH_CNT_COUNT w, f_TWN_CPL_DROP_COUNT w, f_TWN_SKIP_CNT_COUNT w]
    let setup : List FRef := [f_TWN_CFG_FAST w, f_TWN_CFG_FETCH_MAX w, f_TWN_CFG_SQ_LOG2 w, f_TWN_CFG_CQ_LOG2 w, f_TWN_PASID_PASID w, f_TWN_RCB_LO_ADDR w, f_TWN_RCB_HI_ADDR w,
      f_TWN_SQ_LO_ADDR w, f_TWN_SQ_HI_ADDR w, f_TWN_CQ_LO_ADDR w, f_TWN_CQ_HI_ADDR w, f_TWN_VEC_BASE w, f_TWN_VEC_COUNT w, f_TWN_COAL_COUNT w, f_TWN_COAL_US w,
      f_TWN_CTX_CTX_BASE w, f_TWN_CTX_COUNT_CTX_COUNT w, f_TWN_PARTS_PARTS w, f_TWN_APT_BASE_LO_ADDR w, f_TWN_APT_BASE_HI_ADDR w, f_TWN_APT_LIMIT_GIB w, f_TWN_QTMO_TMO w]
    (∀ r, st ≠ 0 ∨ s.get (f_TWN_CFG_EXISTS w) = 0 → exec (.windowEnable w r) s = .next s)
    ∧ (∀ r, st = 0 → s.get (f_TWN_CFG_EXISTS w) = 1 → s.setupOk w = false → Runs (.windowEnable w r) s (fun t => s.onlyIn t { regs := true }
        ∧ t.get (f_TWN_STATE_ERR w) = 0x10 ∧ s.bitsBut t [f_TWN_STATE_ERR w]))
    ∧ (∀ a b c : BitVec 32, st = 0 → s.get (f_TWN_CFG_EXISTS w) = 1 → s.setupOk w = true → Runs (.windowEnable w (some (a, b, c))) s (fun t =>
        part t [f_TWN_STATE_STATE w] ∧ t.winSt w = 1 ∧ t.winOf w = { sqCi := a.toNat, cqPi := b.toNat, cqCi := c.toNat, stAt := s.tim.expo } ∧ notes t 1
        ∧ t.out = s.out ++ [.hostRead (s.winPort w) (s.winPasid w) (s.winRcb w) 16]))
    ∧ (st = 0 → s.get (f_TWN_CFG_EXISTS w) = 1 → s.setupOk w = true → Runs (.windowEnable w none) s (fun t => t.winSt w = 6 ∧ t.get (f_TWN_STATE_ERR w) = 1
        ∧ t.get f_HST_STATUS_WIN_ERROR = 1 ∧ one t))
    ∧ (s.setupOk w = true → s.winRcb w % 64 = 0 ∧ s.winSq w % 4096 = 0 ∧ s.winCq w % 4096 = 0 ∧ 2 ≤ s.get (f_TWN_VEC_BASE w)
        ∧ s.get (f_TWN_VEC_BASE w) + s.get (f_TWN_VEC_COUNT w) ≤ 256
        ∧ ∀ o n, o < 128 → o ≠ w.val → s.winSt o ≠ 0 → s.get (f_TWN_CTX_CTX_BASE w) ≤ n → n < s.get (f_TWN_CTX_CTX_BASE w) + s.get (f_TWN_CTX_COUNT_CTX_COUNT w)
            → ¬(s.get (f_TWN_CTX_CTX_BASE o) ≤ n ∧ n < s.get (f_TWN_CTX_CTX_BASE o) + s.get (f_TWN_CTX_COUNT_CTX_COUNT o)))
    ∧ (st = 1 → moves (.windowStopAdmit w) 2) ∧ (st ≠ 1 → exec (.windowStopAdmit w) s = .next s)
    ∧ (st = 2 → moves (.windowDrain w) 3) ∧ (st ≠ 2 → exec (.windowDrain w) s = .next s)
    ∧ (st ≠ 2 → st ≠ 3 → st ≠ 6 → exec (.windowAbort w) s = .next s)
    ∧ (∀ i : Instr, (i = .windowAbort w ∧ (st = 2 ∨ st = 3 ∨ st = 6)) ∨ (i = .windowDrainTimeout w ∧ st = 3 ∧ s.get (f_TWN_QTMO_TMO w) ≤ s.tim.expo - x.stAt) →
        Runs i s (fun t => t.winSt w = 4 ∧ (t.winOf w).stAt = s.tim.expo ∧ one t
          ∧ (∀ j ∈ t.hst.jobs, j.win = w.val → j.stop = true) ∧ (∀ c ∈ (t.winOf w).cmds, c.begun = true ∧ (c.op = 4 ∨ c.op = 5))
          ∧ (∀ e ∈ s.srv.ctx, e.2.win = w.val → s.isHome e.2 = true → e.2.st = .queued ∨ e.2.st = .prefill ∨ e.2.st = .decode ∨ e.2.st = .pausing →
              ∃ k ∈ (t.spOf (if e.2.away then e.2.part else e.2.owner)).cmds, k.op = 0x14 ∧ k.ctx = e.1 ∧ k.win = w.val)
          ∧ sget [] t.rad.buf w = [] ∧ t.mem = s.mem ∧ t.srv = s.srv ∧ t.ms = s.ms ∧ t.net = { s.net with waits := t.net.waits }
          ∧ (i = .windowDrainTimeout w → t.get f_HST_STATUS_QUIESCE_TMO = 1)))
    ∧ (st ≠ 3 ∨ s.tim.expo - x.stAt < s.get (f_TWN_QTMO_TMO w) → exec (.windowDrainTimeout w) s = .next s)
    ∧ (st = 5 → Runs (.windowReset w) s (fun t => part t counters ∧ zeroed t ∧ notes t 2)) ∧ (st ≠ 5 → refused (.windowReset w))
    ∧ (st = 5 ∨ st = 0 → Runs (.windowRemove w) s (fun t => part t (counters ++ setup) ∧ (∀ f ∈ setup, t.get f = 0) ∧ t.winSt w = 0 ∧ (st = 5 → zeroed t) ∧ notes t 3))
    ∧ (st ≠ 5 → st ≠ 0 → refused (.windowRemove w))
    ∧ (¬((st = 3 ∨ st = 4) ∧ s.winIdle w = true) → exec (.windowQuiesce w) s = .next s)
    ∧ (st = 3 ∨ st = 4 → s.winIdle w = true → x.flr = false → Runs (.windowQuiesce w) s (fun t => s.onlyIn t { regs := true, hst := true, out := true } ∧ one t
        ∧ t.winSt w = 5 ∧ t.winOf w = { x with stAt := s.tim.expo } ∧ s.fired t (s.winLink w) (s.eventVec w) ∧ s.bitsBut t [f_TWN_STATE_STATE w]))
    ∧ (st = 3 ∨ st = 4 → s.winIdle w = true → x.flr = true → Runs (.windowQuiesce w) s (fun t => part t counters ∧ zeroed t ∧ notes t 2))
    ∧ (let overdue : Prop := s.get (f_TWN_QTMO_TMO w) ≤ s.tim.expo - x.stAt ∨ (x.flr = true ∧ 100000000 ≤ (s.tim.expo - x.stAt) * s.periodNs)
      let lost (t : State) : Prop := one t ∧ t.get f_HST_STATUS_QUIESCE_TMO = 1 ∧ (t.winOf w).cmds = [] ∧ (t.winOf w).cpl = []
        ∧ (∀ e ∈ s.liveOf w, (t.ctx e.1).st = .free ∧ (t.ctx e.1).reason = 9) ∧ t.recWaits w = false ∧ (s.liveOf w = [] → s.fired t (s.winLink w) (s.eventVec w))
        ∧ ∃ m ∈ t.flt.inbox, m.source = srcWin ∧ m.kind = 0x59
      (st ≠ 4 ∨ ¬overdue → exec (.windowAbortTimeout w) s = .next s)
      ∧ (st = 4 → overdue → x.flr = false → Runs (.windowAbortTimeout w) s (fun t => lost t ∧ t.winSt w = 5 ∧ t.get (f_TWN_STATE_FORCED w) = 1
          ∧ (s.recWaits w = false → t.get (f_TWN_CPL_DROP_COUNT w) = min (s.get (f_TWN_CPL_DROP_COUNT w) + x.cpl.length) (2 ^ 32 - 1))))
      ∧ (st = 4 → overdue → x.flr = true → Runs (.windowAbortTimeout w) s (fun t => lost t ∧ zeroed t)))
    ∧ (st = 1 ∨ st = 2 → errs (.hostReadError w) 1) ∧ (st ≠ 1 → st ≠ 2 → exec (.hostReadError w) s = .next s)
    ∧ (∀ e, x.fullAt = some e → s.get (f_TWN_QTMO_TMO w) ≤ s.tim.expo - e → st ≠ 0 → st ≠ 5 → st ≠ 6 → errs (.cqFullTimeout w) 3)
    ∧ (∀ e, x.fullAt = some e → s.tim.expo - e < s.get (f_TWN_QTMO_TMO w) → exec (.cqFullTimeout w) s = .next s)
    ∧ (x.fullAt = none → exec (.cqFullTimeout w) s = .next s)
    ∧ (x.since ≠ 0 → s.get (f_TWN_COAL_US w) ≠ 0 → s.reached (x.coalAt.getD 0) (s.get (f_TWN_COAL_US w) * 1000) = true → Runs (.coalesceTimer w) s (fun t => s.onlyIn t { hst := true, out := true } ∧ one t
        ∧ t.winOf w = { x with since := 0, coalAt := none } ∧ s.fired t (s.winLink w) (s.get (f_TWN_VEC_BASE w))))
    ∧ (x.since = 0 ∨ s.get (f_TWN_COAL_US w) = 0 ∨ s.reached (x.coalAt.getD 0) (s.get (f_TWN_COAL_US w) * 1000) = false → exec (.coalesceTimer w) s = .next s) :))
  ∧ ((∀ (s : State) (p : Fin 2) (x8 : Bool), Runs (.perstRelease p x8) s (fun t => s.onlyIn t { regs := true, hst := true, pins := true }
      ∧ t.hst = { s.hst with perst := t.hst.perst } ∧ (∀ q, q ∈ t.hst.perst ↔ q ∈ s.hst.perst ∧ q ≠ p.val)
      ∧ t.pins = { s.pins with x8 := t.pins.x8 } ∧ (∀ q, q ∈ t.pins.x8 ↔ if q = p.val then x8 = true else q ∈ s.pins.x8)
      ∧ t.get (if p = 0 then f_HST_ROLE_PA_X8 else f_HST_ROLE_PB_X8) = x8.toNat ∧ s.bitsBut t [if p = 0 then f_HST_ROLE_PA_X8 else f_HST_ROLE_PB_X8]) :)
  ∧ (∀ (s : State) (l : Fin 4) (rate : Fin 6) (width : Fin 5),
    let x8 := s.get (if l.val / 2 = 0 then f_HST_ROLE_PA_X8 else f_HST_ROLE_PB_X8) = 1
    let no : Prop := l.val / 2 ∈ s.hst.perst ∨ (¬x8 ∧ l.val % 2 = 1) ∨ (x8 ∧ width = 4)
    (no → exec (.pcieLinkUp l rate width) s = .next s)
    ∧ (¬no → Runs (.pcieLinkUp l rate width) s (fun t => s.onlyIn t { hst := true } ∧ t.hst = { s.hst with linkUp := t.hst.linkUp, linkRate := t.hst.linkRate }
        ∧ sget false t.hst.linkUp l = true ∧ sget 0 t.hst.linkRate l = 1 + rate * 8 + width
        ∧ ∀ k, k ≠ l.val → sget false t.hst.linkUp k = sget false s.hst.linkUp k ∧ sget 0 t.hst.linkRate k = sget 0 s.hst.linkRate k)) :)
  ∧ (∀ (s : State) (l : Fin 4), Runs (.pcieLinkDown l) s (fun t => sget false t.hst.linkUp l = false ∧ (∀ k, k ≠ l.val → sget false t.hst.linkUp k = sget false s.hst.linkUp k)
      ∧ t.latch = sdel s.latch l ∧ sget 0 t.hst.linkRate l = 0
      ∧ t.mem = s.mem ∧ t.srv = s.srv ∧ t.te = s.te ∧ t.ms = s.ms ∧ t.net = s.net ∧ t.tim = s.tim
      ∧ (s.live = false → s.onlyIn t { latch := true, hst := true })
      ∧ (∀ w, w < 128 → s.winLink w ≠ l.val ∨ s.live = false ∨ s.winSt w = 0 ∨ s.winSt w = 5 ∨ s.winSt w = 6 → t.winOf w = s.winOf w ∧ t.winSt w = s.winSt w)
      ∧ (∀ w, w < 128 → s.winLink w = l.val → s.live = true → s.winSt w ≠ 0 → s.winSt w ≠ 5 → s.winSt w ≠ 6 →
          t.winSt w = 6 ∧ t.get (f_TWN_STATE_ERR w) = 4 ∧ (t.winOf w).cpl = [])) :)
  ∧ (∀ (s : State) (l : Fin 4), s.live = false → exec (.functionLevelReset l) s = .next { s with latch := sdel s.latch l })
  ∧ (∀ (s : State) (l : Fin 4), s.live = true → Runs (.functionLevelReset l) s (fun t => t.latch = sdel s.latch l ∧ t.mem = s.mem ∧ t.srv = s.srv ∧ t.ms = s.ms
      ∧ t.net = { s.net with waits := t.net.waits } ∧ t.tim = s.tim
      ∧ t.hst.linkUp = s.hst.linkUp
      ∧ (∀ w, w < 128 → s.winLink w ≠ l.val ∨ s.winSt w = 0 → t.winOf w = s.winOf w ∧ t.winSt w = s.winSt w)
      ∧ (∀ w, w < 128 → s.winLink w = l.val → s.winSt w = 5 → t.winSt w = 0 ∧ t.winOf w = {})
      ∧ (∀ w, w < 128 → s.winLink w = l.val → s.winSt w ≠ 0 → s.winSt w ≠ 5 → t.winSt w = 4 ∧ (t.winOf w).flr = true)) :)
  ∧ (∀ (s : State) (l : Fin 4) (v : Fin 256), Runs (.vectorUnmask l v) s (fun t => s.onlyIn t { hst := true, out := true } ∧ t.msixWord l v 3 = 0
      ∧ t.hst = { s.hst with msix := t.hst.msix, pba := t.hst.pba } ∧ (∀ k, k ≠ 1024 * l.val + 4 * v.val + 3 → ∀ d, sget d t.hst.msix k = sget d s.hst.msix k)
      ∧ t.hst.pba = s.hst.pba.filter (fun e => e ≠ (l.val, v.val))
      ∧ t.out = s.out ++ (if (l.val, v.val) ∈ s.hst.pba then [.msix (l / 2) (s.msixWord l v 0 + 2 ^ 32 * s.msixWord l v 1) (s.msixWord l v 2)] else [])) :)
  ∧ (∀ (s : State) (p : Fin 2), s.live = true →
    (p.val = s.get f_HST_ROLE_MGR_PORT → Runs (.mgrHeartbeat p) s (fun t => s.onlyIn t { hst := true } ∧ t.hst = { s.hst with hbAt := s.now, lapsed := false }))
    ∧ (p.val ≠ s.get f_HST_ROLE_MGR_PORT → exec (.mgrHeartbeat p) s = .next s)
    ∧ (p.val ≠ s.get f_HST_ROLE_MGR_PORT → s.hst.lapsed = true → Runs (.mgrClaim p) s (fun t => s.onlyIn t { hst := true } ∧ t.hst = { s.hst with claim := true }))
    ∧ (p.val = s.get f_HST_ROLE_MGR_PORT ∨ s.hst.lapsed = false → exec (.mgrClaim p) s = .next s) :)
  ∧ (∀ s : State, s.live = true →
    let due : Prop := s.valid = true ∧ s.hst.lapsed = false ∧ s.hst.hbAt + s.get f_HST_MGR_CFG_HB_TMO_MS * 1000000 ≤ s.tim.nextEdge
    (due → Runs .hbLapse s (fun t => s.onlyIn t { regs := true, flt := true, hst := true, aud := true } ∧ t.hst = { s.hst with lapsed := true }
        ∧ t.get f_HST_STATUS_HB_LAPSE = 1 ∧ s.records t 9 0 48 (leBytes 1 1 ++ leBytes 1 (s.get f_HST_ROLE_MGR_PORT)) ∧ s.msg srcMgmt 0x58 0 0 ∈ t.flt.inbox
        ∧ s.bitsBut t (f_HST_STATUS_HB_LAPSE :: f_HST_STATUS_HB_LAPSE.count :: audFields)))
    ∧ (¬due → exec .hbLapse s = .next s) :)
  ∧ (∀ s : State, s.hst.claim = true → s.failover.get f_HST_ROLE_MGR_PORT = 1 - s.get f_HST_ROLE_MGR_PORT ∧ s.failover.get f_HST_STATUS_FAILOVER = 1
      ∧ s.failover.hst = { s.hst with claim := false, lapsed := false, hbAt := s.now } :))

/-- R465 to R475: command fetch takes entries in order, checks each and queues it or answers its code; a fence, and the commands on jobs and
the bulk commands. R480 to R482: the scheduler starts a pending job on its array, pre-empting what may be, or leaves it pending; a start
that takes too long is refused; a job that has ended gives back its threads and its JOB_END entry arises. Clauses may rest on choices of the
model: log entries 43, 44 and 72. -/
def Obligations.CommandsAndJobs : Prop :=
  ((∀ (s : State) (k : Fin 8) (r : WinRead), s.live = true → r.win ≤ 128 → (∀ p, p < 16 → (s.spOf p).stream = []) → s.get f_AUD_PART_REPLAY = 0 →
    (∀ v, v ≤ 128 → v ≠ r.win → s.fetchDue v k = true → (s.winOf v).cpl = []) →
    let u := s.atNs (s.tim.tb + k * s.periodNs / 8)
    let w := r.win
    let adm := w = 128
    let x := s.winOf w
    let depths : List FRef := (List.range 16).map f_SRV_PART_STREAM_DEPTH
    let count : List FRef := if adm then [] else [f_TWN_FETCH_CNT_COUNT w]
    let n := (r.sqPi + 2 ^ 32 - x.sqCi) % 2 ^ 32
    let due := s.fetchDue w k
    let other (t : State) : Prop := ∀ v, v ≠ w →
      t.winOf v = if v ≤ 128 ∧ s.fetchDue v k = true then { s.winOf v with cqCi := (s.winOf v).cqCi % 2 ^ 32, fullAt := none } else s.winOf v
    (due = true ↔ 1 ≤ s.winSt w ∧ s.winSt w ≤ 4 ∧ (k = 0 ∨ (¬adm ∧ (s.get (f_TWN_CFG_FAST w) = 1 ∨ s.winRadio w = true))))
    ∧ (due = false → Runs (.commandFetch k [r]) s (fun t => u.onlyIn t { regs := true, hst := true, acct := true, out := true } ∧ s.bitsBut t depths ∧ other t ∧ t.winOf w = x))
    ∧ (due = true → r.late = true → Runs (.commandFetch k [r]) s (fun t => u.onlyIn t { regs := true, hst := true, acct := true, out := true } ∧ other t ∧ t.winOf w = x
        ∧ (¬adm → t.get (f_TWN_SKIP_CNT_COUNT w) = min (s.get (f_TWN_SKIP_CNT_COUNT w) + 1) (2 ^ 32 - 1))
        ∧ s.bitsBut t (if adm then depths else f_TWN_SKIP_CNT_COUNT w :: depths)))
    ∧ (due = true → r.late = false → r.rcbErr = true → Runs (.commandFetch k [r]) s (fun t => other t ∧ (t.winOf w).cmds = x.cmds ∧ t.mem = s.mem ∧ t.srv = s.srv ∧ t.te = s.te
        ∧ if adm then t.winOf w = x else t.winSt w = 6 ∧ t.get (f_TWN_STATE_ERR w) = 1 ∧ (t.winOf w).cpl = []))
    ∧ (due = true → r.late = false → r.rcbErr = false → x.cpl = [] → s.winSt w = 1 → s.sqSize w < n →
        Runs (.commandFetch k [r]) s (fun t => other t ∧ (t.winOf w).cmds = x.cmds ∧ (t.winOf w).sqCi = x.sqCi ∧ t.mem = s.mem ∧ t.srv = s.srv ∧ t.te = s.te
          ∧ (¬adm → t.winSt w = 6 ∧ t.get (f_TWN_STATE_ERR w) = 2)))
    ∧ (∀ e, due = true → r.late = false → r.rcbErr = false → x.cpl = [] → s.winSt w = 1 → n ≠ 0 → n ≤ s.sqSize w → r.entries = [e] → r.err = false
        → (adm ∨ s.get (f_TWN_CFG_FETCH_MAX w) ≠ 0) → s.winAudited w = false → s.winReplay w = false → s.winRadio w = false →
      let b := padTo 128 e
      let c : Cmd := { op := leNat (b.take 1), flags := leNat ((b.drop 1).take 1), tag := leNat ((b.drop 4).take 4), body := b, arrival := s.tim.tick, pos := x.sqCi, ns := u.now }
      let code := s.checkCmd w c
      Runs (.commandFetch k [r]) s (fun t => u.onlyIn t { regs := true, hst := true, acct := true, out := true } ∧ other t
        ∧ s.bitsBut t (count ++ depths) ∧ (∀ f ∈ count, t.get f = min (s.get f + 1) (2 ^ 32 - 1))
        ∧ (t.winOf w).sqCi = (x.sqCi + 1) % 2 ^ 32 ∧ (t.winOf w).cqCi = r.cqCi % 2 ^ 32
        ∧ Out.hostWrite (s.winPort w) (s.winPasid w) (s.winRcb w + 8) (leBytes 4 ((x.sqCi + 1) % 2 ^ 32)) ∈ t.out
        ∧ (code = 0 → (t.winOf w).cmds = x.cmds ++ [c] ∧ (t.winOf w).cpl = [])
        ∧ (code ≠ 0 → (t.winOf w).cmds = x.cmds ∧ s.entryOut t w (cplEntry 3 code c.op c.ctxWord 0 (c.arrival % 2 ^ 32) c.tag)))) :)
  ∧ (∀ (s : State) (w : Nat) (c : Cmd),
    (c.op ∉ [0x00, 0x01, 0x02, 0x03, 0x04, 0x05, 0x10, 0x11, 0x12, 0x13, 0x14, 0x15, 0x16, 0x30, 0x31, 0x32] → s.checkCmd w c = 3)
    ∧ (w ≠ 128 → c.op ∈ [0x30, 0x31, 0x32] → s.checkCmd w c = 3)
    ∧ (c.op ∈ [0x00, 0x01, 0x02, 0x03, 0x04, 0x05, 0x10, 0x11, 0x12, 0x13, 0x14, 0x15, 0x16] → 4 ≤ c.flags ∨ c.zeros 2 4 = false → s.checkCmd w c = 4)
    ∧ (c.op = 0 → c.flags < 4 → c.zeros 2 4 = true → c.zeros 8 16 = true → s.checkCmd w c = 0)
    ∧ (c.op ∈ [0x11, 0x12, 0x13, 0x14, 0x15, 0x16] → c.flags < 4 → c.zeros 2 4 = true → c.zeros 8 16 = true → c.at 0x10 4 < 2 ^ 18 → (c.op = 0x11 → c.at 0x30 4 ≠ 0) →
        s.checkCmd w c = if s.ctxInRange w (c.at 0x10 4) then 0 else 5) :)
  ∧ (∀ (s : State) (w op : Nat) (c : Cmd), s.frontCmd w op = some c → bitAt c.flags 1 = true → ∃ d, (s.winOf w).cmds.head? = some d ∧ d.pos = c.pos :)
  ∧ (∀ (s : State) (w : Fin 129) (m : Fin 8), s.live = true →
    (s.frontCmd w 0 = none → exec (.nop w) s = .next s) ∧ (s.frontCmd w 1 = none → exec (.jobStart w) s = .next s)
    ∧ (s.frontCmd w 2 = none → exec (.jobStop w) s = .next s) ∧ (s.frontCmd w 3 = none → exec (.jobPrio w) s = .next s)
    ∧ (s.frontCmd w 4 = none → exec (.copy w m) s = .next s) ∧ (s.frontCmd w 5 = none → exec (.fill w m) s = .next s) :)
  ∧ (∀ (s : State) (w : Fin 129) (c : Cmd), s.live = true →
    let x := s.winOf w
    let tag := if w.val = 128 then 0xFF else w.val
    let quiet (t : State) : Prop := s.onlyIn t { regs := true, hst := true, acct := true, out := true } ∧ s.bitsBut t [f_TWN_CPL_DROP_COUNT w]
    (s.frontCmd w 0 = some c → Runs (.nop w) s (fun t => quiet t ∧ t.hst.jobs = s.hst.jobs ∧ s.completes t w c 0 0))
    ∧ (s.frontCmd w 1 = some c → Runs (.jobStart w) s (fun t => s.onlyIn t { hst := true } ∧ (∀ v, v ≠ w.val → t.winOf v = s.winOf v)
        ∧ t.winOf w = { x with jobs := (x.jobs + 1) % 2 ^ 24, cmds := x.cmds.map (fun d => if d.pos = c.pos then { d with begun := true } else d) }
        ∧ ∃ j, t.hst.jobs = s.hst.jobs ++ [j] ∧ j.id = tag * 2 ^ 24 + (x.jobs + 1) % 2 ^ 24 ∧ j.st = .pending ∧ j.stop = false ∧ j.order = 0 ∧ j.serve = none ∧ j.win = w.val
          ∧ j.tag = c.tag ∧ j.arrival = c.arrival ∧ j.pos = c.pos ∧ j.since = s.tim.expo ∧ j.part = c.at 0x10 1 % 16 ∧ j.prio = c.at 0x11 1 % 8 ∧ j.threads = c.at 0x12 1
          ∧ j.sig = c.at 0x13 1 ∧ j.arrays = c.at 0x14 8 ∧ j.dma = c.at 0x1C 2 ∧ j.store = c.at 0x20 8 ∧ j.acc = c.at 0x28 4 ∧ j.entry = c.at 0x30 8 ∧ j.arg = c.at 0x38 8
          ∧ j.save = c.at 0x40 8 ∧ j.cores = c.at 0x48 12 ∧ j.slot = s.winSlot w ∧ j.tenant = s.winTenant w))
    ∧ (∀ (i : Instr) (op : Nat), (i = .jobStop w ∧ op = 2) ∨ (i = .jobPrio w ∧ op = 3) → s.frontCmd w op = some c →
      (c.at 0x10 4 / 2 ^ 24 ≠ tag → Runs i s (fun t => quiet t ∧ t.hst.jobs = s.hst.jobs ∧ s.completes t w c 5 0))
      ∧ (c.at 0x10 4 / 2 ^ 24 = tag → s.jobOf (c.at 0x10 4) = none → Runs i s (fun t => quiet t ∧ t.hst.jobs = s.hst.jobs ∧ s.completes t w c 6 0)))
    ∧ (∀ j, s.frontCmd w 2 = some c → c.at 0x10 4 / 2 ^ 24 = tag → s.jobOf (c.at 0x10 4) = some j →
      (j.st = .pending → Runs (.jobStop w) s (fun t => t.jobOf j.id = none ∧ (∀ g, g ≠ j.id → t.jobOf g = s.jobOf g) ∧ t.te = s.te ∧ t.sig = s.sig ∧ t.arr = s.arr ∧ t.mem = s.mem
          ∧ (bitAt c.flags 0 = true → s.entryOut t w (cplEntry 3 0 2 0 0 (c.arrival % 2 ^ 32) c.tag))))
      ∧ (j.st = .started → Runs (.jobStop w) s (fun t => t.jobOf j.id = some { j with stop := true } ∧ (∀ g, g ≠ j.id → t.jobOf g = s.jobOf g) ∧ t.mem = s.mem ∧ t.srv = s.srv
          ∧ (∀ n q, (s.thr n q).job = j.id → (s.thr n q).st ≠ .faulted → (t.thr n q).st = .idle) ∧ (∀ n q, (s.thr n q).job ≠ j.id → t.thr n q = s.thr n q)
          ∧ (∀ n q, (s.sigThr n q).job = j.id → (s.sigThr n q).radio = false → (s.sigThr n q).st ≠ .faulted → (t.sigThr n q).st = .idle)
          ∧ (∀ n q, (s.sigThr n q).job ≠ j.id ∨ (s.sigThr n q).radio = true → t.sigThr n q = s.sigThr n q) ∧ s.completes t w c 0 0)))
    ∧ (∀ j, s.frontCmd w 3 = some c → c.at 0x10 4 / 2 ^ 24 = tag → s.jobOf (c.at 0x10 4) = some j →
      let p := c.at 0x14 1 % 8
      Runs (.jobPrio w) s (fun t => s.onlyIn t { regs := true, hst := true, te := true, sig := true, acct := true, out := true } ∧ s.bitsBut t [f_TWN_CPL_DROP_COUNT w]
        ∧ t.jobOf j.id = some { j with prio := p } ∧ (∀ g, g ≠ j.id → t.jobOf g = s.jobOf g) ∧ s.completes t w c 0 0
        ∧ (∀ n q, (s.thr n q).job ≠ 0 → t.thr n q = if (s.thr n q).job = j.id then { s.thr n q with prio := p } else s.thr n q)))
    ∧ (∀ (m : Fin 8) (i : Instr) (op : Nat), (i = .copy w m ∧ op = 4) ∨ (i = .fill w m ∧ op = 5) → s.frontCmd w op = some c →
      let d : BulkDesc := { ctrl := op - 3, len := c.at 0x20 4, src := if op = 4 then s.cmdAddr w (c.at 0x10 8) + 0xFFF * 2 ^ 48 else 0,
                            dst := s.cmdAddr w (c.at 0x18 8) + 0xFFF * 2 ^ 48, seq := c.tag, sub := .cmd w.val c.pos, ns := c.ns, tenant := s.winTenant w }
      let cur := sget 0 s.ms.bulkCur m
      Runs i s (fun t => (if cur ≠ 0 then s.onlyIn t { regs := true, hst := true, ms := true } else s.onlyIn t { regs := true, hst := true, ms := true, acct := true, free := true })
        ∧ t.bulkQ m 2 = s.bulkQ m 2 ++ [d] ∧ (∀ g q, 4 * g + q ≠ 4 * m.val + 2 → t.bulkQ g q = s.bulkQ g q)
        ∧ (∀ g, sget 0 t.ms.bulkCur g = if g = m.val ∧ cur = 0 then (if s.bulkQ m 3 = [] then 3 else 4) else sget 0 s.ms.bulkCur g)
        ∧ (∀ v, v ≠ w.val → t.winOf v = s.winOf v)
        ∧ t.winOf w = { x with cmds := x.cmds.map (fun d => if d.pos = c.pos then { d with begun := true } else d) }
        ∧ (cur = 0 → t.get (f_MEM_BM_STATE_BUSY m) = 1)
        ∧ s.bitsBut t (f_MEM_BM_STATE_QUEUES m :: if cur = 0 then [f_MEM_BM_STATE_BUSY m, f_MEM_BM_STATE_OUTSTANDING m] else []))) :))
  ∧ ((∀ (s : State) (id : BitVec 32) (j : Job), s.live = true → s.jobOf id.toNat = some j →
    (j.stop = true → exec (.jobLaunch id) s = .next s)
    ∧ (j.stop = false → j.st = .pending → s.firstInLine j = false → exec (.jobLaunch id) s = .next s)
    ∧ (∀ n, j.stop = false → j.st = .pending → bitAt j.arrays n = true → n < 64 → s.victims n j = none → exec (.jobLaunch id) s = .next s)
    ∧ (∀ n, j.stop = false → j.st = .pending → s.firstInLine j = true → j.cores = 0 → j.threads ≠ 0 → n < 64 → j.arrays = 2 ^ n → s.victims n j = some [] → j.begun = []
        → j.order = 0 → (∀ v ∈ (s.arrOf n).spills, v.inc ≠ j.id) → j.serve = none → id.toNat ≠ 0 →
      Runs (.jobLaunch id) s (fun t =>
        (∃ g, t.jobOf j.id = some g ∧ g.st = .started ∧ g.begun = [n] ∧ g.order = s.hst.starts + 1 ∧ g.prio = j.prio) ∧ t.hst.starts = s.hst.starts + 1
        ∧ (∀ g, g ≠ j.id → t.jobOf g = s.jobOf g) ∧ t.mem = s.mem ∧ t.sig = s.sig ∧ t.srv = s.srv
        ∧ (∀ i, i < j.threads → ∃ k, (s.freeThreads n)[i]? = some k ∧ (t.thr n k).job = j.id ∧ (t.thr n k).st = (if s.leaseOf n = .openLease then .ready else .parked)
            ∧ (t.thr n k).pc = j.entry ∧ (t.thr n k).prio = j.prio ∧ (t.thr n k).part = j.part ∧ (t.thr n k).tenant = j.tenant ∧ (t.thr n k).slot = j.slot
            ∧ (t.thr n k).sr 1 = j.arg % 2 ^ 64 ∧ (t.thr n k).sr 2 = i)
        ∧ (∀ m k, m < 64 → k < 64 → m ≠ n ∨ k ∉ (s.freeThreads n).take j.threads → t.thr m k = s.thr m k)
        ∧ (∀ c, s.cmdAt j.win j.pos = some c → c.op = 1 → c.begun = true → s.completes t j.win c 0 j.id)))
    ∧ (∀ n vs, j.stop = false → j.st = .pending → s.firstInLine j = true → j.cores = 0 → j.threads ≠ 0 → n < 64 → j.arrays = 2 ^ n → s.victims n j = some vs →
      Runs (.jobLaunch id) s (fun t => (∃ g, t.jobOf j.id = some g ∧ g.st = .started) ∧ ∀ v ∈ vs, ∃ r ∈ (t.arrOf n).spills, r.job = v ∧ r.inc = j.id))
    ∧ (∀ n vs v, s.victims n j = some vs → v ∈ vs → ∃ k ∈ s.hst.jobs, k.id = v ∧ k.prio < j.prio ∧ n ∈ k.begun ∧ s.get f_HST_SCHED_CFG_MIN_RUN ≤ s.tim.expo - sget 0 k.run n)
    ∧ (j.st = .pending → s.get f_HST_SCHED_CFG_START_TMO * 1024 ≤ s.tim.expo - j.since → Runs (.jobStartTimeout id) s (fun t => t.jobOf j.id = none
        ∧ (∀ g, g ≠ j.id → t.jobOf g = s.jobOf g) ∧ t.get f_HST_STATUS_START_TMO = 1 ∧ t.mem = s.mem ∧ t.te = s.te ∧ t.sig = s.sig ∧ t.arr = s.arr
        ∧ (∀ c, j.serve = none → s.cmdAt j.win j.pos = some c → c.op = 1 → c.begun = true → s.completes t j.win c 8 0)))
    ∧ (j.st ≠ .pending ∨ s.tim.expo - j.since < s.get f_HST_SCHED_CFG_START_TMO * 1024 → exec (.jobStartTimeout id) s = .next s)
    ∧ (s.jobDone j = false → exec (.jobEnd id) s = .next s)
    ∧ (s.jobDone j = true → swf {} s.te.thr = true → id.toNat ≠ 0 →
      let bad := (s.jobSts j.id).any (fun x => x.1 == .faulted)
      let kind := if j.fault ≠ 0 then j.fault else (((s.jobSts j.id).find? (fun x => x.1 == .faulted && x.2 ≠ 0)).map (·.2)).getD 0
      Runs (.jobEnd id) s (fun t => t.jobOf j.id = none ∧ (∀ g, g ≠ j.id → t.jobOf g = s.jobOf g)
        ∧ (∀ n q, (s.thr n q).job = j.id → (s.thr n q).radio = false → t.thr n q = { kind := (s.thr n q).kind }) ∧ (∀ n v, v ∈ (t.arrOf n).spills → n < 64 → v.job ≠ j.id)
        ∧ t.mem = s.mem ∧ t.srv = s.srv
        ∧ s.entryOut t j.win (cplEntry 4 (if bad then 0x0B else if j.stop then 0x0C else 0) 1 0 (j.id + (if bad then kind * 2 ^ 32 else 0)) (j.arrival % 2 ^ 32) j.tag))) :)
  ∧ (∀ (s : State) (id : BitVec 32), s.live = true → s.jobOf id.toNat = none →
      exec (.jobLaunch id) s = .next s ∧ exec (.jobStartTimeout id) s = .next s ∧ exec (.jobEnd id) s = .next s :))

/-! Faults (chapter 16, R487 to R519). -/

/-- R491 to R498, R513: the collector handles the oldest message: it counts it, queues it, writes the proof strip, takes the action of the
policy, and a source whose count reaches its threshold is made severe. Clauses may rest on choices of the model: log entry 74. -/
def Obligations.FaultActions : Prop :=
  (∀ s : State, s.flt.inbox = [] → exec .faultMessage s = .next s :)
  ∧ (∀ (s : State) (m : FltMsg) (rest : List FltMsg), s.flt.inbox = m :: rest →
    let ev := s.get (f_FLT_KIND_POL_EVENT m.kind)
    let sv := s.get (f_FLT_KIND_POL_SEVERE m.kind)
    let r := s.src m.source
    let counted : Bool := s.flag (f_FLT_KIND_POL_COUNTED m.kind) && !(decide (0x80 ≤ m.kind) && decide (m.kind ≤ 0x8F))
    let fresh : Prop := r.c = 0 ∨ r.w ≤ (m.tick + 2 ^ 32 - r.t0) % 2 ^ 32
    let c := min ((if r.c = 0 ∨ r.w ≤ (m.tick + 2 ^ 32 - r.t0) % 2 ^ 32 then 0 else r.c) + 1) 255
    let made : Bool := counted && decide (r.n ≠ 0) && decide (r.n ≤ c) && !r.severe
    let top := if made then max ev sv else ev
    let room : Prop := 3 * s.flt.queue.length + 3 ≤ 8192
    let safe : Prop := ev = 5 ∨ (made = true ∧ sv = 5)
    let l := 2 * s.get f_HST_ROLE_MGR_PORT
    let told (t : State) (v : Nat) : Prop := if bitAt (s.msixWord l v 3) 0 then (l, v) ∈ t.hst.pba
      else Out.msix (l / 2) (s.msixWord l v 0 + 2 ^ 32 * s.msixWord l v 1) (s.msixWord l v 2) ∈ t.out
    Runs .faultMessage s (fun t => rest <+: t.flt.inbox
      ∧ (t.src m.source).c = (if counted then c else r.c) ∧ (t.src m.source).severe = (r.severe || made)
      ∧ (counted = true → fresh → (t.src m.source).t0 = m.tick) ∧ (counted = true → ¬fresh → (t.src m.source).t0 = r.t0)
      ∧ (1 ≤ top → room → t.flt.queue = s.flt.queue ++ [m] ∧ t.get f_FLT_Q_DEPTH_WORDS = 3 * (s.flt.queue.length + 1))
      ∧ (1 ≤ top → ¬room → t.flt.queue = s.flt.queue ∧ t.get f_FLT_STATUS_DROP = 1 ∧ t.get f_FLT_DROP_CNT_COUNT = min (s.get f_FLT_DROP_CNT_COUNT + 1) (2 ^ 32 - 1))
      ∧ (top = 0 → t.flt.queue = s.flt.queue)
      ∧ (top = 0 ∨ s.flt.frozen = true → t.flt.strip = s.flt.strip ∧ t.flt.ptr = s.flt.ptr)
      ∧ (1 ≤ top → s.flt.frozen = false → t.flt.ptr = (s.flt.ptr + 1) % 64
          ∧ (∃ e, sget {} t.flt.strip s.flt.ptr = e ∧ e.msg = m ∧ e.valid = true ∧ e.secondary = false ∧ e.madeSevere = made ∧ (e.queued = true ↔ room) ∧ e.action = top
              ∧ e.phase = t.flt.phase.code)
          ∧ ∀ k, k ≠ s.flt.ptr → sget {} t.flt.strip k = sget {} s.flt.strip k)
      ∧ (2 ≤ ev ∨ (made = true ∧ 2 ≤ sv) → told t 0) ∧ (made = true → told t 1 ∧ t.get f_FLT_STATUS_SEVERE = 1)
      ∧ (safe → t.flt.phase = .safelight ∧ t.flt.frozen = true) ∧ (¬safe → t.flt.phase = t.phaseNow false ∧ t.flt.frozen = s.flt.frozen)
      ∧ (let kept : Prop := m.kind ∈ [0x01, 0x03, 0x33, 0x34, 0x38, 0x3A, 0x82]
        (kept → m.tick = s.tim.tick % 2 ^ 32 → ev < 3 → made = false → ∃ e : StripEntry, e.msg = m ∧ e.madeSevere = false ∧ e.action = ev ∧ e.phase = t.flt.phase.code
            ∧ s.records t 0x07 0 64 (m.words.flatMap (leBytes 4) ++ leBytes 4 e.flags))
        ∧ (¬kept → ev < 3 → made = false → t.aud = s.aud))
      ∧ (ev ≠ 3 → ev ≠ 4 → made = false → s.onlyIn t { regs := true, flt := true, hst := true, aud := true, out := true }
          ∧ s.bitsBut t ([f_FLT_Q_DEPTH_WORDS, f_FLT_DROP_CNT_COUNT, f_FLT_STATUS_DROP, f_FLT_STATUS_DROP.count, f_MEM_STATUS_FIFO_DROP, f_MEM_STATUS_FIFO_DROP.count] ++ audFields))
      ∧ (s.flt.phase ≠ .safelight →
          (∀ k, ev = 3 → 0x100 ≤ m.source → m.source < 0x168 → s.servedCore (m.source - 0x100) = some k → k < 96 → t.get (f_SIG_CORE_ISOLATED k) = 1)
          ∧ (ev = 3 → 0x1D0 ≤ m.source → t.get f_FLT_STATUS_ACT_NA = 1) ∧ (ev = 4 → m.source < 0x240 ∨ 0x258 ≤ m.source → t.get f_FLT_STATUS_ACT_NA = 1)
          ∧ (∀ p, ev = 4 → p < 24 → m.source = 0x240 + p →
            let open' : Prop := s.flt.govCnt = 0 ∨ s.get f_FLT_GOV_CFG_WINDOW_K * 1024 ≤ (m.tick + 2 ^ 32 - s.flt.govT0) % 2 ^ 32
            let held : Prop := s.get f_FLT_GOV_CFG_MAX ≤ (if s.flt.govCnt = 0 ∨ s.get f_FLT_GOV_CFG_WINDOW_K * 1024 ≤ (m.tick + 2 ^ 32 - s.flt.govT0) % 2 ^ 32 then 0 else s.flt.govCnt)
            (¬held → s.portSt p ≠ 0 → s.portSt p ≠ 7 → t.portSt p = 5 ∧ t.get (f_AVL_PORT_STATUS_QUARANTINE p) = 1)
            ∧ (¬held → open' → made = false → t.flt.govT0 = m.tick ∧ t.flt.govCnt = 1)
            ∧ (held → made = false → t.portSt p = s.portSt p ∧ t.get f_FLT_STATUS_GOV_HELD = 1)))) :)
/-- R499 to R504, R515, R517: a fault of the collector itself, the safelight state and what follows its cause, TEST, injected messages, the
set-counts, and reads of the fault queue. Clauses may rest on choices of the model: log entries 74 and 76. -/
def Obligations.SafelightAndTest : Prop :=
  (∀ s : State, s.phaseNow false = .service → Runs .collectorSelfFault s (fun t => t.flt.phase = .safelight ∧ t.flt.frozen = true ∧ t.mem = s.mem ∧ t.arr = s.arr
      ∧ (s.flt.frozen = false → ∃ e, sget {} t.flt.strip s.flt.ptr = e ∧ e.msg = s.msg srcFlt 0x70 0 0 ∧ e.action = 2 ∧ e.secondary = false ∧ e.phase = 1)) :)
  ∧ (∀ s : State, s.phaseNow false ≠ .service → Runs .collectorSelfFault s (fun t => t.flt.phase = s.phaseNow false ∧ t.flt.frozen = s.flt.frozen ∧ t.get f_FLT_STATUS_SELF = 1
      ∧ (∀ k, (t.src k).c = 0) ∧ (s.img = none → ∀ k, k < 256 → t.reg (r_FLT_KIND_POL k) = 0x12) ∧ t.mem = s.mem ∧ t.arr = s.arr
      ∧ (s.flt.phase = s.phaseNow false → s.flt.frozen = false → s.flt.headValid = true → t.flt.head = { s.flt.head with secondary := true })
      ∧ (s.flt.phase = s.phaseNow false → s.flt.frozen = false → ∃ e, sget {} t.flt.strip s.flt.ptr = e ∧ e.msg.source = srcFlt ∧ e.msg.kind = 0x70 ∧ e.action = 2
          ∧ e.secondary = !s.flt.headValid)) :)
  ∧ (∀ s : State, s.flt.phase ≠ .safelight ∨ s.flt.safeL = true → exec .safelightEntry s = .next s :)
  ∧ (∀ s : State, s.flt.phase = .safelight → s.flt.safeL = false → Runs .safelightEntry s (fun t =>
      s.onlyIn t { regs := true, flt := true, ms := true, aud := true, hst := true, boot := true, out := true }
      ∧ t.boot = { s.boot with delta := none } ∧ (∀ p, p < 24 → t.portSt p = 7 ∧ Out.flit p { typ := .safe } ∈ t.out)
      ∧ t.ms = { s.ms with selfRefresh := true } ∧ t.flt.phase = .safelight ∧ t.flt.frozen = true ∧ t.flt.safeL = true ∧ t.flt.strip = s.flt.strip
      ∧ (∃ body, s.records t 0x0A 0 112 body) ∧ s.bitsBut t ((List.range 24).map f_AVL_PORT_STATE_STATE ++ audFields)) :)
  ∧ (∀ s : State, s.live = true → Runs .fltSafelight s (fun t => t.flt.phase = .safelight ∧ t.flt.frozen = true ∧ t.mem = s.mem ∧ t.arr = s.arr ∧ t.te = s.te ∧ t.net = s.net
      ∧ (s.flt.frozen = false → ∃ e, sget {} t.flt.strip s.flt.ptr = e ∧ e.msg = s.msg srcFlt 0x72 0 0 ∧ e.action = 1)) :)
  ∧ (∀ (s : State) (v : Bool), s.live = true → Runs (.fltTest v) s (fun t => s.onlyIn t { regs := true } ∧ t.get f_FLT_CTL_TEST = v.toNat ∧ s.bitsBut t [f_FLT_CTL_TEST]) :)
  ∧ (∀ s : State, s.phaseShutter.flt.inTest = s.flag f_FLT_CTL_TEST :)
  ∧ (∀ s : State, s.live = true → Runs .cntClear s (fun t => s.onlyIn t { regs := true } ∧ ∀ off, t.reg off = if off ∈ setCounts then 0 else s.reg off) :)
  ∧ (∀ p, p < 24 → (f_AVL_PORT_STATUS_DOWN p).count.off ∈ setCounts) ∧ (∀ n, n < 64 → (f_TE_STATUS_FAULT n).count.off ∈ setCounts) ∧ f_FLT_STATUS_SEVERE.count.off ∈ setCounts
  ∧ (∀ (s : State) (src : BitVec 12) (kind : BitVec 8), s.live = true → Runs (.fltInject src kind) s (fun t => s.onlyIn t { regs := true, flt := true }
      ∧ t.get f_FLT_INJECT_SOURCE = src.toNat ∧ t.get f_FLT_INJECT_KIND = kind.toNat ∧ s.bitsBut t [f_FLT_INJECT_SOURCE, f_FLT_INJECT_KIND]
      ∧ (s.flt.phase = .test → s.sends t src.toNat kind.toNat 0 0xFFFF) ∧ (s.flt.phase ≠ .test → t.flt = s.flt)) :)
  ∧ (∀ (s : State) (req : Fin 4),
    let marks := sget [] s.ms.fifoErr 0
    (s.boot.por = true → exec (.fltQueueRead req) s = .next s)
    ∧ (s.boot.por = false → s.flt.queue = [] → Runs (.fltQueueRead req) s (fun t => s.onlyIn t { flt := true, out := true }
        ∧ t.flt = { s.flt with lastQ := {}, lastQValid := false, lastQErr := 0 } ∧ t.out = s.out ++ [.regData req r_FLT_Q_W0 0]))
    ∧ (∀ m rest, s.boot.por = false → s.flt.queue = m :: rest → rest.length < 5000 → Runs (.fltQueueRead req) s (fun t =>
        s.onlyIn t { regs := true, flt := true, ms := true, out := true } ∧ (marks = [] → t.ms = s.ms)
        ∧ t.ms = { s.ms with fifoErr := t.ms.fifoErr, fifoCorr := t.ms.fifoCorr }
        ∧ (∀ e, e ∈ sget [] t.ms.fifoErr 0 ↔ (e.1 + 3, e.2) ∈ marks) ∧ (∀ k, k ≠ 0 → sget [] t.ms.fifoErr k = sget [] s.ms.fifoErr k)
        ∧ t.flt = { s.flt with queue := rest, lastQ := m, lastQValid := true, lastQErr := t.flt.lastQErr }
        ∧ (bitAt t.flt.lastQErr 0 = true ↔ ∃ i, i < 3 ∧ (i, false) ∈ marks) ∧ (bitAt t.flt.lastQErr 1 = true ↔ ∃ i, i < 3 ∧ (i, true) ∈ marks)
        ∧ t.get f_FLT_Q_DEPTH_WORDS = 3 * rest.length ∧ s.bitsBut t [f_FLT_Q_DEPTH_WORDS]
        ∧ t.out = s.out ++ [.regData req r_FLT_Q_W0 (BitVec.ofNat 32 (m.source + 2 ^ 12 * m.kind + 2 ^ 20 * m.seq))])) :)
/-- R507 to R513: recovery commands with their sequence numbers, verdicts at a shutter, and the replay of a faulted step. Clauses may rest
on choices of the model: log entry 75. -/
def Obligations.Recovery : Prop :=
  (∀ (s : State) (arg : BitVec 32) (rseq : BitVec 16), s.live = true →
    let a := arg.toNat
    let res (t : State) (op code : Nat) : Prop := s.onlyIn t { regs := true, flt := true } ∧ t.reg r_FLT_RCMD_ARG = arg ∧ t.get f_FLT_RCMD_OP = op ∧ t.get f_FLT_RCMD_RSEQ = rseq.toNat
      ∧ t.get f_FLT_RCMD_RES_RESULT = code ∧ t.get f_FLT_RCMD_RES_RSEQ = rseq.toNat
      ∧ s.bitsBut t [.whole r_FLT_RCMD_ARG, f_FLT_RCMD_OP, f_FLT_RCMD_RSEQ, f_FLT_RCMD_RES_RESULT, f_FLT_RCMD_RES_RSEQ, f_FLT_GOV_VIEW_COUNT, f_FLT_STATUS_GOV_HELD, f_FLT_STATUS_GOV_HELD.count]
    let k := a % 2 ^ 12
    let x := sget {} s.flt.peers k
    let free : Prop := s.flt.govCnt = 0 ∨ s.get f_FLT_GOV_CFG_WINDOW_K * 1024 ≤ (s.tim.tick % 2 ^ 32 + 2 ^ 32 - s.flt.govT0) % 2 ^ 32 ∨ s.flt.govCnt < s.get f_FLT_GOV_CFG_MAX
    let ovr := bitAt a 13
    let new : Prop := rseq.toNat ≠ x.rseq ∧ k ≠ s.chipId ∧ k ≠ 0xFFF
    let applied (t : State) : Prop := sget {} t.flt.peers k = { x with dead := bitAt a 12, pend := some s.tim.expo, rseq := rseq.toNat } ∧ ∀ j, j ≠ k → sget {} t.flt.peers j = sget {} s.flt.peers j
    (rseq.toNat = x.rseq → Runs (.verdict arg rseq) s (fun t => res t 1 1 ∧ t.flt = s.flt))
    ∧ (rseq.toNat ≠ x.rseq → k = s.chipId ∨ k = 0xFFF → Runs (.verdict arg rseq) s (fun t => res t 1 2 ∧ t.flt = s.flt))
    ∧ (new → bitAt a 12 = false → Runs (.verdict arg rseq) s (fun t => res t 1 0 ∧ applied t ∧ t.flt = { s.flt with peers := t.flt.peers }))
    ∧ (new → bitAt a 12 = true → (free ∧ s.get f_FLT_GOV_CFG_MAX ≠ 0) ∨ ovr = true → Runs (.verdict arg rseq) s (fun t => res t 1 0 ∧ applied t ∧ t.flt.inbox = s.flt.inbox))
    ∧ (new → bitAt a 12 = true → ¬free ∨ s.get f_FLT_GOV_CFG_MAX = 0 → ovr = false → Runs (.verdict arg rseq) s (fun t => res t 1 3 ∧ t.flt.peers = s.flt.peers ∧ t.get f_FLT_STATUS_GOV_HELD = 1 ∧ s.sends t srcFlt 0x71 0 0))
    ∧ (let p := a % 16
       let y := s.partRec p
       (rseq.toNat = y.rseq → Runs (.replay arg rseq) s (fun t => res t 2 1 ∧ t.flt = s.flt))
       ∧ (rseq.toNat ≠ y.rseq → y.st ≠ .stepFault → Runs (.replay arg rseq) s (fun t => res t 2 2 ∧ t.flt = s.flt))
       ∧ (rseq.toNat ≠ y.rseq → y.st = .stepFault → Runs (.replay arg rseq) s (fun t => res t 2 0
           ∧ t.partRec p = { y with st := .replaying, attempts := 1, held := false, cmd := true, since := s.tim.expo, rseq := rseq.toNat }
           ∧ (∀ j, j ≠ p → t.partRec j = s.partRec j) ∧ t.flt = { s.flt with part := t.flt.part })))
    ∧ (let z := s.src k
       (rseq.toNat = z.rseq → Runs (.srcClear arg rseq) s (fun t => res t 3 1 ∧ t.flt = s.flt))
       ∧ (rseq.toNat ≠ z.rseq → srcListed k = false → Runs (.srcClear arg rseq) s (fun t => res t 3 2 ∧ t.flt = s.flt))
       ∧ (rseq.toNat ≠ z.rseq → srcListed k = true → Runs (.srcClear arg rseq) s (fun t => res t 3 0 ∧ t.src k = { z with c := 0, severe := false, rseq := rseq.toNat }
           ∧ (∀ j, j ≠ k → t.src j = s.src j) ∧ t.flt = { s.flt with src := t.flt.src }))) :)
  ∧ (∀ s : State, s.live = true → (∀ e ∈ s.flt.peers, e.2.pend = none ∨ e.2.pend = some s.tim.expo) → exec .verdictApplied s = .next s :)
  ∧ (∀ (s : State) (c : Nat) (x : PeerRec) (k : Nat), s.live = true → s.flt.peers = [(c, x)] → x.pend = some k → k < s.tim.expo →
    Runs .verdictApplied s (fun t => sget {} t.flt.peers c = { x with inForce := x.dead, pend := none } ∧ (∀ j, j ≠ c → sget {} t.flt.peers j = {})
      ∧ s.msg srcFlt 0x82 0 c ∈ t.flt.inbox ∧ (x.dead = false → s.onlyIn t { flt := true } ∧ s.sends { t with flt := { t.flt with peers := s.flt.peers } } srcFlt 0x82 0 c)) :)
  ∧ (∀ (s : State) (p : Fin 16), s.live = true →
    let x := s.partRec p
    (∀ i j, (s.spOf p).job = some i → s.jobOf i = some j →
      let due : Prop := x.since < s.tim.expo ∧ s.chainsEnded i = true ∧ s.partSteady p = true
      let plan (t : State) : Prop := (t.spOf p).phase = .planned ∧ (t.spOf p).start = s.tim.tick ∧ (t.spOf p).batch = (s.spOf p).batch ∧ (∀ q, q ≠ p.val → t.spOf q = s.spOf q)
        ∧ (∀ n q, (s.thr n q).job = i → i ≠ 0 → (t.thr n q).st = .idle ∧ (t.thr n q).pc = j.entry ∧ (t.thr n q).s = [] ∧ (t.thr n q).job = i)
        ∧ (∀ n q, (s.thr n q).job ≠ i → t.thr n q = s.thr n q) ∧ t.mem = s.mem ∧ t.srv = s.srv ∧ (∀ q, q ≠ p.val → t.partRec q = s.partRec q)
      (¬due → exec (.replayStart p) s = .next s)
      ∧ (due → x.st = .replaying → x.cmd = true → Runs (.replayStart p) s (fun t => plan t ∧ t.partRec p = { x with cmd := false }))
      ∧ (due → x.st = .stepFault → x.held = false → s.get f_FLT_REPLAY_CFG_AUTO = 1 → x.attempts < s.get f_FLT_REPLAY_CFG_MAX →
          Runs (.replayStart p) s (fun t => plan t ∧ t.partRec p = { x with st := .replaying, attempts := x.attempts + 1 }))
      ∧ (due → x.st = .stepFault → x.held = false → s.get f_FLT_REPLAY_CFG_AUTO = 0 ∨ s.get f_FLT_REPLAY_CFG_MAX ≤ x.attempts →
          Runs (.replayStart p) s (fun t => s.onlyIn t { flt := true } ∧ t.partRec p = { x with held := true } ∧ ∀ q, q ≠ p.val → t.partRec q = s.partRec q)))
    ∧ ((s.spOf p).job = none → exec (.replayStart p) s = .next s)
    ∧ (let due : Prop := x.st = .stepFault ∧ x.tmo = false ∧ s.get f_FLT_REPLAY_CFG_WAIT_EXP ≤ s.tim.expo - x.since
       (¬due → exec (.replayWaitTimeout p) s = .next s)
       ∧ (due → Runs (.replayWaitTimeout p) s (fun t => s.onlyIn t { regs := true, flt := true, sp := true } ∧ t.partRec p = { x with tmo := true }
           ∧ (∀ q, q ≠ p.val → t.partRec q = s.partRec q) ∧ t.spOf p = { s.spOf p with halt := 2, resumed := false } ∧ (∀ q, q ≠ p.val → t.spOf q = s.spOf q)
           ∧ t.get (f_SRV_PART_CTL_HALTED p) = 1 ∧ t.get f_FLT_STATUS_REPLAY_TMO = 1 ∧ t.flt.inbox = s.flt.inbox ++ [s.msg 0x280 0x34 ((s.spOf p).step % 2 ^ 48) p]
           ∧ s.bitsBut t [f_SRV_PART_CTL_HALTED p, f_FLT_STATUS_REPLAY_TMO, f_FLT_STATUS_REPLAY_TMO.count]))) :)
/-! The audit log and attestation (chapter 17, R532 to R545). -/

/-- R538 to R543: the open block closes with its header and waits; a closed block is committed once a flash holds it, and goes to the
mirror; an acknowledgement frees slots. R544, R545: the SPDM responder: what it answers to each request, and the measurements of the
firmware, the image, the delta chain and the audit log. Clauses may rest on choices of the model: log entries 36, 37 and 73. -/
def Obligations.AuditAndAttestation : Prop :=
  ((∀ s : State,
    (s.closeDue = true ↔ s.aud.blk ≠ [] ∧ (s.aud.q ≠ [] ∨ s.reached s.aud.blkAt (s.get f_AUD_CFG_CLOSE_MS * 1000000) = true
      ∨ (s.flt.safeL = true ∧ ∀ r ∈ s.aud.q, r.head? ≠ some 0x0A)))
    ∧ (s.closeDue = false → exec .auditBlockClose s = .next s)
    ∧ (s.closeDue = true → s.audFree ≤ s.aud.closed.length → Runs .auditBlockClose s (fun t => s.onlyIn t { regs := true } ∧ t.get f_AUD_STATUS_RING_HELD = 1
        ∧ s.bitsBut t [f_AUD_STATUS_RING_HELD, f_AUD_STATUS_RING_HELD.count]))
    ∧ (s.closeDue = true → s.aud.closed.length < s.audFree → Runs .auditBlockClose s (fun t => s.onlyIn t { regs := true, aud := true, free := true }
        ∧ t.aud.blk ++ t.aud.q = s.aud.q ∧ t.aud.next = s.aud.next + 1 ∧ t.aud.seq = s.aud.seq ∧ t.aud.ringA = s.aud.ringA ∧ t.aud.ringB = s.aud.ringB
        ∧ (∃ b, t.aud.closed = s.aud.closed ++ [b] ∧ b.seq = s.aud.next ∧ t.aud.prev = b.digest ∧ (24 ≤ (s.aud.blk.headD []).length → b.bytes.drop 0x200 = s.aud.blk.flatten
            ∧ b.bytes.take 0xC0 = leBytes 4 0x42445541 ++ leBytes 2 1 ++ leBytes 2 s.audChip ++ leBytes 8 s.aud.next ++ ((s.aud.blk.headD []).drop 8).take 8
                ++ leBytes 2 s.aud.blk.length ++ leBytes 2 0 ++ leBytes 4 s.aud.blk.flatten.length ++ ((s.aud.blk.headD []).drop 16).take 8 ++ leBytes 8 s.tim.tick
                ++ padTo 48 s.aud.prev ++ sha384 (s.aud.blk.flatMap sha384) ++ sha384 idPublicKey))
        ∧ s.bitsBut t audFields)) :)
  ∧ (∀ (s : State) (a b : Bool), s.aud.closed = [] → exec (.auditBlockCommit a b) s = .next s :)
  ∧ (∀ (s : State) (failA failB : Bool) (b : AudBlk) (rest : List AudBlk), s.aud.closed = b :: rest →
    let slot := b.seq % 2048
    let n := s.get f_AUD_MIRROR_CFG_SLOTS
    let pi := s.get f_AUD_MIRROR_PI_PI
    Runs (.auditBlockCommit failA failB) s (fun t => t.get f_AUD_FLASH_FAIL_A = failA.toNat ∧ t.get f_AUD_FLASH_FAIL_B = failB.toNat
      ∧ (failA || failB → t.get f_AUD_STATUS_FLASH = 1 ∧ s.msg srcAud 0x6B 0 0 ∈ t.flt.inbox)
      ∧ (failA = false → sget {} t.aud.ringA slot = b) ∧ (failB = false → sget {} t.aud.ringB slot = b)
      ∧ (∀ k, k ≠ slot → sget {} t.aud.ringA k = sget {} s.aud.ringA k ∧ sget {} t.aud.ringB k = sget {} s.aud.ringB k)
      ∧ (failA && failB → t.aud.closed = b :: rest ∧ t.aud.newest = s.aud.newest ∧ t.out = s.out)
      ∧ (failA = false ∨ failB = false → t.aud.closed = rest ∧ t.aud.newest = some b
          ∧ (∀ req, t.answers r_AUD_BLOCK_LO = true → t.readReg req r_AUD_BLOCK_LO = b.seq % 2 ^ 32 ∧ t.readReg req r_AUD_BLOCK_HI = b.seq / 2 ^ 32 % 2 ^ 32)
          ∧ (n = 0 → t.out = s.out) ∧ (n ≠ 0 → t.get f_AUD_MIRROR_PI_PI = (pi + 1) % 2 ^ 32
              ∧ ∃ w1 w2 w3, t.out = s.out ++ [w1, w2, w3, .mirror b.seq]
                ∧ w3 = .hostWrite (s.get f_HST_ROLE_MGR_PORT) 0 (s.reg64 r_AUD_MIRROR_BASE_LO + 0x8000 * (pi % n) + 0x1F8) ((b.bytes.drop 0x1F8).take 8)))
      ∧ s.onlyIn t { regs := true, flt := true, acct := true, aud := true, out := true }) :)
  ∧ (∀ (s : State) (ci : BitVec 32), s.live = true → Runs (.mirrorAck ci) s (fun t => s.onlyIn t { regs := true } ∧ t.get f_AUD_MIRROR_CI_CI = ci.toNat
      ∧ t.get f_AUD_FLASH_FREE = t.audFree % 2 ^ 12 ∧ s.bitsBut t [f_AUD_MIRROR_CI_CI, f_AUD_FLASH_FREE]) :)
  ∧ (∀ s : State, s.audFree = if s.get f_AUD_MIRROR_CFG_SLOTS = 0 then 2048 else 2048 - min 2048 ((s.get f_AUD_MIRROR_PI_PI + 2 ^ 32 - s.get f_AUD_MIRROR_CI_CI) % 2 ^ 32) :)
  ∧ (∀ (kind flags tick chip seq n : Nat) (body : List Byte), 32 ≤ n → (auditRecord kind flags tick chip seq n body).length = n
      ∧ leNat ((auditRecord kind flags tick chip seq n body).take 1) = kind % 256 ∧ leNat (((auditRecord kind flags tick chip seq n body).drop 8).take 8) = seq % 2 ^ 64))
  ∧ ((∀ s : State, s.attests = false → ∀ (i : Instr) (sl : Fin 8) (o l : BitVec 16), i = .getVersion ∨ i = .getCapabilities ∨ i = .negotiateAlgorithms ∨ i = .getDigests
      ∨ i = .getCertificate sl o l ∨ i = .spdmUnsupported → exec i s = .next s :)
  ∧ (∀ s : State, s.attests = true →
    let replies (i : Instr) (r : SpdmResp) : Prop := Runs i s (fun t => s.onlyIn t { out := true } ∧ t.out = s.out ++ [.spdm r])
    replies .getVersion .version ∧ replies .getCapabilities (.capabilities 17 4096 true true true) ∧ replies .negotiateAlgorithms (.algorithms true true true)
    ∧ replies .getDigests (.digests 1 (sha384 certChain)) ∧ replies .spdmUnsupported .unsupported
    ∧ (∀ (off len : BitVec 16), off.toNat < certChain.length → replies (.getCertificate 0 off len) (.certificate 0 ((certChain.drop off.toNat).take (min len.toNat 4088))))
    ∧ (∀ (sl : Fin 8) (off len : BitVec 16), sl ≠ 0 ∨ certChain.length ≤ off.toNat → replies (.getCertificate sl off len) .invalid :)
    ∧ (∀ nonce : BitVec 256, Runs (.challenge 0 nonce) s (fun t => s.onlyIn t { out := true, free := true }
        ∧ ∃ sig : List Byte, sig.length = 96 ∧ t.out = s.out ++ [.spdm (.challengeAuth nonce.toNat sig)]))
    ∧ (∀ (sl : Fin 8) (nonce : BitVec 256), sl ≠ 0 → replies (.challenge sl nonce) .invalid :)
    ∧ (∀ (ix : BitVec 8) (nonce : BitVec 256), let l : List Nat := if ix = 0 then [] else if ix = 0xFF then [1, 2, 3, 4, 5, 6, 7, 8] else [ix.toNat]
        (ix = 0xFF ∨ ix ≤ 8 → replies (.getMeasurements ix false nonce) (.measurements (l.map (fun k => (k, s.measure k))) nonce.toNat [])
          ∧ Runs (.getMeasurements ix true nonce) s (fun t => s.onlyIn t { out := true, free := true }
              ∧ ∃ sig : List Byte, sig.length = 96 ∧ t.out = s.out ++ [.spdm (.measurements (l.map (fun k => (k, s.measure k))) nonce.toNat sig)]))
        ∧ (8 < ix → ix ≠ 0xFF → ∀ sign, replies (.getMeasurements ix sign nonce) .invalid)) :)
  ∧ (∀ (s : State) (f : Firmware), s.boot.run = some f → s.measure 2 = (1, padTo 48 f.hash) ∧ s.measure 3 = (7, leBytes 4 f.sec ++ leBytes 4 s.boot.floor) :)
  ∧ (∀ s : State, (s.measure 4).2 = (List.range 12).flatMap (fun i => leBytes 4 (s.reg (r_IMG_DIGEST i)).toNat) ∧ (s.measure 5).2 = padTo 48 s.boot.chain
      ∧ (∀ b, s.aud.newest = some b → (s.measure 7).2 = leBytes 8 b.seq ++ padTo 48 b.digest ++ leBytes 8 s.aud.seq)
      ∧ ((s.measure 8).1 = 5) :))

/-! Resets, start-up and images (chapter 18, R550 to R571; chapter 20, R614 to R618). -/

/-- R550 to R552, R585, R614, R617, R618: what each reset keeps; every register else has its reset value, every part else is as at reset.
R553 to R562: the stages from the identity to the choice of an image, and HALT. Clauses may rest on choices of the model: log entries 77 and
82. -/
def Obligations.ResetsAndStartUp : Prop :=
  (let kept (s t : State) : Prop := t.grade56 = s.grade56 ∧ t.coreDis = s.coreDis ∧ t.out = s.out ∧ t.pending = s.pending ∧ s.forgets t
    ∧ (swf {} s.die = true → ∀ d, t.dieOf d = { disabled := (s.dieOf d).disabled })
    ∧ t.aud = { ringA := s.aud.ringA, ringB := s.aud.ringB, newest := s.aud.newest, next := (s.aud.newest.map (·.seq + 1)).getD 0, prev := (s.aud.newest.map (·.digest)).getD [] }
  let parts : Parts := { regs := true, mem := true, die := true, boot := true, aud := true, hst := true, pins := true, grade56 := true, coreDis := true, out := true, free := true, pending := true }
  let aon : List Nat := [r_CLK_SRC, r_CLK_XTAL_CNT, r_CLK_TREF_PPM, r_PWR_AON]
  let chip (s t : State) (low : Bool) : Prop := kept s t ∧ State.onlyIn {} t { parts with tim := true, clk := true }
    ∧ t.boot = { flA := s.boot.flA, flB := s.boot.flB, keys := s.boot.keys, resetNs := s.now, rstL := low } ∧ t.clk = { s.clk with gone := false } ∧ t.pins = s.pins
    ∧ t.tim = { tb := s.now, frac := s.tim.frac, tick := s.now / 125000, nextEdge := (s.now / 125000 + 1) * 125000, expo := s.tim.expo }
    ∧ t.hst = { perst := s.hst.perst, hbAt := s.now } ∧ (∀ off ∈ aon, t.reg off = s.reg off) ∧ t.get f_BOOT_STAGE_RESET_KIND = 1
    ∧ t.stage = (if s.stage < 3 then s.stage else 3) ∧ (∀ off, off ∉ aon → off ≠ r_BOOT_STAGE → t.reg off = BitVec.ofNat 32 (resetAt off))
  (∀ s : State, exec (.coldReset false false) s = .next s :)
  ∧ (∀ (s : State) (a b : Bool), a = true ∨ b = true → Runs (.coldReset a b) s (fun t => kept s t ∧ State.onlyIn {} t parts
      ∧ t.boot = { flA := s.boot.flA, flB := s.boot.flB, rstL := true } ∧ t.hst = { perst := s.hst.perst } ∧ t.pins = { x8 := s.pins.x8 }
      ∧ t.get f_PWR_AON_A_OK = a.toNat ∧ t.get f_PWR_AON_B_OK = b.toNat ∧ t.get f_PWR_AON_ACTIVE = (!a).toNat
      ∧ ∀ off, off ≠ r_PWR_AON → t.reg off = BitVec.ofNat 32 (resetAt off)) :)
  ∧ (∀ s : State, Runs .powerOnReset s (fun t => kept s t ∧ State.onlyIn {} t parts ∧ t.boot = { flA := s.boot.flA, flB := s.boot.flB, rstL := s.boot.rstL, por := true }
      ∧ t.hst = { perst := s.hst.perst } ∧ t.pins = { x8 := s.pins.x8 } ∧ t.regs = []) :)
  ∧ (∀ s : State, s.boot.por = true → exec .chipReset s = .next s ∧ exec .watchdogExpiry s = .next s ∧ ∀ key, exec (.bootReset key) s = .next s :)
  ∧ (∀ s : State, s.boot.por = false → Runs .chipReset s (fun t => chip s t true) ∧ Runs .watchdogExpiry s (fun t => chip s t s.boot.rstL)
      ∧ Runs (.bootReset 0x5A17) s (fun t => chip s t s.boot.rstL) :)
  ∧ (∀ (s : State) (key : BitVec 16), key ≠ 0x5A17 → exec (.bootReset key) s = .next s :)
  ∧ (∀ s : State, exec .resetRelease s = .next { s with boot := { s.boot with rstL := false } } :))
  ∧ ((∀ (s : State) (ok : Bool),
    (1 < s.stage ∨ s.boot.por = true → exec (.identityDerive ok) s = .next s)
    ∧ (s.stage ≤ 1 → s.boot.por = false → Runs (.identityDerive ok) s (fun t => s.onlyIn t { regs := true, boot := true }
        ∧ (ok = true → t.boot = { s.boot with keys := true } ∧ t.stage = (if s.xtal = 2 then 3 else 2) ∧ s.bitsBut t [f_BOOT_STAGE_STAGE])
        ∧ (ok = false → t.boot = s.boot ∧ t.stage = 0xF ∧ t.get f_BOOT_STAGE_ERR = 1 ∧ s.bitsBut t [f_BOOT_STAGE_STAGE, f_BOOT_STAGE_ERR]))) :)
  ∧ (∀ (s : State) (a b : Bool), s.stage ≠ 3 ∨ s.boot.rstL = true ∨ s.boot.por = true → exec (.fwVerify a b) s = .next s :)
  ∧ (∀ (s : State) (a b : Bool), s.stage = 3 → s.boot.rstL = false → s.boot.por = false →
    let floor := max (if a then s.boot.flA.counter else 0) (if b then s.boot.flB.counter else 0)
    let good (f : Firmware) : Prop := f.sigOk = true ∧ floor ≤ f.sec
    let halts : Prop := ∀ e ∈ s.fwSlots, ¬good e.2
    let runs (t : State) (fl : Nat) (f : Firmware) : Prop := t.boot = { s.boot with floor := floor, run := some f } ∧ t.stage = 4 ∧ t.get f_BOOT_STAGE_FW_FLASH = fl
      ∧ t.get f_BOOT_FW_SEC_SEC_VERSION = f.sec % 2 ^ 32 ∧ t.get f_BOOT_STAGE_ERR = s.get f_BOOT_STAGE_ERR
    Runs (.fwVerify a b) s (fun t => s.onlyIn t { regs := true, flt := true, boot := true }
      ∧ s.bitsBut t [f_BOOT_STAGE_STAGE, f_BOOT_STAGE_ERR, f_BOOT_STAGE_FW_FLASH, f_BOOT_FW_SEC_SEC_VERSION, f_BOOT_STATUS_FW_FALLBACK, f_BOOT_STATUS_FLASH, f_BOOT_STATUS_FLASH.count]
      ∧ (a = true → b = true → t.flt = s.flt) ∧ (a = false ∨ b = false → t.get f_BOOT_STATUS_FLASH = 1 ∧ s.msg srcBoot 0x69 0 0 ∈ t.flt.inbox)
      ∧ (halts → t.boot = { s.boot with floor := floor } ∧ t.stage = 0xF ∧ t.get f_BOOT_STAGE_ERR = 2)
      ∧ (∀ fl f rest, s.fwSlots = (fl, f) :: rest → good f → runs t fl f ∧ t.get f_BOOT_STATUS_FW_FALLBACK = s.get f_BOOT_STATUS_FW_FALLBACK)
      ∧ (∀ e fl f, s.fwSlots = [e, (fl, f)] → ¬good e.2 → good f → runs t fl f ∧ t.get f_BOOT_STATUS_FW_FALLBACK = 1)) :)
  ∧ (∀ (s : State) (x y : Nat × Firmware), s.boot.flA.fw = some x → s.boot.flB.fw = some y →
      s.fwSlots = if y.1 ≤ x.1 then [(0, x.2), (1, y.2)] else [(1, y.2), (0, x.2)] :)
  ∧ (∀ (s : State) (dens : Fin 3) (bad : List (Fin 96)),
    (s.stage ≠ 4 ∨ s.boot.por = true → exec (.lpTrain dens bad) s = .next s)
    ∧ (s.stage = 4 → s.boot.por = false →
      let n := ((List.finRange 96).filter (fun c => !bad.contains c)).length
      Runs (.lpTrain dens bad) s (fun t => s.onlyIn t { regs := true, flt := true } ∧ t.stage = 5 ∧ t.get f_ID_MEMORY_PKG_DENSITY = dens.val ∧ t.get f_ID_MEMORY_TRAINED = 1
        ∧ t.get f_ID_MEMORY_CHANNELS = n ∧ t.get f_ID_MEMORY_CAP_GIB = n * (4 * 2 ^ dens.val)
        ∧ (∀ c : Fin 96, c.val ∈ t.channels ↔ c ∉ bad) ∧ (bad = [] → t.flt = s.flt)
        ∧ (∀ c ∈ bad, t.get f_MEM_STATUS_TRAIN_FAIL = 1 ∧ ∃ m ∈ t.flt.inbox, m.source = 0x200 + c.val / 4 ∧ m.kind = 0x2B ∧ m.aux = c.val)
        ∧ s.bitsBut t [f_BOOT_STAGE_STAGE, f_ID_MEMORY_PKG_DENSITY, f_ID_MEMORY_TRAINED, f_ID_MEMORY_CHANNELS, f_ID_MEMORY_CAP_GIB, .whole r_MEM_LP_MAP0, .whole r_MEM_LP_MAP1,
            .whole r_MEM_LP_MAP2, f_MEM_STATUS_TRAIN_FAIL, f_MEM_STATUS_TRAIN_FAIL.count])) :)
  ∧ (∀ (s : State) (arrays : List (Fin 72)) (cores : List (Fin 104)),
    (s.stage ≠ 5 ∨ s.boot.por = true → exec (.selfTest arrays cores) s = .next s)
    ∧ (s.stage = 5 → s.boot.por = false → Runs (.selfTest arrays cores) s (fun t => s.onlyIn t { regs := true, phys := true, mem := true } ∧ t.stage = 6
        ∧ (∀ p : Fin 72, t.physOf p = { s.physOf p with isolated := (s.physOf p).isolated || arrays.contains p })
        ∧ (∀ q ∈ cores, ∀ c, c < 96 → s.servedCore q.val = some c → t.get (f_SIG_CORE_ISOLATED c) = 1)
        ∧ (∀ a, t.readByte a = if a < 0x020000000000 then s.readByte a else 0)
        ∧ s.bitsBut t (f_BOOT_STAGE_STAGE :: (List.range 96).map f_SIG_CORE_ISOLATED))) :)
  ∧ (∀ s : State, (s.stage ≠ 6 ∨ s.boot.pick.isSome = true ∨ s.boot.por = true → exec .imgVerify s = .next s)
    ∧ (s.stage = 6 → s.boot.pick = none → s.boot.por = false → Runs .imgVerify s (fun t => s.onlyIn t { regs := true, flt := true, boot := true }
        ∧ (∀ pre e post, s.imgSlots = pre ++ e :: post → (∀ x ∈ pre, s.imageBad x.2.2 ≠ none) → s.imageBad e.2.2 = none →
            t.boot = { s.boot with pick := some (e.1, e.2.2) } ∧ t.stage = 6 ∧ (pre = [] → t.regs = s.regs ∧ t.flt = s.flt)
            ∧ (∀ x r, pre = [x] → s.imageBad x.2.2 = some r → t.get f_IMG_REFUSE_REASON = r.1 % 256 ∧ t.get f_IMG_REFUSE_SECTION = r.2 % 256 ∧ t.get f_IMG_REFUSE_OP = 0
                ∧ t.get f_IMG_STATUS_REFUSED = 1 ∧ s.sends t srcBoot 0x68 0 (r.1 + 256 * r.2)))
        ∧ ((∀ x ∈ s.imgSlots, s.imageBad x.2.2 ≠ none) → t.boot = s.boot ∧ t.stage = 0xE ∧ (s.imgSlots ≠ [] → t.get f_IMG_STATUS_REFUSED = 1)))) :)
  ∧ (∀ s : State, s.imgSlots.Pairwise (fun x y => y.2.1 < x.2.1 ∨ (y.2.1 = x.2.1 ∧ x.1 < y.1))
      ∧ ∀ k g i, (k, g, i) ∈ s.imgSlots ↔ k < 4 ∧ s.imgSlot k = some (g, i) :))

/-- R48, R561, R562, R566: the chosen image takes effect whole at a shutter; recovery out of HALT; the rollback floor only rises. R566 to
R570: deltas are verified or refused and take effect at their shutter; images and firmware are written to the slots that are not in use, one
after the other. Clauses may rest on choices of the model: log entries 16, 77 and 78. -/
def Obligations.ImagesAndDeltas : Prop :=
  ((∀ (s : State) (src : Option Int), s.boot.pick = none ∨ s.stage ≠ 6 ∨ s.boot.por = true ∨ s.flt.phase = .safelight → exec (.imageApply src) s = .next s :)
  ∧ (∀ (s : State) (src : Option Int) (slot : Nat) (g : Image), s.boot.pick = some (slot, g) → s.stage = 6 → s.boot.por = false → s.flt.phase ≠ .safelight →
    Runs (.imageApply src) s (fun t => t.valid = true ∧ t.stage = 7 ∧ t.img = some g ∧ t.chipId = g.chip % 4096 ∧ t.get f_HST_ROLE_MGR_PORT = g.mgrPort % 2
      ∧ t.get f_BOOT_STAGE_IMG_SLOT = slot % 4 ∧ t.get f_IMG_STATUS_APPLIED = 1 ∧ t.get f_IMG_INFO_STRUCT_EPOCH = g.structEpoch % 2 ^ 32
      ∧ t.get f_IMG_SEC_SEC_VERSION = g.secVersion % 2 ^ 32 ∧ t.get f_BOOT_TIME_MS_MS = min ((s.now - s.boot.resetNs) / 1000000) 65535
      ∧ (∀ i, i < 12 → t.reg (r_IMG_DIGEST i) = BitVec.ofNat 32 (digestWord g.hash i)) ∧ t.get f_AVL_RMT_STATE_SEPOCH = s.tim.tick % 2 ^ 16
      ∧ t.get f_CLK_SHT_CFG_PERIOD = g.period % 8 ∧ t.get f_CLK_SHT_CFG_FLOOR_OP = g.floorOp % 8 ∧ t.get f_CLK_SHT_CFG_APPLIED = 1
      ∧ (∀ w, w < 128 → t.get (f_TWN_CFG_EXISTS w) = (g.wins.any (fun x => x.win == w)).toNat) ∧ (∀ k ∈ g.comps, (t.comp k.1).st = .active)
      ∧ (∀ k, k < 256 → (∀ x ∈ g.kindPol, x.1 % 256 ≠ k) → t.reg (r_FLT_KIND_POL k) = 0x12)
      ∧ (∀ a, let own : Prop := ∃ b ∈ g.tables, b.1 ≤ a ∧ a < b.1 + b.2
          (own → t.readByte a = 0) ∧ (¬own → 0x018000000000 ≤ a → t.readByte a = s.readByte a)
          ∧ (¬own → a < 0x018000000000 → (if ∃ e ∈ s.mem, e.1 = a then ∃ k, t.readByte a = Config.freeByte k else t.readByte a = 0)))
      ∧ t.tim.srcValid = src.isSome ∧ t.flt.phase = t.phaseNow true ∧ t.pwr.tgt = t.targetOp
      ∧ t.tim.nextEdge = gridAfter t.tim.tb t.periodNs
      ∧ (src = none → t.tim.tb = s.tim.tb ∧ t.get f_CLK_TIME_STATE_STATE = s.get f_CLK_TIME_STATE_STATE)
      ∧ (∀ d : Int, src = some d → let e := s.ppsStep d
          (-1000000000 ≤ e → 0 ≤ (s.tim.tb : Int) + e → (t.tim.tb : Int) = s.tim.tb + e ∧ t.get f_CLK_TIME_STATE_STATE = 1 ∧ t.get f_CLK_SHT_STATUS_TIME_STEP = 1)
          ∧ (e < -1000000000 → t.tim.tb = s.tim.tb ∧ t.tim.refused = true ∧ t.get f_CLK_SHT_STATUS_STEP_REFUSED = 1))
      ∧ t.pending = s.pending ∧ t.clk = s.clk ∧ t.pins = s.pins ∧ t.phys = s.phys ∧ t.latch = s.latch ∧ t.grade56 = s.grade56 ∧ t.coreDis = s.coreDis ∧ t.syn = s.syn
      ∧ t.boot = { s.boot with resetNs := t.boot.resetNs } ∧ (src = none → t.boot = s.boot)) :)
  ∧ (∀ (s : State) (f : Firmware), (s.stage = 0xF ∧ f.sigOk = true ∧ s.boot.floor ≤ f.sec ∧ s.boot.por = false →
      Runs (.bootRecover f) s (fun t => ∃ n, (∀ x, s.boot.flA.fw = some x ∨ s.boot.flB.fw = some x → x.1 < n) ∧ t.boot.flA = { s.boot.flA with fw := some (n, f) }
        ∧ t.boot.flB = { s.boot.flB with fw := some (n, f) } ∧ t.get f_BOOT_STAGE_RESET_KIND = 1 ∧ t.stage = 3 ∧ t.boot.keys = s.boot.keys ∧ s.forgets t))
    ∧ (s.stage ≠ 0xF ∨ f.sigOk = false ∨ f.sec < s.boot.floor ∨ s.boot.por = true → exec (.bootRecover f) s = .next s) :)
  ∧ (∀ (s : State) (okA okB : Bool), s.live = true →
    let v := s.get f_BOOT_FLOOR_SET_VALUE
    let fits : Prop := (∃ f, s.boot.run = some f ∧ v ≤ f.sec) ∧ s.img.isSome = true ∧ v ≤ s.get f_IMG_SEC_SEC_VERSION
    let raised (ok : Bool) (f : Flash) : Flash := if ok then { f with counter := max f.counter v } else f
    (v ≤ s.boot.floor ∨ ¬fits → Runs (.floorRaise okA okB) s (fun t => s.onlyIn t { regs := true } ∧ t.get f_BOOT_FLOOR_GO_RESULT = 2 ∧ s.bitsBut t [f_BOOT_FLOOR_GO_RESULT]))
    ∧ (s.boot.floor < v → fits → Runs (.floorRaise okA okB) s (fun t => s.onlyIn t { regs := true, flt := true, boot := true }
        ∧ t.boot = { s.boot with flA := raised okA s.boot.flA, flB := raised okB s.boot.flB, floor := if okA || okB then v else s.boot.floor }
        ∧ (okA && okB → t.get f_BOOT_FLOOR_GO_RESULT = 1 ∧ t.get f_BOOT_STATUS_FLOOR_RAISED = 1 ∧ t.flt = s.flt
            ∧ s.bitsBut t [f_BOOT_FLOOR_GO_RESULT, f_BOOT_STATUS_FLOOR_RAISED, f_BOOT_STATUS_FLOOR_RAISED.count])
        ∧ (okA = false ∨ okB = false → t.get f_BOOT_FLOOR_GO_RESULT = 3 ∧ t.get f_BOOT_STATUS_FLASH = 1 ∧ s.msg srcBoot 0x69 0 0 ∈ t.flt.inbox
            ∧ s.bitsBut t [f_BOOT_FLOOR_GO_RESULT, f_BOOT_STATUS_FLASH, f_BOOT_STATUS_FLASH.count])
        ∧ (okA ≠ okB → s.sends t srcBoot 0x69 0 0))) :))
  ∧ (let refused (s t : State) (r : Nat × Nat) (op : Nat) : Prop := s.onlyIn t { regs := true, flt := true } ∧ t.get f_IMG_CMD_OP = op ∧ t.get f_IMG_REFUSE_REASON = r.1 % 256
    ∧ t.get f_IMG_REFUSE_SECTION = r.2 % 256 ∧ t.get f_IMG_REFUSE_OP = op ∧ t.get f_IMG_STATUS_REFUSED = 1 ∧ s.sends t srcBoot 0x68 0 (r.1 + 256 * r.2)
    ∧ s.bitsBut t [f_IMG_CMD_OP, f_IMG_REFUSE_REASON, f_IMG_REFUSE_SECTION, f_IMG_REFUSE_OP, f_IMG_STATUS_REFUSED, f_IMG_STATUS_REFUSED.count]
  let gen (s : State) (k : Nat) : Nat := match s.imgSlot k with | some (g, _) => g + 1 | none => 0
  (∀ (s : State) (g : Image), s.live = true →
    (s.stage ≠ 7 ∨ s.get f_IMG_CMD_BUSY = 1 → exec (.imgDelta g) s = .next (s.put f_IMG_CMD_OP 1))
    ∧ (s.stage = 7 → s.get f_IMG_CMD_BUSY = 0 →
      (s.deltaRefused g (s.get f_IMG_LEN_LEN) = none → Runs (.imgDelta g) s (fun t => s.onlyIn t { regs := true, boot := true }
          ∧ t.boot = { s.boot with delta := some (g, s.reg64 r_IMG_APPLY_LO, s.tim.expo) } ∧ t.get f_IMG_CMD_OP = 1 ∧ s.bitsBut t [f_IMG_CMD_OP]))
      ∧ (∀ r, s.deltaRefused g (s.get f_IMG_LEN_LEN) = some r → Runs (.imgDelta g) s (fun t => refused s t r 1))) :)
  ∧ (∀ s : State, s.live = true →
    (s.boot.delta = none ∨ s.img = none → exec .deltaApply s = .next s)
    ∧ (∀ d ap at_ b, s.boot.delta = some (d, ap, at_) → s.img = some b →
      (s.tim.expo ≤ at_ ∨ s.tim.tick < ap → exec .deltaApply s = .next s)
      ∧ (at_ < s.tim.expo → ap ≤ s.tim.tick → Runs .deltaApply s (fun t => t.img = some (b.merge d) ∧ t.get f_IMG_INFO_STRUCT_EPOCH = d.structEpoch % 2 ^ 32
          ∧ t.get f_IMG_STATUS_DELTA_APPLIED = 1 ∧ t.boot = { s.boot with delta := none, chain := sha384 (s.boot.chain ++ padTo 48 d.hash) }
          ∧ t.mem = s.mem ∧ t.pwr.tgt = t.targetOp ∧ (b.merge d).structEpoch = d.structEpoch
          ∧ (1 ∉ d.sections → 3 ∉ d.sections → s.records t 0x02 0 96 (padTo 48 d.hash ++ leBytes 4 d.structEpoch ++ leBytes 1 d.typ)))))
    ∧ (∀ (b d : Image), d.sections = [12] → b.merge d = { b with structEpoch := d.structEpoch, zs7Parts := d.zs7Parts, zs7Op := d.zs7Op }) :)
  ∧ (∀ (s : State) (g : Image) (f : Firmware), s.live = true →
    let may : Prop := (s.stage = 7 ∨ s.stage = 0xE) ∧ s.get f_IMG_CMD_BUSY = 0
    (¬may → exec (.imgWrite g) s = .next (s.put f_IMG_CMD_OP 2) ∧ exec (.fwWrite f) s = .next (s.put f_IMG_CMD_OP 3))
    ∧ (may → ∀ r, (s.firstChecks g 1 (s.get f_IMG_LEN_LEN)).findSome? id = some r → Runs (.imgWrite g) s (fun t => refused s t r 2))
    ∧ (may → (s.firstChecks g 1 (s.get f_IMG_LEN_LEN)).findSome? id = none → Runs (.imgWrite g) s (fun t => s.onlyIn t { regs := true, boot := true }
        ∧ t.get f_IMG_CMD_OP = 2 ∧ t.get f_IMG_CMD_BUSY = 1 ∧ s.bitsBut t [f_IMG_CMD_OP, f_IMG_CMD_BUSY]
        ∧ ∃ n todo, t.boot = { s.boot with job := some { img := some g, gen := n, todo := todo }, flA := t.boot.flA, flB := t.boot.flB } ∧ (∀ k, k < 4 → gen s k ≤ n)
          ∧ (∀ k ∈ todo, k < 4 ∧ ¬(s.stage = 7 ∧ s.get f_BOOT_STAGE_IMG_SLOT = k) ∧ gen s k ≤ gen s (k / 2 * 2 + (1 - k % 2)))
          ∧ (∀ k, k < 4 → t.imgSlot k = if todo.head? = some k then none else s.imgSlot k)
          ∧ t.boot.flA.fw = s.boot.flA.fw ∧ t.boot.flB.fw = s.boot.flB.fw ∧ t.boot.flA.counter = s.boot.flA.counter ∧ t.boot.flB.counter = s.boot.flB.counter))
    ∧ (may → Runs (.fwWrite f) s (fun t => s.onlyIn t { regs := true, boot := true } ∧ t.get f_IMG_CMD_OP = 3 ∧ t.get f_IMG_CMD_BUSY = 1 ∧ s.bitsBut t [f_IMG_CMD_OP, f_IMG_CMD_BUSY]
        ∧ ∃ n, (∀ x, s.boot.flA.fw = some x ∨ s.boot.flB.fw = some x → x.1 < n)
          ∧ (s.get f_BOOT_STAGE_FW_FLASH = 0 → t.boot = { s.boot with job := some { fw := some f, gen := n, todo := [5, 4] }, flB := { s.boot.flB with fw := none } })
          ∧ (s.get f_BOOT_STAGE_FW_FLASH = 1 → t.boot = { s.boot with job := some { fw := some f, gen := n, todo := [4, 5] }, flA := { s.boot.flA with fw := none } }))) :)
  ∧ (∀ (s : State) (fail : Bool), s.live = true →
    (s.boot.job = none → exec (.imgWriteComplete fail) s = .next s)
    ∧ (∀ j, s.boot.job = some j → j.todo = [] → Runs (.imgWriteComplete fail) s (fun t => s.onlyIn t { regs := true, boot := true } ∧ t.boot = { s.boot with job := none }
        ∧ t.get f_IMG_CMD_BUSY = 0 ∧ s.bitsBut t [f_IMG_CMD_BUSY]))
    ∧ (∀ j k rest, s.boot.job = some j → j.todo = k :: rest → Runs (.imgWriteComplete fail) s (fun t => s.onlyIn t { regs := true, flt := true, boot := true }
        ∧ (fail = false → t.flt = s.flt) ∧ (fail = true → t.get f_IMG_STATUS_WRITE_FAIL = 1 ∧ t.get f_BOOT_STATUS_FLASH = 1 ∧ s.sends t srcBoot 0x69 0 0)
        ∧ (rest = [] → t.boot.job = none ∧ t.get f_IMG_CMD_BUSY = 0 ∧ (j.ok || !fail → t.get f_IMG_STATUS_WRITTEN = 1)
            ∧ (j.ok = false → fail = true → t.get f_IMG_STATUS_WRITTEN = s.get f_IMG_STATUS_WRITTEN))
        ∧ (∀ k2 more, rest = k2 :: more → t.boot.job = some { j with todo := rest, ok := j.ok || !fail } ∧ t.get f_IMG_CMD_BUSY = 1 ∧ (k2 < 4 → t.imgSlot k2 = none))
        ∧ (∀ i, j.img = some i → k < 4 → rest.head? ≠ some k → t.imgSlot k = if fail then s.imgSlot k else some (j.gen, i))
        ∧ (∀ i, i < 4 → i ≠ k → rest.head? ≠ some i → t.imgSlot i = s.imgSlot i)
        ∧ (∀ f, j.fw = some f → k = 4 → rest.head? ≠ some 4 → fail = false → t.boot.flA.fw = some (j.gen, f))
        ∧ (∀ f, j.fw = some f → k = 5 → (∀ x ∈ rest, x < 5) → fail = false → t.boot.flB.fw = some (j.gen, f))
        ∧ s.bitsBut t [f_IMG_CMD_BUSY, f_IMG_STATUS_WRITTEN, f_IMG_STATUS_WRITTEN.count, f_IMG_STATUS_WRITE_FAIL, f_BOOT_STATUS_FLASH, f_BOOT_STATUS_FLASH.count])) :))

/-! Power, supplies and pins (chapter 19, R581 to R590; chapter 20, R608 to R610). -/

/-- R581 to R584: the target of the operating point, the order of frequency and voltage in a change, and the AVSBus. R585, R608 to R610: the
always-on domain takes the supply that holds, and the filter time of an input. Clauses may rest on choices of the model: log entries 79 and
81. -/
def Obligations.PowerAndSupplies : Prop :=
  (let asks (s : State) : Prop := s.pwr.seq = .idle ∧ s.targetOp ≠ s.curOp
  (∀ s : State, (s.valid = false → s.targetOp = 0)
    ∧ (s.valid = true → s.targetOp = max (s.get f_CLK_SHT_CFG_FLOOR_OP) (min (s.get f_PWR_OP_REQ) (min (s.get f_PWR_OP_CAP_THERM) (s.get f_PWR_OP_CAP_PWR)))) :)
  ∧ ((List.range 8).map opMHz = [600, 700, 800, 900, 1000, 1080, 1150, 1200] ∧ (List.range 8).map opMv = [600, 620, 645, 670, 700, 725, 760, 800])
  ∧ (∀ (s : State) (v : Fin 8), s.live = true → Runs (.pwrOpRequest v) s (fun t => s.onlyIn t { regs := true, pwr := true } ∧ s.bitsBut t [f_PWR_OP_REQ, f_PWR_OP_BUSY]
      ∧ t.get f_PWR_OP_REQ = v.val ∧ t.pwr.tgt = t.targetOp ∧ (t.get f_PWR_OP_BUSY = 0 ↔ t.pwr.seq = .idle)
      ∧ (s.pwr.seq = .idle → t.targetOp ≠ s.curOp → t.targetOp ≠ s.pwr.tgt ∨ s.pwr.gaveUp = false →
          t.pwr.seq = (if t.targetOp < s.curOp then .lowering else .raiseAsk) ∧ t.pwr.goal = t.targetOp ∧ t.pwr.since = s.tim.expo)
      ∧ (s.pwr.seq ≠ .idle ∨ t.targetOp = s.curOp → t.pwr.seq = s.pwr.seq ∧ t.pwr.goal = s.pwr.goal)) :)
  ∧ (∀ (s : State) (mv : BitVec 10) (locked : Bool), s.live = true →
    let k := s.pwr.goal
    (locked = false ∨ s.tim.expo ≤ s.pwr.since ∨ s.pwr.avsBad = true → exec (.opChange mv locked) s = .next s)
    ∧ (s.pwr.seq = .idle ∨ s.pwr.seq = .raiseAsk ∨ s.pwr.seq = .lowerVolt → exec (.opChange mv locked) s = .next s)
    ∧ (locked = true → s.pwr.since < s.tim.expo → s.pwr.avsBad = false →
      let ready : Prop := opMv k ≤ mv.toNat + 10 ∧ mv.toNat ≤ opMv k + 10 ∧ s.pwr.avs = none
      (s.pwr.seq = .lowering → Runs (.opChange mv locked) s (fun t => s.onlyIn t { regs := true, pwr := true, out := true } ∧ t.curOp = k % 8 ∧ t.get f_CLK_SHT_BUDGET_CUR_OP = k % 8
          ∧ t.pwr = { s.pwr with seq := .lowerVolt, avs := some (some (opMv k)), tries := 0 } ∧ t.out = s.out ++ [.avs (some (opMv k))]
          ∧ s.bitsBut t [f_PWR_OP_CUR, f_CLK_SHT_BUDGET_CUR_OP]))
      ∧ (s.pwr.seq = .raising → ¬ready → exec (.opChange mv locked) s = .next s)
      ∧ (s.pwr.seq = .raising → ready → Runs (.opChange mv locked) s (fun t => s.onlyIn t { regs := true, pwr := true } ∧ t.curOp = k % 8 ∧ t.get f_CLK_SHT_BUDGET_CUR_OP = k % 8
          ∧ t.pwr.tgt = t.targetOp ∧ (t.targetOp = k % 8 → t.pwr.seq = .idle ∧ t.get f_PWR_OP_BUSY = 0) ∧ s.bitsBut t [f_PWR_OP_CUR, f_CLK_SHT_BUDGET_CUR_OP, f_PWR_OP_BUSY]))) :)
  ∧ (∀ s : State, s.live = true →
    let due : Prop := s.pwr.seq = .raising ∧ s.pwr.since < s.tim.expo ∧ s.pwr.volt + s.get f_PWR_SEQ_CFG_SETTLE_US * 1000 ≤ s.tim.tb
    (¬due → exec .raiseSettleTimeout s = .next s)
    ∧ (due → Runs .raiseSettleTimeout s (fun t => s.onlyIn t { regs := true, flt := true, pwr := true, out := true } ∧ t.get f_PWR_STATUS_SEQ_FAIL = 1
        ∧ s.sends t srcPwr 0x63 0 0 ∧ t.out = s.out ++ [.avs (some (opMv s.curOp))] ∧ t.pwr.avs = some (some (opMv s.curOp)) ∧ t.pwr.tgt = t.targetOp
        ∧ (t.targetOp = s.pwr.tgt → t.pwr.seq = .idle ∧ t.pwr.gaveUp = true ∧ t.get f_PWR_OP_BUSY = 0)
        ∧ s.bitsBut t [f_PWR_STATUS_SEQ_FAIL, f_PWR_STATUS_SEQ_FAIL.count, f_PWR_OP_BUSY])) :)
  ∧ (∀ s : State, s.live = true →
    let cmd := s.pwr.avs.getD none
    (s.pwr.seq ≠ .lowerVolt → exec (.avsTransaction true) s = .next { s with pwr := { s.pwr with avs := none, tries := 0, avsBad := false } })
    ∧ (s.pwr.seq = .lowerVolt → Runs (.avsTransaction true) s (fun t => s.onlyIn t { regs := true, pwr := true } ∧ t.pwr.avs = none ∧ t.pwr.avsBad = false ∧ t.pwr.tries = 0
        ∧ t.pwr.tgt = t.targetOp ∧ (¬asks { s with pwr := { s.pwr with seq := .idle } } → t.pwr.seq = .idle ∧ t.get f_PWR_OP_BUSY = 0) ∧ s.bitsBut t [f_PWR_OP_BUSY]))
    ∧ (s.pwr.tries = 0 → exec (.avsTransaction false) s = .next { s with pwr := { s.pwr with avs := some cmd, tries := 1 }, out := s.out ++ [.avs cmd] })
    ∧ (s.pwr.tries ≠ 0 → Runs (.avsTransaction false) s (fun t => s.onlyIn t { regs := true, flt := true, pwr := true, out := true }
        ∧ t.pwr = { s.pwr with avs := some cmd, tries := 0, avsBad := true } ∧ t.get f_PWR_STATUS_AVS_ERR = 1 ∧ s.sends t srcPwr 0x63 0 0 ∧ t.out = s.out ++ [.avs cmd]
        ∧ s.bitsBut t [f_PWR_STATUS_AVS_ERR, f_PWR_STATUS_AVS_ERR.count])) :))
  ∧ ((∀ (s : State) (a b : Bool), s.boot.por = true → exec (.aonSupplySwitch a b) s = .next s ∧ exec .aonReturn s = .next s :)
  ∧ (∀ s : State, s.boot.por = false → exec (.aonSupplySwitch false false) s = exec .powerOnReset s :)
  ∧ (∀ (s : State) (a b : Bool), s.boot.por = false → a = true ∨ b = true →
    let onB := s.get f_PWR_AON_ACTIVE
    let moves : Prop := (onB = 0 ∧ a = false) ∨ (onB = 1 ∧ b = false)
    Runs (.aonSupplySwitch a b) s (fun t => s.onlyIn t { regs := true, flt := true } ∧ t.get f_PWR_AON_A_OK = a.toNat ∧ t.get f_PWR_AON_B_OK = b.toNat
      ∧ (moves → t.get f_PWR_AON_ACTIVE = 1 - onB ∧ t.get f_PWR_STATUS_AON_SWITCH = 1 ∧ s.sends t srcPwr 0x62 0 0
          ∧ s.bitsBut t [f_PWR_AON_A_OK, f_PWR_AON_B_OK, f_PWR_AON_ACTIVE, f_PWR_STATUS_AON_SWITCH, f_PWR_STATUS_AON_SWITCH.count])
      ∧ (¬moves → t.flt = s.flt ∧ s.bitsBut t [f_PWR_AON_A_OK, f_PWR_AON_B_OK])) :)
  ∧ (∀ s : State, s.boot.por = false → Runs .aonReturn s (fun t => s.onlyIn t { regs := true, flt := true } ∧ t.get f_PWR_AON_A_OK = 1 ∧ t.get f_PWR_AON_ACTIVE = 0
      ∧ (s.get f_PWR_AON_ACTIVE = 0 → t.flt = s.flt ∧ s.bitsBut t [f_PWR_AON_A_OK])
      ∧ (s.get f_PWR_AON_ACTIVE = 1 → t.get f_PWR_STATUS_AON_SWITCH = 1 ∧ s.sends t srcPwr 0x62 0 0
          ∧ s.bitsBut t [f_PWR_AON_A_OK, f_PWR_AON_ACTIVE, f_PWR_STATUS_AON_SWITCH, f_PWR_STATUS_AON_SWITCH.count])) :)
  ∧ (∀ (s : State) (v : BitVec 6), s.live = true →
    let i := s.get f_PWR_PIN_SEL_PIN
    (50 < v.toNat ∨ 9 ≤ i → exec (.pinFilterWrite v) s = .next s)
    ∧ (v.toNat ≤ 50 → i ≤ 8 → s.pins.units.length = 14 → Runs (.pinFilterWrite v) s (fun t => s.onlyIn t { pins := true } ∧ t.pins.x8 = s.pins.x8 ∧ t.pins.units.length = 14
        ∧ t.pins.units.getD i 0 = v.toNat ∧ ∀ k, k ≠ i → t.pins.units.getD k 0 = s.pins.units.getD k 0)) :))
end

