-- ==== Sys2Proof/Laws/Store.lean ====
section
/-! SUPPORT. The laws of the sparse tables and of bit fields: read after write, the canonical form is kept, equal reads make
equal tables. -/
namespace Sys2Proof.Machine

variable {α : Type}

@[simp] theorem sget_nil (d : α) (j : Nat) : sget d [] j = d := rfl

theorem sget_sdel_same (d : α) (m : SMap α) (j : Nat) : sget d (sdel m j) j = d := by
  induction m with
  | nil => rfl
  | cons e m ih =>
    obtain ⟨k, v⟩ := e
    by_cases h : j = k
    · subst h; simp [sdel, ih]
    · simp [sdel, h, sget, ih]

theorem sget_sdel_ne (d : α) (m : SMap α) (j i : Nat) (h : i ≠ j) : sget d (sdel m j) i = sget d m i := by
  induction m with
  | nil => rfl
  | cons e m ih =>
    obtain ⟨k, v⟩ := e
    by_cases hk : j = k
    · subst hk; simp [sdel, ih, sget, h]
    · by_cases hi : i = k <;> simp [sdel, hk, sget, hi, ih]

theorem sget_sins_same (d : α) (m : SMap α) (j : Nat) (x : α) (h : ∀ e ∈ m, e.1 ≠ j) : sget d (sins j x m) j = x := by
  induction m with
  | nil => simp [sins, sget]
  | cons e m ih =>
    obtain ⟨k, v⟩ := e
    have hk : k ≠ j := h (k, v) (by simp)
    by_cases hj : j < k
    · simp [sins, hj, sget]
    · simp [sins, hj, sget, Ne.symm hk, ih (fun e he => h e (by simp [he]))]

theorem sget_sins_ne (d : α) (m : SMap α) (j i : Nat) (x : α) (h : i ≠ j) : sget d (sins j x m) i = sget d m i := by
  induction m with
  | nil => simp [sins, sget, h]
  | cons e m ih =>
    obtain ⟨k, v⟩ := e
    by_cases hj : j < k
    · simp [sins, hj, sget, h]
    · by_cases hi : i = k <;> simp [sins, hj, sget, hi, ih]

theorem mem_sdel (m : SMap α) (j : Nat) (e : Nat × α) : e ∈ sdel m j ↔ e ∈ m ∧ e.1 ≠ j := by
  induction m with
  | nil => simp [sdel]
  | cons a m ih =>
    obtain ⟨k, v⟩ := a
    by_cases hk : j = k
    · subst hk
      simp only [sdel, ↓reduceIte, ih, List.mem_cons]
      constructor
      · rintro ⟨h1, h2⟩; exact ⟨Or.inr h1, h2⟩
      · rintro ⟨h1 | h1, h2⟩
        · subst h1; exact absurd rfl h2
        · exact ⟨h1, h2⟩
    · simp only [sdel, hk, ↓reduceIte, List.mem_cons, ih]
      constructor
      · rintro (h1 | ⟨h1, h2⟩)
        · subst h1; exact ⟨Or.inl rfl, Ne.symm hk⟩
        · exact ⟨Or.inr h1, h2⟩
      · rintro ⟨h1 | h1, h2⟩
        · exact Or.inl h1
        · exact Or.inr ⟨h1, h2⟩

theorem mem_sins (m : SMap α) (j : Nat) (x : α) (e : Nat × α) : e ∈ sins j x m ↔ e = (j, x) ∨ e ∈ m := by
  induction m with
  | nil => simp [sins]
  | cons a m ih =>
    obtain ⟨k, v⟩ := a
    by_cases hj : j < k
    · simp [sins, hj]
    · simp only [sins, hj, ↓reduceIte, List.mem_cons, ih]; tauto

variable [DecidableEq α]

/-- Reading the key that was written. -/
@[simp] theorem sget_sset_same (d : α) (m : SMap α) (j : Nat) (x : α) : sget d (sset d m j x) j = x := by
  unfold sset
  by_cases h : x = d
  · simp [h, sget_sdel_same]
  · simp only [h, ↓reduceIte]
    exact sget_sins_same d _ j x (fun e he => ((mem_sdel m j e).1 he).2)

/-- Reading another key than the one written. -/
theorem sget_sset_ne (d : α) (m : SMap α) (j i : Nat) (x : α) (h : i ≠ j) : sget d (sset d m j x) i = sget d m i := by
  unfold sset
  by_cases hx : x = d
  · simp [hx, sget_sdel_ne d m j i h]
  · simp [hx, sget_sins_ne d _ j i x h, sget_sdel_ne d m j i h]

theorem sget_sset (d : α) (m : SMap α) (j i : Nat) (x : α) : sget d (sset d m j x) i = if i = j then x else sget d m i := by
  by_cases h : i = j
  · subst h; simp
  · simp [h, sget_sset_ne d m j i x h]

@[simp] theorem sget_smod_same (d : α) (m : SMap α) (j : Nat) (f : α → α) : sget d (smod d m j f) j = f (sget d m j) := by simp [smod]

theorem sget_smod_ne (d : α) (m : SMap α) (j i : Nat) (f : α → α) (h : i ≠ j) : sget d (smod d m j f) i = sget d m i :=
  sget_sset_ne d m j i _ h

/-! The canonical form. -/

/-- The canonical form, as facts about the entries. -/
theorem swf_iff (d : α) (m : SMap α) : swf d m = true ↔ m.Pairwise (fun a b => a.1 < b.1) ∧ ∀ e ∈ m, e.2 ≠ d := by
  induction m with
  | nil => simp [swf]
  | cons e m ih =>
    obtain ⟨k, v⟩ := e
    simp only [swf, Bool.and_eq_true, decide_eq_true_eq, List.all_eq_true, ih, List.pairwise_cons, List.mem_cons, forall_eq_or_imp]
    tauto

omit [DecidableEq α] in
theorem rising_sdel (m : SMap α) (j : Nat) (h : m.Pairwise (fun a b => a.1 < b.1)) : (sdel m j).Pairwise (fun a b => a.1 < b.1) := by
  induction m with
  | nil => simp [sdel]
  | cons e m ih =>
    obtain ⟨k, v⟩ := e
    rw [List.pairwise_cons] at h
    by_cases hk : j = k
    · simpa [sdel, hk] using ih h.2
    · simp only [sdel, hk, ↓reduceIte, List.pairwise_cons]
      exact ⟨fun e he => h.1 e ((mem_sdel m j e).1 he).1, ih h.2⟩

omit [DecidableEq α] in
theorem rising_sins (m : SMap α) (j : Nat) (x : α) (hj : ∀ e ∈ m, e.1 ≠ j) (h : m.Pairwise (fun a b => a.1 < b.1)) :
    (sins j x m).Pairwise (fun a b => a.1 < b.1) := by
  induction m with
  | nil => simp [sins]
  | cons e m ih =>
    obtain ⟨k, v⟩ := e
    rw [List.pairwise_cons] at h
    have hk : k ≠ j := hj (k, v) (by simp)
    by_cases hlt : j < k
    · simp only [sins, hlt, ↓reduceIte, List.pairwise_cons, List.mem_cons, forall_eq_or_imp]
      exact ⟨⟨trivial, fun e he => lt_trans hlt (h.1 e he)⟩, h.1, h.2⟩
    · simp only [sins, hlt, ↓reduceIte, List.pairwise_cons]
      refine ⟨fun e he => ?_, ih (fun e he => hj e (by simp [he])) h.2⟩
      rcases (mem_sins m j x e).1 he with h1 | h1
      · subst h1; show k < j; omega
      · exact h.1 e h1

theorem swf_sdel (d : α) (m : SMap α) (j : Nat) (h : swf d m = true) : swf d (sdel m j) = true := by
  rw [swf_iff] at h ⊢
  exact ⟨rising_sdel m j h.1, fun e he => h.2 e ((mem_sdel m j e).1 he).1⟩

theorem swf_sins (d : α) (m : SMap α) (j : Nat) (x : α) (hx : x ≠ d) (hj : ∀ e ∈ m, e.1 ≠ j) (h : swf d m = true) :
    swf d (sins j x m) = true := by
  rw [swf_iff] at h ⊢
  refine ⟨rising_sins m j x hj h.1, fun e he => ?_⟩
  rcases (mem_sins m j x e).1 he with h1 | h1
  · subst h1; exact hx
  · exact h.2 e h1

/-- Setting a key keeps the canonical form. -/
theorem swf_sset (d : α) (m : SMap α) (j : Nat) (x : α) (h : swf d m = true) : swf d (sset d m j x) = true := by
  unfold sset
  by_cases hx : x = d
  · simpa [hx] using swf_sdel d m j h
  · simp only [hx, ↓reduceIte]
    exact swf_sins d _ j x hx (fun e he => ((mem_sdel m j e).1 he).2) (swf_sdel d m j h)

theorem swf_smod (d : α) (m : SMap α) (j : Nat) (f : α → α) (h : swf d m = true) : swf d (smod d m j f) = true :=
  swf_sset d m j _ h

/-- A part of a canonical table is canonical. -/
theorem swf_filter (d : α) (m : SMap α) (p : Nat × α → Bool) (h : swf d m = true) : swf d (m.filter p) = true := by
  rw [swf_iff] at h ⊢
  exact ⟨h.1.filter p, fun e he => h.2 e (List.mem_filter.1 he).1⟩

/-- Two canonical tables, the keys of the first below those of the second. -/
theorem swf_append (d : α) (m n : SMap α) (hm : swf d m = true) (hn : swf d n = true) (h : ∀ a ∈ m, ∀ b ∈ n, a.1 < b.1) :
    swf d (m ++ n) = true := by
  rw [swf_iff] at hm hn ⊢
  refine ⟨List.pairwise_append.2 ⟨hm.1, hn.1, h⟩, fun e he => ?_⟩
  rcases List.mem_append.1 he with h1 | h1
  · exact hm.2 e h1
  · exact hn.2 e h1

/-! Bit fields. -/

theorem bits_lt (x hi lo : Nat) : bits x hi lo < 2 ^ (hi + 1 - lo) := Nat.mod_lt _ (by positivity)

/-- A number as what lies below, in and above a field. -/
theorem bits_split (x hi lo : Nat) (h : lo ≤ hi) :
    x = x % 2 ^ lo + bits x hi lo * 2 ^ lo + x / 2 ^ (hi + 1) * 2 ^ (hi + 1) := by
  unfold bits
  have e : 2 ^ (hi + 1) = 2 ^ lo * 2 ^ (hi + 1 - lo) := by rw [← pow_add]; congr 1; omega
  rw [e, ← Nat.div_div_eq_div_mul]
  have h1 := Nat.div_add_mod x (2 ^ lo)
  have h2 := Nat.div_add_mod (x / 2 ^ lo) (2 ^ (hi + 1 - lo))
  calc x = 2 ^ lo * (x / 2 ^ lo) + x % 2 ^ lo := h1.symm
    _ = 2 ^ lo * (2 ^ (hi + 1 - lo) * (x / 2 ^ lo / 2 ^ (hi + 1 - lo)) + x / 2 ^ lo % 2 ^ (hi + 1 - lo)) + x % 2 ^ lo := by rw [h2]
    _ = _ := by ring

theorem setBits_eq (x hi lo v : Nat) (h : lo ≤ hi) :
    setBits x hi lo v = x % 2 ^ lo + (v % 2 ^ (hi + 1 - lo)) * 2 ^ lo + x / 2 ^ (hi + 1) * 2 ^ (hi + 1) := by
  have := bits_split x hi lo h
  unfold setBits
  omega

/-- Reading the field that was written. -/
theorem bits_setBits_same (x hi lo v : Nat) (h : lo ≤ hi) : bits (setBits x hi lo v) hi lo = v % 2 ^ (hi + 1 - lo) := by
  rw [setBits_eq x hi lo v h]
  unfold bits
  have e : 2 ^ (hi + 1) = 2 ^ (hi + 1 - lo) * 2 ^ lo := by rw [← pow_add]; congr 1; omega
  have hl : x % 2 ^ lo < 2 ^ lo := Nat.mod_lt _ (by positivity)
  have : x % 2 ^ lo + v % 2 ^ (hi + 1 - lo) * 2 ^ lo + x / 2 ^ (hi + 1) * 2 ^ (hi + 1)
      = x % 2 ^ lo + 2 ^ lo * (v % 2 ^ (hi + 1 - lo) + 2 ^ (hi + 1 - lo) * (x / 2 ^ (hi + 1))) := by rw [e]; ring
  rw [this, Nat.add_mul_div_left _ _ (by positivity), Nat.div_eq_of_lt hl, Nat.zero_add, Nat.add_mul_mod_self_left,
    Nat.mod_mod]

/-- Reading a field that shares no bit with the one written. -/
theorem bits_setBits_disj (x hi lo v hi' lo' : Nat) (h : lo ≤ hi) (h' : lo' ≤ hi') (hd : hi < lo' ∨ hi' < lo) :
    bits (setBits x hi lo v) hi' lo' = bits x hi' lo' := by
  have tb : ∀ y i, (bits y hi' lo').testBit i = (decide (i < hi' + 1 - lo') && y.testBit (i + lo')) := by
    intro y i
    unfold bits
    rw [Nat.testBit_mod_two_pow, ← Nat.shiftRight_eq_div_pow, Nat.testBit_shiftRight, Nat.add_comm lo']
  have key : ∀ j, (j < lo ∨ hi < j) → (setBits x hi lo v).testBit j = x.testBit j := by
    intro j hj
    have hw : v % 2 ^ (hi + 1 - lo) < 2 ^ (hi + 1 - lo) := Nat.mod_lt _ (by positivity)
    have e : 2 ^ (hi + 1) = 2 ^ (hi + 1 - lo) * 2 ^ lo := by rw [← pow_add]; congr 1; omega
    rw [setBits_eq x hi lo v h]
    rcases hj with hj | hj
    · have : x % 2 ^ lo + v % 2 ^ (hi + 1 - lo) * 2 ^ lo + x / 2 ^ (hi + 1) * 2 ^ (hi + 1)
          = 2 ^ lo * (v % 2 ^ (hi + 1 - lo) + 2 ^ (hi + 1 - lo) * (x / 2 ^ (hi + 1))) + x % 2 ^ lo := by rw [e]; ring
      rw [this, Nat.testBit_two_pow_mul_add _ (Nat.mod_lt _ (by positivity)), if_pos hj, Nat.testBit_mod_two_pow]
      simp [hj]
    · have hlt : x % 2 ^ lo + v % 2 ^ (hi + 1 - lo) * 2 ^ lo < 2 ^ (hi + 1) := by
        have h1 : x % 2 ^ lo < 2 ^ lo := Nat.mod_lt _ (by positivity)
        have h2 : v % 2 ^ (hi + 1 - lo) + 1 ≤ 2 ^ (hi + 1 - lo) := hw
        have h3 := Nat.mul_le_mul_right (2 ^ lo) h2
        rw [e]; nlinarith
      have : x % 2 ^ lo + v % 2 ^ (hi + 1 - lo) * 2 ^ lo + x / 2 ^ (hi + 1) * 2 ^ (hi + 1)
          = 2 ^ (hi + 1) * (x / 2 ^ (hi + 1)) + (x % 2 ^ lo + v % 2 ^ (hi + 1 - lo) * 2 ^ lo) := by ring
      rw [this, Nat.testBit_two_pow_mul_add _ hlt, if_neg (by omega), ← Nat.shiftRight_eq_div_pow, Nat.testBit_shiftRight]
      congr 1; omega
  apply Nat.eq_of_testBit_eq
  intro i
  rw [tb, tb]
  by_cases hi2 : i < hi' + 1 - lo'
  · rw [key (i + lo') (by omega)]
  · simp [hi2]

/-- A field written into a 32-bit word leaves a 32-bit word. -/
theorem setBits_lt (x hi lo v n : Nat) (h : lo ≤ hi) (hn : hi < n) (hx : x < 2 ^ n) : setBits x hi lo v < 2 ^ n := by
  rw [setBits_eq x hi lo v h]
  have e : 2 ^ (hi + 1) = 2 ^ (hi + 1 - lo) * 2 ^ lo := by rw [← pow_add]; congr 1; omega
  have e2 : 2 ^ n = 2 ^ (n - (hi + 1)) * 2 ^ (hi + 1) := by rw [← pow_add]; congr 1; omega
  have h1 : x % 2 ^ lo < 2 ^ lo := Nat.mod_lt _ (by positivity)
  have h2 : v % 2 ^ (hi + 1 - lo) + 1 ≤ 2 ^ (hi + 1 - lo) := Nat.mod_lt _ (by positivity)
  have h3 := Nat.mul_le_mul_right (2 ^ lo) h2
  have h4 : x / 2 ^ (hi + 1) + 1 ≤ 2 ^ (n - (hi + 1)) := by
    have : x / 2 ^ (hi + 1) < 2 ^ (n - (hi + 1)) := Nat.div_lt_of_lt_mul (by rw [Nat.mul_comm, ← e2]; exact hx)
    exact this
  have h5 := Nat.mul_le_mul_right (2 ^ (hi + 1)) h4
  rw [e2]; rw [e] at h5 ⊢; nlinarith

end Sys2Proof.Machine
end

