-- ==== Sys2Proof/Laws/State.lean ====
section
/-! SUPPORT. One lemma per field per update of the shared operations over State: what each leaves as it was (by rfl), and what
reading after it gives. -/
namespace Sys2Proof.Machine
open Sys2Proof

/-! What `setReg` leaves as it was. -/

@[simp] theorem State.setReg_mem (s : State) (off : Nat) (v : BitVec 32) : (s.setReg off v).mem = s.mem := rfl
@[simp] theorem State.setReg_latch (s : State) (off : Nat) (v : BitVec 32) : (s.setReg off v).latch = s.latch := rfl
@[simp] theorem State.setReg_flt (s : State) (off : Nat) (v : BitVec 32) : (s.setReg off v).flt = s.flt := rfl
@[simp] theorem State.setReg_tim (s : State) (off : Nat) (v : BitVec 32) : (s.setReg off v).tim = s.tim := rfl
@[simp] theorem State.setReg_arr (s : State) (off : Nat) (v : BitVec 32) : (s.setReg off v).arr = s.arr := rfl
@[simp] theorem State.setReg_die (s : State) (off : Nat) (v : BitVec 32) : (s.setReg off v).die = s.die := rfl
@[simp] theorem State.setReg_phys (s : State) (off : Nat) (v : BitVec 32) : (s.setReg off v).phys = s.phys := rfl
@[simp] theorem State.setReg_grade56 (s : State) (off : Nat) (v : BitVec 32) : (s.setReg off v).grade56 = s.grade56 := rfl
@[simp] theorem State.setReg_coreDis (s : State) (off : Nat) (v : BitVec 32) : (s.setReg off v).coreDis = s.coreDis := rfl
@[simp] theorem State.setReg_te (s : State) (off : Nat) (v : BitVec 32) : (s.setReg off v).te = s.te := rfl
@[simp] theorem State.setReg_ms (s : State) (off : Nat) (v : BitVec 32) : (s.setReg off v).ms = s.ms := rfl
@[simp] theorem State.setReg_net (s : State) (off : Nat) (v : BitVec 32) : (s.setReg off v).net = s.net := rfl
@[simp] theorem State.setReg_syn (s : State) (off : Nat) (v : BitVec 32) : (s.setReg off v).syn = s.syn := rfl
@[simp] theorem State.setReg_tm (s : State) (off : Nat) (v : BitVec 32) : (s.setReg off v).tm = s.tm := rfl
@[simp] theorem State.setReg_fh (s : State) (off : Nat) (v : BitVec 32) : (s.setReg off v).fh = s.fh := rfl
@[simp] theorem State.setReg_sig (s : State) (off : Nat) (v : BitVec 32) : (s.setReg off v).sig = s.sig := rfl
@[simp] theorem State.setReg_rad (s : State) (off : Nat) (v : BitVec 32) : (s.setReg off v).rad = s.rad := rfl
@[simp] theorem State.setReg_hst (s : State) (off : Nat) (v : BitVec 32) : (s.setReg off v).hst = s.hst := rfl
@[simp] theorem State.setReg_acct (s : State) (off : Nat) (v : BitVec 32) : (s.setReg off v).acct = s.acct := rfl
@[simp] theorem State.setReg_aud (s : State) (off : Nat) (v : BitVec 32) : (s.setReg off v).aud = s.aud := rfl
@[simp] theorem State.setReg_sp (s : State) (off : Nat) (v : BitVec 32) : (s.setReg off v).sp = s.sp := rfl
@[simp] theorem State.setReg_srv (s : State) (off : Nat) (v : BitVec 32) : (s.setReg off v).srv = s.srv := rfl
@[simp] theorem State.setReg_own (s : State) (off : Nat) (v : BitVec 32) : (s.setReg off v).own = s.own := rfl
@[simp] theorem State.setReg_boot (s : State) (off : Nat) (v : BitVec 32) : (s.setReg off v).boot = s.boot := rfl
@[simp] theorem State.setReg_clk (s : State) (off : Nat) (v : BitVec 32) : (s.setReg off v).clk = s.clk := rfl
@[simp] theorem State.setReg_pwr (s : State) (off : Nat) (v : BitVec 32) : (s.setReg off v).pwr = s.pwr := rfl
@[simp] theorem State.setReg_pins (s : State) (off : Nat) (v : BitVec 32) : (s.setReg off v).pins = s.pins := rfl
@[simp] theorem State.setReg_img (s : State) (off : Nat) (v : BitVec 32) : (s.setReg off v).img = s.img := rfl
@[simp] theorem State.setReg_out (s : State) (off : Nat) (v : BitVec 32) : (s.setReg off v).out = s.out := rfl
@[simp] theorem State.setReg_free (s : State) (off : Nat) (v : BitVec 32) : (s.setReg off v).free = s.free := rfl
@[simp] theorem State.setReg_pending (s : State) (off : Nat) (v : BitVec 32) : (s.setReg off v).pending = s.pending := rfl
@[simp] theorem State.setReg_readByte_ (s : State) (off : Nat) (v : BitVec 32) (y : Nat) : (s.setReg off v).readByte y = s.readByte y := rfl
@[simp] theorem State.setReg_live_ (s : State) (off : Nat) (v : BitVec 32) : (s.setReg off v).live = s.live := rfl
@[simp] theorem State.setReg_arrOf_ (s : State) (off : Nat) (v : BitVec 32) (j : Nat) : (s.setReg off v).arrOf j = s.arrOf j := rfl
@[simp] theorem State.setReg_src_ (s : State) (off : Nat) (v : BitVec 32) (j : Nat) : (s.setReg off v).src j = s.src j := rfl

/-! What `put` leaves as it was. -/

@[simp] theorem State.put_mem (s : State) (f : FRef) (v : Nat) : (s.put f v).mem = s.mem := rfl
@[simp] theorem State.put_latch (s : State) (f : FRef) (v : Nat) : (s.put f v).latch = s.latch := rfl
@[simp] theorem State.put_flt (s : State) (f : FRef) (v : Nat) : (s.put f v).flt = s.flt := rfl
@[simp] theorem State.put_tim (s : State) (f : FRef) (v : Nat) : (s.put f v).tim = s.tim := rfl
@[simp] theorem State.put_arr (s : State) (f : FRef) (v : Nat) : (s.put f v).arr = s.arr := rfl
@[simp] theorem State.put_die (s : State) (f : FRef) (v : Nat) : (s.put f v).die = s.die := rfl
@[simp] theorem State.put_phys (s : State) (f : FRef) (v : Nat) : (s.put f v).phys = s.phys := rfl
@[simp] theorem State.put_grade56 (s : State) (f : FRef) (v : Nat) : (s.put f v).grade56 = s.grade56 := rfl
@[simp] theorem State.put_coreDis (s : State) (f : FRef) (v : Nat) : (s.put f v).coreDis = s.coreDis := rfl
@[simp] theorem State.put_te (s : State) (f : FRef) (v : Nat) : (s.put f v).te = s.te := rfl
@[simp] theorem State.put_ms (s : State) (f : FRef) (v : Nat) : (s.put f v).ms = s.ms := rfl
@[simp] theorem State.put_net (s : State) (f : FRef) (v : Nat) : (s.put f v).net = s.net := rfl
@[simp] theorem State.put_syn (s : State) (f : FRef) (v : Nat) : (s.put f v).syn = s.syn := rfl
@[simp] theorem State.put_tm (s : State) (f : FRef) (v : Nat) : (s.put f v).tm = s.tm := rfl
@[simp] theorem State.put_fh (s : State) (f : FRef) (v : Nat) : (s.put f v).fh = s.fh := rfl
@[simp] theorem State.put_sig (s : State) (f : FRef) (v : Nat) : (s.put f v).sig = s.sig := rfl
@[simp] theorem State.put_rad (s : State) (f : FRef) (v : Nat) : (s.put f v).rad = s.rad := rfl
@[simp] theorem State.put_hst (s : State) (f : FRef) (v : Nat) : (s.put f v).hst = s.hst := rfl
@[simp] theorem State.put_acct (s : State) (f : FRef) (v : Nat) : (s.put f v).acct = s.acct := rfl
@[simp] theorem State.put_aud (s : State) (f : FRef) (v : Nat) : (s.put f v).aud = s.aud := rfl
@[simp] theorem State.put_sp (s : State) (f : FRef) (v : Nat) : (s.put f v).sp = s.sp := rfl
@[simp] theorem State.put_srv (s : State) (f : FRef) (v : Nat) : (s.put f v).srv = s.srv := rfl
@[simp] theorem State.put_own (s : State) (f : FRef) (v : Nat) : (s.put f v).own = s.own := rfl
@[simp] theorem State.put_boot (s : State) (f : FRef) (v : Nat) : (s.put f v).boot = s.boot := rfl
@[simp] theorem State.put_clk (s : State) (f : FRef) (v : Nat) : (s.put f v).clk = s.clk := rfl
@[simp] theorem State.put_pwr (s : State) (f : FRef) (v : Nat) : (s.put f v).pwr = s.pwr := rfl
@[simp] theorem State.put_pins (s : State) (f : FRef) (v : Nat) : (s.put f v).pins = s.pins := rfl
@[simp] theorem State.put_img (s : State) (f : FRef) (v : Nat) : (s.put f v).img = s.img := rfl
@[simp] theorem State.put_out (s : State) (f : FRef) (v : Nat) : (s.put f v).out = s.out := rfl
@[simp] theorem State.put_free (s : State) (f : FRef) (v : Nat) : (s.put f v).free = s.free := rfl
@[simp] theorem State.put_pending (s : State) (f : FRef) (v : Nat) : (s.put f v).pending = s.pending := rfl
@[simp] theorem State.put_readByte_ (s : State) (f : FRef) (v : Nat) (y : Nat) : (s.put f v).readByte y = s.readByte y := rfl
@[simp] theorem State.put_live_ (s : State) (f : FRef) (v : Nat) : (s.put f v).live = s.live := rfl
@[simp] theorem State.put_arrOf_ (s : State) (f : FRef) (v : Nat) (j : Nat) : (s.put f v).arrOf j = s.arrOf j := rfl
@[simp] theorem State.put_src_ (s : State) (f : FRef) (v : Nat) (j : Nat) : (s.put f v).src j = s.src j := rfl

/-! What `putB` leaves as it was. -/

@[simp] theorem State.putB_mem (s : State) (f : FRef) (b : Bool) : (s.putB f b).mem = s.mem := rfl
@[simp] theorem State.putB_latch (s : State) (f : FRef) (b : Bool) : (s.putB f b).latch = s.latch := rfl
@[simp] theorem State.putB_flt (s : State) (f : FRef) (b : Bool) : (s.putB f b).flt = s.flt := rfl
@[simp] theorem State.putB_tim (s : State) (f : FRef) (b : Bool) : (s.putB f b).tim = s.tim := rfl
@[simp] theorem State.putB_arr (s : State) (f : FRef) (b : Bool) : (s.putB f b).arr = s.arr := rfl
@[simp] theorem State.putB_die (s : State) (f : FRef) (b : Bool) : (s.putB f b).die = s.die := rfl
@[simp] theorem State.putB_phys (s : State) (f : FRef) (b : Bool) : (s.putB f b).phys = s.phys := rfl
@[simp] theorem State.putB_grade56 (s : State) (f : FRef) (b : Bool) : (s.putB f b).grade56 = s.grade56 := rfl
@[simp] theorem State.putB_coreDis (s : State) (f : FRef) (b : Bool) : (s.putB f b).coreDis = s.coreDis := rfl
@[simp] theorem State.putB_te (s : State) (f : FRef) (b : Bool) : (s.putB f b).te = s.te := rfl
@[simp] theorem State.putB_ms (s : State) (f : FRef) (b : Bool) : (s.putB f b).ms = s.ms := rfl
@[simp] theorem State.putB_net (s : State) (f : FRef) (b : Bool) : (s.putB f b).net = s.net := rfl
@[simp] theorem State.putB_syn (s : State) (f : FRef) (b : Bool) : (s.putB f b).syn = s.syn := rfl
@[simp] theorem State.putB_tm (s : State) (f : FRef) (b : Bool) : (s.putB f b).tm = s.tm := rfl
@[simp] theorem State.putB_fh (s : State) (f : FRef) (b : Bool) : (s.putB f b).fh = s.fh := rfl
@[simp] theorem State.putB_sig (s : State) (f : FRef) (b : Bool) : (s.putB f b).sig = s.sig := rfl
@[simp] theorem State.putB_rad (s : State) (f : FRef) (b : Bool) : (s.putB f b).rad = s.rad := rfl
@[simp] theorem State.putB_hst (s : State) (f : FRef) (b : Bool) : (s.putB f b).hst = s.hst := rfl
@[simp] theorem State.putB_acct (s : State) (f : FRef) (b : Bool) : (s.putB f b).acct = s.acct := rfl
@[simp] theorem State.putB_aud (s : State) (f : FRef) (b : Bool) : (s.putB f b).aud = s.aud := rfl
@[simp] theorem State.putB_sp (s : State) (f : FRef) (b : Bool) : (s.putB f b).sp = s.sp := rfl
@[simp] theorem State.putB_srv (s : State) (f : FRef) (b : Bool) : (s.putB f b).srv = s.srv := rfl
@[simp] theorem State.putB_own (s : State) (f : FRef) (b : Bool) : (s.putB f b).own = s.own := rfl
@[simp] theorem State.putB_boot (s : State) (f : FRef) (b : Bool) : (s.putB f b).boot = s.boot := rfl
@[simp] theorem State.putB_clk (s : State) (f : FRef) (b : Bool) : (s.putB f b).clk = s.clk := rfl
@[simp] theorem State.putB_pwr (s : State) (f : FRef) (b : Bool) : (s.putB f b).pwr = s.pwr := rfl
@[simp] theorem State.putB_pins (s : State) (f : FRef) (b : Bool) : (s.putB f b).pins = s.pins := rfl
@[simp] theorem State.putB_img (s : State) (f : FRef) (b : Bool) : (s.putB f b).img = s.img := rfl
@[simp] theorem State.putB_out (s : State) (f : FRef) (b : Bool) : (s.putB f b).out = s.out := rfl
@[simp] theorem State.putB_free (s : State) (f : FRef) (b : Bool) : (s.putB f b).free = s.free := rfl
@[simp] theorem State.putB_pending (s : State) (f : FRef) (b : Bool) : (s.putB f b).pending = s.pending := rfl
@[simp] theorem State.putB_readByte_ (s : State) (f : FRef) (b : Bool) (y : Nat) : (s.putB f b).readByte y = s.readByte y := rfl
@[simp] theorem State.putB_live_ (s : State) (f : FRef) (b : Bool) : (s.putB f b).live = s.live := rfl
@[simp] theorem State.putB_arrOf_ (s : State) (f : FRef) (b : Bool) (j : Nat) : (s.putB f b).arrOf j = s.arrOf j := rfl
@[simp] theorem State.putB_src_ (s : State) (f : FRef) (b : Bool) (j : Nat) : (s.putB f b).src j = s.src j := rfl

/-! What `bumpBy` leaves as it was. -/

@[simp] theorem State.bumpBy_mem (s : State) (f : FRef) (n : Nat) : (s.bumpBy f n).mem = s.mem := rfl
@[simp] theorem State.bumpBy_latch (s : State) (f : FRef) (n : Nat) : (s.bumpBy f n).latch = s.latch := rfl
@[simp] theorem State.bumpBy_flt (s : State) (f : FRef) (n : Nat) : (s.bumpBy f n).flt = s.flt := rfl
@[simp] theorem State.bumpBy_tim (s : State) (f : FRef) (n : Nat) : (s.bumpBy f n).tim = s.tim := rfl
@[simp] theorem State.bumpBy_arr (s : State) (f : FRef) (n : Nat) : (s.bumpBy f n).arr = s.arr := rfl
@[simp] theorem State.bumpBy_die (s : State) (f : FRef) (n : Nat) : (s.bumpBy f n).die = s.die := rfl
@[simp] theorem State.bumpBy_phys (s : State) (f : FRef) (n : Nat) : (s.bumpBy f n).phys = s.phys := rfl
@[simp] theorem State.bumpBy_grade56 (s : State) (f : FRef) (n : Nat) : (s.bumpBy f n).grade56 = s.grade56 := rfl
@[simp] theorem State.bumpBy_coreDis (s : State) (f : FRef) (n : Nat) : (s.bumpBy f n).coreDis = s.coreDis := rfl
@[simp] theorem State.bumpBy_te (s : State) (f : FRef) (n : Nat) : (s.bumpBy f n).te = s.te := rfl
@[simp] theorem State.bumpBy_ms (s : State) (f : FRef) (n : Nat) : (s.bumpBy f n).ms = s.ms := rfl
@[simp] theorem State.bumpBy_net (s : State) (f : FRef) (n : Nat) : (s.bumpBy f n).net = s.net := rfl
@[simp] theorem State.bumpBy_syn (s : State) (f : FRef) (n : Nat) : (s.bumpBy f n).syn = s.syn := rfl
@[simp] theorem State.bumpBy_tm (s : State) (f : FRef) (n : Nat) : (s.bumpBy f n).tm = s.tm := rfl
@[simp] theorem State.bumpBy_fh (s : State) (f : FRef) (n : Nat) : (s.bumpBy f n).fh = s.fh := rfl
@[simp] theorem State.bumpBy_sig (s : State) (f : FRef) (n : Nat) : (s.bumpBy f n).sig = s.sig := rfl
@[simp] theorem State.bumpBy_rad (s : State) (f : FRef) (n : Nat) : (s.bumpBy f n).rad = s.rad := rfl
@[simp] theorem State.bumpBy_hst (s : State) (f : FRef) (n : Nat) : (s.bumpBy f n).hst = s.hst := rfl
@[simp] theorem State.bumpBy_acct (s : State) (f : FRef) (n : Nat) : (s.bumpBy f n).acct = s.acct := rfl
@[simp] theorem State.bumpBy_aud (s : State) (f : FRef) (n : Nat) : (s.bumpBy f n).aud = s.aud := rfl
@[simp] theorem State.bumpBy_sp (s : State) (f : FRef) (n : Nat) : (s.bumpBy f n).sp = s.sp := rfl
@[simp] theorem State.bumpBy_srv (s : State) (f : FRef) (n : Nat) : (s.bumpBy f n).srv = s.srv := rfl
@[simp] theorem State.bumpBy_own (s : State) (f : FRef) (n : Nat) : (s.bumpBy f n).own = s.own := rfl
@[simp] theorem State.bumpBy_boot (s : State) (f : FRef) (n : Nat) : (s.bumpBy f n).boot = s.boot := rfl
@[simp] theorem State.bumpBy_clk (s : State) (f : FRef) (n : Nat) : (s.bumpBy f n).clk = s.clk := rfl
@[simp] theorem State.bumpBy_pwr (s : State) (f : FRef) (n : Nat) : (s.bumpBy f n).pwr = s.pwr := rfl
@[simp] theorem State.bumpBy_pins (s : State) (f : FRef) (n : Nat) : (s.bumpBy f n).pins = s.pins := rfl
@[simp] theorem State.bumpBy_img (s : State) (f : FRef) (n : Nat) : (s.bumpBy f n).img = s.img := rfl
@[simp] theorem State.bumpBy_out (s : State) (f : FRef) (n : Nat) : (s.bumpBy f n).out = s.out := rfl
@[simp] theorem State.bumpBy_free (s : State) (f : FRef) (n : Nat) : (s.bumpBy f n).free = s.free := rfl
@[simp] theorem State.bumpBy_pending (s : State) (f : FRef) (n : Nat) : (s.bumpBy f n).pending = s.pending := rfl
@[simp] theorem State.bumpBy_readByte_ (s : State) (f : FRef) (n : Nat) (y : Nat) : (s.bumpBy f n).readByte y = s.readByte y := rfl
@[simp] theorem State.bumpBy_live_ (s : State) (f : FRef) (n : Nat) : (s.bumpBy f n).live = s.live := rfl
@[simp] theorem State.bumpBy_arrOf_ (s : State) (f : FRef) (n : Nat) (j : Nat) : (s.bumpBy f n).arrOf j = s.arrOf j := rfl
@[simp] theorem State.bumpBy_src_ (s : State) (f : FRef) (n : Nat) (j : Nat) : (s.bumpBy f n).src j = s.src j := rfl

/-! What `bump` leaves as it was. -/

@[simp] theorem State.bump_mem (s : State) (f : FRef) : (s.bump f).mem = s.mem := rfl
@[simp] theorem State.bump_latch (s : State) (f : FRef) : (s.bump f).latch = s.latch := rfl
@[simp] theorem State.bump_flt (s : State) (f : FRef) : (s.bump f).flt = s.flt := rfl
@[simp] theorem State.bump_tim (s : State) (f : FRef) : (s.bump f).tim = s.tim := rfl
@[simp] theorem State.bump_arr (s : State) (f : FRef) : (s.bump f).arr = s.arr := rfl
@[simp] theorem State.bump_die (s : State) (f : FRef) : (s.bump f).die = s.die := rfl
@[simp] theorem State.bump_phys (s : State) (f : FRef) : (s.bump f).phys = s.phys := rfl
@[simp] theorem State.bump_grade56 (s : State) (f : FRef) : (s.bump f).grade56 = s.grade56 := rfl
@[simp] theorem State.bump_coreDis (s : State) (f : FRef) : (s.bump f).coreDis = s.coreDis := rfl
@[simp] theorem State.bump_te (s : State) (f : FRef) : (s.bump f).te = s.te := rfl
@[simp] theorem State.bump_ms (s : State) (f : FRef) : (s.bump f).ms = s.ms := rfl
@[simp] theorem State.bump_net (s : State) (f : FRef) : (s.bump f).net = s.net := rfl
@[simp] theorem State.bump_syn (s : State) (f : FRef) : (s.bump f).syn = s.syn := rfl
@[simp] theorem State.bump_tm (s : State) (f : FRef) : (s.bump f).tm = s.tm := rfl
@[simp] theorem State.bump_fh (s : State) (f : FRef) : (s.bump f).fh = s.fh := rfl
@[simp] theorem State.bump_sig (s : State) (f : FRef) : (s.bump f).sig = s.sig := rfl
@[simp] theorem State.bump_rad (s : State) (f : FRef) : (s.bump f).rad = s.rad := rfl
@[simp] theorem State.bump_hst (s : State) (f : FRef) : (s.bump f).hst = s.hst := rfl
@[simp] theorem State.bump_acct (s : State) (f : FRef) : (s.bump f).acct = s.acct := rfl
@[simp] theorem State.bump_aud (s : State) (f : FRef) : (s.bump f).aud = s.aud := rfl
@[simp] theorem State.bump_sp (s : State) (f : FRef) : (s.bump f).sp = s.sp := rfl
@[simp] theorem State.bump_srv (s : State) (f : FRef) : (s.bump f).srv = s.srv := rfl
@[simp] theorem State.bump_own (s : State) (f : FRef) : (s.bump f).own = s.own := rfl
@[simp] theorem State.bump_boot (s : State) (f : FRef) : (s.bump f).boot = s.boot := rfl
@[simp] theorem State.bump_clk (s : State) (f : FRef) : (s.bump f).clk = s.clk := rfl
@[simp] theorem State.bump_pwr (s : State) (f : FRef) : (s.bump f).pwr = s.pwr := rfl
@[simp] theorem State.bump_pins (s : State) (f : FRef) : (s.bump f).pins = s.pins := rfl
@[simp] theorem State.bump_img (s : State) (f : FRef) : (s.bump f).img = s.img := rfl
@[simp] theorem State.bump_out (s : State) (f : FRef) : (s.bump f).out = s.out := rfl
@[simp] theorem State.bump_free (s : State) (f : FRef) : (s.bump f).free = s.free := rfl
@[simp] theorem State.bump_pending (s : State) (f : FRef) : (s.bump f).pending = s.pending := rfl
@[simp] theorem State.bump_readByte_ (s : State) (f : FRef) (y : Nat) : (s.bump f).readByte y = s.readByte y := rfl
@[simp] theorem State.bump_live_ (s : State) (f : FRef) : (s.bump f).live = s.live := rfl
@[simp] theorem State.bump_arrOf_ (s : State) (f : FRef) (j : Nat) : (s.bump f).arrOf j = s.arrOf j := rfl
@[simp] theorem State.bump_src_ (s : State) (f : FRef) (j : Nat) : (s.bump f).src j = s.src j := rfl

/-! What `bump64` leaves as it was. -/

@[simp] theorem State.bump64_mem (s : State) (lo n : Nat) : (s.bump64 lo n).mem = s.mem := rfl
@[simp] theorem State.bump64_latch (s : State) (lo n : Nat) : (s.bump64 lo n).latch = s.latch := rfl
@[simp] theorem State.bump64_flt (s : State) (lo n : Nat) : (s.bump64 lo n).flt = s.flt := rfl
@[simp] theorem State.bump64_tim (s : State) (lo n : Nat) : (s.bump64 lo n).tim = s.tim := rfl
@[simp] theorem State.bump64_arr (s : State) (lo n : Nat) : (s.bump64 lo n).arr = s.arr := rfl
@[simp] theorem State.bump64_die (s : State) (lo n : Nat) : (s.bump64 lo n).die = s.die := rfl
@[simp] theorem State.bump64_phys (s : State) (lo n : Nat) : (s.bump64 lo n).phys = s.phys := rfl
@[simp] theorem State.bump64_grade56 (s : State) (lo n : Nat) : (s.bump64 lo n).grade56 = s.grade56 := rfl
@[simp] theorem State.bump64_coreDis (s : State) (lo n : Nat) : (s.bump64 lo n).coreDis = s.coreDis := rfl
@[simp] theorem State.bump64_te (s : State) (lo n : Nat) : (s.bump64 lo n).te = s.te := rfl
@[simp] theorem State.bump64_ms (s : State) (lo n : Nat) : (s.bump64 lo n).ms = s.ms := rfl
@[simp] theorem State.bump64_net (s : State) (lo n : Nat) : (s.bump64 lo n).net = s.net := rfl
@[simp] theorem State.bump64_syn (s : State) (lo n : Nat) : (s.bump64 lo n).syn = s.syn := rfl
@[simp] theorem State.bump64_tm (s : State) (lo n : Nat) : (s.bump64 lo n).tm = s.tm := rfl
@[simp] theorem State.bump64_fh (s : State) (lo n : Nat) : (s.bump64 lo n).fh = s.fh := rfl
@[simp] theorem State.bump64_sig (s : State) (lo n : Nat) : (s.bump64 lo n).sig = s.sig := rfl
@[simp] theorem State.bump64_rad (s : State) (lo n : Nat) : (s.bump64 lo n).rad = s.rad := rfl
@[simp] theorem State.bump64_hst (s : State) (lo n : Nat) : (s.bump64 lo n).hst = s.hst := rfl
@[simp] theorem State.bump64_acct (s : State) (lo n : Nat) : (s.bump64 lo n).acct = s.acct := rfl
@[simp] theorem State.bump64_aud (s : State) (lo n : Nat) : (s.bump64 lo n).aud = s.aud := rfl
@[simp] theorem State.bump64_sp (s : State) (lo n : Nat) : (s.bump64 lo n).sp = s.sp := rfl
@[simp] theorem State.bump64_srv (s : State) (lo n : Nat) : (s.bump64 lo n).srv = s.srv := rfl
@[simp] theorem State.bump64_own (s : State) (lo n : Nat) : (s.bump64 lo n).own = s.own := rfl
@[simp] theorem State.bump64_boot (s : State) (lo n : Nat) : (s.bump64 lo n).boot = s.boot := rfl
@[simp] theorem State.bump64_clk (s : State) (lo n : Nat) : (s.bump64 lo n).clk = s.clk := rfl
@[simp] theorem State.bump64_pwr (s : State) (lo n : Nat) : (s.bump64 lo n).pwr = s.pwr := rfl
@[simp] theorem State.bump64_pins (s : State) (lo n : Nat) : (s.bump64 lo n).pins = s.pins := rfl
@[simp] theorem State.bump64_img (s : State) (lo n : Nat) : (s.bump64 lo n).img = s.img := rfl
@[simp] theorem State.bump64_out (s : State) (lo n : Nat) : (s.bump64 lo n).out = s.out := rfl
@[simp] theorem State.bump64_free (s : State) (lo n : Nat) : (s.bump64 lo n).free = s.free := rfl
@[simp] theorem State.bump64_pending (s : State) (lo n : Nat) : (s.bump64 lo n).pending = s.pending := rfl
@[simp] theorem State.bump64_readByte_ (s : State) (lo n : Nat) (y : Nat) : (s.bump64 lo n).readByte y = s.readByte y := rfl
@[simp] theorem State.bump64_live_ (s : State) (lo n : Nat) : (s.bump64 lo n).live = s.live := rfl
@[simp] theorem State.bump64_arrOf_ (s : State) (lo n : Nat) (j : Nat) : (s.bump64 lo n).arrOf j = s.arrOf j := rfl
@[simp] theorem State.bump64_src_ (s : State) (lo n : Nat) (j : Nat) : (s.bump64 lo n).src j = s.src j := rfl

/-! What `setReg64` leaves as it was. -/

@[simp] theorem State.setReg64_mem (s : State) (lo v : Nat) : (s.setReg64 lo v).mem = s.mem := rfl
@[simp] theorem State.setReg64_latch (s : State) (lo v : Nat) : (s.setReg64 lo v).latch = s.latch := rfl
@[simp] theorem State.setReg64_flt (s : State) (lo v : Nat) : (s.setReg64 lo v).flt = s.flt := rfl
@[simp] theorem State.setReg64_tim (s : State) (lo v : Nat) : (s.setReg64 lo v).tim = s.tim := rfl
@[simp] theorem State.setReg64_arr (s : State) (lo v : Nat) : (s.setReg64 lo v).arr = s.arr := rfl
@[simp] theorem State.setReg64_die (s : State) (lo v : Nat) : (s.setReg64 lo v).die = s.die := rfl
@[simp] theorem State.setReg64_phys (s : State) (lo v : Nat) : (s.setReg64 lo v).phys = s.phys := rfl
@[simp] theorem State.setReg64_grade56 (s : State) (lo v : Nat) : (s.setReg64 lo v).grade56 = s.grade56 := rfl
@[simp] theorem State.setReg64_coreDis (s : State) (lo v : Nat) : (s.setReg64 lo v).coreDis = s.coreDis := rfl
@[simp] theorem State.setReg64_te (s : State) (lo v : Nat) : (s.setReg64 lo v).te = s.te := rfl
@[simp] theorem State.setReg64_ms (s : State) (lo v : Nat) : (s.setReg64 lo v).ms = s.ms := rfl
@[simp] theorem State.setReg64_net (s : State) (lo v : Nat) : (s.setReg64 lo v).net = s.net := rfl
@[simp] theorem State.setReg64_syn (s : State) (lo v : Nat) : (s.setReg64 lo v).syn = s.syn := rfl
@[simp] theorem State.setReg64_tm (s : State) (lo v : Nat) : (s.setReg64 lo v).tm = s.tm := rfl
@[simp] theorem State.setReg64_fh (s : State) (lo v : Nat) : (s.setReg64 lo v).fh = s.fh := rfl
@[simp] theorem State.setReg64_sig (s : State) (lo v : Nat) : (s.setReg64 lo v).sig = s.sig := rfl
@[simp] theorem State.setReg64_rad (s : State) (lo v : Nat) : (s.setReg64 lo v).rad = s.rad := rfl
@[simp] theorem State.setReg64_hst (s : State) (lo v : Nat) : (s.setReg64 lo v).hst = s.hst := rfl
@[simp] theorem State.setReg64_acct (s : State) (lo v : Nat) : (s.setReg64 lo v).acct = s.acct := rfl
@[simp] theorem State.setReg64_aud (s : State) (lo v : Nat) : (s.setReg64 lo v).aud = s.aud := rfl
@[simp] theorem State.setReg64_sp (s : State) (lo v : Nat) : (s.setReg64 lo v).sp = s.sp := rfl
@[simp] theorem State.setReg64_srv (s : State) (lo v : Nat) : (s.setReg64 lo v).srv = s.srv := rfl
@[simp] theorem State.setReg64_own (s : State) (lo v : Nat) : (s.setReg64 lo v).own = s.own := rfl
@[simp] theorem State.setReg64_boot (s : State) (lo v : Nat) : (s.setReg64 lo v).boot = s.boot := rfl
@[simp] theorem State.setReg64_clk (s : State) (lo v : Nat) : (s.setReg64 lo v).clk = s.clk := rfl
@[simp] theorem State.setReg64_pwr (s : State) (lo v : Nat) : (s.setReg64 lo v).pwr = s.pwr := rfl
@[simp] theorem State.setReg64_pins (s : State) (lo v : Nat) : (s.setReg64 lo v).pins = s.pins := rfl
@[simp] theorem State.setReg64_img (s : State) (lo v : Nat) : (s.setReg64 lo v).img = s.img := rfl
@[simp] theorem State.setReg64_out (s : State) (lo v : Nat) : (s.setReg64 lo v).out = s.out := rfl
@[simp] theorem State.setReg64_free (s : State) (lo v : Nat) : (s.setReg64 lo v).free = s.free := rfl
@[simp] theorem State.setReg64_pending (s : State) (lo v : Nat) : (s.setReg64 lo v).pending = s.pending := rfl
@[simp] theorem State.setReg64_readByte_ (s : State) (lo v : Nat) (y : Nat) : (s.setReg64 lo v).readByte y = s.readByte y := rfl
@[simp] theorem State.setReg64_live_ (s : State) (lo v : Nat) : (s.setReg64 lo v).live = s.live := rfl
@[simp] theorem State.setReg64_arrOf_ (s : State) (lo v : Nat) (j : Nat) : (s.setReg64 lo v).arrOf j = s.arrOf j := rfl
@[simp] theorem State.setReg64_src_ (s : State) (lo v : Nat) (j : Nat) : (s.setReg64 lo v).src j = s.src j := rfl

/-! What `status` leaves as it was. -/

@[simp] theorem State.status_mem (s : State) (f : FRef) : (s.status f).mem = s.mem := rfl
@[simp] theorem State.status_latch (s : State) (f : FRef) : (s.status f).latch = s.latch := rfl
@[simp] theorem State.status_flt (s : State) (f : FRef) : (s.status f).flt = s.flt := rfl
@[simp] theorem State.status_tim (s : State) (f : FRef) : (s.status f).tim = s.tim := rfl
@[simp] theorem State.status_arr (s : State) (f : FRef) : (s.status f).arr = s.arr := rfl
@[simp] theorem State.status_die (s : State) (f : FRef) : (s.status f).die = s.die := rfl
@[simp] theorem State.status_phys (s : State) (f : FRef) : (s.status f).phys = s.phys := rfl
@[simp] theorem State.status_grade56 (s : State) (f : FRef) : (s.status f).grade56 = s.grade56 := rfl
@[simp] theorem State.status_coreDis (s : State) (f : FRef) : (s.status f).coreDis = s.coreDis := rfl
@[simp] theorem State.status_te (s : State) (f : FRef) : (s.status f).te = s.te := rfl
@[simp] theorem State.status_ms (s : State) (f : FRef) : (s.status f).ms = s.ms := rfl
@[simp] theorem State.status_net (s : State) (f : FRef) : (s.status f).net = s.net := rfl
@[simp] theorem State.status_syn (s : State) (f : FRef) : (s.status f).syn = s.syn := rfl
@[simp] theorem State.status_tm (s : State) (f : FRef) : (s.status f).tm = s.tm := rfl
@[simp] theorem State.status_fh (s : State) (f : FRef) : (s.status f).fh = s.fh := rfl
@[simp] theorem State.status_sig (s : State) (f : FRef) : (s.status f).sig = s.sig := rfl
@[simp] theorem State.status_rad (s : State) (f : FRef) : (s.status f).rad = s.rad := rfl
@[simp] theorem State.status_hst (s : State) (f : FRef) : (s.status f).hst = s.hst := rfl
@[simp] theorem State.status_acct (s : State) (f : FRef) : (s.status f).acct = s.acct := rfl
@[simp] theorem State.status_aud (s : State) (f : FRef) : (s.status f).aud = s.aud := rfl
@[simp] theorem State.status_sp (s : State) (f : FRef) : (s.status f).sp = s.sp := rfl
@[simp] theorem State.status_srv (s : State) (f : FRef) : (s.status f).srv = s.srv := rfl
@[simp] theorem State.status_own (s : State) (f : FRef) : (s.status f).own = s.own := rfl
@[simp] theorem State.status_boot (s : State) (f : FRef) : (s.status f).boot = s.boot := rfl
@[simp] theorem State.status_clk (s : State) (f : FRef) : (s.status f).clk = s.clk := rfl
@[simp] theorem State.status_pwr (s : State) (f : FRef) : (s.status f).pwr = s.pwr := rfl
@[simp] theorem State.status_pins (s : State) (f : FRef) : (s.status f).pins = s.pins := rfl
@[simp] theorem State.status_img (s : State) (f : FRef) : (s.status f).img = s.img := rfl
@[simp] theorem State.status_out (s : State) (f : FRef) : (s.status f).out = s.out := rfl
@[simp] theorem State.status_free (s : State) (f : FRef) : (s.status f).free = s.free := rfl
@[simp] theorem State.status_pending (s : State) (f : FRef) : (s.status f).pending = s.pending := rfl
@[simp] theorem State.status_readByte_ (s : State) (f : FRef) (y : Nat) : (s.status f).readByte y = s.readByte y := rfl
@[simp] theorem State.status_live_ (s : State) (f : FRef) : (s.status f).live = s.live := rfl
@[simp] theorem State.status_arrOf_ (s : State) (f : FRef) (j : Nat) : (s.status f).arrOf j = s.arrOf j := rfl
@[simp] theorem State.status_src_ (s : State) (f : FRef) (j : Nat) : (s.status f).src j = s.src j := rfl

/-! What `emit` leaves as it was. -/

@[simp] theorem State.emit_regs (s : State) (x : Out) : (s.emit x).regs = s.regs := rfl
@[simp] theorem State.emit_mem (s : State) (x : Out) : (s.emit x).mem = s.mem := rfl
@[simp] theorem State.emit_latch (s : State) (x : Out) : (s.emit x).latch = s.latch := rfl
@[simp] theorem State.emit_flt (s : State) (x : Out) : (s.emit x).flt = s.flt := rfl
@[simp] theorem State.emit_tim (s : State) (x : Out) : (s.emit x).tim = s.tim := rfl
@[simp] theorem State.emit_arr (s : State) (x : Out) : (s.emit x).arr = s.arr := rfl
@[simp] theorem State.emit_die (s : State) (x : Out) : (s.emit x).die = s.die := rfl
@[simp] theorem State.emit_phys (s : State) (x : Out) : (s.emit x).phys = s.phys := rfl
@[simp] theorem State.emit_grade56 (s : State) (x : Out) : (s.emit x).grade56 = s.grade56 := rfl
@[simp] theorem State.emit_coreDis (s : State) (x : Out) : (s.emit x).coreDis = s.coreDis := rfl
@[simp] theorem State.emit_te (s : State) (x : Out) : (s.emit x).te = s.te := rfl
@[simp] theorem State.emit_ms (s : State) (x : Out) : (s.emit x).ms = s.ms := rfl
@[simp] theorem State.emit_net (s : State) (x : Out) : (s.emit x).net = s.net := rfl
@[simp] theorem State.emit_syn (s : State) (x : Out) : (s.emit x).syn = s.syn := rfl
@[simp] theorem State.emit_tm (s : State) (x : Out) : (s.emit x).tm = s.tm := rfl
@[simp] theorem State.emit_fh (s : State) (x : Out) : (s.emit x).fh = s.fh := rfl
@[simp] theorem State.emit_sig (s : State) (x : Out) : (s.emit x).sig = s.sig := rfl
@[simp] theorem State.emit_rad (s : State) (x : Out) : (s.emit x).rad = s.rad := rfl
@[simp] theorem State.emit_hst (s : State) (x : Out) : (s.emit x).hst = s.hst := rfl
@[simp] theorem State.emit_acct (s : State) (x : Out) : (s.emit x).acct = s.acct := rfl
@[simp] theorem State.emit_aud (s : State) (x : Out) : (s.emit x).aud = s.aud := rfl
@[simp] theorem State.emit_sp (s : State) (x : Out) : (s.emit x).sp = s.sp := rfl
@[simp] theorem State.emit_srv (s : State) (x : Out) : (s.emit x).srv = s.srv := rfl
@[simp] theorem State.emit_own (s : State) (x : Out) : (s.emit x).own = s.own := rfl
@[simp] theorem State.emit_boot (s : State) (x : Out) : (s.emit x).boot = s.boot := rfl
@[simp] theorem State.emit_clk (s : State) (x : Out) : (s.emit x).clk = s.clk := rfl
@[simp] theorem State.emit_pwr (s : State) (x : Out) : (s.emit x).pwr = s.pwr := rfl
@[simp] theorem State.emit_pins (s : State) (x : Out) : (s.emit x).pins = s.pins := rfl
@[simp] theorem State.emit_img (s : State) (x : Out) : (s.emit x).img = s.img := rfl
@[simp] theorem State.emit_free (s : State) (x : Out) : (s.emit x).free = s.free := rfl
@[simp] theorem State.emit_pending (s : State) (x : Out) : (s.emit x).pending = s.pending := rfl
@[simp] theorem State.emit_reg_ (s : State) (x : Out) (o : Nat) : (s.emit x).reg o = s.reg o := rfl
@[simp] theorem State.emit_get_ (s : State) (x : Out) (g : FRef) : (s.emit x).get g = s.get g := rfl
@[simp] theorem State.emit_flag_ (s : State) (x : Out) (g : FRef) : (s.emit x).flag g = s.flag g := rfl
@[simp] theorem State.emit_reg64_ (s : State) (x : Out) (o : Nat) : (s.emit x).reg64 o = s.reg64 o := rfl
@[simp] theorem State.emit_readByte_ (s : State) (x : Out) (y : Nat) : (s.emit x).readByte y = s.readByte y := rfl
@[simp] theorem State.emit_live_ (s : State) (x : Out) : (s.emit x).live = s.live := rfl
@[simp] theorem State.emit_arrOf_ (s : State) (x : Out) (j : Nat) : (s.emit x).arrOf j = s.arrOf j := rfl
@[simp] theorem State.emit_src_ (s : State) (x : Out) (j : Nat) : (s.emit x).src j = s.src j := rfl

/-! What `raise` leaves as it was. -/

@[simp] theorem State.raise_regs (s : State) (src kind addr aux : Nat) : (s.raise src kind addr aux).regs = s.regs := rfl
@[simp] theorem State.raise_mem (s : State) (src kind addr aux : Nat) : (s.raise src kind addr aux).mem = s.mem := rfl
@[simp] theorem State.raise_latch (s : State) (src kind addr aux : Nat) : (s.raise src kind addr aux).latch = s.latch := rfl
@[simp] theorem State.raise_tim (s : State) (src kind addr aux : Nat) : (s.raise src kind addr aux).tim = s.tim := rfl
@[simp] theorem State.raise_arr (s : State) (src kind addr aux : Nat) : (s.raise src kind addr aux).arr = s.arr := rfl
@[simp] theorem State.raise_die (s : State) (src kind addr aux : Nat) : (s.raise src kind addr aux).die = s.die := rfl
@[simp] theorem State.raise_phys (s : State) (src kind addr aux : Nat) : (s.raise src kind addr aux).phys = s.phys := rfl
@[simp] theorem State.raise_grade56 (s : State) (src kind addr aux : Nat) : (s.raise src kind addr aux).grade56 = s.grade56 := rfl
@[simp] theorem State.raise_coreDis (s : State) (src kind addr aux : Nat) : (s.raise src kind addr aux).coreDis = s.coreDis := rfl
@[simp] theorem State.raise_te (s : State) (src kind addr aux : Nat) : (s.raise src kind addr aux).te = s.te := rfl
@[simp] theorem State.raise_ms (s : State) (src kind addr aux : Nat) : (s.raise src kind addr aux).ms = s.ms := rfl
@[simp] theorem State.raise_net (s : State) (src kind addr aux : Nat) : (s.raise src kind addr aux).net = s.net := rfl
@[simp] theorem State.raise_syn (s : State) (src kind addr aux : Nat) : (s.raise src kind addr aux).syn = s.syn := rfl
@[simp] theorem State.raise_tm (s : State) (src kind addr aux : Nat) : (s.raise src kind addr aux).tm = s.tm := rfl
@[simp] theorem State.raise_fh (s : State) (src kind addr aux : Nat) : (s.raise src kind addr aux).fh = s.fh := rfl
@[simp] theorem State.raise_sig (s : State) (src kind addr aux : Nat) : (s.raise src kind addr aux).sig = s.sig := rfl
@[simp] theorem State.raise_rad (s : State) (src kind addr aux : Nat) : (s.raise src kind addr aux).rad = s.rad := rfl
@[simp] theorem State.raise_hst (s : State) (src kind addr aux : Nat) : (s.raise src kind addr aux).hst = s.hst := rfl
@[simp] theorem State.raise_acct (s : State) (src kind addr aux : Nat) : (s.raise src kind addr aux).acct = s.acct := rfl
@[simp] theorem State.raise_aud (s : State) (src kind addr aux : Nat) : (s.raise src kind addr aux).aud = s.aud := rfl
@[simp] theorem State.raise_sp (s : State) (src kind addr aux : Nat) : (s.raise src kind addr aux).sp = s.sp := rfl
@[simp] theorem State.raise_srv (s : State) (src kind addr aux : Nat) : (s.raise src kind addr aux).srv = s.srv := rfl
@[simp] theorem State.raise_own (s : State) (src kind addr aux : Nat) : (s.raise src kind addr aux).own = s.own := rfl
@[simp] theorem State.raise_boot (s : State) (src kind addr aux : Nat) : (s.raise src kind addr aux).boot = s.boot := rfl
@[simp] theorem State.raise_clk (s : State) (src kind addr aux : Nat) : (s.raise src kind addr aux).clk = s.clk := rfl
@[simp] theorem State.raise_pwr (s : State) (src kind addr aux : Nat) : (s.raise src kind addr aux).pwr = s.pwr := rfl
@[simp] theorem State.raise_pins (s : State) (src kind addr aux : Nat) : (s.raise src kind addr aux).pins = s.pins := rfl
@[simp] theorem State.raise_img (s : State) (src kind addr aux : Nat) : (s.raise src kind addr aux).img = s.img := rfl
@[simp] theorem State.raise_out (s : State) (src kind addr aux : Nat) : (s.raise src kind addr aux).out = s.out := rfl
@[simp] theorem State.raise_free (s : State) (src kind addr aux : Nat) : (s.raise src kind addr aux).free = s.free := rfl
@[simp] theorem State.raise_pending (s : State) (src kind addr aux : Nat) : (s.raise src kind addr aux).pending = s.pending := rfl
@[simp] theorem State.raise_reg_ (s : State) (src kind addr aux : Nat) (o : Nat) : (s.raise src kind addr aux).reg o = s.reg o := rfl
@[simp] theorem State.raise_get_ (s : State) (src kind addr aux : Nat) (g : FRef) : (s.raise src kind addr aux).get g = s.get g := rfl
@[simp] theorem State.raise_flag_ (s : State) (src kind addr aux : Nat) (g : FRef) : (s.raise src kind addr aux).flag g = s.flag g := rfl
@[simp] theorem State.raise_reg64_ (s : State) (src kind addr aux : Nat) (o : Nat) : (s.raise src kind addr aux).reg64 o = s.reg64 o := rfl
@[simp] theorem State.raise_readByte_ (s : State) (src kind addr aux : Nat) (y : Nat) : (s.raise src kind addr aux).readByte y = s.readByte y := rfl
@[simp] theorem State.raise_arrOf_ (s : State) (src kind addr aux : Nat) (j : Nat) : (s.raise src kind addr aux).arrOf j = s.arrOf j := rfl

/-! What `setArr` leaves as it was. -/

@[simp] theorem State.setArr_regs (s : State) (n : Nat) (a : Arr) : (s.setArr n a).regs = s.regs := rfl
@[simp] theorem State.setArr_mem (s : State) (n : Nat) (a : Arr) : (s.setArr n a).mem = s.mem := rfl
@[simp] theorem State.setArr_latch (s : State) (n : Nat) (a : Arr) : (s.setArr n a).latch = s.latch := rfl
@[simp] theorem State.setArr_flt (s : State) (n : Nat) (a : Arr) : (s.setArr n a).flt = s.flt := rfl
@[simp] theorem State.setArr_tim (s : State) (n : Nat) (a : Arr) : (s.setArr n a).tim = s.tim := rfl
@[simp] theorem State.setArr_die (s : State) (n : Nat) (a : Arr) : (s.setArr n a).die = s.die := rfl
@[simp] theorem State.setArr_phys (s : State) (n : Nat) (a : Arr) : (s.setArr n a).phys = s.phys := rfl
@[simp] theorem State.setArr_grade56 (s : State) (n : Nat) (a : Arr) : (s.setArr n a).grade56 = s.grade56 := rfl
@[simp] theorem State.setArr_coreDis (s : State) (n : Nat) (a : Arr) : (s.setArr n a).coreDis = s.coreDis := rfl
@[simp] theorem State.setArr_te (s : State) (n : Nat) (a : Arr) : (s.setArr n a).te = s.te := rfl
@[simp] theorem State.setArr_ms (s : State) (n : Nat) (a : Arr) : (s.setArr n a).ms = s.ms := rfl
@[simp] theorem State.setArr_net (s : State) (n : Nat) (a : Arr) : (s.setArr n a).net = s.net := rfl
@[simp] theorem State.setArr_syn (s : State) (n : Nat) (a : Arr) : (s.setArr n a).syn = s.syn := rfl
@[simp] theorem State.setArr_tm (s : State) (n : Nat) (a : Arr) : (s.setArr n a).tm = s.tm := rfl
@[simp] theorem State.setArr_fh (s : State) (n : Nat) (a : Arr) : (s.setArr n a).fh = s.fh := rfl
@[simp] theorem State.setArr_sig (s : State) (n : Nat) (a : Arr) : (s.setArr n a).sig = s.sig := rfl
@[simp] theorem State.setArr_rad (s : State) (n : Nat) (a : Arr) : (s.setArr n a).rad = s.rad := rfl
@[simp] theorem State.setArr_hst (s : State) (n : Nat) (a : Arr) : (s.setArr n a).hst = s.hst := rfl
@[simp] theorem State.setArr_acct (s : State) (n : Nat) (a : Arr) : (s.setArr n a).acct = s.acct := rfl
@[simp] theorem State.setArr_aud (s : State) (n : Nat) (a : Arr) : (s.setArr n a).aud = s.aud := rfl
@[simp] theorem State.setArr_sp (s : State) (n : Nat) (a : Arr) : (s.setArr n a).sp = s.sp := rfl
@[simp] theorem State.setArr_srv (s : State) (n : Nat) (a : Arr) : (s.setArr n a).srv = s.srv := rfl
@[simp] theorem State.setArr_own (s : State) (n : Nat) (a : Arr) : (s.setArr n a).own = s.own := rfl
@[simp] theorem State.setArr_boot (s : State) (n : Nat) (a : Arr) : (s.setArr n a).boot = s.boot := rfl
@[simp] theorem State.setArr_clk (s : State) (n : Nat) (a : Arr) : (s.setArr n a).clk = s.clk := rfl
@[simp] theorem State.setArr_pwr (s : State) (n : Nat) (a : Arr) : (s.setArr n a).pwr = s.pwr := rfl
@[simp] theorem State.setArr_pins (s : State) (n : Nat) (a : Arr) : (s.setArr n a).pins = s.pins := rfl
@[simp] theorem State.setArr_img (s : State) (n : Nat) (a : Arr) : (s.setArr n a).img = s.img := rfl
@[simp] theorem State.setArr_out (s : State) (n : Nat) (a : Arr) : (s.setArr n a).out = s.out := rfl
@[simp] theorem State.setArr_free (s : State) (n : Nat) (a : Arr) : (s.setArr n a).free = s.free := rfl
@[simp] theorem State.setArr_pending (s : State) (n : Nat) (a : Arr) : (s.setArr n a).pending = s.pending := rfl
@[simp] theorem State.setArr_reg_ (s : State) (n : Nat) (a : Arr) (o : Nat) : (s.setArr n a).reg o = s.reg o := rfl
@[simp] theorem State.setArr_get_ (s : State) (n : Nat) (a : Arr) (g : FRef) : (s.setArr n a).get g = s.get g := rfl
@[simp] theorem State.setArr_flag_ (s : State) (n : Nat) (a : Arr) (g : FRef) : (s.setArr n a).flag g = s.flag g := rfl
@[simp] theorem State.setArr_reg64_ (s : State) (n : Nat) (a : Arr) (o : Nat) : (s.setArr n a).reg64 o = s.reg64 o := rfl
@[simp] theorem State.setArr_readByte_ (s : State) (n : Nat) (a : Arr) (y : Nat) : (s.setArr n a).readByte y = s.readByte y := rfl
@[simp] theorem State.setArr_live_ (s : State) (n : Nat) (a : Arr) : (s.setArr n a).live = s.live := rfl
@[simp] theorem State.setArr_src_ (s : State) (n : Nat) (a : Arr) (j : Nat) : (s.setArr n a).src j = s.src j := rfl

/-! What `setDie` leaves as it was. -/

@[simp] theorem State.setDie_regs (s : State) (n : Nat) (a : Die) : (s.setDie n a).regs = s.regs := rfl
@[simp] theorem State.setDie_mem (s : State) (n : Nat) (a : Die) : (s.setDie n a).mem = s.mem := rfl
@[simp] theorem State.setDie_latch (s : State) (n : Nat) (a : Die) : (s.setDie n a).latch = s.latch := rfl
@[simp] theorem State.setDie_flt (s : State) (n : Nat) (a : Die) : (s.setDie n a).flt = s.flt := rfl
@[simp] theorem State.setDie_tim (s : State) (n : Nat) (a : Die) : (s.setDie n a).tim = s.tim := rfl
@[simp] theorem State.setDie_arr (s : State) (n : Nat) (a : Die) : (s.setDie n a).arr = s.arr := rfl
@[simp] theorem State.setDie_phys (s : State) (n : Nat) (a : Die) : (s.setDie n a).phys = s.phys := rfl
@[simp] theorem State.setDie_grade56 (s : State) (n : Nat) (a : Die) : (s.setDie n a).grade56 = s.grade56 := rfl
@[simp] theorem State.setDie_coreDis (s : State) (n : Nat) (a : Die) : (s.setDie n a).coreDis = s.coreDis := rfl
@[simp] theorem State.setDie_te (s : State) (n : Nat) (a : Die) : (s.setDie n a).te = s.te := rfl
@[simp] theorem State.setDie_ms (s : State) (n : Nat) (a : Die) : (s.setDie n a).ms = s.ms := rfl
@[simp] theorem State.setDie_net (s : State) (n : Nat) (a : Die) : (s.setDie n a).net = s.net := rfl
@[simp] theorem State.setDie_syn (s : State) (n : Nat) (a : Die) : (s.setDie n a).syn = s.syn := rfl
@[simp] theorem State.setDie_tm (s : State) (n : Nat) (a : Die) : (s.setDie n a).tm = s.tm := rfl
@[simp] theorem State.setDie_fh (s : State) (n : Nat) (a : Die) : (s.setDie n a).fh = s.fh := rfl
@[simp] theorem State.setDie_sig (s : State) (n : Nat) (a : Die) : (s.setDie n a).sig = s.sig := rfl
@[simp] theorem State.setDie_rad (s : State) (n : Nat) (a : Die) : (s.setDie n a).rad = s.rad := rfl
@[simp] theorem State.setDie_hst (s : State) (n : Nat) (a : Die) : (s.setDie n a).hst = s.hst := rfl
@[simp] theorem State.setDie_acct (s : State) (n : Nat) (a : Die) : (s.setDie n a).acct = s.acct := rfl
@[simp] theorem State.setDie_aud (s : State) (n : Nat) (a : Die) : (s.setDie n a).aud = s.aud := rfl
@[simp] theorem State.setDie_sp (s : State) (n : Nat) (a : Die) : (s.setDie n a).sp = s.sp := rfl
@[simp] theorem State.setDie_srv (s : State) (n : Nat) (a : Die) : (s.setDie n a).srv = s.srv := rfl
@[simp] theorem State.setDie_own (s : State) (n : Nat) (a : Die) : (s.setDie n a).own = s.own := rfl
@[simp] theorem State.setDie_boot (s : State) (n : Nat) (a : Die) : (s.setDie n a).boot = s.boot := rfl
@[simp] theorem State.setDie_clk (s : State) (n : Nat) (a : Die) : (s.setDie n a).clk = s.clk := rfl
@[simp] theorem State.setDie_pwr (s : State) (n : Nat) (a : Die) : (s.setDie n a).pwr = s.pwr := rfl
@[simp] theorem State.setDie_pins (s : State) (n : Nat) (a : Die) : (s.setDie n a).pins = s.pins := rfl
@[simp] theorem State.setDie_img (s : State) (n : Nat) (a : Die) : (s.setDie n a).img = s.img := rfl
@[simp] theorem State.setDie_out (s : State) (n : Nat) (a : Die) : (s.setDie n a).out = s.out := rfl
@[simp] theorem State.setDie_free (s : State) (n : Nat) (a : Die) : (s.setDie n a).free = s.free := rfl
@[simp] theorem State.setDie_pending (s : State) (n : Nat) (a : Die) : (s.setDie n a).pending = s.pending := rfl
@[simp] theorem State.setDie_reg_ (s : State) (n : Nat) (a : Die) (o : Nat) : (s.setDie n a).reg o = s.reg o := rfl
@[simp] theorem State.setDie_get_ (s : State) (n : Nat) (a : Die) (g : FRef) : (s.setDie n a).get g = s.get g := rfl
@[simp] theorem State.setDie_flag_ (s : State) (n : Nat) (a : Die) (g : FRef) : (s.setDie n a).flag g = s.flag g := rfl
@[simp] theorem State.setDie_reg64_ (s : State) (n : Nat) (a : Die) (o : Nat) : (s.setDie n a).reg64 o = s.reg64 o := rfl
@[simp] theorem State.setDie_readByte_ (s : State) (n : Nat) (a : Die) (y : Nat) : (s.setDie n a).readByte y = s.readByte y := rfl
@[simp] theorem State.setDie_live_ (s : State) (n : Nat) (a : Die) : (s.setDie n a).live = s.live := rfl
@[simp] theorem State.setDie_arrOf_ (s : State) (n : Nat) (a : Die) (j : Nat) : (s.setDie n a).arrOf j = s.arrOf j := rfl
@[simp] theorem State.setDie_src_ (s : State) (n : Nat) (a : Die) (j : Nat) : (s.setDie n a).src j = s.src j := rfl

/-! What `setPhys` leaves as it was. -/

@[simp] theorem State.setPhys_regs (s : State) (n : Nat) (a : Phys) : (s.setPhys n a).regs = s.regs := rfl
@[simp] theorem State.setPhys_mem (s : State) (n : Nat) (a : Phys) : (s.setPhys n a).mem = s.mem := rfl
@[simp] theorem State.setPhys_latch (s : State) (n : Nat) (a : Phys) : (s.setPhys n a).latch = s.latch := rfl
@[simp] theorem State.setPhys_flt (s : State) (n : Nat) (a : Phys) : (s.setPhys n a).flt = s.flt := rfl
@[simp] theorem State.setPhys_tim (s : State) (n : Nat) (a : Phys) : (s.setPhys n a).tim = s.tim := rfl
@[simp] theorem State.setPhys_arr (s : State) (n : Nat) (a : Phys) : (s.setPhys n a).arr = s.arr := rfl
@[simp] theorem State.setPhys_die (s : State) (n : Nat) (a : Phys) : (s.setPhys n a).die = s.die := rfl
@[simp] theorem State.setPhys_grade56 (s : State) (n : Nat) (a : Phys) : (s.setPhys n a).grade56 = s.grade56 := rfl
@[simp] theorem State.setPhys_coreDis (s : State) (n : Nat) (a : Phys) : (s.setPhys n a).coreDis = s.coreDis := rfl
@[simp] theorem State.setPhys_te (s : State) (n : Nat) (a : Phys) : (s.setPhys n a).te = s.te := rfl
@[simp] theorem State.setPhys_ms (s : State) (n : Nat) (a : Phys) : (s.setPhys n a).ms = s.ms := rfl
@[simp] theorem State.setPhys_net (s : State) (n : Nat) (a : Phys) : (s.setPhys n a).net = s.net := rfl
@[simp] theorem State.setPhys_syn (s : State) (n : Nat) (a : Phys) : (s.setPhys n a).syn = s.syn := rfl
@[simp] theorem State.setPhys_tm (s : State) (n : Nat) (a : Phys) : (s.setPhys n a).tm = s.tm := rfl
@[simp] theorem State.setPhys_fh (s : State) (n : Nat) (a : Phys) : (s.setPhys n a).fh = s.fh := rfl
@[simp] theorem State.setPhys_sig (s : State) (n : Nat) (a : Phys) : (s.setPhys n a).sig = s.sig := rfl
@[simp] theorem State.setPhys_rad (s : State) (n : Nat) (a : Phys) : (s.setPhys n a).rad = s.rad := rfl
@[simp] theorem State.setPhys_hst (s : State) (n : Nat) (a : Phys) : (s.setPhys n a).hst = s.hst := rfl
@[simp] theorem State.setPhys_acct (s : State) (n : Nat) (a : Phys) : (s.setPhys n a).acct = s.acct := rfl
@[simp] theorem State.setPhys_aud (s : State) (n : Nat) (a : Phys) : (s.setPhys n a).aud = s.aud := rfl
@[simp] theorem State.setPhys_sp (s : State) (n : Nat) (a : Phys) : (s.setPhys n a).sp = s.sp := rfl
@[simp] theorem State.setPhys_srv (s : State) (n : Nat) (a : Phys) : (s.setPhys n a).srv = s.srv := rfl
@[simp] theorem State.setPhys_own (s : State) (n : Nat) (a : Phys) : (s.setPhys n a).own = s.own := rfl
@[simp] theorem State.setPhys_boot (s : State) (n : Nat) (a : Phys) : (s.setPhys n a).boot = s.boot := rfl
@[simp] theorem State.setPhys_clk (s : State) (n : Nat) (a : Phys) : (s.setPhys n a).clk = s.clk := rfl
@[simp] theorem State.setPhys_pwr (s : State) (n : Nat) (a : Phys) : (s.setPhys n a).pwr = s.pwr := rfl
@[simp] theorem State.setPhys_pins (s : State) (n : Nat) (a : Phys) : (s.setPhys n a).pins = s.pins := rfl
@[simp] theorem State.setPhys_img (s : State) (n : Nat) (a : Phys) : (s.setPhys n a).img = s.img := rfl
@[simp] theorem State.setPhys_out (s : State) (n : Nat) (a : Phys) : (s.setPhys n a).out = s.out := rfl
@[simp] theorem State.setPhys_free (s : State) (n : Nat) (a : Phys) : (s.setPhys n a).free = s.free := rfl
@[simp] theorem State.setPhys_pending (s : State) (n : Nat) (a : Phys) : (s.setPhys n a).pending = s.pending := rfl
@[simp] theorem State.setPhys_reg_ (s : State) (n : Nat) (a : Phys) (o : Nat) : (s.setPhys n a).reg o = s.reg o := rfl
@[simp] theorem State.setPhys_get_ (s : State) (n : Nat) (a : Phys) (g : FRef) : (s.setPhys n a).get g = s.get g := rfl
@[simp] theorem State.setPhys_flag_ (s : State) (n : Nat) (a : Phys) (g : FRef) : (s.setPhys n a).flag g = s.flag g := rfl
@[simp] theorem State.setPhys_reg64_ (s : State) (n : Nat) (a : Phys) (o : Nat) : (s.setPhys n a).reg64 o = s.reg64 o := rfl
@[simp] theorem State.setPhys_readByte_ (s : State) (n : Nat) (a : Phys) (y : Nat) : (s.setPhys n a).readByte y = s.readByte y := rfl
@[simp] theorem State.setPhys_live_ (s : State) (n : Nat) (a : Phys) : (s.setPhys n a).live = s.live := rfl
@[simp] theorem State.setPhys_arrOf_ (s : State) (n : Nat) (a : Phys) (j : Nat) : (s.setPhys n a).arrOf j = s.arrOf j := rfl
@[simp] theorem State.setPhys_src_ (s : State) (n : Nat) (a : Phys) (j : Nat) : (s.setPhys n a).src j = s.src j := rfl

/-! What `writeBytes` leaves as it was. -/

@[simp] theorem State.writeBytes_regs (s : State) (a : Nat) (bs : List Byte) : (s.writeBytes a bs).regs = s.regs := rfl
@[simp] theorem State.writeBytes_latch (s : State) (a : Nat) (bs : List Byte) : (s.writeBytes a bs).latch = s.latch := rfl
@[simp] theorem State.writeBytes_flt (s : State) (a : Nat) (bs : List Byte) : (s.writeBytes a bs).flt = s.flt := rfl
@[simp] theorem State.writeBytes_tim (s : State) (a : Nat) (bs : List Byte) : (s.writeBytes a bs).tim = s.tim := rfl
@[simp] theorem State.writeBytes_arr (s : State) (a : Nat) (bs : List Byte) : (s.writeBytes a bs).arr = s.arr := rfl
@[simp] theorem State.writeBytes_die (s : State) (a : Nat) (bs : List Byte) : (s.writeBytes a bs).die = s.die := rfl
@[simp] theorem State.writeBytes_phys (s : State) (a : Nat) (bs : List Byte) : (s.writeBytes a bs).phys = s.phys := rfl
@[simp] theorem State.writeBytes_grade56 (s : State) (a : Nat) (bs : List Byte) : (s.writeBytes a bs).grade56 = s.grade56 := rfl
@[simp] theorem State.writeBytes_coreDis (s : State) (a : Nat) (bs : List Byte) : (s.writeBytes a bs).coreDis = s.coreDis := rfl
@[simp] theorem State.writeBytes_te (s : State) (a : Nat) (bs : List Byte) : (s.writeBytes a bs).te = s.te := rfl
@[simp] theorem State.writeBytes_ms (s : State) (a : Nat) (bs : List Byte) : (s.writeBytes a bs).ms = s.ms := rfl
@[simp] theorem State.writeBytes_net (s : State) (a : Nat) (bs : List Byte) : (s.writeBytes a bs).net = s.net := rfl
@[simp] theorem State.writeBytes_syn (s : State) (a : Nat) (bs : List Byte) : (s.writeBytes a bs).syn = s.syn := rfl
@[simp] theorem State.writeBytes_tm (s : State) (a : Nat) (bs : List Byte) : (s.writeBytes a bs).tm = s.tm := rfl
@[simp] theorem State.writeBytes_fh (s : State) (a : Nat) (bs : List Byte) : (s.writeBytes a bs).fh = s.fh := rfl
@[simp] theorem State.writeBytes_sig (s : State) (a : Nat) (bs : List Byte) : (s.writeBytes a bs).sig = s.sig := rfl
@[simp] theorem State.writeBytes_rad (s : State) (a : Nat) (bs : List Byte) : (s.writeBytes a bs).rad = s.rad := rfl
@[simp] theorem State.writeBytes_hst (s : State) (a : Nat) (bs : List Byte) : (s.writeBytes a bs).hst = s.hst := rfl
@[simp] theorem State.writeBytes_acct (s : State) (a : Nat) (bs : List Byte) : (s.writeBytes a bs).acct = s.acct := rfl
@[simp] theorem State.writeBytes_aud (s : State) (a : Nat) (bs : List Byte) : (s.writeBytes a bs).aud = s.aud := rfl
@[simp] theorem State.writeBytes_sp (s : State) (a : Nat) (bs : List Byte) : (s.writeBytes a bs).sp = s.sp := rfl
@[simp] theorem State.writeBytes_srv (s : State) (a : Nat) (bs : List Byte) : (s.writeBytes a bs).srv = s.srv := rfl
@[simp] theorem State.writeBytes_own (s : State) (a : Nat) (bs : List Byte) : (s.writeBytes a bs).own = s.own := rfl
@[simp] theorem State.writeBytes_boot (s : State) (a : Nat) (bs : List Byte) : (s.writeBytes a bs).boot = s.boot := rfl
@[simp] theorem State.writeBytes_clk (s : State) (a : Nat) (bs : List Byte) : (s.writeBytes a bs).clk = s.clk := rfl
@[simp] theorem State.writeBytes_pwr (s : State) (a : Nat) (bs : List Byte) : (s.writeBytes a bs).pwr = s.pwr := rfl
@[simp] theorem State.writeBytes_pins (s : State) (a : Nat) (bs : List Byte) : (s.writeBytes a bs).pins = s.pins := rfl
@[simp] theorem State.writeBytes_img (s : State) (a : Nat) (bs : List Byte) : (s.writeBytes a bs).img = s.img := rfl
@[simp] theorem State.writeBytes_out (s : State) (a : Nat) (bs : List Byte) : (s.writeBytes a bs).out = s.out := rfl
@[simp] theorem State.writeBytes_free (s : State) (a : Nat) (bs : List Byte) : (s.writeBytes a bs).free = s.free := rfl
@[simp] theorem State.writeBytes_pending (s : State) (a : Nat) (bs : List Byte) : (s.writeBytes a bs).pending = s.pending := rfl
@[simp] theorem State.writeBytes_reg_ (s : State) (a : Nat) (bs : List Byte) (o : Nat) : (s.writeBytes a bs).reg o = s.reg o := rfl
@[simp] theorem State.writeBytes_get_ (s : State) (a : Nat) (bs : List Byte) (g : FRef) : (s.writeBytes a bs).get g = s.get g := rfl
@[simp] theorem State.writeBytes_flag_ (s : State) (a : Nat) (bs : List Byte) (g : FRef) : (s.writeBytes a bs).flag g = s.flag g := rfl
@[simp] theorem State.writeBytes_reg64_ (s : State) (a : Nat) (bs : List Byte) (o : Nat) : (s.writeBytes a bs).reg64 o = s.reg64 o := rfl
@[simp] theorem State.writeBytes_live_ (s : State) (a : Nat) (bs : List Byte) : (s.writeBytes a bs).live = s.live := rfl
@[simp] theorem State.writeBytes_arrOf_ (s : State) (a : Nat) (bs : List Byte) (j : Nat) : (s.writeBytes a bs).arrOf j = s.arrOf j := rfl
@[simp] theorem State.writeBytes_src_ (s : State) (a : Nat) (bs : List Byte) (j : Nat) : (s.writeBytes a bs).src j = s.src j := rfl

/-! What `writeLE` leaves as it was. -/

@[simp] theorem State.writeLE_regs (s : State) (a n v : Nat) : (s.writeLE a n v).regs = s.regs := rfl
@[simp] theorem State.writeLE_latch (s : State) (a n v : Nat) : (s.writeLE a n v).latch = s.latch := rfl
@[simp] theorem State.writeLE_flt (s : State) (a n v : Nat) : (s.writeLE a n v).flt = s.flt := rfl
@[simp] theorem State.writeLE_tim (s : State) (a n v : Nat) : (s.writeLE a n v).tim = s.tim := rfl
@[simp] theorem State.writeLE_arr (s : State) (a n v : Nat) : (s.writeLE a n v).arr = s.arr := rfl
@[simp] theorem State.writeLE_die (s : State) (a n v : Nat) : (s.writeLE a n v).die = s.die := rfl
@[simp] theorem State.writeLE_phys (s : State) (a n v : Nat) : (s.writeLE a n v).phys = s.phys := rfl
@[simp] theorem State.writeLE_grade56 (s : State) (a n v : Nat) : (s.writeLE a n v).grade56 = s.grade56 := rfl
@[simp] theorem State.writeLE_coreDis (s : State) (a n v : Nat) : (s.writeLE a n v).coreDis = s.coreDis := rfl
@[simp] theorem State.writeLE_te (s : State) (a n v : Nat) : (s.writeLE a n v).te = s.te := rfl
@[simp] theorem State.writeLE_ms (s : State) (a n v : Nat) : (s.writeLE a n v).ms = s.ms := rfl
@[simp] theorem State.writeLE_net (s : State) (a n v : Nat) : (s.writeLE a n v).net = s.net := rfl
@[simp] theorem State.writeLE_syn (s : State) (a n v : Nat) : (s.writeLE a n v).syn = s.syn := rfl
@[simp] theorem State.writeLE_tm (s : State) (a n v : Nat) : (s.writeLE a n v).tm = s.tm := rfl
@[simp] theorem State.writeLE_fh (s : State) (a n v : Nat) : (s.writeLE a n v).fh = s.fh := rfl
@[simp] theorem State.writeLE_sig (s : State) (a n v : Nat) : (s.writeLE a n v).sig = s.sig := rfl
@[simp] theorem State.writeLE_rad (s : State) (a n v : Nat) : (s.writeLE a n v).rad = s.rad := rfl
@[simp] theorem State.writeLE_hst (s : State) (a n v : Nat) : (s.writeLE a n v).hst = s.hst := rfl
@[simp] theorem State.writeLE_acct (s : State) (a n v : Nat) : (s.writeLE a n v).acct = s.acct := rfl
@[simp] theorem State.writeLE_aud (s : State) (a n v : Nat) : (s.writeLE a n v).aud = s.aud := rfl
@[simp] theorem State.writeLE_sp (s : State) (a n v : Nat) : (s.writeLE a n v).sp = s.sp := rfl
@[simp] theorem State.writeLE_srv (s : State) (a n v : Nat) : (s.writeLE a n v).srv = s.srv := rfl
@[simp] theorem State.writeLE_own (s : State) (a n v : Nat) : (s.writeLE a n v).own = s.own := rfl
@[simp] theorem State.writeLE_boot (s : State) (a n v : Nat) : (s.writeLE a n v).boot = s.boot := rfl
@[simp] theorem State.writeLE_clk (s : State) (a n v : Nat) : (s.writeLE a n v).clk = s.clk := rfl
@[simp] theorem State.writeLE_pwr (s : State) (a n v : Nat) : (s.writeLE a n v).pwr = s.pwr := rfl
@[simp] theorem State.writeLE_pins (s : State) (a n v : Nat) : (s.writeLE a n v).pins = s.pins := rfl
@[simp] theorem State.writeLE_img (s : State) (a n v : Nat) : (s.writeLE a n v).img = s.img := rfl
@[simp] theorem State.writeLE_out (s : State) (a n v : Nat) : (s.writeLE a n v).out = s.out := rfl
@[simp] theorem State.writeLE_free (s : State) (a n v : Nat) : (s.writeLE a n v).free = s.free := rfl
@[simp] theorem State.writeLE_pending (s : State) (a n v : Nat) : (s.writeLE a n v).pending = s.pending := rfl
@[simp] theorem State.writeLE_reg_ (s : State) (a n v : Nat) (o : Nat) : (s.writeLE a n v).reg o = s.reg o := rfl
@[simp] theorem State.writeLE_get_ (s : State) (a n v : Nat) (g : FRef) : (s.writeLE a n v).get g = s.get g := rfl
@[simp] theorem State.writeLE_flag_ (s : State) (a n v : Nat) (g : FRef) : (s.writeLE a n v).flag g = s.flag g := rfl
@[simp] theorem State.writeLE_reg64_ (s : State) (a n v : Nat) (o : Nat) : (s.writeLE a n v).reg64 o = s.reg64 o := rfl
@[simp] theorem State.writeLE_live_ (s : State) (a n v : Nat) : (s.writeLE a n v).live = s.live := rfl
@[simp] theorem State.writeLE_arrOf_ (s : State) (a n v : Nat) (j : Nat) : (s.writeLE a n v).arrOf j = s.arrOf j := rfl
@[simp] theorem State.writeLE_src_ (s : State) (a n v : Nat) (j : Nat) : (s.writeLE a n v).src j = s.src j := rfl

/-! What `zeroRange` leaves as it was. -/

@[simp] theorem State.zeroRange_regs (s : State) (a n : Nat) : (s.zeroRange a n).regs = s.regs := rfl
@[simp] theorem State.zeroRange_latch (s : State) (a n : Nat) : (s.zeroRange a n).latch = s.latch := rfl
@[simp] theorem State.zeroRange_flt (s : State) (a n : Nat) : (s.zeroRange a n).flt = s.flt := rfl
@[simp] theorem State.zeroRange_tim (s : State) (a n : Nat) : (s.zeroRange a n).tim = s.tim := rfl
@[simp] theorem State.zeroRange_arr (s : State) (a n : Nat) : (s.zeroRange a n).arr = s.arr := rfl
@[simp] theorem State.zeroRange_die (s : State) (a n : Nat) : (s.zeroRange a n).die = s.die := rfl
@[simp] theorem State.zeroRange_phys (s : State) (a n : Nat) : (s.zeroRange a n).phys = s.phys := rfl
@[simp] theorem State.zeroRange_grade56 (s : State) (a n : Nat) : (s.zeroRange a n).grade56 = s.grade56 := rfl
@[simp] theorem State.zeroRange_coreDis (s : State) (a n : Nat) : (s.zeroRange a n).coreDis = s.coreDis := rfl
@[simp] theorem State.zeroRange_te (s : State) (a n : Nat) : (s.zeroRange a n).te = s.te := rfl
@[simp] theorem State.zeroRange_ms (s : State) (a n : Nat) : (s.zeroRange a n).ms = s.ms := rfl
@[simp] theorem State.zeroRange_net (s : State) (a n : Nat) : (s.zeroRange a n).net = s.net := rfl
@[simp] theorem State.zeroRange_syn (s : State) (a n : Nat) : (s.zeroRange a n).syn = s.syn := rfl
@[simp] theorem State.zeroRange_tm (s : State) (a n : Nat) : (s.zeroRange a n).tm = s.tm := rfl
@[simp] theorem State.zeroRange_fh (s : State) (a n : Nat) : (s.zeroRange a n).fh = s.fh := rfl
@[simp] theorem State.zeroRange_sig (s : State) (a n : Nat) : (s.zeroRange a n).sig = s.sig := rfl
@[simp] theorem State.zeroRange_rad (s : State) (a n : Nat) : (s.zeroRange a n).rad = s.rad := rfl
@[simp] theorem State.zeroRange_hst (s : State) (a n : Nat) : (s.zeroRange a n).hst = s.hst := rfl
@[simp] theorem State.zeroRange_acct (s : State) (a n : Nat) : (s.zeroRange a n).acct = s.acct := rfl
@[simp] theorem State.zeroRange_aud (s : State) (a n : Nat) : (s.zeroRange a n).aud = s.aud := rfl
@[simp] theorem State.zeroRange_sp (s : State) (a n : Nat) : (s.zeroRange a n).sp = s.sp := rfl
@[simp] theorem State.zeroRange_srv (s : State) (a n : Nat) : (s.zeroRange a n).srv = s.srv := rfl
@[simp] theorem State.zeroRange_own (s : State) (a n : Nat) : (s.zeroRange a n).own = s.own := rfl
@[simp] theorem State.zeroRange_boot (s : State) (a n : Nat) : (s.zeroRange a n).boot = s.boot := rfl
@[simp] theorem State.zeroRange_clk (s : State) (a n : Nat) : (s.zeroRange a n).clk = s.clk := rfl
@[simp] theorem State.zeroRange_pwr (s : State) (a n : Nat) : (s.zeroRange a n).pwr = s.pwr := rfl
@[simp] theorem State.zeroRange_pins (s : State) (a n : Nat) : (s.zeroRange a n).pins = s.pins := rfl
@[simp] theorem State.zeroRange_img (s : State) (a n : Nat) : (s.zeroRange a n).img = s.img := rfl
@[simp] theorem State.zeroRange_out (s : State) (a n : Nat) : (s.zeroRange a n).out = s.out := rfl
@[simp] theorem State.zeroRange_free (s : State) (a n : Nat) : (s.zeroRange a n).free = s.free := rfl
@[simp] theorem State.zeroRange_pending (s : State) (a n : Nat) : (s.zeroRange a n).pending = s.pending := rfl
@[simp] theorem State.zeroRange_reg_ (s : State) (a n : Nat) (o : Nat) : (s.zeroRange a n).reg o = s.reg o := rfl
@[simp] theorem State.zeroRange_get_ (s : State) (a n : Nat) (g : FRef) : (s.zeroRange a n).get g = s.get g := rfl
@[simp] theorem State.zeroRange_flag_ (s : State) (a n : Nat) (g : FRef) : (s.zeroRange a n).flag g = s.flag g := rfl
@[simp] theorem State.zeroRange_reg64_ (s : State) (a n : Nat) (o : Nat) : (s.zeroRange a n).reg64 o = s.reg64 o := rfl
@[simp] theorem State.zeroRange_live_ (s : State) (a n : Nat) : (s.zeroRange a n).live = s.live := rfl
@[simp] theorem State.zeroRange_arrOf_ (s : State) (a n : Nat) (j : Nat) : (s.zeroRange a n).arrOf j = s.arrOf j := rfl
@[simp] theorem State.zeroRange_src_ (s : State) (a n : Nat) (j : Nat) : (s.zeroRange a n).src j = s.src j := rfl

/-! What `copyRange` leaves as it was. -/

@[simp] theorem State.copyRange_regs (s : State) (d a n : Nat) : (s.copyRange d a n).regs = s.regs := rfl
@[simp] theorem State.copyRange_latch (s : State) (d a n : Nat) : (s.copyRange d a n).latch = s.latch := rfl
@[simp] theorem State.copyRange_flt (s : State) (d a n : Nat) : (s.copyRange d a n).flt = s.flt := rfl
@[simp] theorem State.copyRange_tim (s : State) (d a n : Nat) : (s.copyRange d a n).tim = s.tim := rfl
@[simp] theorem State.copyRange_arr (s : State) (d a n : Nat) : (s.copyRange d a n).arr = s.arr := rfl
@[simp] theorem State.copyRange_die (s : State) (d a n : Nat) : (s.copyRange d a n).die = s.die := rfl
@[simp] theorem State.copyRange_phys (s : State) (d a n : Nat) : (s.copyRange d a n).phys = s.phys := rfl
@[simp] theorem State.copyRange_grade56 (s : State) (d a n : Nat) : (s.copyRange d a n).grade56 = s.grade56 := rfl
@[simp] theorem State.copyRange_coreDis (s : State) (d a n : Nat) : (s.copyRange d a n).coreDis = s.coreDis := rfl
@[simp] theorem State.copyRange_te (s : State) (d a n : Nat) : (s.copyRange d a n).te = s.te := rfl
@[simp] theorem State.copyRange_ms (s : State) (d a n : Nat) : (s.copyRange d a n).ms = s.ms := rfl
@[simp] theorem State.copyRange_net (s : State) (d a n : Nat) : (s.copyRange d a n).net = s.net := rfl
@[simp] theorem State.copyRange_syn (s : State) (d a n : Nat) : (s.copyRange d a n).syn = s.syn := rfl
@[simp] theorem State.copyRange_tm (s : State) (d a n : Nat) : (s.copyRange d a n).tm = s.tm := rfl
@[simp] theorem State.copyRange_fh (s : State) (d a n : Nat) : (s.copyRange d a n).fh = s.fh := rfl
@[simp] theorem State.copyRange_sig (s : State) (d a n : Nat) : (s.copyRange d a n).sig = s.sig := rfl
@[simp] theorem State.copyRange_rad (s : State) (d a n : Nat) : (s.copyRange d a n).rad = s.rad := rfl
@[simp] theorem State.copyRange_hst (s : State) (d a n : Nat) : (s.copyRange d a n).hst = s.hst := rfl
@[simp] theorem State.copyRange_acct (s : State) (d a n : Nat) : (s.copyRange d a n).acct = s.acct := rfl
@[simp] theorem State.copyRange_aud (s : State) (d a n : Nat) : (s.copyRange d a n).aud = s.aud := rfl
@[simp] theorem State.copyRange_sp (s : State) (d a n : Nat) : (s.copyRange d a n).sp = s.sp := rfl
@[simp] theorem State.copyRange_srv (s : State) (d a n : Nat) : (s.copyRange d a n).srv = s.srv := rfl
@[simp] theorem State.copyRange_own (s : State) (d a n : Nat) : (s.copyRange d a n).own = s.own := rfl
@[simp] theorem State.copyRange_boot (s : State) (d a n : Nat) : (s.copyRange d a n).boot = s.boot := rfl
@[simp] theorem State.copyRange_clk (s : State) (d a n : Nat) : (s.copyRange d a n).clk = s.clk := rfl
@[simp] theorem State.copyRange_pwr (s : State) (d a n : Nat) : (s.copyRange d a n).pwr = s.pwr := rfl
@[simp] theorem State.copyRange_pins (s : State) (d a n : Nat) : (s.copyRange d a n).pins = s.pins := rfl
@[simp] theorem State.copyRange_img (s : State) (d a n : Nat) : (s.copyRange d a n).img = s.img := rfl
@[simp] theorem State.copyRange_out (s : State) (d a n : Nat) : (s.copyRange d a n).out = s.out := rfl
@[simp] theorem State.copyRange_free (s : State) (d a n : Nat) : (s.copyRange d a n).free = s.free := rfl
@[simp] theorem State.copyRange_pending (s : State) (d a n : Nat) : (s.copyRange d a n).pending = s.pending := rfl
@[simp] theorem State.copyRange_reg_ (s : State) (d a n : Nat) (o : Nat) : (s.copyRange d a n).reg o = s.reg o := rfl
@[simp] theorem State.copyRange_get_ (s : State) (d a n : Nat) (g : FRef) : (s.copyRange d a n).get g = s.get g := rfl
@[simp] theorem State.copyRange_flag_ (s : State) (d a n : Nat) (g : FRef) : (s.copyRange d a n).flag g = s.flag g := rfl
@[simp] theorem State.copyRange_reg64_ (s : State) (d a n : Nat) (o : Nat) : (s.copyRange d a n).reg64 o = s.reg64 o := rfl
@[simp] theorem State.copyRange_live_ (s : State) (d a n : Nat) : (s.copyRange d a n).live = s.live := rfl
@[simp] theorem State.copyRange_arrOf_ (s : State) (d a n : Nat) (j : Nat) : (s.copyRange d a n).arrOf j = s.arrOf j := rfl
@[simp] theorem State.copyRange_src_ (s : State) (d a n : Nat) (j : Nat) : (s.copyRange d a n).src j = s.src j := rfl

/-! What `account` leaves as it was. -/

@[simp] theorem State.account_regs (s : State) (k i n : Nat) : (s.account k i n).regs = s.regs := rfl
@[simp] theorem State.account_mem (s : State) (k i n : Nat) : (s.account k i n).mem = s.mem := rfl
@[simp] theorem State.account_latch (s : State) (k i n : Nat) : (s.account k i n).latch = s.latch := rfl
@[simp] theorem State.account_flt (s : State) (k i n : Nat) : (s.account k i n).flt = s.flt := rfl
@[simp] theorem State.account_tim (s : State) (k i n : Nat) : (s.account k i n).tim = s.tim := rfl
@[simp] theorem State.account_arr (s : State) (k i n : Nat) : (s.account k i n).arr = s.arr := rfl
@[simp] theorem State.account_die (s : State) (k i n : Nat) : (s.account k i n).die = s.die := rfl
@[simp] theorem State.account_phys (s : State) (k i n : Nat) : (s.account k i n).phys = s.phys := rfl
@[simp] theorem State.account_grade56 (s : State) (k i n : Nat) : (s.account k i n).grade56 = s.grade56 := rfl
@[simp] theorem State.account_coreDis (s : State) (k i n : Nat) : (s.account k i n).coreDis = s.coreDis := rfl
@[simp] theorem State.account_te (s : State) (k i n : Nat) : (s.account k i n).te = s.te := rfl
@[simp] theorem State.account_ms (s : State) (k i n : Nat) : (s.account k i n).ms = s.ms := rfl
@[simp] theorem State.account_net (s : State) (k i n : Nat) : (s.account k i n).net = s.net := rfl
@[simp] theorem State.account_syn (s : State) (k i n : Nat) : (s.account k i n).syn = s.syn := rfl
@[simp] theorem State.account_tm (s : State) (k i n : Nat) : (s.account k i n).tm = s.tm := rfl
@[simp] theorem State.account_fh (s : State) (k i n : Nat) : (s.account k i n).fh = s.fh := rfl
@[simp] theorem State.account_sig (s : State) (k i n : Nat) : (s.account k i n).sig = s.sig := rfl
@[simp] theorem State.account_rad (s : State) (k i n : Nat) : (s.account k i n).rad = s.rad := rfl
@[simp] theorem State.account_hst (s : State) (k i n : Nat) : (s.account k i n).hst = s.hst := rfl
@[simp] theorem State.account_aud (s : State) (k i n : Nat) : (s.account k i n).aud = s.aud := rfl
@[simp] theorem State.account_sp (s : State) (k i n : Nat) : (s.account k i n).sp = s.sp := rfl
@[simp] theorem State.account_srv (s : State) (k i n : Nat) : (s.account k i n).srv = s.srv := rfl
@[simp] theorem State.account_own (s : State) (k i n : Nat) : (s.account k i n).own = s.own := rfl
@[simp] theorem State.account_boot (s : State) (k i n : Nat) : (s.account k i n).boot = s.boot := rfl
@[simp] theorem State.account_clk (s : State) (k i n : Nat) : (s.account k i n).clk = s.clk := rfl
@[simp] theorem State.account_pwr (s : State) (k i n : Nat) : (s.account k i n).pwr = s.pwr := rfl
@[simp] theorem State.account_pins (s : State) (k i n : Nat) : (s.account k i n).pins = s.pins := rfl
@[simp] theorem State.account_img (s : State) (k i n : Nat) : (s.account k i n).img = s.img := rfl
@[simp] theorem State.account_out (s : State) (k i n : Nat) : (s.account k i n).out = s.out := rfl
@[simp] theorem State.account_free (s : State) (k i n : Nat) : (s.account k i n).free = s.free := rfl
@[simp] theorem State.account_pending (s : State) (k i n : Nat) : (s.account k i n).pending = s.pending := rfl
@[simp] theorem State.account_reg_ (s : State) (k i n : Nat) (o : Nat) : (s.account k i n).reg o = s.reg o := rfl
@[simp] theorem State.account_get_ (s : State) (k i n : Nat) (g : FRef) : (s.account k i n).get g = s.get g := rfl
@[simp] theorem State.account_flag_ (s : State) (k i n : Nat) (g : FRef) : (s.account k i n).flag g = s.flag g := rfl
@[simp] theorem State.account_reg64_ (s : State) (k i n : Nat) (o : Nat) : (s.account k i n).reg64 o = s.reg64 o := rfl
@[simp] theorem State.account_readByte_ (s : State) (k i n : Nat) (y : Nat) : (s.account k i n).readByte y = s.readByte y := rfl
@[simp] theorem State.account_live_ (s : State) (k i n : Nat) : (s.account k i n).live = s.live := rfl
@[simp] theorem State.account_arrOf_ (s : State) (k i n : Nat) (j : Nat) : (s.account k i n).arrOf j = s.arrOf j := rfl
@[simp] theorem State.account_src_ (s : State) (k i n : Nat) (j : Nat) : (s.account k i n).src j = s.src j := rfl

/-! What a message to the collector does (R487, R488). -/

@[simp] theorem State.raise_phase (s : State) (src kind addr aux : Nat) : (s.raise src kind addr aux).flt.phase = s.flt.phase := rfl
@[simp] theorem State.raise_live_ (s : State) (src kind addr aux : Nat) : (s.raise src kind addr aux).live = s.live := rfl
@[simp] theorem State.raise_inbox (s : State) (src kind addr aux : Nat) : (s.raise src kind addr aux).flt.inbox =
    s.flt.inbox ++ [{ source := src, kind := kind, seq := (s.src src).seq, tick := s.tim.tick % 2 ^ 32, addr := addr % 2 ^ 48, aux := aux % 2 ^ 16 }] := rfl
@[simp] theorem State.raise_seq (s : State) (src kind addr aux : Nat) : ((s.raise src kind addr aux).src src).seq = ((s.src src).seq + 1) % 4096 := by
  simp [State.raise, State.src]
theorem State.raise_src_ne (s : State) (src kind addr aux k : Nat) (h : k ≠ src) : (s.raise src kind addr aux).src k = s.src k := by
  simp [State.raise, State.src, sget_sset, h]
@[simp] theorem State.emit_out (s : State) (o : Out) : (s.emit o).out = s.out ++ [o] := rfl

/-! Registers: read after write. -/

@[simp] theorem State.reg_setReg_same (s : State) (off : Nat) (v : BitVec 32) : (s.setReg off v).reg off = v := by
  simp [State.reg, State.setReg]
theorem State.reg_setReg_ne (s : State) (off o : Nat) (v : BitVec 32) (h : o ≠ off) : (s.setReg off v).reg o = s.reg o := by
  simp only [State.reg, State.setReg]
  unfold sset
  by_cases hv : v = BitVec.ofNat 32 (resetAt off)
  · simp [hv, sget_sdel_ne _ s.regs off o h]
  · simp [hv, sget_sins_ne _ _ off o v h, sget_sdel_ne _ s.regs off o h]
theorem State.reg_setReg (s : State) (off o : Nat) (v : BitVec 32) : (s.setReg off v).reg o = if o = off then v else s.reg o := by
  by_cases h : o = off
  · subst h; simp
  · simp [h, State.reg_setReg_ne s off o v h]

/-- Whether a field reference names bits of a 32-bit register. -/
def FRef.fits (f : FRef) : Bool := decide (f.lo ≤ f.hi) && decide (f.hi < 32)

theorem State.reg_put_ne (s : State) (f : FRef) (v o : Nat) (h : o ≠ f.off) : (s.put f v).reg o = s.reg o :=
  State.reg_setReg_ne s f.off o _ h
theorem State.get_put_ne (s : State) (f g : FRef) (v : Nat) (h : g.off ≠ f.off) : (s.put f v).get g = s.get g := by
  simp [State.get, State.reg_put_ne s f v g.off h]

theorem State.put_word (s : State) (f : FRef) (v : Nat) (hf : f.fits = true) :
    ((s.put f v).reg f.off).toNat = setBits (s.reg f.off).toNat f.hi f.lo v := by
  simp only [FRef.fits, Bool.and_eq_true, decide_eq_true_eq] at hf
  simp only [State.put, State.reg_setReg_same, BitVec.toNat_ofNat]
  exact Nat.mod_eq_of_lt (setBits_lt _ _ _ _ 32 hf.1 hf.2 (s.reg f.off).isLt)

/-- Reading the field that was stored. -/
theorem State.get_put_same (s : State) (f : FRef) (v : Nat) (hf : f.fits = true) : (s.put f v).get f = v % 2 ^ (f.hi + 1 - f.lo) := by
  have h := hf
  simp only [FRef.fits, Bool.and_eq_true, decide_eq_true_eq] at h
  rw [State.get, State.put_word s f v hf, bits_setBits_same _ _ _ _ h.1]

/-- Reading a field that shares no bit with the one stored. -/
theorem State.get_put_disj (s : State) (f g : FRef) (v : Nat) (hf : f.fits = true) (hg : g.fits = true)
    (hd : g.off ≠ f.off ∨ f.hi < g.lo ∨ g.hi < f.lo) : (s.put f v).get g = s.get g := by
  by_cases ho : g.off = f.off
  · have hd' : f.hi < g.lo ∨ g.hi < f.lo := by tauto
    have h := hf
    simp only [FRef.fits, Bool.and_eq_true, decide_eq_true_eq] at h hg
    rw [State.get, ho, State.put_word s f v hf, bits_setBits_disj _ _ _ _ _ _ h.1 hg.1 hd', State.get, ho]
  · exact State.get_put_ne s f g v ho

/-- A counter field after counting (R13): saturating at its width. -/
theorem State.get_bump_same (s : State) (f : FRef) (hf : f.fits = true) :
    (s.bump f).get f = min (s.get f + 1) (2 ^ (f.hi + 1 - f.lo) - 1) := by
  have hp : 0 < 2 ^ (f.hi + 1 - f.lo) := by positivity
  rw [State.bump, State.bumpBy, State.get_put_same _ _ _ hf, satAdd]
  exact Nat.mod_eq_of_lt (by omega)

/-! The canonical form of the register store and of memory. -/

theorem regsWf_iff (m : SMap (BitVec 32)) :
    regsWf m = true ↔ m.Pairwise (fun a b => a.1 < b.1) ∧ ∀ e ∈ m, e.2 ≠ BitVec.ofNat 32 (resetAt e.1) := by
  induction m with
  | nil => simp [regsWf]
  | cons e m ih =>
    obtain ⟨k, v⟩ := e
    simp only [regsWf, Bool.and_eq_true, decide_eq_true_eq, List.all_eq_true, ih, List.pairwise_cons, List.mem_cons, forall_eq_or_imp]
    tauto

/-- Storing a register keeps the canonical form of the register store. -/
theorem regsWf_setReg (s : State) (off : Nat) (v : BitVec 32) (h : regsWf s.regs = true) : regsWf (s.setReg off v).regs = true := by
  rw [regsWf_iff] at h ⊢
  simp only [State.setReg]
  unfold sset
  by_cases hv : v = BitVec.ofNat 32 (resetAt off)
  · simp only [hv, ↓reduceIte]
    exact ⟨rising_sdel _ _ h.1, fun e he => h.2 e ((mem_sdel _ _ e).1 he).1⟩
  · simp only [hv, ↓reduceIte]
    refine ⟨rising_sins _ _ _ (fun e he => ((mem_sdel _ _ e).1 he).2) (rising_sdel _ _ h.1), fun e he => ?_⟩
    rcases (mem_sins _ _ _ e).1 he with h1 | h1
    · subst h1; exact hv
    · exact h.2 e ((mem_sdel _ _ e).1 h1).1

end Sys2Proof.Machine
end

