-- ==== Sys2Proof/Laws/Memory.lean ====
section
/-! SUPPORT. Every memory operation keeps the canonical form, and what a byte reads after it. -/
namespace Sys2Proof.Machine
open Sys2Proof

theorem sget_filter {α : Type} (d : α) (m : SMap α) (p : Nat → Bool) (j : Nat) :
    sget d (m.filter (fun e => p e.1)) j = if p j = true then sget d m j else d := by
  induction m with
  | nil => simp
  | cons e m ih =>
    obtain ⟨k, v⟩ := e
    by_cases hj : j = k
    · subst hj
      by_cases hp : p j = true <;> simp [hp, sget, ih]
    · by_cases hk : p k = true <;> simp [hk, sget, hj, ih]

theorem sget_of_forall_ne {α : Type} (d : α) (m : SMap α) (j : Nat) (h : ∀ e ∈ m, e.1 ≠ j) : sget d m j = d := by
  induction m with
  | nil => rfl
  | cons e m ih =>
    obtain ⟨k, v⟩ := e
    have hk : j ≠ k := fun hc => h (k, v) (by simp) hc.symm
    simp [sget, hk, ih (fun e he => h e (by simp [he]))]

theorem sget_append {α : Type} (d : α) (m n : SMap α) (j : Nat) :
    sget d (m ++ n) j = if ∃ e ∈ m, e.1 = j then sget d m j else sget d n j := by
  induction m with
  | nil => simp
  | cons e m ih =>
    obtain ⟨k, v⟩ := e
    by_cases hj : j = k
    · subst hj; simp [sget]
    · simp only [List.cons_append, sget, hj, ↓reduceIte, ih, List.mem_cons, exists_eq_or_imp, Ne.symm hj, false_or]

/-- The cells of a list of bytes lie in its range. -/
theorem mem_cellsFrom (bs : List Byte) : ∀ a, ∀ e ∈ cellsFrom a bs, a ≤ e.1 ∧ e.1 < a + bs.length := by
  induction bs with
  | nil => simp [cellsFrom]
  | cons b bs ih =>
    intro a e he
    simp only [cellsFrom] at he
    by_cases hb : b = 0
    · simp only [hb, ↓reduceIte] at he
      have := ih (a + 1) e he
      simp only [List.length_cons]; omega
    · simp only [hb, ↓reduceIte, List.mem_cons] at he
      simp only [List.length_cons]
      rcases he with h | h
      · subst h; exact ⟨Nat.le_refl a, by show a < a + (bs.length + 1); omega⟩
      · have := ih (a + 1) e h; omega

theorem swf_cellsFrom (bs : List Byte) : ∀ a, swf 0 (cellsFrom a bs) = true := by
  induction bs with
  | nil => simp [cellsFrom, swf]
  | cons b bs ih =>
    intro a
    by_cases hb : b = 0
    · simpa [cellsFrom, hb] using ih (a + 1)
    · simp only [cellsFrom, hb, ↓reduceIte, swf, Bool.and_eq_true, decide_eq_true_eq, List.all_eq_true]
      exact ⟨⟨hb, fun e he => (mem_cellsFrom bs (a + 1) e he).1⟩, ih (a + 1)⟩

theorem sget_cellsFrom (bs : List Byte) : ∀ a i, sget 0 (cellsFrom a bs) (a + i) = bs.getD i 0 := by
  induction bs with
  | nil => intro a i; simp [cellsFrom]
  | cons b bs ih =>
    intro a i
    cases i with
    | zero =>
      by_cases hb : b = 0
      · simp only [cellsFrom, hb, ↓reduceIte, Nat.add_zero, List.getD_cons_zero]
        exact sget_of_forall_ne 0 _ a (fun e he => by have := (mem_cellsFrom bs (a + 1) e he).1; omega)
      · simp only [cellsFrom, hb, ↓reduceIte, Nat.add_zero, sget, List.getD_cons_zero]
    | succ i =>
      have h := ih (a + 1) i
      rw [show a + 1 + i = a + (i + 1) by omega] at h
      by_cases hb : b = 0
      · simpa only [cellsFrom, hb, ↓reduceIte, List.getD_cons_succ] using h
      · simpa only [cellsFrom, hb, ↓reduceIte, sget, show ¬(a + (i + 1) = a) by omega, List.getD_cons_succ] using h

/-- Reading after an overlay. -/
theorem sget_overlay (m : SMap Byte) (a n : Nat) (c : SMap Byte) (hc : ∀ e ∈ c, a ≤ e.1 ∧ e.1 < a + n) (b : Nat) :
    sget 0 (overlay m a n c) b = if a ≤ b ∧ b < a + n then sget 0 c b else sget 0 m b := by
  have f1 : sget (0 : Byte) (m.filter (fun e => decide (e.1 < a))) b = if b < a then sget 0 m b else 0 := by
    simpa using sget_filter (0 : Byte) m (fun k => decide (k < a)) b
  have f2 : sget (0 : Byte) (m.filter (fun e => decide (a + n ≤ e.1))) b = if a + n ≤ b then sget 0 m b else 0 := by
    simpa using sget_filter (0 : Byte) m (fun k => decide (a + n ≤ k)) b
  unfold overlay
  rw [sget_append, sget_append]
  by_cases h1 : b < a
  · have hn : ¬(a ≤ b ∧ b < a + n) := by omega
    simp only [hn, ↓reduceIte]
    by_cases he : ∃ e ∈ m.filter (fun e => decide (e.1 < a)), e.1 = b
    · have : ∃ e ∈ m.filter (fun e => decide (e.1 < a)) ++ c, e.1 = b := by
        obtain ⟨e, h, h'⟩ := he; exact ⟨e, by simp [h], h'⟩
      simp only [this, he, ↓reduceIte, f1, h1]
    · have hm : ∀ e ∈ m, e.1 ≠ b := fun e h hb => he ⟨e, by simp [h, hb, h1], hb⟩
      have hcn : ¬ ∃ e ∈ m.filter (fun e => decide (e.1 < a)) ++ c, e.1 = b := by
        rintro ⟨e, h, hb⟩
        rcases List.mem_append.1 h with h | h
        · exact he ⟨e, h, hb⟩
        · have := hc e h; omega
      simp only [hcn, ↓reduceIte, f2, sget_of_forall_ne 0 m b hm]
      split <;> rfl
  · have hno : ¬ ∃ e ∈ m.filter (fun e => decide (e.1 < a)), e.1 = b := by
      rintro ⟨e, h, hb⟩
      have := (List.mem_filter.1 h).2
      simp only [decide_eq_true_eq] at this
      omega
    by_cases h2 : b < a + n
    · have hy : a ≤ b ∧ b < a + n := by omega
      simp only [hy, and_self, ↓reduceIte]
      by_cases he : ∃ e ∈ c, e.1 = b
      · have : ∃ e ∈ m.filter (fun e => decide (e.1 < a)) ++ c, e.1 = b := by
          obtain ⟨e, h, h'⟩ := he; exact ⟨e, by simp [h], h'⟩
        simp only [this, hno, ↓reduceIte]
      · have hcb : ∀ e ∈ c, e.1 ≠ b := fun e h hb => he ⟨e, h, hb⟩
        have : ¬ ∃ e ∈ m.filter (fun e => decide (e.1 < a)) ++ c, e.1 = b := by
          rintro ⟨e, h, hb⟩
          rcases List.mem_append.1 h with h | h
          · exact hno ⟨e, h, hb⟩
          · exact he ⟨e, h, hb⟩
        have h3 : ¬ (a + n ≤ b) := by omega
        simp only [this, ↓reduceIte, f2, h3, sget_of_forall_ne 0 c b hcb]
    · have hy : ¬(a ≤ b ∧ b < a + n) := by omega
      have hx : ¬ ∃ e ∈ m.filter (fun e => decide (e.1 < a)) ++ c, e.1 = b := by
        rintro ⟨e, h, hb⟩
        rcases List.mem_append.1 h with h | h
        · exact hno ⟨e, h, hb⟩
        · have := hc e h; omega
      have h3 : a + n ≤ b := by omega
      simp only [hx, ↓reduceIte, hy, f2, h3]

/-- An overlay by a canonical piece of its range keeps the canonical form. -/
theorem swf_overlay (m : SMap Byte) (a n : Nat) (c : SMap Byte) (hc : ∀ e ∈ c, a ≤ e.1 ∧ e.1 < a + n) (hw : swf 0 c = true)
    (hm : swf 0 m = true) : swf 0 (overlay m a n c) = true := by
  unfold overlay
  refine swf_append 0 _ _ (swf_append 0 _ _ (swf_filter 0 m _ hm) hw ?_) (swf_filter 0 m _ hm) ?_
  · intro x hx y hy
    have h1 := (List.mem_filter.1 hx).2
    simp only [decide_eq_true_eq] at h1
    exact Nat.lt_of_lt_of_le h1 (hc y hy).1
  · intro x hx y hy
    have h2 := (List.mem_filter.1 hy).2
    simp only [decide_eq_true_eq] at h2
    rcases List.mem_append.1 hx with h | h
    · have h1 := (List.mem_filter.1 h).2
      simp only [decide_eq_true_eq] at h1
      omega
    · have := hc x h; omega

/-- Reading a byte after bytes were stored. -/
theorem State.readByte_writeBytes (s : State) (a : Nat) (bs : List Byte) (b : Nat) :
    (s.writeBytes a bs).readByte b = if a ≤ b ∧ b < a + bs.length then bs.getD (b - a) 0 else s.readByte b := by
  simp only [State.readByte, State.writeBytes]
  rw [sget_overlay _ _ _ _ (fun e he => mem_cellsFrom bs a e he)]
  by_cases h : a ≤ b ∧ b < a + bs.length
  · have := sget_cellsFrom bs a (b - a)
    rw [show a + (b - a) = b by omega] at this
    simp only [h, and_self, ↓reduceIte, this]
  · simp only [h, ↓reduceIte]

/-- Storing bytes leaves every other byte alone. -/
theorem State.memBut_writeBytes (s : State) (a : Nat) (bs : List Byte) : s.memBut (s.writeBytes a bs) a bs.length := by
  intro b hb
  rw [State.readByte_writeBytes]
  simp only [show ¬(a ≤ b ∧ b < a + bs.length) by omega, ↓reduceIte]

/-- Reading a byte after a range was zeroed. -/
theorem State.readByte_zeroRange (s : State) (a n b : Nat) :
    (s.zeroRange a n).readByte b = if a ≤ b ∧ b < a + n then 0 else s.readByte b := by
  simp only [State.readByte, State.zeroRange]
  rw [sget_overlay _ _ _ _ (by simp)]
  simp

theorem swf_slice (m : SMap Byte) (a n : Nat) (h : swf 0 m = true) : swf 0 (slice m a n) = true := by
  rw [swf_iff] at h ⊢
  unfold slice
  constructor
  · rw [List.pairwise_map]
    refine List.Pairwise.imp_of_mem ?_ (h.1.filter _)
    intro x y hx hy hxy
    have h1 := (List.mem_filter.1 hx).2
    have h2 := (List.mem_filter.1 hy).2
    simp only [Bool.and_eq_true, decide_eq_true_eq] at h1 h2
    show x.1 - a < y.1 - a
    omega
  · intro e he
    obtain ⟨x, hx, rfl⟩ := List.mem_map.1 he
    exact h.2 x (List.mem_filter.1 hx).1

theorem mem_slice (m : SMap Byte) (a n : Nat) : ∀ e ∈ slice m a n, e.1 < n := by
  intro e he
  obtain ⟨x, hx, rfl⟩ := List.mem_map.1 he
  have h := (List.mem_filter.1 hx).2
  simp only [Bool.and_eq_true, decide_eq_true_eq] at h
  show x.1 - a < n
  omega

/-! The canonical form is kept. -/

theorem Memory.wf_writeBytes (s : State) (a : Nat) (bs : List Byte) (h : Memory.wf s.mem = true) : Memory.wf (s.writeBytes a bs).mem = true :=
  swf_overlay _ _ _ _ (fun e he => mem_cellsFrom bs a e he) (swf_cellsFrom bs a) h

theorem Memory.wf_writeLE (s : State) (a n v : Nat) (h : Memory.wf s.mem = true) : Memory.wf (s.writeLE a n v).mem = true :=
  Memory.wf_writeBytes s a _ h

theorem Memory.wf_zeroRange (s : State) (a n : Nat) (h : Memory.wf s.mem = true) : Memory.wf (s.zeroRange a n).mem = true :=
  swf_overlay _ _ _ _ (by simp) (by rfl) h

theorem Memory.wf_copyRange (s : State) (dst src n : Nat) (h : Memory.wf s.mem = true) : Memory.wf (s.copyRange dst src n).mem = true := by
  refine swf_overlay _ _ _ _ ?_ ?_ h
  · intro e he
    obtain ⟨x, hx, rfl⟩ := List.mem_map.1 he
    have := mem_slice s.mem src n x hx
    show dst ≤ x.1 + dst ∧ x.1 + dst < dst + n
    omega
  · have hs := swf_slice s.mem src n h
    rw [swf_iff] at hs ⊢
    constructor
    · rw [List.pairwise_map]
      exact hs.1.imp (fun {x y} hxy => by show x.1 + dst < y.1 + dst; omega)
    · intro e he
      obtain ⟨x, hx, rfl⟩ := List.mem_map.1 he
      exact hs.2 x hx

theorem Memory.wf_freeRange (s : State) (a n : Nat) (h : Memory.wf s.mem = true) : Memory.wf (s.freeRange a n).mem = true :=
  Memory.wf_writeBytes s a _ h

end Sys2Proof.Machine
end

