-- ==== Sys2Proof/Laws/Frames.lean ====
section
/-! SUPPORT. The frame of the register operations, said once: which bits each leaves as they were, and how frames compose. -/
namespace Sys2Proof.Machine
open Sys2Proof

theorem State.bitsBut_refl (s : State) (l : List FRef) : s.bitsBut s l := fun _ _ _ _ => rfl

theorem State.bitsBut_of_regs {s t : State} (h : t.regs = s.regs) (l : List FRef) : s.bitsBut t l := by
  intro g _ _ _
  simp only [State.get, State.reg, h]

theorem State.bitsBut_mono {s t : State} {l k : List FRef} (h : s.bitsBut t l) (hl : ∀ f ∈ l, f ∈ k) : s.bitsBut t k :=
  fun g h1 h2 h3 => h g h1 h2 (fun f hf => h3 f (hl f hf))

theorem State.bitsBut_trans {s t u : State} {l : List FRef} (h : s.bitsBut t l) (h' : t.bitsBut u l) : s.bitsBut u l :=
  fun g h1 h2 h3 => (h' g h1 h2 h3).trans (h g h1 h2 h3)

theorem State.bitsBut_put (s : State) (f : FRef) (v : Nat) (hf : f.fits = true) (l : List FRef) (hl : f ∈ l) : s.bitsBut (s.put f v) l := by
  intro g h1 h2 h3
  exact State.get_put_disj s f g v hf (by simp [FRef.fits, h1, h2]) (h3 f hl)

theorem State.bitsBut_putB (s : State) (f : FRef) (b : Bool) (hf : f.fits = true) (l : List FRef) (hl : f ∈ l) : s.bitsBut (s.putB f b) l :=
  State.bitsBut_put s f _ hf l hl

theorem State.bitsBut_bump (s : State) (f : FRef) (hf : f.fits = true) (l : List FRef) (hl : f ∈ l) : s.bitsBut (s.bump f) l :=
  State.bitsBut_put s f _ hf l hl

theorem State.bitsBut_status (s : State) (f : FRef) (hf : f.fits = true) (l : List FRef) (hl : f ∈ l) (hc : f.count ∈ l) :
    s.bitsBut (s.status f) l :=
  State.bitsBut_trans (State.bitsBut_put s f 1 hf l hl) (State.bitsBut_bump _ f.count (by simp [FRef.fits, FRef.count]) l hc)

/-- R504: a status bit reads 1 after it was set. -/
theorem State.get_status_same (s : State) (f : FRef) (hf : f.fits = true) (h1 : f.hi = f.lo) : (s.status f).get f = 1 := by
  have h := hf
  simp only [FRef.fits, Bool.and_eq_true, decide_eq_true_eq] at h
  rw [State.status, State.bump, State.bumpBy, State.get_put_ne _ _ _ _ (by show f.off ≠ f.off + 4; omega), State.get_put_same _ _ _ hf, h1]
  simp

/-- R504: the set-count of a status bit increases, saturating. -/
theorem State.get_status_count (s : State) (f : FRef) : (s.status f).get f.count = min (s.get f.count + 1) 65535 := by
  have e : (s.status f) = (s.put f 1).bump f.count := rfl
  rw [e, State.get_bump_same _ _ (by simp [FRef.fits, FRef.count]), State.get_put_ne _ _ _ _ (by show f.off + 4 ≠ f.off; omega)]
  simp [FRef.count]

theorem State.get_status_ne (s : State) (f g : FRef) (h : g.off ≠ f.off) (h4 : g.off ≠ f.off + 4) : (s.status f).get g = s.get g := by
  rw [State.status, State.bump, State.bumpBy, State.get_put_ne _ _ _ _ h4, State.get_put_ne _ _ _ _ h]

/-- A message sent to the collector (R487, R488). -/
theorem State.sends_raise (s : State) (src kind addr aux : Nat) : s.sends (s.raise src kind addr aux) src kind addr aux :=
  ⟨rfl, State.raise_seq s src kind addr aux, fun k h => State.raise_src_ne s src kind addr aux k h⟩

/-- What a message is depends on its source's count and the tick only. -/
theorem State.sends_of {s u t : State} {src kind addr aux : Nat} (hf : u.flt = s.flt) (ht : u.tim.tick = s.tim.tick)
    (h : u.sends t src kind addr aux) : s.sends t src kind addr aux := by
  have hs : ∀ k, u.src k = s.src k := fun k => by simp [State.src, hf]
  have hm : u.msg src kind addr aux = s.msg src kind addr aux := by simp [State.msg, hs, ht]
  obtain ⟨h1, h2, h3⟩ := h
  refine ⟨?_, by rw [h2, hs], fun k hk => by rw [h3 k hk, hs]⟩
  rw [h1, hf, hm]

end Sys2Proof.Machine
end

