-- ==== Sys2Proof/Laws/Shared.lean ====
section
/-! SUPPORT. One lemma per shared operation that says what it keeps: the queue, and the canonical form of memory, registers and the context
table; and which parts of the state it may change. The invariant of every step is put together from these. -/
namespace Sys2Proof.Machine
open Sys2Proof

/-- An operation leaves the queue as it was, and the canonical form holds after it if it held before. -/
def State.Keeps (s t : State) : Prop := t.pending = s.pending ∧ (s.canonical → t.canonical)

theorem State.keeps_refl (s : State) : s.Keeps s := ⟨rfl, id⟩

theorem State.Keeps.trans {s t u : State} (h : s.Keeps t) (k : t.Keeps u) : s.Keeps u := ⟨k.1.trans h.1, fun c => k.2 (h.2 c)⟩

/-- An operation on other parts of the state. -/
theorem State.keeps_of_same {s t : State} (hp : t.pending = s.pending) (hm : t.mem = s.mem) (hr : t.regs = s.regs)
    (hc : t.srv.ctx = s.srv.ctx) : s.Keeps t := ⟨hp, fun c => by simpa [State.canonical, hm, hr, hc] using c⟩

theorem State.keeps_ite {s t u : State} (c : Prop) [Decidable c] (ht : s.Keeps t) (hu : s.Keeps u) : s.Keeps (if c then t else u) := by
  split
  · exact ht
  · exact hu

theorem State.keeps_foldl {α : Type} (f : State → α → State) (h : ∀ (s : State) (x : α), s.Keeps (f s x)) (l : List α) :
    ∀ s : State, s.Keeps (l.foldl f s) := by
  induction l with
  | nil => exact State.keeps_refl
  | cons x l ih => exact fun s => (h s x).trans (ih (f s x))

theorem State.keeps_whenLive (s : State) (f : State → State) (h : ∀ s : State, s.Keeps (f s)) : s.Keeps (whenLive s f) :=
  State.keeps_ite _ (h s) (State.keeps_refl s)

/-! The register store. -/

theorem State.keeps_setReg (s : State) (off : Nat) (v : BitVec 32) : s.Keeps (s.setReg off v) :=
  ⟨rfl, fun c => ⟨c.1, regsWf_setReg s off v c.2.1, c.2.2⟩⟩

theorem State.keeps_put (s : State) (f : FRef) (v : Nat) : s.Keeps (s.put f v) := State.keeps_setReg s _ _

theorem State.keeps_putB (s : State) (f : FRef) (b : Bool) : s.Keeps (s.putB f b) := State.keeps_put s f _

theorem State.keeps_bumpBy (s : State) (f : FRef) (n : Nat) : s.Keeps (s.bumpBy f n) := State.keeps_put s f _

theorem State.keeps_bump (s : State) (f : FRef) : s.Keeps (s.bump f) := State.keeps_bumpBy s f 1

theorem State.keeps_setReg64 (s : State) (lo v : Nat) : s.Keeps (s.setReg64 lo v) :=
  (State.keeps_setReg s _ _).trans (State.keeps_setReg _ _ _)

theorem State.keeps_bump64 (s : State) (lo n : Nat) : s.Keeps (s.bump64 lo n) :=
  (State.keeps_setReg s _ _).trans (State.keeps_setReg _ _ _)

theorem State.keeps_status (s : State) (f : FRef) : s.Keeps (s.status f) := (State.keeps_put s f 1).trans (State.keeps_bump _ _)

/-! Messages, what leaves the block, free values, accounting. -/

theorem State.keeps_emit (s : State) (o : Out) : s.Keeps (s.emit o) := State.keeps_of_same rfl rfl rfl rfl

theorem State.keeps_raise (s : State) (src kind addr aux : Nat) : s.Keeps (s.raise src kind addr aux) := State.keeps_of_same rfl rfl rfl rfl

theorem State.keeps_enterRecovery (s : State) : s.Keeps s.enterRecovery :=
  State.keeps_ite _ (State.keeps_of_same rfl rfl rfl rfl) (State.keeps_refl s)

theorem State.keeps_freeW (s : State) : s.Keeps s.freeW.1 := State.keeps_of_same rfl rfl rfl rfl

theorem State.keeps_account (s : State) (k i n : Nat) : s.Keeps (s.account k i n) := State.keeps_of_same rfl rfl rfl rfl

theorem State.keeps_hostR (s : State) (slot port pasid a n : Nat) : s.Keeps (s.hostR slot port pasid a n) := State.keeps_of_same rfl rfl rfl rfl

theorem State.keeps_hostW (s : State) (slot port pasid a : Nat) (bs : List Byte) : s.Keeps (s.hostW slot port pasid a bs) :=
  State.keeps_of_same rfl rfl rfl rfl

theorem State.keeps_acctMem (s : State) (k a n : Nat) : s.Keeps (s.acctMem k a n) := by
  unfold State.acctMem
  split
  · exact State.keeps_account s k 2 n
  · exact State.keeps_account s k 3 n
  · exact State.keeps_refl s

/-! Memory (R32, R185, R209, R228). -/

theorem State.keeps_writeBytes (s : State) (a : Nat) (bs : List Byte) : s.Keeps (s.writeBytes a bs) :=
  ⟨rfl, fun c => ⟨Memory.wf_writeBytes s a bs c.1, c.2⟩⟩

theorem State.keeps_writeLE (s : State) (a n v : Nat) : s.Keeps (s.writeLE a n v) := State.keeps_writeBytes s a _

theorem State.keeps_zeroRange (s : State) (a n : Nat) : s.Keeps (s.zeroRange a n) :=
  ⟨rfl, fun c => ⟨Memory.wf_zeroRange s a n c.1, c.2⟩⟩

theorem State.keeps_copyRange (s : State) (dst src n : Nat) : s.Keeps (s.copyRange dst src n) :=
  ⟨rfl, fun c => ⟨Memory.wf_copyRange s dst src n c.1, c.2⟩⟩

theorem State.keeps_freeRange (s : State) (a n : Nat) : s.Keeps (s.freeRange a n) :=
  ⟨rfl, fun c => ⟨Memory.wf_freeRange s a n c.1, c.2⟩⟩

theorem State.keeps_reportUncorr (s : State) (g : Nat) : s.Keeps (s.reportUncorr g) :=
  ((((State.keeps_setReg s _ _).trans (State.keeps_put _ _ _)).trans (State.keeps_status _ _)).trans (State.keeps_bump _ _)).trans
    (State.keeps_raise _ _ _ _ _)

theorem State.keeps_reportCorr (s : State) (g : Nat) : s.Keeps (s.reportCorr g) :=
  have h : s.Keeps { s with ms := { s.ms with corr := s.ms.corr.filter (· ≠ g) } } := State.keeps_of_same rfl rfl rfl rfl
  ((h.trans (State.keeps_status _ _)).trans (State.keeps_bump _ _)).trans (State.keeps_raise _ _ _ _ _)

theorem State.keeps_putBytes (s : State) (a : Nat) (bs : List Byte) : s.Keeps (s.putBytes a bs) :=
  (State.keeps_of_same rfl rfl rfl rfl).trans (State.keeps_writeBytes _ _ _)

theorem State.keeps_mendPart (s : State) (a n : Nat) : s.Keeps (s.mendPart a n) := State.keeps_foldl _ State.keeps_reportCorr _ s

theorem State.keeps_putEnabled (s : State) (a : Nat) (bs : List (Option Byte)) : s.Keeps (s.putEnabled a bs) :=
  (((State.keeps_foldl _ State.keeps_reportCorr _ s).trans (State.keeps_foldl _ State.keeps_reportUncorr _ _)).trans
    (State.keeps_of_same rfl rfl rfl rfl)).trans (State.keeps_writeBytes _ _ _)

theorem State.keeps_fifoTake (s : State) (f n : Nat) : s.Keeps (s.fifoTake f n) :=
  State.keeps_ite _ (State.keeps_refl s) (State.keeps_of_same rfl rfl rfl rfl)

theorem State.keeps_atNs (s : State) (t : Nat) : s.Keeps (s.atNs t) := State.keeps_of_same rfl rfl rfl rfl

theorem State.keeps_load (s : State) (unit a n : Nat) : s.Keeps (s.load unit a n).1 := by
  have h : s.Keeps ((touched s.ms.corr a n).foldl (fun s g => s.reportCorr g) s) := State.keeps_foldl _ State.keeps_reportCorr _ s
  unfold State.load
  dsimp only
  split
  · exact State.keeps_raise s _ _ _ _
  · split
    · exact State.keeps_of_same rfl rfl rfl rfl
    · split
      · exact h
      · exact h.trans (State.keeps_foldl _ State.keeps_reportUncorr _ _)

theorem State.keeps_store (s : State) (unit a : Nat) (bs : List Byte) : s.Keeps (s.store unit a bs).1 := by
  unfold State.store
  dsimp only
  split
  · exact State.keeps_raise s _ _ _ _
  · split
    · exact State.keeps_of_same rfl rfl rfl rfl
    · split
      · exact State.keeps_raise s _ _ _ _
      · split
        · exact (State.keeps_mendPart s _ _).trans (State.keeps_putBytes _ _ _)
        · exact State.keeps_foldl _ State.keeps_reportUncorr _ _

/-! Contexts (R228). -/

theorem State.keeps_setCtx (s : State) (n : Nat) (c : Ctx) : s.Keeps (s.setCtx n c) :=
  ⟨rfl, fun k => ⟨k.1, k.2.1, swf_sset {} _ n c k.2.2⟩⟩

theorem State.keeps_modCtx (s : State) (n : Nat) (f : Ctx → Ctx) : s.Keeps (s.modCtx n f) := State.keeps_setCtx s n _

/-! Windows (R474 to R479). -/

theorem State.keeps_setWin (s : State) (w : Nat) (x : Win) : s.Keeps (s.setWin w x) := State.keeps_of_same rfl rfl rfl rfl

theorem State.keeps_enterWin (s : State) (w st : Nat) : s.Keeps (s.enterWin w st) :=
  State.keeps_ite _ (State.keeps_refl s) ((State.keeps_put s _ st).trans (State.keeps_setWin _ _ _))

theorem State.keeps_fire (s : State) (l v : Nat) : s.Keeps (s.fire l v) :=
  State.keeps_ite _ (State.keeps_ite _ (State.keeps_refl s) (State.keeps_of_same rfl rfl rfl rfl)) (State.keeps_emit s _)

theorem State.keeps_fireCpl (s : State) (w : Nat) : s.Keeps (s.fireCpl w) := State.keeps_ite _ (State.keeps_refl s) (State.keeps_fire s _ _)

theorem State.keeps_fireEvent (s : State) (w : Nat) : s.Keeps (s.fireEvent w) :=
  State.keeps_ite _ (State.keeps_refl s) (State.keeps_fire s _ _)

theorem State.keeps_coalesce (s : State) (w : Nat) : s.Keeps (s.coalesce w) :=
  State.keeps_ite _ ((State.keeps_setWin s _ _).trans (State.keeps_fireCpl _ _)) (State.keeps_setWin s _ _)

theorem State.keeps_commit (s : State) (w : Nat) (e : List Byte) : s.Keeps (s.commit w e) :=
  (((State.keeps_hostW s _ _ _ _ _).trans (State.keeps_hostW _ _ _ _ _ _)).trans (State.keeps_setWin _ _ _)).trans (State.keeps_coalesce _ _)

theorem State.keeps_flushCpl (w : Nat) : ∀ (fuel : Nat) (s : State), s.Keeps (s.flushCpl w fuel) := by
  intro fuel
  induction fuel with
  | zero => exact State.keeps_refl
  | succ fuel ih =>
    intro s
    unfold State.flushCpl
    simp only
    split
    · exact State.keeps_setWin s _ _
    · split
      · exact State.keeps_setWin s _ _
      · exact ((State.keeps_setWin s _ _).trans (State.keeps_commit _ _ _)).trans (ih _)

theorem State.keeps_flush (s : State) (w : Nat) : s.Keeps (s.flush w) := State.keeps_flushCpl w _ s

theorem State.keeps_post (s : State) (w : Nat) (e : List Byte) : s.Keeps (s.post w e) :=
  State.keeps_ite _ (State.keeps_ite _ (State.keeps_refl s) (State.keeps_bump s _)) ((State.keeps_setWin s _ _).trans (State.keeps_flush _ _))

theorem State.keeps_complete (s : State) (w : Nat) (c : Cmd) (status result : Nat) : s.Keeps (s.complete w c status result) :=
  State.keeps_ite _ ((State.keeps_setWin s _ _).trans (State.keeps_post _ _ _)) (State.keeps_setWin s _ _)

theorem State.keeps_waited (s : State) (w ns : Nat) : s.Keeps (s.waited w ns) := State.keeps_account s _ _ _

/-! Commands (R468, R469). -/

theorem State.keeps_beginCmd (s : State) (w : Nat) (c : Cmd) : s.Keeps (s.beginCmd w c) := State.keeps_setWin s _ _

theorem State.keeps_onCmd (s : State) (w op : Nat) (f : State → Cmd → State) (h : ∀ s c, State.Keeps s (f s c)) : s.Keeps (s.onCmd w op f) := by
  unfold State.onCmd
  split
  · exact h s _
  · exact State.keeps_refl s

/-! Which parts an operation may change. -/

theorem State.onlyIn_refl (s : State) (p : Parts) : s.onlyIn s p := by simp [State.onlyIn]

theorem State.onlyIn_trans {s t u : State} {p : Parts} (h : s.onlyIn t p) (k : t.onlyIn u p) : s.onlyIn u p := by
  unfold State.onlyIn at *
  refine ⟨?_, ?_, ?_, ?_, ?_, ?_, ?_, ?_, ?_, ?_, ?_, ?_, ?_, ?_, ?_, ?_, ?_, ?_, ?_, ?_, ?_, ?_, ?_, ?_, ?_, ?_, ?_, ?_, ?_, ?_, ?_, ?_⟩ <;>
    intro e <;> simp_all

theorem State.onlyIn_put (s : State) (f : FRef) (v : Nat) (p : Parts) (h : p.regs = true) : s.onlyIn (s.put f v) p := by
  simp [State.onlyIn, State.put, State.setReg, h]

theorem State.onlyIn_bump (s : State) (f : FRef) (p : Parts) (h : p.regs = true) : s.onlyIn (s.bump f) p := State.onlyIn_put s f _ p h

theorem State.onlyIn_status (s : State) (f : FRef) (p : Parts) (h : p.regs = true) : s.onlyIn (s.status f) p :=
  State.onlyIn_trans (State.onlyIn_put s f 1 p h) (State.onlyIn_bump _ _ p h)

theorem State.onlyIn_raise (s : State) (src kind addr aux : Nat) (p : Parts) (h : p.flt = true) : s.onlyIn (s.raise src kind addr aux) p := by
  simp [State.onlyIn, State.raise, h]

theorem State.onlyIn_emit (s : State) (o : Out) (p : Parts) (h : p.out = true) : s.onlyIn (s.emit o) p := by
  simp [State.onlyIn, State.emit, h]

theorem State.onlyIn_writeBytes (s : State) (a : Nat) (bs : List Byte) (p : Parts) (h : p.mem = true) : s.onlyIn (s.writeBytes a bs) p := by
  simp [State.onlyIn, State.writeBytes, h]

theorem State.onlyIn_setCtx (s : State) (n : Nat) (c : Ctx) (p : Parts) (h : p.srv = true) : s.onlyIn (s.setCtx n c) p := by
  simp [State.onlyIn, State.setCtx, h]

theorem State.onlyIn_setWin (s : State) (w : Nat) (x : Win) (p : Parts) (h : p.hst = true) : s.onlyIn (s.setWin w x) p := by
  simp [State.onlyIn, State.setWin, h]

theorem State.onlyIn_account (s : State) (k i n : Nat) (p : Parts) (h : p.acct = true) : s.onlyIn (s.account k i n) p := by
  simp [State.onlyIn, State.account, h]

/-! What moving the time base on leaves as it was (R43). -/

@[simp] theorem State.atNs_regs (s : State) (t : Nat) : (s.atNs t).regs = s.regs := rfl
@[simp] theorem State.atNs_mem (s : State) (t : Nat) : (s.atNs t).mem = s.mem := rfl
@[simp] theorem State.atNs_latch (s : State) (t : Nat) : (s.atNs t).latch = s.latch := rfl
@[simp] theorem State.atNs_flt (s : State) (t : Nat) : (s.atNs t).flt = s.flt := rfl
@[simp] theorem State.atNs_arr (s : State) (t : Nat) : (s.atNs t).arr = s.arr := rfl
@[simp] theorem State.atNs_die (s : State) (t : Nat) : (s.atNs t).die = s.die := rfl
@[simp] theorem State.atNs_phys (s : State) (t : Nat) : (s.atNs t).phys = s.phys := rfl
@[simp] theorem State.atNs_grade56 (s : State) (t : Nat) : (s.atNs t).grade56 = s.grade56 := rfl
@[simp] theorem State.atNs_coreDis (s : State) (t : Nat) : (s.atNs t).coreDis = s.coreDis := rfl
@[simp] theorem State.atNs_te (s : State) (t : Nat) : (s.atNs t).te = s.te := rfl
@[simp] theorem State.atNs_ms (s : State) (t : Nat) : (s.atNs t).ms = s.ms := rfl
@[simp] theorem State.atNs_net (s : State) (t : Nat) : (s.atNs t).net = s.net := rfl
@[simp] theorem State.atNs_syn (s : State) (t : Nat) : (s.atNs t).syn = s.syn := rfl
@[simp] theorem State.atNs_tm (s : State) (t : Nat) : (s.atNs t).tm = s.tm := rfl
@[simp] theorem State.atNs_fh (s : State) (t : Nat) : (s.atNs t).fh = s.fh := rfl
@[simp] theorem State.atNs_sig (s : State) (t : Nat) : (s.atNs t).sig = s.sig := rfl
@[simp] theorem State.atNs_rad (s : State) (t : Nat) : (s.atNs t).rad = s.rad := rfl
@[simp] theorem State.atNs_hst (s : State) (t : Nat) : (s.atNs t).hst = s.hst := rfl
@[simp] theorem State.atNs_acct (s : State) (t : Nat) : (s.atNs t).acct = s.acct := rfl
@[simp] theorem State.atNs_aud (s : State) (t : Nat) : (s.atNs t).aud = s.aud := rfl
@[simp] theorem State.atNs_sp (s : State) (t : Nat) : (s.atNs t).sp = s.sp := rfl
@[simp] theorem State.atNs_srv (s : State) (t : Nat) : (s.atNs t).srv = s.srv := rfl
@[simp] theorem State.atNs_own (s : State) (t : Nat) : (s.atNs t).own = s.own := rfl
@[simp] theorem State.atNs_boot (s : State) (t : Nat) : (s.atNs t).boot = s.boot := rfl
@[simp] theorem State.atNs_clk (s : State) (t : Nat) : (s.atNs t).clk = s.clk := rfl
@[simp] theorem State.atNs_pwr (s : State) (t : Nat) : (s.atNs t).pwr = s.pwr := rfl
@[simp] theorem State.atNs_pins (s : State) (t : Nat) : (s.atNs t).pins = s.pins := rfl
@[simp] theorem State.atNs_img (s : State) (t : Nat) : (s.atNs t).img = s.img := rfl
@[simp] theorem State.atNs_out (s : State) (t : Nat) : (s.atNs t).out = s.out := rfl
@[simp] theorem State.atNs_free (s : State) (t : Nat) : (s.atNs t).free = s.free := rfl
@[simp] theorem State.atNs_pending (s : State) (t : Nat) : (s.atNs t).pending = s.pending := rfl
@[simp] theorem State.atNs_get (s : State) (t : Nat) (f : FRef) : (s.atNs t).get f = s.get f := rfl
@[simp] theorem State.atNs_tick (s : State) (t : Nat) : (s.atNs t).tim.tick = s.tim.tick := rfl

theorem State.onlyIn_atNs (s : State) (t : Nat) (p : Parts) (h : p.tim = true) : s.onlyIn (s.atNs t) p := by
  simp [State.onlyIn, h]

end Sys2Proof.Machine
end

