-- ==== Sys2Proof/WellFormed.lean ====
section
/-! DEFINITION. Which commands can arrive: the ranges that the layouts of the spec give the operands. `Machine.exec` answers on every
command, well formed or not; a statement names this check where it needs it. -/
namespace Sys2Proof
open Sys2Proof.Machine

/-- R305: a flit's fields fit their widths. -/
def Instr.flitOk (f : Flit) : Bool :=
  decide (f.fseq < 4096) && decide (f.ack < 4096) && decide (f.credVc < 8) && decide (f.credits < 8192)

/-- R321: a beacon's fields fit their widths. -/
def Instr.beaconOk (b : Beacon) : Bool :=
  decide (b.origin < 4096) && decide (b.seq < 65536) && decide (b.depth < 256) && decide (b.ts < 2 ^ 96)
    && decide (-(2 ^ 63) ≤ b.corr) && decide (b.corr < 2 ^ 63)

/-- R206: a bulk descriptor's fields fit their widths. -/
def Instr.bulkOk (d : BulkDesc) : Bool :=
  decide (d.ctrl < 2 ^ 32) && decide (d.len < 2 ^ 32) && decide (d.src < 2 ^ 64) && decide (d.dst < 2 ^ 64)
    && decide (d.seq < 2 ^ 32) && decide (d.rsv < 65536)

/-- R51: the number of a radio-capable resource: an array, a signal core (0x100 on) or an accelerator engine (0x180 on, R489). -/
def Instr.resourceOk (r : Nat) : Bool :=
  decide (r < 64) || (decide (0x100 ≤ r) && decide (r < 0x160)) || (decide (0x180 ≤ r) && decide (r < 0x1D0))

/-- R364, R489: engines of a kind in a base die. -/
def Instr.engineCount : Nat → Nat
  | 0 | 1 => 8
  | 2 | 3 => 2
  | _ => 4

/-- R10: whether an access is an aligned access of 32 bits. -/
def Instr.aligned32 (off size : Nat) : Bool := decide (size = 4) && decide (off % 4 = 0)

/-- Whether a command is one that can arrive. -/
def Instr.wf : Instr → Bool
  | .registerWrite _ off _ => decide (off.toNat % 4 = 0)
  | .lowWordRead _ _ off => decide (off.toNat % 4 = 0)
  | .unsupportedRequest _ off size _ => !Instr.aligned32 off.toNat size
  | .bar4Access _ _ true data len => !data.isEmpty && decide (len = 0)
  | .bar4Access _ _ false data len => data.isEmpty && decide (0 < len)
  | .guardEnd r => Instr.resourceOk r
  | .openLeaseStart r _ => Instr.resourceOk r
  | .stageTransferRequest _ x _ => decide (x.input < 16) && decide (1 ≤ x.beats) && decide (x.beats ≤ 64)
  | .refreshRateRead rates => decide (rates.map (fun r => r.1)).Nodup
  | .bulkSubmit _ _ d _ => Instr.bulkOk d
  | .flitReceive _ f _ _ lanes => Instr.flitOk f && decide (lanes.length = 9)
  | .beaconReceive _ b _ _ => Instr.beaconOk b
  | .accelJobComplete kind _ e _ _ _ => decide (e.val < Instr.engineCount kind.val)
  | .lpTrain _ bad => decide bad.Nodup
  | .selfTest arrays cores => decide arrays.Nodup && decide cores.Nodup
  | _ => true

end Sys2Proof
end

