-- ==== Sys2Proof/Tests/Slice0.lean ====
section
/-! SUPPORT. Tests: an ill-formed command for each check of WellFormed, single steps with results worked out from the spec, and for each
statement states and operands that meet its hypotheses, clause by clause. -/
namespace Sys2Proof.Tests
open Sys2Proof Sys2Proof.Machine

set_option Elab.async false

/-- Fields of registers of a small state. -/
def withF (s : State) (l : List (FRef × Nat)) : State := l.foldl (fun (s : State) e => s.put e.1 e.2) s

/-- The block at reset with some fields set. -/
def fld (l : List (FRef × Nat)) : State := withF State.reset l

/-- The block in service: an image is applied. -/
def up : State := fld [(f_ID_CHIP_VALID, 1), (f_BOOT_STAGE_STAGE, 7)]

/-- The same, in its SERVICE phase. -/
def srv : State := { up with flt := { up.flt with phase := .service } }

/-- The safelight state. -/
def safe : State := { State.reset with flt := { State.reset.flt with phase := .safelight } }

/-- Power-on reset. -/
def off : State := { State.reset with boot := { State.reset.boot with por := true } }

/-- The block in service with LPDDR6 that reaches 1 GiB; partition 0 holds it and stage bank 0, slot 0 of tenant 7 reaches memory and sync
objects of every chip. -/
def ram : State :=
  { [(0, 0x1DFFE000), (1, 0), (2, 0), (3, 0xFFFFFFFF), (4, 0xFFFF), (8, 0x1FFFE000), (11, 0xFFFFFFFF), (12, 0xFFFF)].foldl
      (fun (s : State) (e : Nat × BitVec 32) => s.setReg (r_AVL_REACH e.1) e.2) (withF up [(f_ID_MEMORY_CAP_GIB, 1)]) with
    img := some { parts := [{ id := 0, banks := [0], ranges := [(0, 2 ^ 30)] }], slots := [(0, 7)] } }

/-- The same with port 0 OPEN and the route to chip 1 on it. -/
def net1 : State :=
  { ((ram.setReg (r_AVL_ROUTE 1) 0x20).put (f_AVL_PORT_STATE_STATE 0) 2) with net := { port := [(0, { usable := true })] } }

/-- Thread 0 of engine 0, READY unless said otherwise. -/
def thr0 (x : Thr) : State := { ram with te := { ram.te with thr := [(0, x)] } }

/-- A 32-bit instruction word of the engines (R155). -/
def te1 (op func d a b : Nat) : BitVec 64 := BitVec.ofNat 64 (2 * op + 2 ^ 7 * d + 2 ^ 12 * a + 2 ^ 17 * b + 2 ^ 25 * func)

/-- A 64-bit instruction word of the engines (R155). -/
def te2 (op func d a b c imm : Nat) : BitVec 64 := te1 op func d a b + 1 + BitVec.ofNat 64 (2 ^ 32 * c + 2 ^ 37 * imm)

/-- A thread that may run. -/
def rdy : Thr := { st := .ready }

/-- A descriptor that every check passes: ONLY, one plane, one row (R86, R88). -/
def dOne : Desc := { ctrl := 0x16001, m := 1, actStride := 256 }

/-- Array 0 with some contents. -/
def arr0 (a : Arr) : State := { up with arr := [(0, a)] }

/-- Weight slot that holds the set of `dOne`. -/
def wOne : WSlot := { valid := true, ready := true }


/-- Context `n` of a block in service. -/
def ctx1 (n : Nat) (c : Ctx) : State := { ram with srv := { ctx := [(n, c)] } }

/-- A model that every check of its descriptor passes (R235). -/
def mdl : Model :=
  { loaded := true, count := 1
    desc := (List.replicate 0x38 0 ++ [12, 1, 1, 0, 16, 0, 16, 0, 0, 0, 1, 0, 0, 1, 0, 0]) ++ List.replicate 56 0 }

/-- Window `w` with one command of an opcode fetched. -/
def cmdW (s : State) (w op : Nat) (body : List (Nat × Byte)) : State :=
  { s with hst := { s.hst with win := [(w, { cmds := [{ op := op, body := (List.range 128).map (fun i => ((body.find? (fun e => e.1 == i)).map (·.2)).getD 0) }] })] } }

/-- That command. -/
def cmd1 (op : Nat) (body : List (Nat × Byte)) : Cmd :=
  { op := op, body := (List.range 128).map (fun i => ((body.find? (fun e => e.1 == i)).map (·.2)).getD 0) }

/-- The ownership table stands at 0x20000000, the dedupe table at 0x21000000, the epoch of source 1 there is 5, and chip 1 has a route. -/
def own1 : State :=
  (((net1.put f_CMP_OWN_BASE_LO_BASE_LO 0x20000000).put f_AVL_DEDUP_BASE_LO_BASE_LO 0x21000000).writeLE 0x21002018 2 5).writeLE 0x2100201A 1 1

/-- One packet delivered and not yet applied. -/
def inb (s : State) (k : Pkt) : State := { s with net := { s.net with inbox := [k] } }

/-- None. -/
def nob (s : State) : State := { s with net := { s.net with inbox := [] } }

/-- Composition slot `j` with some contents. -/
def comp1 (s : State) (j : Nat) (x : Comp) : State := { s with own := { comp := [(j, x)] } }

/-- A composition whose one member is partition 15 of this chip, of role MIXED. -/
def cmp0 : Comp := { st := .active, cfg := { members := [{ part := 15, role := 3 }] } }

/-- Port `p` in a state of R313. -/
def prt (s : State) (p st : Nat) (x : Port) : State := { (s.put (f_AVL_PORT_STATE_STATE p) st) with net := { s.net with port := [(p, x)] } }

/-- Thread 7 of signal core 95. -/
def sg (x : SigThr) : State := { ram with sig := { thr := [(767, x)] } }

/-- A bundle with a scalar operation only (R372). -/
def xw (op d p q imm : Nat) : BitVec 128 := BitVec.ofNat 128 (2 ^ 88 * op + 2 ^ 94 * d + 2 ^ 98 * p + 2 ^ 102 * q + 2 ^ 106 * imm)

/-- A thread that may run. -/
def sry : SigThr := { st := .ready }

/-- Many waits of other chips at sync object 0; object 8191 is enabled. -/
def far1 (n : Nat) : State := { own1.put (f_SYN_OBJ_CFG_ENABLE 8191) 1 with net := { waits := List.replicate n (0, 1, 0, some {}) } }

theorem far1_len (n : Nat) : ((far1 n).net.waits.filter (fun w => w.2.2.2.isSome)).length = n := by simp [far1]

theorem far1_take (n : Nat) (k : Pkt) (h : (k.src == 1 && k.op == 4 && k.aop == 4) = true) :
    (inb (far1 n) k).takeReq 1 4 (fun q => q.aop == 4) = some (k, nob (far1 n)) := by
  simp [State.takeReq, inb, nob] at h ⊢
  simp [h]

/-- Window 127 reaches 1 GiB of host B; cell 0 is in the image. -/
def rad1 (x : Cell) : State :=
  { withF up [(f_TWN_CFG_EXISTS 127, 1), (f_TWN_APT_LIMIT_GIB 127, 1), (f_CLK_TIME_STATE_STATE, 2)] with img := some { cells := [{}] }, rad := { cell := [(0, x)] } }

/-- A FAPI message of four bytes in host memory, for cell 0, at a system frame. -/
def fapiB (sfn : Byte) : List (Nat × Byte) := [(4, sfn), (15, 0x80), (16, 4)]

/-- Sub-port 31 is up, with a MAC, an eAxC, a forwarding entry and two PTP domains. -/
def fh1 (x : Fh) : State :=
  { withF ram [(f_FH_PORT_UP 7, 15), (f_PTP_DOM_PORT 0, 31), (f_PTP_DOM_PORT 1, 31)] with
    fh := x
    img := some { macs := [(31, 0xABCDEF)], fwd := [{ mac := 5 }], eaxcs := [{ id := 9, ta4Min := 1000, ta4Max := 2000 }]
                  doms := [{ port := 31 }, { number := 25, port := 31 }] } }

/-- The manager's receive FIFO holds some words. -/
def frx (n : Nat) : State := fh1 { mrx := List.replicate n (0, false) }

theorem frx_len (n : Nat) : (frx n).fh.mrx.length = n := by simp [frx, fh1]

/-- One queue of an egress. -/
def tmq (s : State) (e i : Nat) (x : TmQ) : State := { s with tm := { s.tm with q := [(8 * e + i, x)] } }

/-- Window 127 exists, in a state of R479. -/
def win1 (st : Nat) (x : Win) : State := { withF up [(f_TWN_CFG_EXISTS 127, 1), (f_TWN_STATE_STATE 127, st)] with hst := { State.reset.hst with win := [(127, x)] } }

/-- The scheduler holds some jobs. -/
def job1 (l : List Job) : State := { up with hst := { up.hst with jobs := l } }

/-! The checks of WellFormed refuse an ill-formed command. -/

theorem test_wf_register_write : Instr.wf (.registerWrite 0 2 0) = false := by decide
theorem test_wf_low_word_read : Instr.wf (.lowWordRead 0 false 1) = false := by decide
theorem test_wf_unsupported_request : Instr.wf (.unsupportedRequest 0 8 4 true) = false := by decide
theorem test_wf_bar4_write : Instr.wf (.bar4Access 0 0 true [] 0) = false := by decide
theorem test_wf_bar4_write_len : Instr.wf (.bar4Access 0 0 true [1] 1) = false := by decide
theorem test_wf_bar4_read : Instr.wf (.bar4Access 0 0 false [] 0) = false := by decide
theorem test_wf_bar4_read_data : Instr.wf (.bar4Access 0 0 false [1] 1) = false := by decide
theorem test_wf_guard_end : Instr.wf (.guardEnd 64) = false := by decide
theorem test_wf_open_lease_start : Instr.wf (.openLeaseStart 0x1D0 0) = false := by decide
theorem test_wf_stage_input : Instr.wf (.stageTransferRequest 0 { input := 16 } 0) = false := by decide
theorem test_wf_stage_beats : Instr.wf (.stageTransferRequest 0 { beats := 65 } 0) = false := by decide
theorem test_wf_stage_no_beat : Instr.wf (.stageTransferRequest 0 { beats := 0 } 0) = false := by decide

theorem test_wf_refresh_rate : Instr.wf (.refreshRateRead [(3, 1), (3, 2)]) = false := by decide
theorem test_wf_bulk : Instr.wf (.bulkSubmit 0 0 { len := 2 ^ 32 } 0) = false := by decide
theorem test_wf_flit : Instr.wf (.flitReceive 0 { fseq := 4096 } 0 0 [0, 0, 0, 0, 0, 0, 0, 0, 0]) = false := by decide
theorem test_wf_flit_lanes : Instr.wf (.flitReceive 0 {} 0 0 [0]) = false := by decide
theorem test_wf_beacon : Instr.wf (.beaconReceive 0 { depth := 256 } 0 []) = false := by decide
theorem test_wf_accel : Instr.wf (.accelJobComplete 2 0 2 false 0 0) = false := by decide
theorem test_wf_lp_train : Instr.wf (.lpTrain 0 [5, 5]) = false := by decide
theorem test_wf_self_test_arrays : Instr.wf (.selfTest [1, 1] []) = false := by decide
theorem test_wf_self_test_cores : Instr.wf (.selfTest [] [2, 2]) = false := by decide

/-- The opcode table gives no row any bits: no word spells a command. -/
theorem test_decode_none : decodeTableWord 32 0xFFFFFFFF = none := by decide

/-! One operation or one step, with the spec's own numbers. -/

/-- The registers of logical array 37 begin at 0x0194_0000 (chapter 1, after R36). -/
theorem test_array_stride : r_ARR_CTRL 37 = 0x01940000 := by decide

/-- The worked example of chapter 4: 1.5 and 2.5 grid steps both round to 2. -/
theorem test_grid_ties : (gridRound 3 (-1), gridRound 5 (-1)) = (some 2, some 2) := by decide

/-- The same example: 100,352 on anchor −18 converts to BF16 0x47C4. -/
theorem test_convert_out_bf16 : convertOut false (-18) 1 (100352 * 2 ^ 62) = (0x47C4, false) := by decide +kernel

/-- A SAT entry converts to BF16 0x7FC0 (the same example). -/
theorem test_convert_out_sat : (convertOut false (-18) 1 sat80).1 = 0x7FC0 := by decide +kernel

/-- The worked example of chapter 12: a tie rounds to even, a value above the range saturates, or wraps without SAT. -/
theorem test_store_round : storeComp { rnd := 23 + 64 } 35184384671744 24 = (0x400002, 0) := by decide +kernel
theorem test_store_saturates : storeComp { rnd := 23 + 64 } 140737500938240 24 = (0x7FFFFF, 1) := by decide +kernel
theorem test_store_wraps : storeComp { rnd := 23 } 140737500938240 24 = (2, 2) := by decide +kernel

/-- Bundle 1 of that example. -/
theorem test_cmul : macLane 1 0x400000 (-0x200000) 0x600000 0x400000 0 0 = (2 ^ 45, 2 ^ 42) := by decide

/-- The beacon of the example after R325 (chapter 10): the resent CORRECTION is 0x0213_0000. -/
theorem test_beacon_correction :
    (withF (prt up 20 2 { delays := [13919846] }) [(f_AVL_BCN_CFG_PRIMARY, 20), (f_AVL_BCN_CFG_PRIMARY_VALID, 1)]).parentPort = some 20
    ∧ (0 : Int) + 13919846 + 20879770 = 0x02130000 := by decide +kernel

/-- The worked example of chapter 19: windows 3 to 18 span 4 counts, windows 4 to 19 span 1. -/
theorem test_crystal_window_3 : xtalGood (49700 :: List.replicate 14 49703 ++ [49704]) = false := by decide
theorem test_crystal_qualified : xtalGood (List.replicate 15 49703 ++ [49704]) = true := by decide

/-- The worked example after R600: LP13_C2_DQ5 is on land 029-100. -/
theorem test_land_lp13 : lpLand 13 2 25 = ⟨29, 100⟩ := by decide +kernel

/-- R603: the first sideband signal is on land 013-050, the last on 007-054. -/
theorem test_land_sideband : (sidebandLand 0, sidebandLand 68) = (⟨13, 50⟩, ⟨7, 54⟩) := by decide +kernel

/-- A READY thread that issues a halt is IDLE after the step, and the queue has moved on. -/
theorem test_step_halt :
    (match step { thr0 rdy with pending := [.teHalt 0 0 (te1 0 8 0 0 0)] } with
     | .next t => t.pending.isEmpty && (t.thr 0 0).st == .idle
     | _ => false) = true := by decide +kernel

/-- With an empty queue the block idles. -/
theorem test_idle : step up = .next up := rfl

/-! For each statement with hypotheses, states and operands that meet them, clause by clause. -/

theorem canReach_of {s : State} {d : Nat} (h : s.valid = true ∧ d ≠ s.chipId ∧ s.peerDead d = false ∧ s.usableAlts d ≠ []
    ∧ (s.destOf d).failed = false ∧ (∀ r ∈ s.net.reqs, r.pkt.dst ≠ d) ∧ (∀ r ∈ s.net.reqs, r.pkt.tag ≠ 0)
    ∧ ∀ e ∈ s.net.dest, e.2.query ≠ some 0) : s.canReach d :=
  ⟨h.1, h.2.1, h.2.2.1, h.2.2.2.1, h.2.2.2.2.1, h.2.2.2.2.2.1, 0, by decide, h.2.2.2.2.2.2.1, h.2.2.2.2.2.2.2⟩

theorem noFar_of {s : State} (h : s.ms.mv = []) : s.noFar := by
  intro k r g a n e
  simp [State.mvOf, h, sget] at e

/-- A window of replay log for partition 15. -/
def rpl1 : State :=
  { (withF ram [(f_AUD_PART_REPLAY, 0x8000), (f_TWN_PARTS_PARTS 3, 0x8000), (f_AUD_RPL_CFG_TMO, 1), (f_SRV_PIPE_CFG_PERIOD 15, 8)]).setReg (r_AUD_RPL_WIN 0) 8 with
    sp := [(15, { hznAt := some 0, next := 2 ^ 40 })], tim := { expo := 0xFFFFFFFF } }

/-- Memory that holds the descriptor `mdl` at 0x20000000. -/
def ml1 : State := ram.writeBytes 0x20000000 mdl.desc

/-- A MODEL_LOAD command that names slot 63 and that address. -/
def mlB : List (Nat × Byte) := [(0x10, 63), (0x1B, 0x20)]

/-- Sync object 8191 is enabled. -/
def sy1 : State := own1.put (f_SYN_OBJ_CFG_ENABLE 8191) 1

/-- A request of chip 1 to it. -/
def sq (aop : Nat) : Pkt := { src := 1, op := 4, aop := aop, addr := 8191, sepoch := 5 }

/-- The dedupe table answers tag 255 of source 1 with some ATAG. -/
def dd1 (t : Nat) : State := ((own1.writeLE 0x21003FE0 4 t).writeLE 0x21003FE4 2 5).writeLE 0x21003FE6 1 128

/-- A response of chip 4095 to tag 65535. -/
def kq : Pkt := { src := 0xFFF, op := 0x10, tag := 0xFFFF }

/-- A load of thread 63 of engine 63 with that tag. -/
def r1 : Req := { who := .thread 63 63, pkt := { dst := 0xFFF, tag := 0xFFFF, op := 1 }, lane := 32 }

/-- Both, and some destinations. -/
def rq (r : List Req) (d : SMap Dest) : State :=
  { up with net := { inbox := [kq], reqs := r, dest := d }, te := { thr := [(4095, { rmtOut := [0xFFFF] })] } }

/-- An accelerator job that every check passes. -/
def aj : AccJob :=
  { kind := 5, ctrl := 5, src := 0x020000000000, dst := 0x020000000000, inLen := 64, outLen := 64
    param := [1, 1, 1, 1] ++ List.replicate 21 0 ++ [1, 0, 0, 0, 2] }

/-- The eAxC of `fh1`. -/
def ea9 : EaxcCfg := { id := 9, ta4Min := 1000, ta4Max := 2000 }

theorem fh1_ea {y : Fh} {x : EaxcCfg} (h : ((fh1 y).imgList (·.eaxcs)).find? (fun e => e.id == 9) = some x) : x = ea9 :=
  (Option.some.inj ((show some ea9 = ((fh1 y).imgList (·.eaxcs)).find? (fun e => e.id == 9) from rfl).trans h)).symm

/-- A TABLE of empty sections of some types, one after another (R565). -/
def tbl (l : List Nat) : List SecEnt := l.zipIdx.map (fun e => { typ := e.1, off := 8 + e.2, secTyp := e.1 })

/-- The hypotheses of StepRunsFrontCommand can be met, clause by clause. -/
theorem witness_StepRunsFrontCommand :
    (∃ s : State, (s.pending = [])) :=
  ⟨State.reset, by decide⟩

/-- The hypotheses of StepKeepsCanonicalForm can be met, clause by clause. -/
theorem witness_StepKeepsCanonicalForm :
    (∃ s t : State, (s.canonical) ∧ (step s = .next t)) :=
  by exact ⟨State.reset, State.reset, ⟨by decide, by decide, by decide⟩, rfl⟩

/-- The hypotheses of SafelightStopsWork can be met, clause by clause. -/
theorem witness_SafelightStopsWork :
    (∃ s : State, ∃ c : Instr, (s.flt.phase = .safelight ∨ s.boot.por = true) ∧ (c.actsInSafelight = false)) :=
  ⟨safe, .timeLock, by decide⟩

/-- The hypotheses of RegisterWrites can be met, clause by clause. -/
theorem witness_RegisterWrites :
    (∃ s : State, ∃ req : Nat, ∃ off : BitVec 28, ∃ v : BitVec 32, ∃ r : RegRow, (s.boot.por = false) ∧ (s.flt.phase ≠ .safelight) ∧ (s.isManager req = true) ∧ (off.toNat % 4 = 0) ∧ (¬(0x404000 ≤ off.toNat ∧ off.toNat < 0x405000)) ∧ (off.toNat ≠ r_HST_MGR_CLAIM) ∧ (s.hiddenOff off.toNat = false) ∧ (s.ownWrite off.toNat v.toNat = none) ∧ (rowOf off.toNat = some r))
    ∧ (∃ s : State, ∃ off : BitVec 28, (s.boot.por = true ∨ (s.flt.phase = .safelight ∧ off.toNat ≠ r_BOOT_RESET))) :=
  ⟨by exact ⟨up, 0, 0x400010, 5, _, by decide, by decide, by decide, by decide, by decide, by decide, by decide, by decide, rfl⟩,
   ⟨off, 0, by decide⟩⟩

/-- The hypotheses of UnsupportedAccessHasNoEffect can be met, clause by clause. -/
theorem witness_UnsupportedAccessHasNoEffect :
    (∃ s : State, ∃ off : BitVec 28, ∃ size : Nat, (s.boot.por = false) ∧ (¬(size = 4 ∧ off.toNat % 4 = 0))) :=
  ⟨up, 2, 4, by decide⟩

/-- The hypotheses of RegisterReadsAndBar4 can be met, clause by clause. -/
theorem witness_RegisterReadsAndBar4 :
    (∃ s : State, (s.boot.por = true))
    ∧ (∃ s : State, ∃ off : BitVec 28, (s.boot.por = false) ∧ (off.toNat % 4 ≠ 0))
    ∧ (∃ s : State, ∃ bar2 : Bool, ∃ off : BitVec 28, (s.boot.por = false) ∧ (off.toNat % 4 = 0) ∧ (bar2 = false → off.toNat ≠ r_FLT_Q_W0 ∧ off.toNat ≠ r_FH_MRX_W0))
    ∧ (∃ s : State, ∃ req : Fin 4, ∃ data : List Byte, (s.boot.por = true ∨ s.flt.phase = .safelight ∨ s.isManager req = false ∨ data = []))
    ∧ (∃ s : State, ∃ req : Fin 4, ∃ off : BitVec 28, ∃ data : List Byte, (s.boot.por = false) ∧ (s.flt.phase ≠ .safelight) ∧ (s.isManager req = true) ∧ (data ≠ []) ∧ (off.toNat + data.length ≤ 2 ^ 28) ∧ (s.guardedAt (0x020000000000 + off.toNat) = false) ∧ (s.guardedAt (0x020000000000 + off.toNat + data.length - 1) = false) ∧ (touched (coveredBy s.ms.uncorr (0x020000000000 + off.toNat) data.length) (0x020000000000 + off.toNat) data.length = []))
    ∧ (∃ s : State, ∃ req : Fin 4, ∃ off : BitVec 28, ∃ data : List Byte, (s.boot.por = false) ∧ (s.flt.phase ≠ .safelight) ∧ (s.isManager req = true) ∧ (data ≠ []) ∧ (off.toNat + data.length ≤ 2 ^ 28) ∧ (s.guardedAt (0x020000000000 + off.toNat) = false) ∧ (s.guardedAt (0x020000000000 + off.toNat + data.length - 1) = false) ∧ (touched (coveredBy s.ms.uncorr (0x020000000000 + off.toNat) data.length) (0x020000000000 + off.toNat) data.length ≠ []))
    ∧ (∃ s : State, ∃ len, (s.boot.por = false) ∧ (len = 0))
    ∧ (∃ s : State, ∃ off : BitVec 28, ∃ len, (s.boot.por = false) ∧ (0 < len) ∧ (off.toNat + len ≤ 2 ^ 28) ∧ (touched s.ms.uncorr (0x020000000000 + off.toNat) len = []))
    ∧ (∃ s : State, ∃ off : BitVec 28, ∃ len, (s.boot.por = false) ∧ (0 < len) ∧ (off.toNat + len ≤ 2 ^ 28) ∧ (touched s.ms.uncorr (0x020000000000 + off.toNat) len ≠ [])) :=
  ⟨⟨off, by decide +kernel⟩,
   ⟨State.reset, 1, by decide +kernel⟩,
   ⟨State.reset, false, 8, by decide +kernel⟩,
   ⟨off, 0, [], by decide +kernel⟩,
   ⟨State.reset, 0, 0x0FFFFFFF, [1], by decide +kernel⟩,
   ⟨{ State.reset with ms := { State.reset.ms with uncorr := [0x02000FFFFFF8] } }, 0, 0x0FFFFFFF, [1], by decide +kernel⟩,
   ⟨State.reset, 0, by decide +kernel⟩,
   ⟨State.reset, 0x0FFFFFFF, 1, by decide +kernel⟩,
   ⟨{ State.reset with ms := { State.reset.ms with uncorr := [0x02000FFFFFF8] } }, 0x0FFFFFFF, 1, by decide +kernel⟩⟩

/-- The hypotheses of TimeAndLeases can be met, clause by clause. -/
theorem witness_TimeAndLeases :
    (∃ s : State, (s.live = true) ∧ (s.tim.srcValid = false) ∧ (s.sourceNow = true))
    ∧ (∃ s : State, (s.live = true) ∧ (s.sourceNow = false) ∧ (s.get f_CLK_TIME_STATE_STATE = 1 ∨ s.get f_CLK_TIME_STATE_STATE = 2))
    ∧ (∃ s : State, (s.live = true) ∧ (s.get f_CLK_TIME_STATE_STATE = 1) ∧ (16 ≤ s.tim.lockRun))
    ∧ (∃ s : State, (s.live = true) ∧ (s.get f_CLK_TIME_STATE_STATE = 3) ∧ (s.tim.holdDone = false) ∧ (s.get f_CLK_HOLD_CFG_HOLD_LIMIT_MS * 1000000 ≤ s.now - s.tim.holdStart))
    ∧ (∃ s : State, (s.live = true) ∧ (s.sourceNow = false) ∧ (s.get f_CLK_TIME_STATE_STATE = 0 ∨ s.get f_CLK_TIME_STATE_STATE = 3))
    ∧ (∃ s : State, (s.live = true) ∧ (s.get f_CLK_TIME_STATE_STATE = 0))
    ∧ (∃ s : State, (s.live = true) ∧ (s.get f_CLK_TIME_STATE_STATE ≠ 0))
    ∧ (∃ s : State, ∃ r : Nat, (s.live = true) ∧ (s.leaseOf r = .guard) ∧ (s.openOver r = true))
    ∧ (∃ s : State, ∃ r : Nat, (s.live = true) ∧ (s.leaseOf r = .guard) ∧ (s.openOver r = false))
    ∧ (∃ s : State, ∃ r : Nat, (s.live = true) ∧ (s.leaseOf r = .radio) ∧ (s.radioOver r = true))
    ∧ (∃ s : State, ∃ r : Nat, (s.live = true) ∧ (s.leaseOf r = .radio) ∧ (s.radioOver r = false)) :=
  ⟨⟨{ fld [(f_PTP_DOM_VALID 0, 1)] with img := some { timeSource := 1 } }, by decide⟩,
   ⟨fld [(f_CLK_TIME_STATE_STATE, 2)], by decide⟩,
   ⟨{ fld [(f_CLK_TIME_STATE_STATE, 1)] with tim := { lockRun := 16 } }, by decide⟩,
   ⟨{ fld [(f_CLK_TIME_STATE_STATE, 3)] with tim := { tb := 10 ^ 12 } }, by decide⟩,
   ⟨fld [(f_CLK_TIME_STATE_STATE, 3)], by decide +kernel⟩,
   ⟨State.reset, by decide⟩,
   ⟨fld [(f_CLK_TIME_STATE_STATE, 2)], by decide +kernel⟩,
   ⟨{ up with tim := { lease := [(0x180, .guard)] } }, 0x180, by decide +kernel⟩,
   ⟨{ up with tim := { lease := [(0, .guard)] }, arr := [(0, { run := [{ d := dOne }] })] }, 0, by decide +kernel⟩,
   ⟨{ up with tim := { lease := [(0x180, .radio)] } }, 0x180, by decide +kernel⟩,
   ⟨{ up with tim := { lease := [(0, .radio)] }, arr := [(0, { radioQ := [{}] })] }, 0, by decide +kernel⟩⟩

/-- The hypotheses of ReferenceClocks can be met, clause by clause. -/
theorem witness_ReferenceClocks :
    (∃ s : State, (s.boot.por = true))
    ∧ (∃ s : State, ∃ c : BitVec 16, let l := lastWindows s.clk.win c.toNat; (s.boot.por = false) ∧ (s.get f_CLK_SRC_XTAL_STATE ≠ 2) ∧ (¬ qualifies l))
    ∧ (∃ s : State, ∃ c : BitVec 16, let l := lastWindows s.clk.win c.toNat; (s.boot.por = false) ∧ (s.get f_CLK_SRC_XTAL_STATE ≠ 2) ∧ (qualifies l) ∧ (s.clk.gone = false))
    ∧ (∃ s : State, ∃ c : BitVec 16, let l := lastWindows s.clk.win c.toNat; (s.boot.por = false) ∧ (s.get f_CLK_SRC_XTAL_STATE ≠ 2) ∧ (qualifies l) ∧ (s.clk.gone = true))
    ∧ (∃ s : State, ∃ c : BitVec 16, (s.boot.por = false) ∧ (s.get f_CLK_SRC_XTAL_STATE = 2) ∧ (49250 ≤ c.toNat) ∧ (c.toNat ≤ 50750))
    ∧ (∃ s : State, ∃ c : BitVec 16, (s.boot.por = false) ∧ (s.get f_CLK_SRC_XTAL_STATE = 2) ∧ (c.toNat < 49250 ∨ 50750 < c.toNat) ∧ (s.get f_CLK_SRC_TREF_VALID = 1))
    ∧ (∃ s : State, ∃ c : BitVec 16, (s.boot.por = false) ∧ (s.get f_CLK_SRC_XTAL_STATE = 2) ∧ (c.toNat < 49250 ∨ 50750 < c.toNat) ∧ (s.get f_CLK_SRC_TREF_VALID = 0) ∧ (s.clk.gone = false))
    ∧ (∃ s : State, (s.stage ≤ 2) ∧ (s.get f_CLK_SRC_XTAL_STATE ≠ 2) ∧ (s.clk.tmo = false) ∧ (s.boot.por = false))
    ∧ (∃ s : State, (2 < s.stage ∨ s.get f_CLK_SRC_XTAL_STATE = 2 ∨ s.clk.tmo = true ∨ s.boot.por = true))
    ∧ (∃ s : State, (s.boot.por = true ∨ s.get f_CLK_SRC_XTAL_STATE ≠ 2))
    ∧ (∃ s : State, ∃ ppm : BitVec 16, (s.boot.por = false) ∧ (s.get f_CLK_SRC_XTAL_STATE = 2) ∧ (-100 ≤ ppm.toInt) ∧ (ppm.toInt ≤ 100))
    ∧ (∃ s : State, ∃ ppm : BitVec 16, (s.boot.por = false) ∧ (s.get f_CLK_SRC_XTAL_STATE = 2) ∧ (ppm.toInt < -100 ∨ 100 < ppm.toInt) ∧ (s.get f_CLK_SRC_TREF_VALID = 0))
    ∧ (∃ s : State, ∃ ppm : BitVec 16, (s.boot.por = false) ∧ (s.get f_CLK_SRC_XTAL_STATE = 2) ∧ (ppm.toInt < -100 ∨ 100 < ppm.toInt) ∧ (s.get f_CLK_SRC_TREF_VALID = 1))
    ∧ (∃ s : State, (s.boot.por = false) ∧ (s.get f_CLK_SRC_TREF_VALID = 1) ∧ (s.get f_CLK_SRC_XTAL_STATE ≠ 2) ∧ (s.clk.gone = false))
    ∧ (∃ s : State, (s.boot.por = true ∨ s.get f_CLK_SRC_TREF_VALID = 1 ∨ s.get f_CLK_SRC_XTAL_STATE < 2))
    ∧ (∃ s : State, (s.boot.por = false) ∧ (s.get f_CLK_SRC_TREF_VALID = 0) ∧ (2 ≤ s.get f_CLK_SRC_XTAL_STATE) ∧ (s.clk.gone = false)) :=
  ⟨⟨off, by decide +kernel⟩,
   ⟨State.reset, 0, by dsimp only; unfold qualifies; decide +kernel⟩,
   ⟨{ State.reset with clk := { win := List.replicate 15 50000 } }, 50000, by dsimp only; unfold qualifies; decide +kernel⟩,
   ⟨{ State.reset with clk := { win := List.replicate 15 50000, gone := true } }, 50000, by dsimp only; unfold qualifies; decide +kernel⟩,
   ⟨fld [(f_CLK_SRC_XTAL_STATE, 2)], 50750, by decide +kernel⟩,
   ⟨fld [(f_CLK_SRC_XTAL_STATE, 2), (f_CLK_SRC_TREF_VALID, 1)], 50751, by decide +kernel⟩,
   ⟨fld [(f_CLK_SRC_XTAL_STATE, 2)], 49249, by decide +kernel⟩,
   ⟨fld [(f_BOOT_STAGE_STAGE, 2)], by decide +kernel⟩,
   ⟨fld [(f_CLK_SRC_XTAL_STATE, 2)], by decide +kernel⟩,
   ⟨State.reset, by decide +kernel⟩,
   ⟨fld [(f_CLK_SRC_XTAL_STATE, 2)], -100, by decide⟩,
   ⟨fld [(f_CLK_SRC_XTAL_STATE, 2)], -101, by decide +kernel⟩,
   ⟨fld [(f_CLK_SRC_XTAL_STATE, 2), (f_CLK_SRC_TREF_VALID, 1)], 101, by decide +kernel⟩,
   ⟨fld [(f_CLK_SRC_XTAL_STATE, 1), (f_CLK_SRC_TREF_VALID, 1)], by decide +kernel⟩,
   ⟨State.reset, by decide +kernel⟩,
   ⟨fld [(f_CLK_SRC_XTAL_STATE, 3)], by decide +kernel⟩⟩

/-- The hypotheses of ShutterEdge can be met, clause by clause. -/
theorem witness_ShutterEdge :
    (∃ s : State, (s.live = false))
    ∧ (∃ s : State, (s.live = true)) :=
  ⟨⟨safe, by decide⟩,
   ⟨up, by decide +kernel⟩⟩

/-- The hypotheses of PassIssueAndRejection can be met, clause by clause. -/
theorem witness_PassIssueAndRejection :
    (∃ s : State, ∃ n k : Fin 64, ∃ w : BitVec 64, let a := storeBase n + (s.thr n k).sr (teWord w).a; let radio := bitAt (teWord w).func 0; (s.issues n k w) ∧ ((teWord w).op = 12) ∧ ((teWord w).num = 0) ∧ (s.pissueFault n k (teWord w) = none) ∧ (touched s.ms.uncorr a 64 = []) ∧ (s.issueFull n k radio = false))
    ∧ (∃ s : State, ∃ n k : Fin 64, ∃ w : BitVec 64, let a := storeBase n + (s.thr n k).sr (teWord w).a; let radio := bitAt (teWord w).func 0; (s.issues n k w) ∧ ((teWord w).op = 12) ∧ ((teWord w).num = 0) ∧ (s.pissueFault n k (teWord w) = none) ∧ (touched s.ms.uncorr a 64 = []) ∧ (s.issueFull n k radio = true))
    ∧ (∃ s : State, ∃ n k : Fin 64, ∃ w : BitVec 64, let a := storeBase n + (s.thr n k).sr (teWord w).a; (s.issues n k w) ∧ ((teWord w).op = 12) ∧ ((teWord w).num = 0) ∧ (s.pissueFault n k (teWord w) = none) ∧ (touched s.ms.uncorr a 64 ≠ []))
    ∧ (∃ s : State, ∃ n k : Fin 64, (s.live = true) ∧ ((s.thr n k).why = .issue) ∧ (s.get (f_ARR_CTRL_ISSUE_TMO n) ≤ s.tim.expo - (s.thr n k).wSince))
    ∧ (∃ s : State, ∃ n k : Fin 64, (s.live = true) ∧ ((s.thr n k).why ≠ .issue ∨ s.tim.expo - (s.thr n k).wSince < s.get (f_ARR_CTRL_ISSUE_TMO n)))
    ∧ (∃ s : State, ∃ n : Fin 64, ∃ radio : Bool, ∃ p : Pass, ∃ code : Nat, (s.live = true) ∧ (s.hasArray n = true) ∧ ((s.arrOf n).next radio = some p) ∧ (s.mayIssue n radio p = true) ∧ (s.descCode n radio (s.thr n p.d.thread).radio p.lost p.d (s.maskBytes n p.d) = code) ∧ (code ≠ 0) ∧ (code < 16))
    ∧ (∃ s : State, ∃ n : Nat, ∃ radioQ lost : Bool, ∃ d : Desc, (∀ c, (s.arrOf n).chainOf radioQ d.job = some c → d.starts = true ∨ c.bad = 0) ∧ (lost = true))
    ∧ (∃ s : State, ∃ n : Nat, ∃ radioQ bound lost : Bool, ∃ d : Desc, ∃ mask : List Byte, ∃ e, (∀ c, (s.arrOf n).chainOf radioQ d.job = some c → d.starts = true ∨ c.bad = 0) ∧ (lost = false) ∧ (s.descCode n radioQ bound lost d mask = 0) ∧ (e ∈ s.descChecks n radioQ bound d mask))
    ∧ (∃ s : State, ∃ n : Nat, ∃ radioQ bound lost : Bool, ∃ d : Desc, ∃ mask : List Byte, ∃ code, ∃ e, (∀ c, (s.arrOf n).chainOf radioQ d.job = some c → d.starts = true ∨ c.bad = 0) ∧ (lost = false) ∧ (s.descCode n radioQ bound lost d mask = code) ∧ (code ≠ 0) ∧ (e ∈ s.descChecks n radioQ bound d mask) ∧ (e.1 < code))
    ∧ (∃ s : State, ∃ n : Nat, ∃ radioQ : Bool, ∃ d : Desc, ∃ c, ((s.arrOf n).chainOf radioQ d.job = some c) ∧ (d.starts = false) ∧ (c.bad ≠ 0)) :=
  ⟨⟨thr0 rdy, 0, 0, te1 12 0 1 0 0, by dsimp only; unfold State.issues; decide +kernel⟩,
   ⟨thr0 { rdy with outst := 32 }, 0, 0, te1 12 1 1 0 0, by dsimp only; unfold State.issues; decide +kernel⟩,
   ⟨{ thr0 rdy with ms := { uncorr := [storeBase 0] } }, 0, 0, te1 12 0 1 0 0, by dsimp only; unfold State.issues; decide +kernel⟩,
   ⟨{ thr0 { st := .wait, why := .issue } with tim := { expo := 8000 } }, 0, 0, by decide⟩,
   ⟨thr0 rdy, 0, 0, by decide +kernel⟩,
   ⟨arr0 { openQ := [{ d := { dOne with ctrl := 0x16002 } }] }, 0, false, { d := { dOne with ctrl := 0x16002 } }, 1, by decide +kernel⟩,
   ⟨up, 0, false, true, dOne, by exact fun c h => (nomatch (show (none : Option Chain) = some c from h)), by decide⟩,
   ⟨up, 0, false, false, false, dOne, [], (1, false), by exact fun c h => (nomatch (show (none : Option Chain) = some c from h)), by decide, by decide +kernel, by decide +kernel⟩,
   ⟨up, 0, false, false, false, { dOne with m := 0 }, [], 3, (2, false), by exact fun c h => (nomatch (show (none : Option Chain) = some c from h)), by decide, by decide +kernel, by decide, by decide +kernel, by decide⟩,
   ⟨arr0 { chains := [{ bad := 7 }] }, 0, false, { dOne with ctrl := 0x10001 }, { bad := 7 }, by decide +kernel⟩⟩

/-- The hypotheses of PassStartAndWeights can be met, clause by clause. -/
theorem witness_PassStartAndWeights :
    (∃ s : State, ∃ n : Fin 64, ∃ radio : Bool, ∃ p : Pass, let hit := (s.arrOf n).active.holds p.d; (s.live = true) ∧ (s.hasArray n = true) ∧ ((s.arrOf n).next radio = some p) ∧ (s.mayIssue n radio p = true) ∧ (s.descCode n radio (s.thr n p.d.thread).radio p.lost p.d (s.maskBytes n p.d) = 0) ∧ (hit = true ∨ ((s.arrOf n).spareSlot.loadFor p.d = true ∧ (s.arrOf n).spareSlot.ready = true)) ∧ (p.d.starts = true → (s.arrOf n).rowsPending p.d = false))
    ∧ (∃ s : State, ∃ n : Fin 64, ∃ radio : Bool, ∃ p : Pass, let hit := (s.arrOf n).active.holds p.d; (s.live = true) ∧ (s.hasArray n = true) ∧ ((s.arrOf n).next radio = some p) ∧ (s.mayIssue n radio p = true) ∧ (s.descCode n radio (s.thr n p.d.thread).radio p.lost p.d (s.maskBytes n p.d) = 0) ∧ (hit = false) ∧ ((s.arrOf n).spareSlot.loadFor p.d = false))
    ∧ (∃ s : State, ∃ n : Fin 64, ∃ radio : Bool, ∃ p : Pass, let hit := (s.arrOf n).active.holds p.d; (s.live = true) ∧ (s.hasArray n = true) ∧ ((s.arrOf n).next radio = some p) ∧ (s.mayIssue n radio p = true) ∧ (s.descCode n radio (s.thr n p.d.thread).radio p.lost p.d (s.maskBytes n p.d) = 0) ∧ (hit = true ∨ (s.arrOf n).spareSlot.loadFor p.d = true) ∧ ((hit = false ∧ (s.arrOf n).spareSlot.ready = false) ∨ (p.d.starts = true ∧ (s.arrOf n).rowsPending p.d = true)))
    ∧ (∃ s : State, ∃ n : Fin 64, let w := (s.arrOf n).spareSlot; (s.live = true) ∧ (w.valid = true) ∧ (w.ready = false))
    ∧ (∃ s : State, ∃ n : Fin 64, let w := (s.arrOf n).spareSlot; (s.live = true) ∧ (w.valid = false ∨ w.ready = true)) :=
  ⟨⟨arr0 { openQ := [{ d := dOne }], slotA := wOne }, 0, false, { d := dOne }, by decide +kernel⟩,
   ⟨arr0 { openQ := [{ d := dOne }] }, 0, false, { d := dOne }, by decide +kernel⟩,
   ⟨arr0 { openQ := [{ d := dOne }], slotA := wOne, run := [{ d := dOne }] }, 0, false, { d := dOne }, by decide +kernel⟩,
   ⟨arr0 { slotB := { wOne with ready := false } }, 0, by dsimp only; decide +kernel⟩,
   ⟨up, 0, by dsimp only; decide +kernel⟩⟩

/-- The hypotheses of BeatsAndEntries can be met, clause by clause. -/
theorem witness_BeatsAndEntries :
    (∃ s : State, ∃ n : Fin 64, ∃ p : Pass, let outs := p.d.outs.filter (fun o => !(maskedAt p.d.maskMode ((s.arrOf n).chainNo p.cid).mask p.beat o)); (s.live = true) ∧ ((s.arrOf n).run.find? (fun p => decide (p.beat < p.d.m)) = some p) ∧ (outs = []))
    ∧ (∃ s : State, ∃ n : Fin 64, ∃ p : Pass, let outs := p.d.outs.filter (fun o => !(maskedAt p.d.maskMode ((s.arrOf n).chainNo p.cid).mask p.beat o)); (s.live = true) ∧ ((s.arrOf n).run.find? (fun p => decide (p.beat < p.d.m)) = some p) ∧ (outs ≠ []) ∧ (p.failed = true))
    ∧ (∃ s : State, ∃ n : Fin 64, ∃ b : Option (Fin 512), ∃ p : Pass, let outs := p.d.outs.filter (fun o => !(maskedAt p.d.maskMode ((s.arrOf n).chainNo p.cid).mask p.beat o)); (s.live = true) ∧ ((s.arrOf n).run.find? (fun p => decide (p.beat < p.d.m)) = some p) ∧ (outs ≠ []) ∧ (p.failed = false) ∧ (beatErrors s.ms.uncorr n p outs = []) ∧ (p.w.err = false ∨ p.beat ≠ 0) ∧ (∀ x, b = some x → x.val ∉ outs ∨ p.mism = true))
    ∧ (∃ s : State, ∃ n : Fin 64, ∃ b : Option (Fin 512), ∃ p : Pass, ∃ x, let outs := p.d.outs.filter (fun o => !(maskedAt p.d.maskMode ((s.arrOf n).chainNo p.cid).mask p.beat o)); (s.live = true) ∧ ((s.arrOf n).run.find? (fun p => decide (p.beat < p.d.m)) = some p) ∧ (outs ≠ []) ∧ (p.failed = false) ∧ (beatErrors s.ms.uncorr n p outs = []) ∧ (p.w.err = false ∨ p.beat ≠ 0) ∧ (b = some x) ∧ (x.val ∈ outs) ∧ (p.mism = false) ∧ (p.d.radio = false ∨ s.spareFree n = false))
    ∧ (∃ s : State, ∃ n : Fin 64, ∃ b : Option (Fin 512), ∃ p : Pass, ∃ x, let outs := p.d.outs.filter (fun o => !(maskedAt p.d.maskMode ((s.arrOf n).chainNo p.cid).mask p.beat o)); (s.live = true) ∧ ((s.arrOf n).run.find? (fun p => decide (p.beat < p.d.m)) = some p) ∧ (outs ≠ []) ∧ (p.failed = false) ∧ (beatErrors s.ms.uncorr n p outs = []) ∧ (p.w.err = false ∨ p.beat ≠ 0) ∧ (b = some x) ∧ (x.val ∈ outs) ∧ (p.mism = false) ∧ (p.d.radio = true) ∧ (s.spareFree n = true))
    ∧ (∃ s : State, ∃ n : Fin 64, ((s.arrOf n).run.find? (fun p => decide (p.beat < p.d.m)) = none))
    ∧ (∃ old : Nat, ∃ sum : Int, (old < 2 ^ 80) ∧ (old ≠ sat80) ∧ ((toSigned 80 old + sum).natAbs < 2 ^ 79))
    ∧ (∃ sum : Int, (sum.natAbs < 2 ^ 79))
    ∧ (∃ old : Nat, ∃ sum : Int, (old < 2 ^ 80) ∧ (old ≠ sat80) ∧ (2 ^ 79 ≤ (toSigned 80 old + sum).natAbs))
    ∧ (∃ first : Bool, ∃ old : Nat, (first = false → old ≠ sat80)) :=
  ⟨⟨arr0 { run := [{ d := { dOne with ctrl := 0x6001 } }] }, 0, { d := { dOne with ctrl := 0x6001 } }, by decide +kernel⟩,
   ⟨arr0 { run := [{ d := dOne, failed := true }] }, 0, { d := dOne, failed := true }, by decide +kernel⟩,
   ⟨arr0 { run := [{ d := dOne }] }, 0, none, { d := dOne }, by decide, by decide +kernel, by decide +kernel, by decide, by decide +kernel, by decide, by intro x h; cases h⟩,
   ⟨arr0 { run := [{ d := dOne }] }, 0, some 0, { d := dOne }, 0, by decide +kernel⟩,
   ⟨arr0 { run := [{ d := { dOne with ctrl := 0x1E001 } }] }, 0, some 0, { d := { dOne with ctrl := 0x1E001 } }, 0, by decide +kernel⟩,
   ⟨up, 0, by decide +kernel⟩,
   ⟨2 ^ 79 - 1, -1, by decide⟩,
   ⟨2 ^ 79 - 1, by decide⟩,
   ⟨2 ^ 79 - 1, 1, by decide⟩,
   ⟨false, 0, by decide⟩⟩

/-- The hypotheses of PassAndChainEnd can be met, clause by clause. -/
theorem witness_PassAndChainEnd :
    (∃ s : State, ∃ n : Fin 64, (s.live = true) ∧ ((s.arrOf n).run.find? (fun p => decide (p.beat ≥ p.d.m) && (!p.d.ends || (s.arrOf n).poisoned p)) = none))
    ∧ (∃ s : State, ∃ n : Fin 64, ∃ p : Pass, (s.live = true) ∧ ((s.arrOf n).run.find? (fun p => decide (p.beat ≥ p.d.m) && (!p.d.ends || (s.arrOf n).poisoned p)) = some p))
    ∧ (∃ s : State, ∃ n : Fin 64, (s.live = true) ∧ ((s.arrOf n).run.find? (fun p => decide (p.beat ≥ p.d.m) && p.d.ends && !((s.arrOf n).poisoned p)) = none))
    ∧ (∃ s : State, ∃ n : Fin 64, ∃ p : Pass, (s.live = true) ∧ ((s.arrOf n).run.find? (fun p => decide (p.beat ≥ p.d.m) && p.d.ends && !((s.arrOf n).poisoned p)) = some p) ∧ (p.d.outAddr + (p.d.m - 1) * (p.d.outStride * 64) + p.d.outs.length * outBytes p.d.outFmt ≤ 0x400000)) :=
  ⟨⟨up, 0, by decide +kernel⟩,
   ⟨arr0 { run := [{ d := dOne, beat := 1, failed := true }] }, 0, { d := dOne, beat := 1, failed := true }, by decide⟩,
   ⟨up, 0, by decide +kernel⟩,
   ⟨arr0 { run := [{ d := { dOne with outAddr := 0x400000 - 512 }, beat := 1 }] }, 0, { d := { dOne with outAddr := 0x400000 - 512 }, beat := 1 }, by decide +kernel⟩⟩

/-- The hypotheses of HaltsAndSubstitution can be met, clause by clause. -/
theorem witness_HaltsAndSubstitution :
    (∃ s : State, ∃ n : Fin 64, (s.live = true) ∧ (s.hasArray n = true))
    ∧ (∃ s : State, ∃ v : BitVec 32, (s.live = true) ∧ (bitAt v.toNat 7 = false))
    ∧ (∃ s : State, ∃ v : BitVec 32, let n := bits v.toNat 5 0; (s.live = true) ∧ (bitAt v.toNat 7 = true) ∧ (s.flag f_ARR_SUBST_PENDING = false) ∧ (s.hasArray (bits v.toNat 5 0) = true) ∧ ((s.arrOf (bits v.toNat 5 0)).map = .inService) ∧ ((s.dieOf (s.dieOfArr n)).spareFor = 127) ∧ ((s.dieOf (s.dieOfArr n)).spareBusy = false) ∧ ((s.physOf (9 * s.dieOfArr n + 8)).isolated = false))
    ∧ (∃ s : State, ∃ v : BitVec 32, (s.live = true) ∧ (bitAt v.toNat 7 = true) ∧ (s.flag f_ARR_SUBST_PENDING = true ∨ s.hasArray (bits v.toNat 5 0) = false ∨ (s.arrOf (bits v.toNat 5 0)).map = .offline ∨ (s.arrOf (bits v.toNat 5 0)).map = .onSpare))
    ∧ (∃ s : State, ∃ v : BitVec 32, let n := bits v.toNat 5 0; (s.live = true) ∧ (bitAt v.toNat 7 = true) ∧ (s.flag f_ARR_SUBST_PENDING = false) ∧ (s.hasArray (bits v.toNat 5 0) = true) ∧ ((s.arrOf (bits v.toNat 5 0)).map = .inService) ∧ ((s.dieOf (s.dieOfArr n)).spareFor ≠ 127 ∨ (s.dieOf (s.dieOfArr n)).spareBusy = true ∨ (s.physOf (9 * s.dieOfArr n + 8)).isolated = true))
    ∧ (∃ s : State, ∃ n : Fin 64, (s.live = true) ∧ (s.copyReady n = true))
    ∧ (∃ s : State, ∃ n : Fin 64, ∃ a : BitVec 48, (s.live = true) ∧ ((s.arrOf n).map = .copying) ∧ (s.region a.toNat = .store n ∨ s.region a.toNat = .acc n))
    ∧ (∃ s : State, ∃ n : Fin 64, (s.live = true) ∧ ((s.arrOf n).map = .swapPending ∨ (s.arrOf n).map = .copying) ∧ (s.get f_ARR_SUBST_TMO ≤ s.tim.expo - (s.arrOf n).subReq)) :=
  ⟨⟨up, 63, by decide⟩,
   ⟨up, 0x7F7F, by decide⟩,
   ⟨up, 0x8080, by decide⟩,
   ⟨withF up [(f_ARR_SUBST_PENDING, 1)], 0x80, by decide⟩,
   ⟨{ up with die := [(0, { spareBusy := true })] }, 0x87, by decide⟩,
   ⟨arr0 { map := .swapPending }, 0, by decide⟩,
   ⟨arr0 { map := .copying }, 0, 0x0210003FFFFF, by decide⟩,
   ⟨{ arr0 { map := .copying } with tim := { expo := 64 } }, 0, by decide⟩⟩

/-- The hypotheses of ThreadIssueChecks can be met, clause by clause. -/
theorem witness_ThreadIssueChecks :
    (∃ s : State, ∃ c : Instr, ∃ n k : Fin 64, ∃ w : BitVec 64, (issueCommand c n k w) ∧ (s.live = true) ∧ (s.mayRun n k = false))
    ∧ (∃ s : State, ∃ n k : Fin 64, ∃ j : Fin 64, (s.mayRun n k = true) ∧ (s.thrReady n j = true))
    ∧ (∃ s : State, ∃ c : Instr, ∃ n k : Fin 64, ∃ w : BitVec 64, ∃ kind : Nat, (issueCommand c n k w) ∧ (s.live = true) ∧ (s.mayRun n k = true) ∧ ((s.fetchBad (s.thr n k) (teWord w).len = true ∧ kind = 0x11) ∨ (s.fetchBad (s.thr n k) (teWord w).len = false ∧ (teWord w).legal = false ∧ kind = 0x10)))
    ∧ (∃ s : State, ∃ n k : Fin 64, ∃ w : BitVec 64, (s.live = true) ∧ (s.mayRun n k = true) ∧ (s.fetchBad (s.thr n k) (teWord w).len = false) ∧ ((teWord w).legal = true) ∧ ((teWord w).op = 1) ∧ (∀ r ∈ (teWord w).regs, r ∉ s.pendRegs n k) ∧ ((s.thr n k).ecc = 2))
    ∧ (∃ s : State, ∃ n k : Fin 64, ∃ w : BitVec 64, (s.live = true) ∧ (s.mayRun n k = true) ∧ (s.fetchBad (s.thr n k) (teWord w).len = false) ∧ ((teWord w).legal = true) ∧ ((teWord w).op = 1) ∧ (∃ r ∈ (teWord w).regs, r ∈ s.pendRegs n k))
    ∧ (∃ s : State, ∃ n k : Fin 64, ∃ w : BitVec 64, (s.live = true) ∧ (s.mayRun n k = true) ∧ (s.fetchBad (s.thr n k) (teWord w).len = false) ∧ ((teWord w).legal = true) ∧ ((teWord w).op = 1) ∧ (∀ r ∈ (teWord w).regs, r ∉ s.pendRegs n k) ∧ ((s.thr n k).ecc = 1)) :=
  ⟨⟨up, .teHalt 0 0 0, 0, 0, 0, by unfold issueCommand; decide +kernel⟩,
   ⟨thr0 rdy, 0, 0, 0, by decide +kernel⟩,
   ⟨thr0 rdy, .teHalt 0 0 (te1 63 0 0 0 0), 0, 0, te1 63 0 0 0 0, 0x10, by unfold issueCommand; decide +kernel⟩,
   ⟨thr0 { rdy with ecc := 2 }, 0, 0, te1 1 0 1 2 3, by decide +kernel⟩,
   ⟨{ thr0 rdy with net := { reqs := [{ who := .thread 0 0, reg := 2, lane := 32, kind := 0, pkt := {} }] } }, 0, 0, te1 1 0 1 2 3, by decide⟩,
   ⟨thr0 { rdy with ecc := 1 }, 0, 0, te1 1 0 1 2 3, by decide +kernel⟩⟩

/-- The hypotheses of TeControlFlowAndHalt can be met, clause by clause. -/
theorem witness_TeControlFlowAndHalt :
    (∃ s : State, ∃ n k : Fin 64, ∃ w : BitVec 64, (s.issues n k w) ∧ ((teWord w).op = 0) ∧ ((teWord w).func ≤ 7))
    ∧ (∃ s : State, ∃ n k : Fin 64, ∃ w : BitVec 64, let x := s.thr n k; let last := (∀ e ∈ s.te.thr, e.1 ≠ thrKey n k → e.2.job = x.job → e.2.st = .idle) ∧ (bitAt x.tstat 0 = true ∨ bitAt x.tstat 1 = true ∨ ∃ e ∈ s.te.thr, e.1 ≠ thrKey n k ∧ e.2.job = x.job ∧ (bitAt e.2.tstat 0 = true ∨ bitAt e.2.tstat 1 = true)); (s.issues n k w) ∧ ((teWord w).op = 0) ∧ ((teWord w).func = 8) ∧ (s.servedBy x.job = none ∨ ¬ last))
    ∧ (∃ s : State, ∃ n k : Fin 64, ∃ w : BitVec 64, ∃ p, let x := s.thr n k; let last := (∀ e ∈ s.te.thr, e.1 ≠ thrKey n k → e.2.job = x.job → e.2.st = .idle) ∧ (bitAt x.tstat 0 = true ∨ bitAt x.tstat 1 = true ∨ ∃ e ∈ s.te.thr, e.1 ≠ thrKey n k ∧ e.2.job = x.job ∧ (bitAt e.2.tstat 0 = true ∨ bitAt e.2.tstat 1 = true)); (s.issues n k w) ∧ ((teWord w).op = 0) ∧ ((teWord w).func = 8) ∧ (s.servedBy x.job = some p) ∧ (last) ∧ ((sget {} s.flt.part p).st ≠ .stepFault) ∧ ((sget {} s.sp p).phase ≠ .retiring)) :=
  ⟨⟨thr0 rdy, 0, 0, te1 0 7 0 0 0, by unfold State.issues; decide⟩,
   ⟨thr0 rdy, 0, 0, te1 0 8 0 0 0, by dsimp only; unfold State.issues; decide +kernel⟩,
   ⟨{ thr0 { rdy with job := 5, tstat := 1 } with sp := [(0, { job := some 5 })] }, 0, 0, te1 0 8 0 0 0, 0, by dsimp only; unfold State.issues; decide +kernel⟩⟩

/-- The hypotheses of TeFenceAndControlRegisters can be met, clause by clause. -/
theorem witness_TeFenceAndControlRegisters :
    (∃ s : State, ∃ n k : Fin 64, ∃ w : BitVec 64, (s.issues n k w) ∧ ((teWord w).op = 0) ∧ ((teWord w).func = 9))
    ∧ (∃ s : State, ∃ n k : Fin 64, ∃ w : BitVec 64, (s.issues n k w) ∧ ((teWord w).op = 0) ∧ ((teWord w).func = 10))
    ∧ (∃ s : State, ∃ n k : Fin 64, ∃ w : BitVec 64, (s.issues n k w) ∧ ((teWord w).op = 0) ∧ ((teWord w).func = 11)) :=
  ⟨⟨thr0 rdy, 0, 0, te1 0 9 0 0 0, by unfold State.issues; decide⟩,
   ⟨thr0 rdy, 0, 0, te1 0 10 1 0 0, by unfold State.issues; decide⟩,
   ⟨thr0 rdy, 0, 0, te2 0 11 0 1 0 0 5, by unfold State.issues; decide⟩⟩

/-- The hypotheses of TeScalarResults can be met, clause by clause. -/
theorem witness_TeScalarResults :
    (∃ s : State, ∃ n k : Fin 64, ∃ w : BitVec 64, let i := teWord w; let x := s.thr n k; (s.issues n k w) ∧ ((teWord w).op = 1) ∧ (6 ≤ i.func → i.func ≤ 8 → x.sr i.b < 64))
    ∧ (∃ s : State, ∃ n k : Fin 64, ∃ w : BitVec 64, let i := teWord w; (s.issues n k w) ∧ ((teWord w).op = 1) ∧ (6 ≤ i.func) ∧ (i.func ≤ 8) ∧ (64 ≤ (s.thr n k).sr i.b)) :=
  ⟨⟨thr0 { rdy with s := [(3, 63)] }, 0, 0, te1 1 6 1 2 3, by unfold State.issues; decide⟩,
   ⟨thr0 { rdy with s := [(3, 64)] }, 0, 0, te1 1 8 1 2 3, by unfold State.issues; decide⟩⟩

/-- The hypotheses of TeFloatLanes can be met, clause by clause. -/
theorem witness_TeFloatLanes :
    (∃ s : State, ∃ n k : Fin 64, ∃ w : BitVec 64, (s.issues n k w) ∧ ((teWord w).op = 2)) :=
  ⟨thr0 rdy, 0, 0, te1 2 0 1 2 3, by unfold State.issues; decide⟩

/-- The hypotheses of TeVectorInteger can be met, clause by clause. -/
theorem witness_TeVectorInteger :
    (∃ s : State, ∃ n k : Fin 64, ∃ w : BitVec 64, (s.issues n k w) ∧ ((teWord w).op = 3)) :=
  ⟨thr0 rdy, 0, 0, te1 3 0 1 2 3, by unfold State.issues; decide⟩

/-- The hypotheses of TeConvertAndReduce can be met, clause by clause. -/
theorem witness_TeConvertAndReduce :
    (∃ s : State, ∃ n k : Fin 64, ∃ w : BitVec 64, (s.issues n k w) ∧ ((teWord w).op = 4))
    ∧ (∃ s : State, ∃ n k : Fin 64, ∃ w : BitVec 64, (s.issues n k w) ∧ ((teWord w).op = 5) ∧ ((teWord w).func ≤ 2))
    ∧ (∃ s : State, ∃ n k : Fin 64, ∃ w : BitVec 64, (s.issues n k w) ∧ ((teWord w).op = 5) ∧ ((teWord w).func = 3)) :=
  ⟨⟨thr0 rdy, 0, 0, te1 4 0x11 1 2 0, by unfold State.issues; decide⟩,
   ⟨thr0 rdy, 0, 0, te1 5 2 1 2 0, by unfold State.issues; decide⟩,
   ⟨thr0 rdy, 0, 0, te1 5 3 1 2 0, by unfold State.issues; decide⟩⟩

/-- The hypotheses of GreedyAndSampling can be met, clause by clause. -/
theorem witness_GreedyAndSampling :
    (∃ l : List Nat, ∃ j, (l ≠ []) ∧ (j < l.length))
    ∧ (∃ l : List Nat, ∃ j, (l ≠ []) ∧ (j < argmaxOf l))
    ∧ (∃ s : State, ∃ n k : Fin 64, ∃ w : BitVec 64, let x := s.thr n k; let off := x.sr (teWord w).a; let m := x.sr (teWord w).b; (s.issues n k w) ∧ ((teWord w).op = 5) ∧ ((teWord w).func = 4) ∧ (1 ≤ m) ∧ (m ≤ 2 ^ 20) ∧ (s.storeFault n x off (m * 4) 4 = none) ∧ (s.plain (storeBase n + off) (4 * m)))
    ∧ (∃ s : State, ∃ n k : Fin 64, ∃ w : BitVec 64, let x := s.thr n k; let off := x.sr (teWord w).a; let m := x.sr (teWord w).b; (s.issues n k w) ∧ ((teWord w).op = 5) ∧ ((teWord w).func = 5) ∧ (1 ≤ m) ∧ (m ≤ 2 ^ 20) ∧ (s.storeFault n x off (m * 4) 4 = none) ∧ (s.plain (storeBase n + off) (4 * m)))
    ∧ (∃ s : State, ∃ n k : Fin 64, ∃ w : BitVec 64, (s.issues n k w) ∧ ((teWord w).op = 5) ∧ ((teWord w).func = 4) ∧ (¬(1 ≤ (s.thr n k).sr (teWord w).b ∧ (s.thr n k).sr (teWord w).b ≤ 2 ^ 20)))
    ∧ (∃ l : List Nat, (∃ v ∈ l, (match (fmtOf 1).decode v with | .nan _ => true | .inf neg => neg | .fin neg m _ => neg && m ≠ 0) = true)) :=
  ⟨⟨[0x3F800000, 0x40000000], 1, by decide⟩,
   ⟨[0x3F800000, 0x40000000], 0, by decide⟩,
   ⟨thr0 { rdy with s := [(3, 1)] }, 0, 0, te1 5 4 1 2 3, by unfold State.issues State.plain; decide⟩,
   ⟨thr0 { rdy with s := [(3, 1)] }, 0, 0, te1 5 5 1 2 3, by unfold State.issues State.plain; decide⟩,
   ⟨thr0 { rdy with s := [(3, 0)] }, 0, 0, te1 5 4 1 2 3, by unfold State.issues; decide⟩,
   ⟨[0xBF800000], by decide⟩⟩

/-- The hypotheses of RandomAndExactFunctions can be met, clause by clause. -/
theorem witness_RandomAndExactFunctions :
    (∃ s : State, ∃ n k : Fin 64, ∃ w : BitVec 64, (s.issues n k w) ∧ ((teWord w).op = 16) ∧ ((teWord w).func = 0))
    ∧ (∃ s : State, ∃ n k : Fin 64, ∃ w : BitVec 64, (s.issues n k w) ∧ ((teWord w).op = 16) ∧ ((teWord w).func = 1))
    ∧ (∃ s : State, ∃ n k : Fin 64, ∃ w : BitVec 64, (s.issues n k w) ∧ ((teWord w).op = 16) ∧ ((teWord w).func = 2))
    ∧ (∃ s : State, ∃ n k : Fin 64, ∃ w : BitVec 64, (s.issues n k w) ∧ ((teWord w).op = 16) ∧ ((teWord w).func = 3))
    ∧ (∃ a b : Nat, (a < 2 ^ 128) ∧ (b < 2 ^ 128) ∧ (a ≠ sat128) ∧ (b ≠ sat128) ∧ ((toSigned 128 a + toSigned 128 b).natAbs < 2 ^ 127))
    ∧ (∃ a b : Nat, (a < 2 ^ 128) ∧ (b < 2 ^ 128) ∧ (a ≠ sat128) ∧ (b ≠ sat128) ∧ (2 ^ 127 ≤ (toSigned 128 a + toSigned 128 b).natAbs))
    ∧ (∃ x : Int, ∃ l : List Int, ∃ d, (splitDigits 7 x [] = some l) ∧ (d ∈ l))
    ∧ (∃ m : Nat, ∃ x e : Int, (boundExp m x = some e)) :=
  ⟨⟨thr0 rdy, 0, 0, te2 16 0 2 4 5 6 0, by unfold State.issues; decide⟩,
   ⟨thr0 rdy, 0, 0, te2 16 1 4 4 5 6 0, by unfold State.issues; decide⟩,
   ⟨thr0 rdy, 0, 0, te2 16 2 4 4 5 6 0, by unfold State.issues; decide⟩,
   ⟨thr0 rdy, 0, 0, te2 16 3 4 4 5 6 0, by unfold State.issues; decide⟩,
   ⟨2 ^ 127 - 1, 2 ^ 128 - 1, by decide⟩,
   ⟨2 ^ 127 - 1, 1, by decide⟩,
   ⟨-1, [0, 0, 0, 0, 0, 0, -1], -1, by decide⟩,
   ⟨1, 0, 1, by decide⟩⟩

/-- The hypotheses of ApInstructions can be met, clause by clause. -/
theorem witness_ApInstructions :
    (∃ s : State, ∃ n k : Fin 64, ∃ w : BitVec 64, let x := s.thr n k; let m := (teWord w).imm.toNat; let A := storeBase n + x.sr (teWord w).a; let B := storeBase n + x.sr (teWord w).b; let C := storeBase n + x.sr (teWord w).c; (s.issues n k w) ∧ ((teWord w).op = 6) ∧ ((teWord w).num = 0) ∧ (s.apFault n k m [(x.sr (teWord w).a, 16, 16), (x.sr (teWord w).b, 16, 16), (x.sr (teWord w).c, 16, 16)] = none) ∧ (s.plain A (16 * m)) ∧ (s.plain B (16 * m)) ∧ (s.writable C (16 * m)))
    ∧ (∃ s : State, ∃ n k : Fin 64, ∃ w : BitVec 64, let x := s.thr n k; let m := (teWord w).imm.toNat; let A := storeBase n + x.sr (teWord w).a; let C := storeBase n + x.sr (teWord w).c; (s.issues n k w) ∧ ((teWord w).op = 6) ∧ ((teWord w).num = 1) ∧ (s.apFault n k m [(x.sr (teWord w).a, 16, 16), (x.sr (teWord w).c, 16, 16)] = none) ∧ (s.plain A (16 * m)) ∧ (s.writable C (16 * m)))
    ∧ (∃ s : State, ∃ n k : Fin 64, ∃ w : BitVec 64, let i := teWord w; let x := s.thr n k; let m := i.imm.toNat; let A := storeBase n + x.sr i.a; let C := storeBase n + x.sr i.c; let ob := codeWidth (i.func % 16) / 8; (s.issues n k w) ∧ ((teWord w).op = 6) ∧ ((teWord w).num = 2) ∧ (s.apFault n k m [(x.sr i.a, i.apSrc, if bitAt i.func 4 then 2 else 16), (x.sr i.c, ob, ob)] = none) ∧ (s.plain A (i.apSrc * m)) ∧ (s.writable C (ob * m))) :=
  ⟨⟨thr0 { rdy with s := [(2, 0x3FFFF0), (3, 16), (4, 32)] }, 0, 0, te2 6 0 1 2 3 4 1, by unfold State.issues State.writable State.plain; dsimp only; decide +kernel⟩,
   ⟨thr0 { rdy with s := [(2, 0), (4, 32)] }, 0, 0, te2 6 32 1 2 3 4 1, by unfold State.issues State.writable State.plain; dsimp only; decide +kernel⟩,
   ⟨thr0 { rdy with s := [(2, 0), (4, 32)] }, 0, 0, te2 6 65 1 2 3 4 1, by unfold State.issues State.writable State.plain; dsimp only; decide +kernel⟩⟩

/-- The hypotheses of SliceAndPreScan can be met, clause by clause. -/
theorem witness_SliceAndPreScan :
    (∃ s : State, ∃ n k : Fin 64, ∃ w : BitVec 64, let i := teWord w; let x := s.thr n k; let at' (j l : Nat) := storeBase n + splitAddr x i j l; (s.issues n k w) ∧ ((teWord w).op = 7) ∧ ((teWord w).num = 0) ∧ (s.splitFault n k i = none) ∧ (∀ j l, j < 7 → l ∈ x.lanes i.pr → s.writable (at' j l) 1) ∧ (∀ j l j' l', j < 7 → j' < 7 → l ∈ x.lanes i.pr → l' ∈ x.lanes i.pr → at' j l = at' j' l' → j = j' ∧ l = l'))
    ∧ (∃ s : State, ∃ n k : Fin 64, ∃ w : BitVec 64, let i := teWord w; let x := s.thr n k; let at' (d l : Nat) := storeBase n + combAddr x i d l; (s.issues n k w) ∧ ((teWord w).op = 7) ∧ ((teWord w).num = 1) ∧ (s.combFault n k i = none) ∧ (∀ d l, d < 7 → l ∈ x.lanes i.pr → s.plain (at' d l) 16))
    ∧ (∃ s : State, ∃ n k : Fin 64, ∃ w : BitVec 64, let i := teWord w; let x := s.thr n k; let m := x.sr i.b; let c := i.func % 16; let A := storeBase n + x.sr i.a; let S := storeBase n + ofSigned 64 (i.imm * 64); (s.issues n k w) ∧ ((teWord w).op = 15) ∧ (1 ≤ m) ∧ (m ≤ 2 ^ 20) ∧ (s.pscanFault n k i = none) ∧ (s.plain A (scanBytes c m)) ∧ (bitAt i.func 4 = true → s.plain S (ceilDiv m 32)))
    ∧ (∃ s : State, ∃ n k : Fin 64, ∃ w : BitVec 64, (s.issues n k w) ∧ ((teWord w).op = 15) ∧ (¬(1 ≤ (s.thr n k).sr (teWord w).b ∧ (s.thr n k).sr (teWord w).b ≤ 2 ^ 20))) :=
  ⟨⟨thr0 { rdy with p := [(1, 1)] }, 0, 0, te2 7 0 0 2 4 5 32 + 0x400000, by exact (have h : ∀ l ∈ (rdy.setP 1 1).lanes 1, ∀ j, j < 7 → (thr0 { rdy with p := [(1, 1)] }).writable (storeBase 0 + splitAddr (rdy.setP 1 1) (teWord (te2 7 0 0 2 4 5 32 + 0x400000)) j l) 1 := (by unfold State.writable State.plain; decide +kernel); have g : ∀ l ∈ (rdy.setP 1 1).lanes 1, ∀ l' ∈ (rdy.setP 1 1).lanes 1, ∀ j, j < 7 → ∀ j', j' < 7 → storeBase 0 + splitAddr (rdy.setP 1 1) (teWord (te2 7 0 0 2 4 5 32 + 0x400000)) j l = storeBase 0 + splitAddr (rdy.setP 1 1) (teWord (te2 7 0 0 2 4 5 32 + 0x400000)) j' l' → j = j' ∧ l = l' := (by decide +kernel); ⟨by unfold State.issues; decide, by decide, by decide, by decide +kernel, fun j l hj hl => h l hl j hj, fun j l j' l' hj hj' hl hl' e => g l hl l' hl' j hj j' hj' e⟩)⟩,
   ⟨thr0 { rdy with p := [(1, 1)] }, 0, 0, te2 7 2 2 2 4 5 512 + 0x400000, by exact (have h : ∀ l ∈ (rdy.setP 1 1).lanes 1, ∀ j, j < 7 → (thr0 { rdy with p := [(1, 1)] }).plain (storeBase 0 + combAddr (rdy.setP 1 1) (teWord (te2 7 2 2 2 4 5 512 + 0x400000)) j l) 16 := (by unfold State.plain; decide +kernel); ⟨by unfold State.issues; decide, by decide, by decide, by decide +kernel, fun j l hj hl => h l hl j hj⟩)⟩,
   ⟨thr0 { rdy with s := [(3, 1)] }, 0, 0, te2 15 0x11 1 2 3 4 64, by unfold State.issues State.plain; decide⟩,
   ⟨thr0 rdy, 0, 0, te2 15 0x11 1 2 3 4 64, by unfold State.issues; decide +kernel⟩⟩

/-- The hypotheses of TreeWalk can be met, clause by clause. -/
theorem witness_TreeWalk :
    (∃ s : State, ∃ n k : Fin 64, ∃ w : BitVec 64, ∃ tmo : Option (Fin 16 × BitVec 32), let i := teWord w; let x := s.thr n k; let steps := (i.imm % 16).toNat + 1; let table := x.sr i.a; let feat (l m : Nat) := (x.sr i.b + (if i.c = i.d then m else x.lane i.c l)) % 2 ^ 64; let node (l j : Nat) := s.nodeAfter n table (feat l) (x.lane i.d l) j; let count (l : Nat) := match tmo with | none => steps | some (j, m) => if bitAt m.toNat l then j.val + 1 else j.val; (s.issues n k w) ∧ ((teWord w).op = 14) ∧ ((teWord w).func = 0) ∧ (∀ j m, tmo = some (j, m) → j.val < steps) ∧ (∀ l j, l ∈ x.lanes i.pr → j < count l → s.nodeFine n x table (feat l (node l j)) (node l j)))
    ∧ (∃ s : State, ∃ n k : Fin 64, ∃ w : BitVec 64, ∃ tmo : Option (Fin 16 × BitVec 32), ∃ l j kd ad, let i := teWord w; let x := s.thr n k; let steps := (i.imm % 16).toNat + 1; let table := x.sr i.a; let feat (l m : Nat) := (x.sr i.b + (if i.c = i.d then m else x.lane i.c l)) % 2 ^ 64; let node (l j : Nat) := s.nodeAfter n table (feat l) (x.lane i.d l) j; (s.issues n k w) ∧ ((teWord w).op = 14) ∧ ((teWord w).func = 0) ∧ (∀ j m, tmo = some (j, m) → j.val < steps) ∧ (tmo = none) ∧ (l ∈ x.lanes i.pr) ∧ (j < steps) ∧ (∀ l' j', l' ∈ x.lanes i.pr → j' < j ∨ (j' = j ∧ l' < l) → s.nodeFine n x table (feat l' (node l' j')) (node l' j')) ∧ (s.nodeFault n x table (feat l (node l j)) (node l j) = some (kd, ad)))
    ∧ (∃ s : State, ∃ n k : Fin 64, ∃ w : BitVec 64, let i := teWord w; let x := s.thr n k; let at' (l : Nat) := teAddr (x.sr i.b) (16 * (x.lane i.a l : Int)); (s.issues n k w) ∧ ((teWord w).op = 14) ∧ ((teWord w).func = 1) ∧ (s.leafFault n k i = none) ∧ (∀ l ∈ x.lanes i.pr, s.plain (at' l) 16)) :=
  ⟨by exact ⟨thr0 { rdy with p := [(1, 1)], s := [(2, 0x020000000000)] }, 0, 0, te2 14 0 1 2 3 1 0 + 0x400000, none, by unfold State.issues; decide, by decide, by decide, fun j m h => (nomatch h), fun l j hl hj => (by have h : l ∈ [0] := hl; have g : j < 1 := hj; have e : j = 0 := (by omega); have e0 : l = 0 := List.mem_singleton.mp h; subst e0; subst e; unfold State.nodeFine State.plain; decide +kernel)⟩,
   by exact ⟨thr0 { rdy with p := [(1, 1)], s := [(2, 0x020000000001)] }, 0, 0, te2 14 0 1 2 3 1 0 + 0x400000, none, 0, 0, 0x12, 0x020000000001, by unfold State.issues; decide, by decide, by decide, fun j m h => (nomatch h), rfl, by decide +kernel, by decide, fun l j hl hj => (by omega), by decide +kernel⟩,
   ⟨thr0 { rdy with p := [(1, 1)], s := [(3, 0x020000000000)] }, 0, 0, te1 14 1 1 2 3 + 0x400000, by unfold State.issues State.plain; decide +kernel⟩⟩

/-- The hypotheses of TeMemoryAccess can be met, clause by clause. -/
theorem witness_TeMemoryAccess :
    (∃ s : State, ∃ n k : Fin 64, ∃ w : BitVec 64, let i := teWord w; let x := s.thr n k; let at' (a : Nat) := elemAddr n i.op i.accBit a; (s.issues n k w) ∧ ((teWord w).isAccess 0 = true) ∧ (s.accessStalls n k (teWord w) = false) ∧ (s.accessFault n k false i = none) ∧ (∀ e ∈ x.elems i, i.inRing e.2.1 = false ∧ s.plain (at' e.2.1) e.2.2))
    ∧ (∃ s : State, ∃ n k : Fin 64, ∃ w : BitVec 64, let i := teWord w; let x := s.thr n k; (s.issues n k w) ∧ ((teWord w).isAccess 0 = true) ∧ (s.accessStalls n k (teWord w) = false) ∧ (s.accessFault n k false i = none) ∧ (i.size ≤ 3) ∧ (∀ e ∈ x.elems i, i.inRing e.2.1 = true))
    ∧ (∃ s : State, ∃ n k : Fin 64, ∃ w : BitVec 64, let i := teWord w; let x := s.thr n k; let at' (a : Nat) := elemAddr n i.op false a; (s.issues n k w) ∧ ((teWord w).isAccess 1 = true) ∧ (s.accessStalls n k (teWord w) = false) ∧ (s.accessFault n k true i = none) ∧ (∀ e ∈ x.elems i, i.inRing e.2.1 = false ∧ s.writable (at' e.2.1) e.2.2))
    ∧ (∃ s : State, ∃ n k : Fin 64, ∃ w : BitVec 64, let i := teWord w; let x := s.thr n k; (s.issues n k w) ∧ ((teWord w).isAccess 1 = true) ∧ (s.accessStalls n k (teWord w) = false) ∧ (s.accessFault n k true i = none) ∧ (i.size ≤ 3) ∧ (∀ e ∈ x.elems i, i.inRing e.2.1 = true ∧ e.2.1 % 64 ≠ 0))
    ∧ (∃ s : State, ∃ n k : Fin 64, ∃ w : BitVec 64, ∃ c slot : Fin 16, let i := teWord w; let x := s.thr n k; (s.issues n k w) ∧ ((teWord w).isAccess 1 = true) ∧ (s.accessStalls n k (teWord w) = false) ∧ (s.accessFault n k true i = none) ∧ (i.op = 8) ∧ (i.size = 2) ∧ (i.accBit = false) ∧ (teAddr (x.sr i.a) i.imm = 0x400000 + c.val * 0x400 + slot.val * 64) ∧ (bitAt (x.sr i.b) 0 = true) ∧ ((s.dmaCh n c).slot = slot) ∧ ((s.dmaCh n c).busy = false) ∧ ((s.dmaCh n c).job.isSome ∨ (s.dmaCh n c).radio = true))
    ∧ (∃ s : State, ∃ n k : Fin 64, ∃ w : BitVec 64, ∃ kind a : Nat, (s.issues n k w) ∧ ((teWord w).isAccess 0 = true) ∧ (s.accessStalls n k (teWord w) = false) ∧ (s.accessFault n k false (teWord w) = some (kind, a)))
    ∧ (∃ s : State, ∃ n k : Fin 64, ∃ w : BitVec 64, ∃ kind a : Nat, (s.issues n k w) ∧ ((teWord w).isAccess 1 = true) ∧ (s.accessStalls n k (teWord w) = false) ∧ (s.accessFault n k true (teWord w) = some (kind, a)))
    ∧ (∃ s : State, ∃ n k : Fin 64, ∃ w : BitVec 64, ∃ kind a : Nat, (s.issues n k w) ∧ ((teWord w).isAccess 2 = true) ∧ (s.atomicFault n k (teWord w) = some (kind, a)))
    ∧ (∃ s : State, ∃ n k : Fin 64, ∃ w : BitVec 64, (s.issues n k w) ∧ (s.accessStalls n k (teWord w) = true) ∧ ((teWord w).isAccess 0 = true))
    ∧ (∃ s : State, ∃ n k : Fin 64, ∃ w : BitVec 64, (s.issues n k w) ∧ (s.accessStalls n k (teWord w) = true) ∧ ((teWord w).isAccess 1 = true))
    ∧ (∃ s : State, ∃ n k : Fin 64, ∃ w : BitVec 64, ∃ a len : Nat, let i := teWord w; let x := s.thr n k; let b := elemAddr n i.op i.accBit a; (s.issues n k w) ∧ ((teWord w).isAccess 0 = true) ∧ (s.accessStalls n k (teWord w) = false) ∧ (s.accessFault n k false i = none) ∧ (x.elems i = [(32, a, len)]) ∧ (i.inRing a = false) ∧ (s.region b ≠ .reserved) ∧ (s.region b ≠ .regSpace) ∧ (s.region (b + len - 1) = s.region b) ∧ (touched s.ms.corr b len = []) ∧ (touched s.ms.uncorr b len ≠ []))
    ∧ (∃ off al : Nat, (off % al ≠ 0))
    ∧ (∃ off : Nat, ∃ al : Nat, (off % al = 0))
    ∧ (∃ s : State, ∃ a al : Nat, (a % al = 0) ∧ (s.region a = .reserved))
    ∧ (∃ s : State, ∃ n k : Fin 64, ∃ w : BitVec 64, let i := teWord w; let x := s.thr n k; let a := teAddr (x.sr i.a) i.imm; (s.issues n k w) ∧ ((teWord w).isAccess 2 = true) ∧ (s.atomicFault n k i = none) ∧ (s.writable a i.atomBytes) ∧ (i.atomOp ≤ 5)) :=
  ⟨⟨thr0 rdy, 0, 0, te1 8 8 1 2 3, by unfold State.issues State.plain; decide⟩,
   ⟨thr0 { rdy with s := [(2, 0x400000)] }, 0, 0, te1 8 8 1 2 3, by unfold State.issues; decide⟩,
   ⟨thr0 rdy, 0, 0, te1 8 9 1 2 3, by unfold State.issues State.writable State.plain; decide⟩,
   ⟨{ thr0 { rdy with job := 1, s := [(2, 0x400004)] } with ms := { dma := [(0, { job := some 1 })] } }, 0, 0, te1 8 9 1 2 3, by unfold State.issues; decide⟩,
   ⟨{ thr0 { rdy with job := 1, s := [(2, 0x400000), (3, 1)] } with ms := { dma := [(0, { job := some 1 })] } }, 0, 0, te1 8 9 1 2 3, 0, 0, by unfold State.issues; decide⟩,
   ⟨thr0 { rdy with s := [(2, 1)] }, 0, 0, te1 8 8 1 2 3, 0x12, 0x021000000001, by unfold State.issues; decide +kernel⟩,
   ⟨thr0 { rdy with s := [(2, 1)] }, 0, 0, te1 8 9 1 2 3, 0x12, 0x021000000001, by unfold State.issues; decide +kernel⟩,
   ⟨thr0 { rdy with s := [(2, 1)] }, 0, 0, te1 10 0x2A 1 2 3, 0x12, 1, by unfold State.issues; decide +kernel⟩,
   ⟨{ thr0 rdy with arr := [(0, { spills := [{ storeLeft := 1, begun := true }] })] }, 0, 0, te1 8 8 1 2 3, by unfold State.issues; decide +kernel⟩,
   ⟨{ thr0 rdy with arr := [(0, { spills := [{ storeLeft := 1, begun := true }] })] }, 0, 0, te1 8 9 1 2 3, by unfold State.issues; decide +kernel⟩,
   ⟨{ thr0 rdy with ms := { uncorr := [storeBase 0] } }, 0, 0, te1 8 8 1 2 3, 0, 4, by dsimp only; unfold State.issues; decide +kernel⟩,
   ⟨1, 4, by decide⟩,
   ⟨4, 4, by decide⟩,
   ⟨up, 0x018000000000, 16, by decide⟩,
   ⟨thr0 { rdy with s := [(2, 0x20000000)] }, 0, 0, te1 10 0x2A 1 2 3, by (unfold State.issues State.writable State.plain; decide)⟩⟩

/-- The hypotheses of TeRemoteAccess can be met, clause by clause. -/
theorem witness_TeRemoteAccess :
    (∃ s : State, ∃ n k : Fin 64, ∃ w : BitVec 64, (s.live = true) ∧ (512 < s.engineOut n + ((s.thr n k).rmtElems (teWord w)).length))
    ∧ (∃ s : State, ∃ n k : Fin 64, ∃ w : BitVec 64, ∃ kind a : Nat, (s.issues n k w) ∧ ((teWord w).op = 11) ∧ (s.engineOut n + ((s.thr n k).rmtElems (teWord w)).length ≤ 512) ∧ (s.rmtFault n k (teWord w) = some (kind, a)))
    ∧ (∃ s : State, ∃ n k : Fin 64, ∃ w : BitVec 64, ∃ a len : Nat, (s.issues n k w) ∧ ((teWord w).op = 11) ∧ (s.engineOut n + 1 ≤ 512) ∧ ((s.thr n k).why = .none) ∧ ((teWord w).func % 4 = 0) ∧ ((s.thr n k).rmtElems (teWord w) = [(32, a, len)]) ∧ (s.rmtFault n k (teWord w) = none) ∧ (s.badReq n k (teWord w) a len = true) ∧ (65536 ∉ (s.thr n k).rmtOut))
    ∧ (∃ s : State, ∃ n k : Fin 64, ∃ w : BitVec 64, ∃ a len : Nat, (s.issues n k w) ∧ ((teWord w).op = 11) ∧ (s.engineOut n + 1 ≤ 512) ∧ ((s.thr n k).rmtElems (teWord w) = [(32, a, len)]) ∧ (s.rmtFault n k (teWord w) = none) ∧ (badGlobal a = false) ∧ (s.reachOk (s.thr n k).slot 0 (teWord w).perm (s.globalChip a) (a % 2 ^ 48) len = false))
    ∧ (∃ s : State, ∃ n k : Fin 64, ∃ w : BitVec 64, let i := teWord w; let x := s.thr n k; (s.remoteIssues n k w) ∧ ((s.thr n k).why = .none) ∧ ((teWord w).func % 4 = 0) ∧ (65536 ∉ (s.thr n k).rmtOut) ∧ (∀ e ∈ x.rmtElems i, s.globalChip e.2.1 = s.chipId ∧ s.plain (e.2.1 % 2 ^ 48) e.2.2))
    ∧ (∃ s : State, ∃ n k : Fin 64, ∃ w : BitVec 64, ∃ a len : Nat, let i := teWord w; (s.remoteIssues n k w) ∧ ((s.thr n k).why = .none) ∧ (65536 ∉ (s.thr n k).rmtOut) ∧ ((s.thr n k).rmtElems (teWord w) = [(32, a, len)]) ∧ (s.globalChip a = s.chipId) ∧ (s.writable (a % 2 ^ 48) len) ∧ (i.func % 4 = 1))
    ∧ (∃ s : State, ∃ n k : Fin 64, ∃ w : BitVec 64, ∃ a len : Nat, let i := teWord w; (s.remoteIssues n k w) ∧ ((s.thr n k).why = .none) ∧ (65536 ∉ (s.thr n k).rmtOut) ∧ ((s.thr n k).rmtElems (teWord w) = [(32, a, len)]) ∧ (s.globalChip a = s.chipId) ∧ (s.writable (a % 2 ^ 48) len) ∧ (i.func % 4 = 2) ∧ (i.atomOp ≤ 5))
    ∧ (∃ s : State, ∃ n k : Fin 64, ∃ w : BitVec 64, ∃ l a len p : Nat, (s.remoteIssues n k w) ∧ ((teWord w).func % 4 ≤ 1) ∧ ((s.thr n k).rmtElems (teWord w) = [(l, a, len)]) ∧ (s.globalChip a ≠ s.chipId) ∧ (s.canReach (s.globalChip a)) ∧ (s.quiet) ∧ (s.usableAlts (s.globalChip a) = [p]) ∧ ((s.destOf (s.globalChip a)).port = none)) :=
  ⟨⟨{ up with net := { reqs := List.replicate 512 { who := .thread 0 0 } } }, 0, 0, te1 11 8 1 2 3, by decide +kernel⟩,
   ⟨thr0 { rdy with s := [(2, 1)] }, 0, 0, te1 11 8 1 2 3, 0x12, 1, by unfold State.issues; decide +kernel⟩,
   ⟨thr0 { rdy with s := [(2, 2 ^ 60)] }, 0, 0, te1 11 8 1 2 3, 2 ^ 60, 4, by unfold State.issues; decide +kernel⟩,
   ⟨thr0 { rdy with slot := 1 }, 0, 0, te1 11 8 1 2 3, 0, 4, by unfold State.issues; decide +kernel⟩,
   ⟨thr0 rdy, 0, 0, te1 11 8 1 2 3, by dsimp only; unfold State.plain State.remoteIssues State.issues; decide +kernel⟩,
   ⟨thr0 { rdy with s := [(2, 0x20000000)] }, 0, 0, te1 11 9 1 2 3, 0x20000000, 4, by dsimp only; unfold State.writable State.remoteIssues State.plain State.issues; decide +kernel⟩,
   ⟨thr0 { rdy with s := [(2, 0x20000000)] }, 0, 0, te1 11 0x2A 1 2 3, 0x20000000, 4, by dsimp only; unfold State.writable State.remoteIssues State.plain State.issues; decide +kernel⟩,
   by exact ⟨{ net1 with te := { thr := [(0, { rdy with s := [(2, 2 ^ 48)] })] } }, 0, 0, te1 11 8 1 2 3, 32, 2 ^ 48, 4, 0, by unfold State.remoteIssues State.issues; decide, by decide, by decide, by decide, ⟨by decide, by decide, by decide, by decide, by decide, by decide, ⟨0, by decide⟩⟩, by unfold State.quiet; decide, by decide, by decide⟩⟩

/-- The hypotheses of ThreadWaits can be met, clause by clause. -/
theorem witness_ThreadWaits :
    (∃ s : State, ∃ n k : Fin 64, ∃ w : BitVec 64, ∃ c : Nat, ∃ rest : List Nat, (s.issues n k w) ∧ ((teWord w).op = 12) ∧ ((teWord w).num = 1 ∨ (teWord w).num = 2) ∧ ((s.thr n k).why = .none) ∧ ((s.thr n k).comps = c :: rest))
    ∧ (∃ s : State, ∃ n k : Fin 64, ∃ w : BitVec 64, (s.issues n k w) ∧ ((teWord w).op = 12) ∧ ((teWord w).num = 1) ∧ ((s.thr n k).comps = []))
    ∧ (∃ s : State, ∃ n k : Fin 64, ∃ w : BitVec 64, (s.issues n k w) ∧ ((teWord w).op = 12) ∧ ((teWord w).num = 2) ∧ ((s.thr n k).why = .none) ∧ ((s.thr n k).comps = []))
    ∧ (∃ s : State, ∃ n k : Fin 64, ∃ w : BitVec 64, (s.issues n k w) ∧ (s.isMsg n k 0 (teWord w) = true) ∧ (s.msendFault n k (teWord w) = none) ∧ ((s.thr n k).why = .none))
    ∧ (∃ s : State, ∃ n k : Fin 64, ∃ w : BitVec 64, ∃ v : Nat, ∃ rest : List Nat, (s.issues n k w) ∧ (s.isMsg n k 1 (teWord w) = true ∨ s.isMsg n k 2 (teWord w) = true) ∧ (s.mqOf n ((s.thr n k).sr (teWord w).a % 16) = v :: rest) ∧ ((s.thr n k).why = .none) ∧ (∀ e ∈ s.te.thr, e.2.why ≠ .msend))
    ∧ (∃ s : State, ∃ n k : Fin 64, ∃ w : BitVec 64, (s.issues n k w) ∧ (s.isMsg n k 1 (teWord w) = true) ∧ (s.mqOf n ((s.thr n k).sr (teWord w).a % 16) = []))
    ∧ (∃ s : State, ∃ n k : Fin 64, ∃ w : BitVec 64, (s.issues n k w) ∧ (s.isMsg n k 2 (teWord w) = true) ∧ (s.mqOf n ((s.thr n k).sr (teWord w).a % 16) = []))
    ∧ (∃ s : State, ∃ n k : Fin 64, (s.live = true) ∧ ((s.thr n k).st = .wait) ∧ ((s.thr n k).why = .pwait ∨ (s.thr n k).why = .mwait ∨ (s.thr n k).why = .msend ∨ (s.thr n k).why = .fence)) :=
  ⟨⟨thr0 { rdy with comps := [5] }, 0, 0, te1 12 4 1 2 3, 5, [], by unfold State.issues; decide⟩,
   ⟨thr0 rdy, 0, 0, te1 12 4 1 2 3, by unfold State.issues; decide⟩,
   ⟨thr0 rdy, 0, 0, te1 12 8 1 2 3, by unfold State.issues; decide⟩,
   ⟨thr0 rdy, 0, 0, te1 13 0 1 2 3, by unfold State.issues; decide⟩,
   ⟨{ thr0 rdy with te := { thr := [(0, rdy)], mq := [(0, [5])] } }, 0, 0, te1 13 1 2 2 3, 5, [], by unfold State.issues; decide⟩,
   ⟨thr0 rdy, 0, 0, te1 13 1 2 2 3, by unfold State.issues; decide⟩,
   ⟨thr0 rdy, 0, 0, te1 13 2 2 2 3, by unfold State.issues; decide⟩,
   ⟨thr0 { st := .wait, why := .msend }, 0, 0, by decide⟩⟩

/-- The hypotheses of SyncOperations can be met, clause by clause. -/
theorem witness_SyncOperations :
    (∃ s : State, ∃ n k : Fin 64, ∃ w : BitVec 64, let i := teWord w; let x := s.thr n k; let a := x.sr i.a; let o := a % 8192; let sop := bits a 27 25; (s.issues n k w) ∧ ((teWord w).op = 13) ∧ ((s.thr n k).why = .none) ∧ (bitAt a 63 = true) ∧ (bits a 62 28 = 0) ∧ (bits a 24 13 = 0xFFF ∨ bits a 24 13 = s.chipId) ∧ (s.reachOk x.slot 1 (syncPerm sop) s.chipId o 1 = true) ∧ (s.flag (f_SYN_OBJ_CFG_ENABLE o) = true) ∧ (s.net.waits = []) ∧ (65536 ∉ x.rmtOut) ∧ (∀ c ∈ s.syn.hist, c < 4096))
    ∧ (∃ s : State, ∃ n k : Fin 64, ∃ w : BitVec 64, (s.issues n k w) ∧ ((teWord w).op = 13) ∧ (bitAt ((s.thr n k).sr (teWord w).a) 63 = true) ∧ (bits ((s.thr n k).sr (teWord w).a) 62 28 ≠ 0) ∧ (s.engineOut n < 512))
    ∧ (∃ s : State, ∃ n k : Fin 64, ∃ w : BitVec 64, let c := bits ((s.thr n k).sr (teWord w).a) 24 13; (512 ≤ s.engineOut n) ∧ (c ≠ 0xFFF) ∧ (c ≠ s.chipId) ∧ (s.live = true)) :=
  ⟨⟨{ thr0 { rdy with s := [(2, 2 ^ 63 + 0x1FFE000)] } with regs := (ram.put (f_SYN_OBJ_CFG_ENABLE 0) 1).regs }, 0, 0, te1 13 0 2 2 3, by dsimp only; unfold State.issues; decide +kernel⟩,
   ⟨thr0 { rdy with s := [(2, 2 ^ 63 + 2 ^ 28)] }, 0, 0, te1 13 0 2 2 3, by unfold State.issues; decide +kernel⟩,
   ⟨{ thr0 { rdy with s := [(2, 2 ^ 63 + 2 ^ 13)] } with net := { reqs := List.replicate 512 { who := .thread 0 0 } } }, 0, 0, te1 13 0 2 2 3, by decide +kernel⟩⟩

/-- The hypotheses of MemoryUpkeep can be met, clause by clause. -/
theorem witness_MemoryUpkeep :
    (∃ s : State, ∃ b : Fin 512, ∃ x : Transfer, (s.live = true) ∧ (x.ok = true) ∧ (s.bankOf b = {}))
    ∧ (∃ s : State, ∃ b : Fin 512, ∃ x c : Transfer, ∃ m : Fin 65, let k := s.bankOf b; (s.live = true) ∧ (x.ok = true) ∧ ((s.bankOf b).cur = some c) ∧ (m.val < c.beats) ∧ (7 ≤ k.pend.length))
    ∧ (∃ s : State, ∃ b : Fin 512, ∃ x c : Transfer, ∃ m : Fin 65, let k := s.bankOf b; let y := s.atInput b x; (s.live = true) ∧ (x.ok = true) ∧ ((s.bankOf b).cur = some c) ∧ (m.val < c.beats) ∧ (k.pend.length < 7) ∧ (k.stall = []) ∧ (y.input ≤ c.input))
    ∧ (∃ s : State, ∃ b : Fin 512, ∃ x c : Transfer, ∃ m : Fin 65, let k := s.bankOf b; let y := s.atInput b x; (s.live = true) ∧ (x.ok = true) ∧ ((s.bankOf b).cur = some c) ∧ (m.val < c.beats) ∧ (k.pend.length < 7) ∧ (k.stall = []) ∧ (c.input < y.input))
    ∧ (∃ s : State, ∃ b : Fin 512, ∃ c : Transfer, (s.live = true) ∧ ((s.bankOf b).cur = some c) ∧ (c.write = true) ∧ (c.xfer = none) ∧ (c.mv = none) ∧ (c.te = none) ∧ (c.skip = 0) ∧ (c.beats ≠ 0) ∧ (c.data.length = 64 * c.beats) ∧ (s.writable (stageBase + b.val * 0x80000 + c.line * 64) (64 * c.beats)))
    ∧ (∃ k : Bank, (k.cur = none) ∧ (k.stall = []) ∧ (k.pend ≠ []))
    ∧ (∃ s : State, ∃ b : Fin 512, ∃ x : Transfer, ∃ rest : List Transfer, (s.live = true) ∧ ((s.bankOf b).stall = x :: rest))
    ∧ (∃ s : State, ∃ rates : List (Fin 24 × Fin 3), (s.live = true) ∧ ((rates.map (·.1)).Nodup))
    ∧ (∃ s : State, ∃ c : Fin 24, (s.live = true) ∧ (sget 0 s.ms.refPost c ≠ 0))
    ∧ (∃ s : State, (s.live = true) ∧ (s.get f_MEM_SCRUB_CFG_ENABLE = 1) ∧ (64 ≤ s.lpBytes) ∧ (s.lpBytes ≤ 0x018000000000)) :=
  ⟨⟨up, 511, { line := 8128, beats := 64 }, by decide⟩,
   ⟨{ up with ms := { bank := [(0, { cur := some { beats := 64 }, pend := List.replicate 7 {} })] } }, 0, {}, { beats := 64 }, 63, by decide⟩,
   ⟨{ up with ms := { bank := [(0, { cur := some { beats := 64, input := 15 }, pend := List.replicate 6 {} })] } }, 0, { input := 15 }, { beats := 64, input := 15 }, 63, by dsimp only; decide +kernel⟩,
   ⟨{ up with ms := { bank := [(0, { cur := some { beats := 64 } })] }, img := some { arb := [(0, false, 0, 15)] } }, 0, {}, { beats := 64 }, 0, by dsimp only; decide +kernel⟩,
   ⟨{ up with ms := { bank := [(511, { cur := some { line := 8191, write := true, data := List.replicate 64 1 } })] } }, 511, { line := 8191, write := true, data := List.replicate 64 1 }, by unfold State.writable State.plain; decide +kernel⟩,
   ⟨{ pend := [{}] }, by decide⟩,
   ⟨{ up with ms := { bank := [(0, { stall := [{}] })] } }, 0, {}, [], by decide⟩,
   ⟨up, [(0, 0), (23, 2)], by decide⟩,
   ⟨{ up with ms := { refPost := [(23, 1)] } }, 23, by decide⟩,
   ⟨withF ram [(f_MEM_SCRUB_CFG_ENABLE, 1)], by decide⟩⟩

/-- The hypotheses of ArrayDma can be met, clause by clause. -/
theorem witness_ArrayDma :
    (∃ s : State, ∃ n : Fin 64, (s.live = true) ∧ (s.hasArray n = true))
    ∧ (∃ s : State, ∃ n : Fin 64, ∃ c : Fin 16, ∃ a b : Nat → Nat, let ch := s.dmaCh n c; let d := ch.desc; (s.live = true) ∧ (ch.slot < 16) ∧ (ch.busy = true) ∧ (ch.stop = false) ∧ (ch.row = 0) ∧ (ch.code = 0) ∧ (s.mvOf (16 * n.val + c.val) = {}) ∧ ((s.arrOf n).spills = []) ∧ (∀ c', c' < 16 → c' ≠ c.val → (s.dmaCh n c').busy = false) ∧ (d.bad = false) ∧ ((s.mqOf n (bits d.ctrl 7 4)).length < 128) ∧ (∀ e ∈ s.te.thr, e.2.why ≠ .mwait) ∧ (∀ i, i < d.rows → s.dmaSide (bitAt d.ctrl 1) (d.rowAt i).1 = .loc (a i) ∧ s.dmaMay n ch (bitAt d.ctrl 1) false (d.rowAt i).1 d.len = true ∧ s.region (a i) ≠ .stage ∧ s.plain (linesOf (a i) d.len).1 (linesOf (a i) d.len).2 ∧ s.dmaSide (bitAt d.ctrl 2) (d.rowAt i).2 = .loc (b i) ∧ s.dmaMay n ch (bitAt d.ctrl 2) true (d.rowAt i).2 d.len = true ∧ s.region (b i) ≠ .stage ∧ ∀ k, k < d.len → s.writable (b i + k) 1) ∧ (∀ i j, i < d.rows → j < d.rows → (a i + d.len ≤ b j ∨ b j + d.len ≤ a i) ∧ (i = j ∨ b i + d.len ≤ b j ∨ b j + d.len ≤ b i)))
    ∧ (∃ s : State, ∃ n : Fin 64, ∃ c : Fin 16, let ch := s.dmaCh n c; let d := ch.desc; let may := s.dmaMay n ch (bitAt d.ctrl 1) false (d.rowAt 0).1 d.len && s.dmaMay n ch (bitAt d.ctrl 2) true (d.rowAt 0).2 d.len; (s.live = true) ∧ (ch.slot < 16) ∧ (ch.busy = true) ∧ (ch.stop = false) ∧ (ch.row = 0) ∧ (ch.code = 0) ∧ (s.mvOf (16 * n.val + c.val) = {}) ∧ (s.dmaStalls n ch = false) ∧ (s.dmaFull n (s.dmaJob ch) = false) ∧ (∀ c', c' < 16 → c' ≠ c.val → (s.dmaCh n c').busy = false) ∧ (bitAt d.ctrl 3 = false) ∧ (d.bad = true ∨ may = false))
    ∧ (∃ s : State, ∃ n : Fin 64, ∃ c : Fin 16, ∃ a, let ch := s.dmaCh n c; let d := ch.desc; let may := s.dmaMay n ch (bitAt d.ctrl 1) false (d.rowAt 0).1 d.len && s.dmaMay n ch (bitAt d.ctrl 2) true (d.rowAt 0).2 d.len; let b := (a - stageBase) / 0x80000; (s.live = true) ∧ (ch.slot < 16) ∧ (ch.busy = true) ∧ (ch.stop = false) ∧ (ch.row = 0) ∧ (ch.code = 0) ∧ (s.mvOf (16 * n.val + c.val) = {}) ∧ (s.dmaStalls n ch = false) ∧ (s.dmaFull n (s.dmaJob ch) = false) ∧ (∀ c', c' < 16 → c' ≠ c.val → (s.dmaCh n c').busy = false) ∧ (d.bad = false) ∧ (may = true) ∧ (s.dmaSide (bitAt d.ctrl 1) (d.rowAt 0).1 = .loc a) ∧ (s.region a = .stage) ∧ (s.bankOf b = {})) :=
  ⟨⟨up, 63, by decide⟩,
   by exact ⟨{ ram with ms := { dma := [(0, { job := some 1, busy := true, go := [(0, { len := 64, src := 0x021000000000, dst := 0x021000000040, n0 := 1, n1 := 1, n2 := 1 })] })] } }, 0, 0, fun _ => 0x021000000000, fun _ => 0x021000000040, by decide, by decide, by decide, by decide, by decide, by decide, by decide, by decide, by decide, by decide +kernel, by decide, by decide, fun i hi => (by have h : i < 1 := hi; have e : i = 0 := (by omega); subst e; unfold State.writable State.plain; decide +kernel), fun i j hi hj => (by have h : i < 1 := hi; have g : j < 1 := hj; have e : i = 0 := (by omega); have e' : j = 0 := (by omega); subst e; subst e'; decide +kernel)⟩,
   ⟨{ ram with ms := { dma := [(1023, { job := some 1, busy := true, slot := 15, go := [(15, {})] })] } }, 63, 15, by dsimp only; decide +kernel⟩,
   ⟨{ ram with ms := { dma := [(0, { job := some 1, busy := true, go := [(0, { len := 64, src := stageBase, dst := 0x021000000040, n0 := 1, n1 := 1, n2 := 1 })] })] } }, 0, 0, stageBase, by decide +kernel⟩⟩

/-- The hypotheses of BulkMovers can be met, clause by clause. -/
theorem witness_BulkMovers :
    (∃ s : State, ∃ m : Fin 8, (s.live = true) ∧ (sget 0 s.ms.bulkCur m ≠ 0))
    ∧ (∃ s : State, ∃ m : Fin 8, (s.live = true) ∧ (sget 0 s.ms.bulkCur m = 0) ∧ (∀ r, r < 4 → s.bulkQ m r = []))
    ∧ (∃ s : State, ∃ m : Fin 8, ∃ q : Fin 4, ∃ d : BulkDesc, ∃ rest : List BulkDesc, ∃ k : Nat, let a := d.src % 2 ^ 48; let b := d.dst % 2 ^ 48; let here (x : Nat) : Prop := s.region x ≠ .stage ∧ s.region x ≠ .hostA ∧ s.region x ≠ .hostB; let copy : Prop := bits d.ctrl 3 0 = 1 ∧ s.globalChip d.src = s.chipId ∧ s.reachOk k 0 26 s.chipId a d.len = true ∧ here a ∧ s.plain (linesOf a d.len).1 (linesOf a d.len).2 ∧ s.region a = s.region (linesOf a d.len).1 ∧ (a + d.len ≤ b ∨ b + d.len ≤ a); let fill : Prop := bits d.ctrl 3 0 = 2; (s.live = true) ∧ (sget 0 s.ms.bulkCur m = q.val + 1) ∧ (s.bulkQ m q = d :: rest) ∧ (s.mvOf (1024 + m) = {}) ∧ (d.sub = .radio) ∧ (d.ok = true) ∧ (bitAt d.ctrl 4 = false) ∧ (bitAt d.ctrl 5 = false) ∧ (s.globalChip d.dst = s.chipId) ∧ (s.slotOfTenant d.tenant = some k) ∧ (s.reachOk k 0 27 s.chipId (d.dst % 2 ^ 48) d.len = true) ∧ (here b) ∧ (∀ j, s.region b ≠ .acc j) ∧ (∀ i, i < d.len → s.writable (b + i) 1) ∧ (copy ∨ fill))
    ∧ (∃ s : State, ∃ m : Fin 8, ∃ q : Fin 4, ∃ d : BulkDesc, ∃ rest : List BulkDesc, (s.live = true) ∧ (sget 0 s.ms.bulkCur m = q.val + 1) ∧ (s.bulkQ m q = d :: rest) ∧ (s.mvOf (1024 + m) = {}) ∧ (d.sub = .radio) ∧ (d.ok = false ∨ (d.ok = true ∧ s.bulkMay d 27 d.dst (d.span 5) = false))) :=
  ⟨⟨{ up with ms := { bulkCur := [(7, 4)] } }, 7, by decide⟩,
   ⟨up, 7, by decide⟩,
   by exact ⟨{ ram with ms := { bulkCur := [(0, 1)], bulkQ := [(0, [{ ctrl := 2, len := 64, dst := 2 ^ 30 - 64, tenant := 7 }])] } }, 0, 0, { ctrl := 2, len := 64, dst := 2 ^ 30 - 64, tenant := 7 }, [], 0, by decide, by decide, by decide, by decide, by decide, by decide, by decide, by decide, by decide, by decide, by decide +kernel, by decide +kernel, (fun j h => nomatch ((show Region.lpddr = _ from by decide +kernel).trans h)), by unfold State.writable State.plain; decide +kernel, Or.inr (by decide)⟩,
   ⟨{ ram with ms := { bulkCur := [(7, 4)], bulkQ := [(31, [{}])] } }, 7, 3, {}, [], by decide +kernel⟩⟩

/-- The hypotheses of SpillAndReload can be met, clause by clause. -/
theorem witness_SpillAndReload :
    (∃ s : State, ∃ n : Fin 64, (s.live = true) ∧ (s.leaseOf n = .radio))
    ∧ (∃ s : State, ∃ n : Fin 64, ∃ v : Spill, ∃ j, (s.live = true) ∧ (s.leaseOf n ≠ .radio) ∧ ((s.arrOf n).spills.find? (fun v => v.begun && !v.hdr) = some v) ∧ (lowBit v.accLeft = some j) ∧ (touched s.ms.corr (accBase n + j * 81920) 81920 = []) ∧ (touched s.ms.uncorr (accBase n + j * 81920) 81920 = []))
    ∧ (∃ s : State, ∃ n : Fin 64, ∃ v : Spill, ∃ j, (s.live = true) ∧ (s.leaseOf n ≠ .radio) ∧ ((s.arrOf n).spills.find? (fun v => v.begun && !v.hdr) = some v) ∧ (lowBit v.accLeft = none) ∧ (lowBit v.storeLeft = some j) ∧ (touched s.ms.corr (storeBase n + j * 0x10000) 0x10000 = []) ∧ (touched s.ms.uncorr (storeBase n + j * 0x10000) 0x10000 = []))
    ∧ (∃ s : State, ∃ n : Fin 64, ∃ v : Spill, (s.live = true) ∧ (s.leaseOf n ≠ .radio) ∧ ((s.arrOf n).spills.find? (fun v => v.begun && !v.hdr) = some v) ∧ (lowBit v.accLeft = none) ∧ (lowBit v.storeLeft = none))
    ∧ (∃ s : State, ∃ n : Fin 64, ∃ v : Spill, (s.live = true) ∧ ((s.arrOf n).spills = [v]) ∧ (v.hdr = true) ∧ (v.back = false) ∧ (s.reloadFree n v = true) ∧ (∀ j, s.jobOf v.job = some j → j.stop = false) ∧ (v.job < 2 ^ 32))
    ∧ (∃ s : State, ∃ n : Fin 64, ∃ v : Spill, (s.live = true) ∧ ((s.arrOf n).spills.find? (fun v => v.back) = some v) ∧ (s.leaseOf n ≠ .radio) ∧ (v.base + 0x6D0000 ≤ s.lpBytes) ∧ (s.lpBytes ≤ 0x018000000000) ∧ (s.ms.uncorr = []) ∧ (s.ms.corr = []) ∧ (∀ k, k < 64 → (s.thr n k).job = v.job → (s.thr n k).st ≠ .faulted)) :=
  ⟨⟨{ up with tim := { lease := [(63, .radio)] } }, 63, by decide⟩,
   ⟨arr0 { spills := [{ begun := true, accLeft := 2 ^ 31 }] }, 0, { begun := true, accLeft := 2 ^ 31 }, 31, by decide +kernel⟩,
   ⟨arr0 { spills := [{ begun := true, storeLeft := 2 ^ 63 }] }, 0, { begun := true, storeLeft := 2 ^ 63 }, 63, by decide +kernel⟩,
   ⟨arr0 { spills := [{ begun := true }] }, 0, { begun := true }, by decide⟩,
   ⟨arr0 { spills := [{ hdr := true, job := 5 }] }, 0, { hdr := true, job := 5 }, by exact ⟨by decide, by decide, by decide, by decide, by decide, (fun j h => (nomatch (show (none : Option Job) = some j from h))), by decide⟩⟩,
   ⟨{ ram with arr := [(0, { spills := [{ back := true }] })] }, 0, { back := true }, by decide +kernel⟩⟩

/-- The hypotheses of StepsAndContexts can be met, clause by clause. -/
theorem witness_StepsAndContexts :
    (∃ s : State, ∃ p : Fin 16, let u := ((s.srvPump.retireStep p).drainRecords p).settleHalt p; let started := ((u.spOf p).job.bind u.jobOf).any (fun j => j.st == .started && !j.stop); (s.live = true) ∧ (u.role p ≠ 2) ∧ (u.stepDue p = none ∨ (u.spOf p).model.bind u.modelOf = none ∨ (u.spOf p).phase ≠ .idle ∨ u.flag (f_SRV_PART_CTL_HALTED p) = true ∨ (sget {} u.flt.part p).st ≠ .running ∨ started = false))
    ∧ (∃ s : State, ∃ p : Fin 16, let u := ((s.srvPump.retireStep p).drainRecords p).settleHalt p; (s.live = true) ∧ (u.role p = 2))
    ∧ (∃ s : State, ∃ p : Fin 16, ∃ m : Model, ∃ base cut lag : Nat, let u := ((s.srvPump.retireStep p).drainRecords p).settleHalt p; let started := ((u.spOf p).job.bind u.jobOf).any (fun j => j.st == .started && !j.stop); (s.live = true) ∧ ((u.spOf p).model.bind u.modelOf = some m) ∧ (u.stepDue p = some (base, cut, lag)) ∧ ((u.spOf p).phase = .idle) ∧ (u.flag (f_SRV_PART_CTL_HALTED p) = false) ∧ ((sget {} u.flt.part p).st = .running) ∧ (u.role p ≠ 2) ∧ (started = true))
    ∧ (∃ s : State, ∃ p : Fin 16, ∃ id : Nat, ∃ j : Job, let u := s.srvPump; (s.live = true) ∧ ((u.spOf p).job = some id) ∧ (u.jobOf id = some j) ∧ ((u.spOf p).phase = .planned) ∧ ((sget {} u.flt.part p).st ≠ .stepFault) ∧ ((sget {} u.flt.part p).cmd = false) ∧ (∀ e ∈ (u.spOf p).batch, u.ctxReady e = true) ∧ (u.stepHalted p = true) ∧ (∃ e ∈ (u.spOf p).batch, e.out = false ∧ e.ctx ∈ u.srv.bad))
    ∧ (∃ s : State, ∃ p : Fin 16, ∃ id : Nat, ∃ j : Job, let u := s.srvPump; (s.live = true) ∧ ((u.spOf p).job = some id) ∧ (u.jobOf id = some j) ∧ ((u.spOf p).phase = .planned) ∧ ((sget {} u.flt.part p).st ≠ .stepFault) ∧ ((sget {} u.flt.part p).cmd = false) ∧ (∀ e ∈ (u.spOf p).batch, u.ctxReady e = true) ∧ (u.stepHalted p = true) ∧ (∀ e ∈ (u.spOf p).batch, e.out = false → e.ctx ∉ u.srv.bad))
    ∧ (∃ s : State, ∃ p : Fin 16, (s.live = true) ∧ ((s.spOf p).phase = .planned) ∧ ((sget {} s.flt.part p).cmd = false) ∧ ((sget {} s.flt.part p).st ≠ .stepFault) ∧ (s.get f_SRV_STREAM_CFG_HOLD_TMO ≤ s.tim.expo - (s.spOf p).holdAt))
    ∧ (∃ s : State, ∃ p : Fin 16, ∃ e : Nat, (s.live = true) ∧ ((s.spOf p).waitAt = some e) ∧ ((s.spOf p).halt = 0) ∧ (s.get f_SRV_STREAM_CFG_TMO ≤ s.tim.expo - e))
    ∧ (∃ s : State, ∃ p : Fin 16, (s.live = true) ∧ ((s.spOf p).halt ≠ 0))
    ∧ (∃ s : State, ∃ p : Fin 16, (s.live = true) ∧ (∃ e ∈ s.srv.ctx, e.2.st ≠ .free ∧ e.2.owner = p.val ∧ e.2.away = false))
    ∧ (∃ s : State, ∃ p : Fin 16, (s.live = true) ∧ (∀ e ∈ s.srv.ctx, e.2.st = .free ∨ e.2.owner ≠ p.val ∨ e.2.away = true))
    ∧ (∃ s : State, ∃ p : Fin 16, ∃ e : Nat, (s.live = true) ∧ ((s.spOf p).hznAt = some e) ∧ (s.partReplay p = true) ∧ ((s.spOf p).phase = .idle) ∧ ((s.spOf p).halt = 0) ∧ (∀ h, s.horizon p = some h → h < s.rplCut p (s.spOf p).next) ∧ (s.get f_AUD_RPL_CFG_TMO ≤ s.tim.expo - e))
    ∧ (∃ s : State, (s.live = true) ∧ (swf {} s.srv.ctx = true))
    ∧ (∃ s : State, ∃ u : BitVec 28, let l := sget [] s.ms.bulkCpl 0; (s.live = true) ∧ (∀ c ∈ l, c.sub ≠ .zero u.toNat) ∧ (∀ e ∈ s.srv.ctx, e.2.reloading ≠ 1))
    ∧ (∃ s : State, ∃ u : BitVec 28, ∃ c e, let l := sget [] s.ms.bulkCpl 0; (s.live = true) ∧ (l.find? (fun c => c.sub == .zero u.toNat) = some c) ∧ (s.srv.zero.find? (fun e => e.1 == u.toNat) = some e))
    ∧ (∃ s : State, ∃ n : BitVec 18, let c := s.ctx n.toNat; (s.live = true) ∧ (c.st ≠ .pausing ∨ s.bulkWaits (.copy n.toNat) = true))
    ∧ (∃ s : State, ∃ n : BitVec 18, let c := s.ctx n.toNat; let l := (sget [] s.ms.bulkCpl 0).filter (fun x => x.sub == .copy n.toNat); (s.live = true) ∧ (c.st = .pausing) ∧ (s.bulkWaits (.copy n.toNat) = false) ∧ (∃ x ∈ l, x.status ≠ 0))
    ∧ (∃ s : State, ∃ n : BitVec 18, let c := s.ctx n.toNat; let l := (sget [] s.ms.bulkCpl 0).filter (fun x => x.sub == .copy n.toNat); (s.live = true) ∧ (c.st = .pausing) ∧ (s.bulkWaits (.copy n.toNat) = false) ∧ (∀ x ∈ l, x.status = 0))
    ∧ (∃ s : State, ∃ n : BitVec 18, let c := s.ctx n.toNat; (s.live = true) ∧ (c.reloading ≠ 2 ∨ s.bulkWaits (.reload n.toNat) = true))
    ∧ (∃ s : State, ∃ n : BitVec 18, let c := s.ctx n.toNat; let l := (sget [] s.ms.bulkCpl 0).filter (fun x => x.sub == .reload n.toNat); (s.live = true) ∧ (c.reloading = 2) ∧ (s.bulkWaits (.reload n.toNat) = false) ∧ (∀ x ∈ l, x.status = 0))
    ∧ (∃ s : State, ∃ n : BitVec 18, let c := s.ctx n.toNat; let l := (sget [] s.ms.bulkCpl 0).filter (fun x => x.sub == .reload n.toNat); (s.live = true) ∧ (c.reloading = 2) ∧ (s.bulkWaits (.reload n.toNat) = false) ∧ (∃ x ∈ l, x.status ≠ 0)) :=
  ⟨⟨{ withF srv [(f_SRV_PIPE_CFG_PERIOD 15, 255)] with tim := { pipe := [(15, { ran := true, base := 2 ^ 63, period := 255 })] } }, 15, by dsimp only; decide +kernel⟩,
   ⟨withF srv [(f_CMP_PART_CFG_MEMBER 15, 1), (f_CMP_PART_CFG_ROLE 15, 2)], 15, by dsimp only; decide +kernel⟩,
   ⟨{ srv with sp := [(15, { job := some 5, model := some 64 })], srv := { model := [(0, mdl)] }, hst := { jobs := [{ id := 5, st := .started }] } }, 15, mdl, 0, 0, 0, by dsimp only; decide +kernel⟩,
   ⟨{ srv with sp := [(15, { job := some 5, phase := .planned, batch := [{ ctx := 0x3FFFF }] })], srv := { bad := [0x3FFFF] }, hst := { jobs := [{ id := 5, st := .started }] } }, 15, 5, { id := 5, st := .started }, by dsimp only; decide +kernel⟩,
   ⟨{ srv with sp := [(15, { job := some 5, phase := .planned, batch := [{ ctx := 0x3FFFF }] })], srv := { bad := [0] }, hst := { jobs := [{ id := 5, st := .started }] } }, 15, 5, { id := 5, st := .started }, by dsimp only; decide +kernel⟩,
   ⟨{ srv with sp := [(15, { phase := .planned })], tim := { expo := 0xFFFFFFFF } }, 15, by decide +kernel⟩,
   ⟨{ srv with sp := [(15, { waitAt := some 0 })], tim := { expo := 0xFFFFFFFF } }, 15, 0, by decide +kernel⟩,
   ⟨{ srv with sp := [(15, { halt := 3 })] }, 15, by decide +kernel⟩,
   ⟨{ srv with srv := { ctx := [(0x3FFFF, { st := .expired, owner := 15 })] } }, 15, by decide +kernel⟩,
   ⟨srv, 15, by decide +kernel⟩,
   ⟨rpl1, 15, 0, by decide +kernel, by decide +kernel, by decide +kernel, by decide +kernel, by decide +kernel, fun h hh => (by cases (show some 0 = rpl1.horizon 15 from by decide +kernel).trans hh; decide +kernel), by decide +kernel⟩,
   ⟨{ srv with srv := { ctx := [(0, { st := .paused }), (0x3FFFF, { st := .expired })] } }, by decide +kernel⟩,
   ⟨{ srv with ms := { bulkCpl := [(0, [{ sub := .zero 1 }])] }, srv := { ctx := [(0, { reloading := 2 })] } }, 0xFFFFFFF, by dsimp only; decide +kernel⟩,
   ⟨{ srv with ms := { bulkCpl := [(0, [{ sub := .zero 0xFFFFFFF }])] }, srv := { zero := [(0xFFFFFFF, 256)] } }, 0xFFFFFFF, { sub := .zero 0xFFFFFFF }, (0xFFFFFFF, 256), by dsimp only; decide +kernel⟩,
   ⟨ctx1 0x3FFFF {}, 0x3FFFF, by dsimp only; decide +kernel⟩,
   ⟨{ ctx1 0x3FFFF { st := .pausing } with ms := { bulkCpl := [(0, [{ sub := .copy 0x3FFFF, status := 1 }])] } }, 0x3FFFF, by dsimp only; decide +kernel⟩,
   ⟨{ ctx1 0x3FFFF { st := .pausing } with ms := { bulkCpl := [(0, [{ sub := .copy 0x3FFFF }])] } }, 0x3FFFF, by dsimp only; decide +kernel⟩,
   ⟨ctx1 0x3FFFF {}, 0x3FFFF, by dsimp only; decide +kernel⟩,
   ⟨{ ctx1 0x3FFFF { reloading := 2 } with ms := { bulkCpl := [(0, [{ sub := .reload 0x3FFFF }])] } }, 0x3FFFF, by dsimp only; decide +kernel⟩,
   ⟨{ ctx1 0x3FFFF { reloading := 2 } with ms := { bulkCpl := [(0, [{ sub := .reload 0x3FFFF, status := 1 }])] } }, 0x3FFFF, by dsimp only; decide +kernel⟩⟩

/-- The hypotheses of ServingCommands can be met, clause by clause. -/
theorem witness_ServingCommands :
    (∃ s : State, ∃ w : Fin 128, ∃ op : Nat, ∃ i : Instr, ∃ c : Cmd, (s.live = true) ∧ (s.frontCmd w op = some c) ∧ ((op = 0x10 ∧ i = .ctxOpen w) ∨ (op = 0x11 ∧ i = .ctxPrefill w) ∨ (op = 0x12 ∧ i = .ctxPause w) ∨ (op = 0x13 ∧ i = .ctxResume w) ∨ (op = 0x14 ∧ i = .ctxClose w) ∨ (op = 0x16 ∧ i = .ctxDigest w)) ∧ (op = 0x10))
    ∧ (∃ s : State, ∃ w : Fin 128, ∃ op : Nat, ∃ i : Instr, ∃ c : Cmd, let n := c.at 0x10 4 % 2 ^ 18; let x := s.ctx n; (s.live = true) ∧ (s.frontCmd w op = some c) ∧ ((op = 0x10 ∧ i = .ctxOpen w) ∨ (op = 0x11 ∧ i = .ctxPrefill w) ∨ (op = 0x12 ∧ i = .ctxPause w) ∨ (op = 0x13 ∧ i = .ctxResume w) ∨ (op = 0x14 ∧ i = .ctxClose w) ∨ (op = 0x16 ∧ i = .ctxDigest w)) ∧ (op ≠ 0x10) ∧ (x.st ≠ .free))
    ∧ (∃ s : State, ∃ w : Fin 128, ∃ op : Nat, ∃ i : Instr, ∃ c : Cmd, let n := c.at 0x10 4 % 2 ^ 18; let x := s.ctx n; let opening (p : Nat) : Prop := ∃ q ∈ (s.spOf p).cmds, q.op = 0x10 ∧ q.ctx = n; (s.live = true) ∧ (s.frontCmd w op = some c) ∧ ((op = 0x10 ∧ i = .ctxOpen w) ∨ (op = 0x11 ∧ i = .ctxPrefill w) ∨ (op = 0x12 ∧ i = .ctxPause w) ∨ (op = 0x13 ∧ i = .ctxResume w) ∨ (op = 0x14 ∧ i = .ctxClose w) ∨ (op = 0x16 ∧ i = .ctxDigest w)) ∧ (op ≠ 0x10) ∧ (x.st = .free) ∧ (∀ p, p < 16 → ¬opening p))
    ∧ (∃ s : State, ∃ w : Fin 128, ∃ op : Nat, ∃ i : Instr, ∃ c : Cmd, ∃ p, let n := c.at 0x10 4 % 2 ^ 18; let x := s.ctx n; let opening (p : Nat) : Prop := ∃ q ∈ (s.spOf p).cmds, q.op = 0x10 ∧ q.ctx = n; (s.live = true) ∧ (s.frontCmd w op = some c) ∧ ((op = 0x10 ∧ i = .ctxOpen w) ∨ (op = 0x11 ∧ i = .ctxPrefill w) ∨ (op = 0x12 ∧ i = .ctxPause w) ∨ (op = 0x13 ∧ i = .ctxResume w) ∨ (op = 0x14 ∧ i = .ctxClose w) ∨ (op = 0x16 ∧ i = .ctxDigest w)) ∧ (op ≠ 0x10) ∧ (x.st = .free) ∧ (p < 16) ∧ (opening p) ∧ (∀ q, q < p → ¬opening q))
    ∧ (∃ s : State, ∃ w : Fin 128, ∃ c : Cmd, let n := c.at 0x10 4 % 2 ^ 18; let owner := wOwner (s.ownWord n) / 16; let far : Prop := (s.ctx n).away = true ∧ s.isHome (s.ctx n) = true ∧ wState (s.ownWord n) = 1 ∧ owner ≠ s.chipId; (s.live = true) ∧ (s.frontCmd w 0x15 = some c) ∧ ((s.ctx n).st ≠ .free) ∧ (¬far))
    ∧ (∃ s : State, ∃ w : Fin 128, ∃ c : Cmd, let n := c.at 0x10 4 % 2 ^ 18; let owner := wOwner (s.ownWord n) / 16; let far : Prop := (s.ctx n).away = true ∧ s.isHome (s.ctx n) = true ∧ wState (s.ownWord n) = 1 ∧ owner ≠ s.chipId; (s.live = true) ∧ (s.frontCmd w 0x15 = some c) ∧ ((s.ctx n).st ≠ .free) ∧ (far) ∧ (s.quiet) ∧ (s.canReach owner))
    ∧ (∃ s : State, ∃ w : Fin 128, ∃ c : Cmd, let n := c.at 0x10 4 % 2 ^ 18; (s.live = true) ∧ (s.frontCmd w 0x15 = some c) ∧ ((s.ctx n).st = .free))
    ∧ (∃ s : State, ∃ p n : Nat, ∃ k : SrvCmd, ∃ m : Model, (k.ctx = n) ∧ (k.op = 0x10) ∧ ((s.ctx n).st = .free) ∧ ((s.ctx n).leaving = false) ∧ (wState (s.ownWord n) = 0) ∧ (s.role p = 0 ∨ s.role p = 3) ∧ (s.modelOf (k.at 0x18 4) = some m) ∧ ((s.spOf p).model = some (k.at 0x18 4)) ∧ (k.at 0x30 4 ≤ m.maxCtx) ∧ (k.at 0x60 1 = 0))
    ∧ (∃ s : State, ∃ n : Nat, ∃ k : SrvCmd, (k.ctx = n) ∧ (k.op = 0x11) ∧ ((s.ctx n).st = .expired))
    ∧ (∃ s : State, ∃ n : Nat, ∃ k : SrvCmd, (k.ctx = n) ∧ (k.op = 0x13) ∧ ((s.ctx n).st = .paused) ∧ (k.arrival < (s.ctx n).expiry))
    ∧ (∃ s : State, ∃ n : Nat, ∃ k : SrvCmd, (k.ctx = n) ∧ (k.op = 0x12) ∧ ((s.ctx n).st = .prefill ∨ (s.ctx n).st = .decode))
    ∧ (∃ s : State, ∃ n : Nat, ∃ k : SrvCmd, (k.ctx = n) ∧ (k.op = 0x14) ∧ ((s.ctx n).st ≠ .free) ∧ ((s.ctx n).st ≠ .pausing))
    ∧ (∃ s : State, ∃ n : Nat, ∃ k : SrvCmd, (k.ctx = n) ∧ (k.op = 0x14) ∧ (k.pos = 2 ^ 32) ∧ ((s.ctx n).st = .pausing))
    ∧ (∃ s : State, ∃ n : Nat, ∃ k : SrvCmd, (k.ctx = n) ∧ (k.op = 0x11 ∧ (s.ctx n).st ≠ .expired ∨ k.op = 0x13 ∧ ((s.ctx n).st ≠ .paused ∨ (s.ctx n).expiry ≤ k.arrival) ∨ k.op = 0x12 ∧ (s.ctx n).st ≠ .prefill ∧ (s.ctx n).st ≠ .decode))
    ∧ (∃ n : Nat, ∃ k : SrvCmd, ∃ j, (k.ctx = n) ∧ (j ≠ n))
    ∧ (∃ s : State, ∃ w : Fin 129, ∃ data : Option (List Byte), ∃ c : Cmd, ∃ u : State, ∃ desc : List Byte, let slot := c.at 0x10 1; let a := s.cmdAddr w (c.at 0x18 8); let old := s.model slot; let host : Prop := s.region a = .hostA ∨ s.region a = .hostB; let m : Model := { loaded := true, count := (old.count + 1) % 2 ^ 26, desc := desc }; (s.live = true) ∧ (s.frontCmd w 0x30 = some c) ∧ (((s.region a = .lpddr ∨ s.region a = .stage) ∧ s.plain a 128 ∧ desc = s.readBytes a 128 ∧ u = s) ∨ (host ∧ ∃ port pasid h d, s.hostAddr a 128 = some (port, pasid, h) ∧ data = some d ∧ desc = padTo 128 d ∧ u = s.hostR (s.winSlot w) port (pasid.getD 0) h 128)) ∧ (m.ok = true) ∧ (old.loaded = false ∨ s.modelNamed (s.modelHandle slot) = false))
    ∧ (∃ s : State, ∃ w : Fin 129, ∃ data : Option (List Byte), ∃ c : Cmd, ∃ u : State, ∃ desc : List Byte, let slot := c.at 0x10 1; let a := s.cmdAddr w (c.at 0x18 8); let old := s.model slot; let host : Prop := s.region a = .hostA ∨ s.region a = .hostB; let m : Model := { loaded := true, count := (old.count + 1) % 2 ^ 26, desc := desc }; (s.live = true) ∧ (s.frontCmd w 0x30 = some c) ∧ (((s.region a = .lpddr ∨ s.region a = .stage) ∧ s.plain a 128 ∧ desc = s.readBytes a 128 ∧ u = s) ∨ (host ∧ ∃ port pasid h d, s.hostAddr a 128 = some (port, pasid, h) ∧ data = some d ∧ desc = padTo 128 d ∧ u = s.hostR (s.winSlot w) port (pasid.getD 0) h 128)) ∧ (m.ok = true) ∧ (old.loaded = true) ∧ (s.modelNamed (s.modelHandle slot) = true))
    ∧ (∃ s : State, ∃ w : Fin 129, ∃ data : Option (List Byte), ∃ c : Cmd, ∃ u : State, ∃ desc : List Byte, let slot := c.at 0x10 1; let a := s.cmdAddr w (c.at 0x18 8); let old := s.model slot; let host : Prop := s.region a = .hostA ∨ s.region a = .hostB; let m : Model := { loaded := true, count := (old.count + 1) % 2 ^ 26, desc := desc }; (s.live = true) ∧ (s.frontCmd w 0x30 = some c) ∧ (((s.region a = .lpddr ∨ s.region a = .stage) ∧ s.plain a 128 ∧ desc = s.readBytes a 128 ∧ u = s) ∨ (host ∧ ∃ port pasid h d, s.hostAddr a 128 = some (port, pasid, h) ∧ data = some d ∧ desc = padTo 128 d ∧ u = s.hostR (s.winSlot w) port (pasid.getD 0) h 128)) ∧ (m.ok = false))
    ∧ (∃ s : State, ∃ w : Fin 129, ∃ data : Option (List Byte), ∃ c : Cmd, let a := s.cmdAddr w (c.at 0x18 8); let host : Prop := s.region a = .hostA ∨ s.region a = .hostB; (s.live = true) ∧ (s.frontCmd w 0x30 = some c) ∧ (host) ∧ (s.hostAddr a 128 = none ∨ data = none))
    ∧ (∃ s : State, ∃ w : Fin 129, ∃ c : Cmd, let h := c.at 0x10 4; (s.live = true) ∧ (s.frontCmd w 0x31 = some c) ∧ (s.modelOf h = none))
    ∧ (∃ s : State, ∃ w : Fin 129, ∃ c : Cmd, let h := c.at 0x10 4; (s.live = true) ∧ (s.frontCmd w 0x31 = some c) ∧ (s.modelOf h ≠ none) ∧ (s.modelNamed h = true))
    ∧ (∃ s : State, ∃ w : Fin 129, ∃ c : Cmd, let h := c.at 0x10 4; (s.live = true) ∧ (s.frontCmd w 0x31 = some c) ∧ (s.modelOf h ≠ none) ∧ (s.modelNamed h = false))
    ∧ (∃ s : State, ∃ w : Fin 129, ∃ c : Cmd, let h := c.at 0x14 4; (s.live = true) ∧ (s.frontCmd w 0x32 = some c) ∧ (s.modelOf h = none))
    ∧ (∃ s : State, ∃ w : Fin 129, ∃ c : Cmd, ∃ m : Model, let h := c.at 0x14 4; let p := c.at 0x10 1 % 16; let unused : Prop := ∀ e ∈ s.srv.ctx, e.2.st = .free ∨ (e.2.owner ≠ p ∧ (e.2.part ≠ p ∨ s.isHome e.2 = false)); (s.live = true) ∧ (s.frontCmd w 0x32 = some c) ∧ (s.modelOf h = some m) ∧ (¬unused))
    ∧ (∃ s : State, ∃ w : Fin 129, ∃ c : Cmd, ∃ m : Model, let h := c.at 0x14 4; let p := c.at 0x10 1 % 16; let unused : Prop := ∀ e ∈ s.srv.ctx, e.2.st = .free ∨ (e.2.owner ≠ p ∧ (e.2.part ≠ p ∨ s.isHome e.2 = false)); (s.live = true) ∧ (s.frontCmd w 0x32 = some c) ∧ (s.modelOf h = some m) ∧ (unused) ∧ (s.partAudited p = true) ∧ (m.anchorKind = 2))
    ∧ (∃ s : State, ∃ w : Fin 129, ∃ c : Cmd, ∃ m : Model, ∃ j0 : Job, let h := c.at 0x14 4; let p := c.at 0x10 1 % 16; let unused : Prop := ∀ e ∈ s.srv.ctx, e.2.st = .free ∨ (e.2.owner ≠ p ∧ (e.2.part ≠ p ∨ s.isHome e.2 = false)); (s.live = true) ∧ (s.frontCmd w 0x32 = some c) ∧ (s.modelOf h = some m) ∧ (unused) ∧ (¬(s.partAudited p = true ∧ m.anchorKind = 2)) ∧ ((s.spOf p).job.bind s.jobOf = some j0))
    ∧ (∃ s : State, ∃ w : Fin 129, ∃ c : Cmd, ∃ m : Model, let h := c.at 0x14 4; let p := c.at 0x10 1 % 16; let unused : Prop := ∀ e ∈ s.srv.ctx, e.2.st = .free ∨ (e.2.owner ≠ p ∧ (e.2.part ≠ p ∨ s.isHome e.2 = false)); (s.live = true) ∧ (s.frontCmd w 0x32 = some c) ∧ (s.modelOf h = some m) ∧ (unused) ∧ (¬(s.partAudited p = true ∧ m.anchorKind = 2)) ∧ ((s.spOf p).job.bind s.jobOf = none)) :=
  ⟨⟨cmdW srv 127 0x10 [], 127, 0x10, .ctxOpen 127, cmd1 0x10 [], by decide +kernel⟩,
   ⟨cmdW { srv with srv := { ctx := [(0, { st := .decode })] } } 127 0x16 [], 127, 0x16, .ctxDigest 127, cmd1 0x16 [], by dsimp only; decide +kernel⟩,
   ⟨cmdW srv 127 0x11 [], 127, 0x11, .ctxPrefill 127, cmd1 0x11 [], by dsimp only; decide +kernel⟩,
   ⟨cmdW { srv with sp := [(15, { cmds := [{ op := 0x10 }] })] } 0 0x14 [], 0, 0x14, .ctxClose 0, cmd1 0x14 [], 15, by dsimp only; decide +kernel⟩,
   ⟨cmdW { srv with srv := { ctx := [(0, { st := .paused })] } } 127 0x15 [], 127, cmd1 0x15 [], by dsimp only; decide +kernel⟩,
   ⟨cmdW { own1.writeLE 0x20000000 8 5 with srv := { ctx := [(0, { st := .paused, away := true })] } } 127 0x15 [], 127, cmd1 0x15 [], by decide +kernel, by decide +kernel, by decide +kernel, by decide +kernel, by unfold State.quiet; decide +kernel, canReach_of (by decide +kernel)⟩,
   ⟨cmdW srv 127 0x15 [], 127, cmd1 0x15 [], by dsimp only; decide +kernel⟩,
   ⟨{ ram with sp := [(15, { model := some 64 })], srv := { model := [(0, mdl)] } }, 15, 5, { op := 0x10, ctx := 5, body := (cmd1 0x10 [(0x18, 64)]).body }, mdl, by decide +kernel⟩,
   ⟨ctx1 5 { st := .expired }, 5, { op := 0x11, ctx := 5 }, by decide +kernel⟩,
   ⟨ctx1 5 { st := .paused, expiry := 1 }, 5, { op := 0x13, ctx := 5 }, by decide +kernel⟩,
   ⟨ctx1 5 { st := .prefill }, 5, { op := 0x12, ctx := 5 }, by decide +kernel⟩,
   ⟨ctx1 5 { st := .paused }, 5, { op := 0x14, ctx := 5 }, by decide +kernel⟩,
   ⟨ctx1 5 { st := .pausing }, 5, { op := 0x14, ctx := 5, pos := 2 ^ 32 }, by decide +kernel⟩,
   ⟨ctx1 5 { st := .paused, expiry := 1 }, 5, { op := 0x13, ctx := 5, arrival := 1 }, by decide +kernel⟩,
   ⟨5, { op := 0x12, ctx := 5 }, 6, by decide⟩,
   ⟨cmdW ml1 128 0x30 mlB, 128, none, cmd1 0x30 mlB, cmdW ml1 128 0x30 mlB, mdl.desc, by decide +kernel, by decide +kernel, by exact Or.inl (by unfold State.plain; decide +kernel), by decide +kernel, by decide +kernel⟩,
   ⟨cmdW { ml1 with srv := { model := [(63, mdl)], ctx := [(0, { st := .expired, model := 127 })] } } 128 0x30 mlB, 128, none, cmd1 0x30 mlB, cmdW { ml1 with srv := { model := [(63, mdl)], ctx := [(0, { st := .expired, model := 127 })] } } 128 0x30 mlB, mdl.desc, by decide +kernel, by decide +kernel, by exact Or.inl (by unfold State.plain; decide +kernel), by decide +kernel, by decide +kernel, by decide +kernel⟩,
   ⟨cmdW ram 128 0x30 mlB, 128, none, cmd1 0x30 mlB, cmdW ram 128 0x30 mlB, List.replicate 128 0, by decide +kernel, by decide +kernel, by exact Or.inl (by unfold State.plain; decide +kernel), by decide +kernel⟩,
   ⟨cmdW ram 128 0x30 [(0x1F, 0x80)], 128, none, cmd1 0x30 [(0x1F, 0x80)], by dsimp only; decide +kernel⟩,
   ⟨cmdW ram 128 0x31 [(0x10, 64)], 128, cmd1 0x31 [(0x10, 64)], by dsimp only; decide +kernel⟩,
   ⟨cmdW { ram with srv := { model := [(0, mdl)], ctx := [(0, { st := .expired, model := 64 })] } } 128 0x31 [(0x10, 64)], 128, cmd1 0x31 [(0x10, 64)], by dsimp only; decide +kernel⟩,
   ⟨cmdW { ram with srv := { model := [(0, mdl)] } } 128 0x31 [(0x10, 64)], 128, cmd1 0x31 [(0x10, 64)], by dsimp only; decide +kernel⟩,
   ⟨cmdW ram 128 0x32 [(0x14, 64)], 128, cmd1 0x32 [(0x14, 64)], by dsimp only; decide +kernel⟩,
   ⟨cmdW { ram with srv := { model := [(0, mdl)], ctx := [(0, { st := .expired, owner := 15 })] } } 128 0x32 [(0x10, 15), (0x14, 64)], 128, cmd1 0x32 [(0x10, 15), (0x14, 64)], mdl, by dsimp only; decide +kernel⟩,
   ⟨cmdW { withF ram [(f_AUD_PART_AUDITED, 0x8000)] with srv := { model := [(0, { mdl with desc := mdl.desc.set 0x48 2 })] } } 128 0x32 [(0x10, 15), (0x14, 64)], 128, cmd1 0x32 [(0x10, 15), (0x14, 64)], { mdl with desc := mdl.desc.set 0x48 2 }, by dsimp only; decide +kernel⟩,
   ⟨cmdW { ram with srv := { model := [(0, mdl)] }, sp := [(15, { job := some 5 })], hst := { jobs := [{ id := 5 }] } } 128 0x32 [(0x10, 15), (0x14, 64)], 128, cmd1 0x32 [(0x10, 15), (0x14, 64)], mdl, { id := 5 }, by dsimp only; decide +kernel⟩,
   ⟨cmdW { ram with srv := { model := [(0, mdl)] } } 128 0x32 [(0x10, 15), (0x14, 64)], 128, cmd1 0x32 [(0x10, 15), (0x14, 64)], mdl, by dsimp only; decide +kernel⟩⟩

/-- The hypotheses of OwnershipAndHandOver can be met, clause by clause. -/
theorem witness_OwnershipAndHandOver :
    (∃ s u : State, ∃ src : BitVec 12, ∃ op : OwnOp, ∃ i : Instr, ∃ k : Pkt, let n := u.ownIndex k.addr; let d := u.dedupAt k.src 0; let e := u.reg64 r_SRV_CTX_BASE_LO + n * 256; (s.live = true) ∧ (s.valid = true) ∧ ((op = .release ∧ i = .ownRelease src) ∨ (op = .acquire ∧ i = .ownAcquire src) ∨ (op = .redirect ∧ i = .ownRedirect src) ∨ (op = .close ∧ i = .ownClose src)) ∧ (s.takeReq src.toNat 3 (fun q => q.own && ownOp q.compare q.operand == some op) = some (k, u)) ∧ (k.operand < 2 ^ 64) ∧ (u.newTag k) ∧ (d + 8192 ≤ u.ownAt n ∨ u.ownAt n + 32 ≤ d) ∧ (d + 8192 ≤ e ∨ e + 256 ≤ d) ∧ (e + 256 ≤ u.ownAt n ∨ u.ownAt n + 32 ≤ e) ∧ (u.ownWord n ≠ k.compare))
    ∧ (∃ s u : State, ∃ src : BitVec 12, ∃ op : OwnOp, ∃ i : Instr, ∃ k : Pkt, let n := u.ownIndex k.addr; let d := u.dedupAt k.src 0; let e := u.reg64 r_SRV_CTX_BASE_LO + n * 256; (s.live = true) ∧ (s.valid = true) ∧ ((op = .release ∧ i = .ownRelease src) ∨ (op = .acquire ∧ i = .ownAcquire src) ∨ (op = .redirect ∧ i = .ownRedirect src) ∨ (op = .close ∧ i = .ownClose src)) ∧ (s.takeReq src.toNat 3 (fun q => q.own && ownOp q.compare q.operand == some op) = some (k, u)) ∧ (k.operand < 2 ^ 64) ∧ (u.newTag k) ∧ (d + 8192 ≤ u.ownAt n ∨ u.ownAt n + 32 ≤ d) ∧ (d + 8192 ≤ e ∨ e + 256 ≤ d) ∧ (e + 256 ≤ u.ownAt n ∨ u.ownAt n + 32 ≤ e) ∧ (u.ownWord n = k.compare) ∧ (op = .release ∨ op = .redirect ∨ op = .acquire))
    ∧ (∃ s u : State, ∃ src : BitVec 12, ∃ op : OwnOp, ∃ i : Instr, ∃ k : Pkt, let n := u.ownIndex k.addr; let d := u.dedupAt k.src 0; let e := u.reg64 r_SRV_CTX_BASE_LO + n * 256; (s.live = true) ∧ (s.valid = true) ∧ ((op = .release ∧ i = .ownRelease src) ∨ (op = .acquire ∧ i = .ownAcquire src) ∨ (op = .redirect ∧ i = .ownRedirect src) ∨ (op = .close ∧ i = .ownClose src)) ∧ (s.takeReq src.toNat 3 (fun q => q.own && ownOp q.compare q.operand == some op) = some (k, u)) ∧ (k.operand < 2 ^ 64) ∧ (u.newTag k) ∧ (d + 8192 ≤ u.ownAt n ∨ u.ownAt n + 32 ≤ d) ∧ (d + 8192 ≤ e ∨ e + 256 ≤ d) ∧ (e + 256 ≤ u.ownAt n ∨ u.ownAt n + 32 ≤ e) ∧ (u.ownWord n = k.compare) ∧ (op = .close))
    ∧ (∃ s u : State, ∃ src : BitVec 12, ∃ op : OwnOp, ∃ i : Instr, ∃ k : Pkt, let d := u.dedupAt k.src 0; let a := u.dedupAt k.src (k.atag % 256); (s.live = true) ∧ (s.valid = true) ∧ ((op = .release ∧ i = .ownRelease src) ∨ (op = .acquire ∧ i = .ownAcquire src) ∨ (op = .redirect ∧ i = .ownRedirect src) ∨ (op = .close ∧ i = .ownClose src)) ∧ (s.takeReq src.toNat 3 (fun q => q.own && ownOp q.compare q.operand == some op) = some (k, u)) ∧ (u.readLE (d + 0x1A) 1 % 2 = 1) ∧ (u.readLE (d + 0x18) 2 = k.sepoch) ∧ (u.readLE (a + 6) 1 = 128) ∧ (u.readLE (a + 4) 2 = k.sepoch) ∧ (u.readLE a 4 = k.atag))
    ∧ (∃ s : State, ∃ n : BitVec 18, (s.live = true) ∧ ((s.ctx n.toNat).hand = false ∨ (s.ctx n.toNat).rel = true ∨ (s.ctx n.toNat).away = true ∨ (s.ctx n.toNat).reloading ≠ 0 ∨ s.fenceHome (s.ctx n.toNat).home = false))
    ∧ (∃ s : State, ∃ n : BitVec 18, let c := s.ctx n.toNat; (s.live = true) ∧ (c.hand = true) ∧ (c.rel = false) ∧ (c.away = false) ∧ (c.reloading = 0) ∧ (s.fenceHome c.home = true) ∧ ((s.partComp c.owner).bind (fun k => (s.comp k).cfg.route c.wantsDecode c.homeCtx) = none))
    ∧ (∃ s : State, ∃ n : BitVec 18, ∃ k g : Nat, let c := s.ctx n.toNat; (s.live = true) ∧ (c.hand = true) ∧ (c.rel = false) ∧ (c.away = false) ∧ (c.reloading = 0) ∧ (s.partComp c.owner = some k) ∧ ((s.comp k).cfg.route c.wantsDecode c.homeCtx = some g) ∧ (s.isHome c = false) ∧ (s.quiet) ∧ (s.canReach c.home) ∧ (s.reachOk 0 0 28 c.home (s.ownAt c.homeCtx) 8 = true))
    ∧ (∃ s : State, ∃ n : BitVec 18, ∃ k g : Nat, let c := s.ctx n.toNat; (s.live = true) ∧ (c.hand = true) ∧ (c.rel = false) ∧ (c.away = false) ∧ (c.reloading = 0) ∧ (s.partComp c.owner = some k) ∧ ((s.comp k).cfg.route c.wantsDecode c.homeCtx = some g) ∧ (s.isHome c = true) ∧ (s.ownWord n.toNat = stateWord 1 (s.me c.owner) 0 c.epoch))
    ∧ (∃ s : State, ∃ n : BitVec 18, ∃ k g : Nat, let c := s.ctx n.toNat; (s.live = true) ∧ (c.hand = true) ∧ (c.rel = false) ∧ (c.away = false) ∧ (c.reloading = 0) ∧ (s.partComp c.owner = some k) ∧ ((s.comp k).cfg.route c.wantsDecode c.homeCtx = some g) ∧ (s.isHome c = true) ∧ (s.ownWord n.toNat ≠ stateWord 1 (s.me c.owner) 0 c.epoch))
    ∧ (∃ s u : State, ∃ src : BitVec 12, ∃ k : Pkt, (s.live = true) ∧ (s.valid = true) ∧ (src.toNat = s.chipId) ∧ (s.takeReq src.toNat 8 (fun q => q.srv.getD 0 0 == 0) = some (k, u)))
    ∧ (∃ s u : State, ∃ src : BitVec 12, ∃ k : Pkt, (s.live = true) ∧ (s.valid = true) ∧ (src.toNat ≠ s.chipId) ∧ (s.takeReq src.toNat 8 (fun q => q.srv.getD 0 0 == 0) = some (k, u)) ∧ (u.newTag k))
    ∧ (∃ s : State, ∃ id : Nat, ∃ j : Nat, let x := s.comp j; (s.compById id = some j) ∧ (x.st = .down))
    ∧ (∃ s : State, ∃ id part : Nat, ∃ j : Nat, let x := s.comp j; (s.compById id = some j) ∧ (x.st ≠ .down) ∧ (s.get (f_CMP_PART_CTL_DSTATE part) ≠ 0))
    ∧ (∃ s : State, ∃ id cepoch part : Nat, ∃ j : Nat, let x := s.comp j; (s.compById id = some j) ∧ (x.st ≠ .down) ∧ (s.get (f_CMP_PART_CTL_DSTATE part) = 0) ∧ (x.cfg.epoch = cepoch ∨ (x.shut = false ∧ ∃ o, x.old = some o ∧ o.epoch = cepoch)))
    ∧ (∃ s : State, ∃ id cepoch part : Nat, ∃ j : Nat, let x := s.comp j; (s.compById id = some j) ∧ (x.st ≠ .down) ∧ (s.get (f_CMP_PART_CTL_DSTATE part) = 0) ∧ (x.cfg.epoch ≠ cepoch) ∧ (x.shut = true ∨ ∀ o, x.old = some o → o.epoch ≠ cepoch))
    ∧ (∃ s : State, ∃ id : Nat, (s.compById id = none))
    ∧ (∃ s u : State, ∃ src : BitVec 12, ∃ k : Pkt, (s.live = true) ∧ (s.valid = true) ∧ (src.toNat = s.chipId) ∧ (s.takeReq src.toNat 9 (fun q => q.srv.getD 0 0 == 0) = some (k, u)))
    ∧ (∃ s u : State, ∃ src : BitVec 12, ∃ k : Pkt, (s.live = true) ∧ (s.valid = true) ∧ (src.toNat ≠ s.chipId) ∧ (s.takeReq src.toNat 9 (fun q => q.srv.getD 0 0 == 0) = some (k, u)) ∧ (u.newTag k))
    ∧ (∃ s u : State, ∃ src : BitVec 12, ∃ k : Pkt, (s.live = true) ∧ (s.valid = true) ∧ (src.toNat = s.chipId) ∧ (s.takeReq src.toNat 9 (fun q => decide (q.srv.getD 0 0 ≠ 0)) = some (k, u)) ∧ (u.compById (k.srv.getD 6 0) = none))
    ∧ (∃ s u : State, ∃ src : BitVec 12, ∃ k : Pkt, ∃ j g : Nat, let f (i : Nat) : Nat := k.srv.getD (i + 1) 0; (s.live = true) ∧ (s.valid = true) ∧ (src.toNat = s.chipId) ∧ (s.takeReq src.toNat 9 (fun q => decide (q.srv.getD 0 0 ≠ 0)) = some (k, u)) ∧ (f 2 = s.chipId) ∧ (u.compById (f 5) = some j) ∧ ((u.comp j).cfg.route (({} : Ctx).ofBytes ((k.srv.drop 9).map (BitVec.ofNat 8))).wantsDecode (f 3) = some g) ∧ (u.ownWord (f 3) = stateWord 2 (f 7) (s.chipId * 16 + f 1) (f 4)))
    ∧ (∃ s : State, ∃ n : BitVec 18, let w := s.ownWord n.toNat; let due : Prop := s.isHome (s.ctx n.toNat) = true ∧ wState w = 2 ∧ s.ownRelNs n.toNat + s.get f_CMP_HANDOVER_CFG_TMO_US * 1000 ≤ s.tim.tb; (s.live = true) ∧ (¬due))
    ∧ (∃ s : State, ∃ n : BitVec 18, let w := s.ownWord n.toNat; let due : Prop := s.isHome (s.ctx n.toNat) = true ∧ wState w = 2 ∧ s.ownRelNs n.toNat + s.get f_CMP_HANDOVER_CFG_TMO_US * 1000 ≤ s.tim.tb; (s.live = true) ∧ (due))
    ∧ (∃ s : State, ∃ v : BitVec 32, (s.live = true) ∧ (bitAt v.toNat 31 = false))
    ∧ (∃ s : State, ∃ v : BitVec 32, let n := v.toNat % 2 ^ 18; let rseq := s.get f_CMP_REASSIGN_RSEQ; (s.live = true) ∧ (bitAt v.toNat 31 = true) ∧ (rseq = s.ownRseq n))
    ∧ (∃ s : State, ∃ v : BitVec 32, let n := v.toNat % 2 ^ 18; let rseq := s.get f_CMP_REASSIGN_RSEQ; (s.live = true) ∧ (bitAt v.toNat 31 = true) ∧ (rseq ≠ s.ownRseq n) ∧ (wState (s.ownWord n) ≠ 3))
    ∧ (∃ s : State, ∃ v : BitVec 32, let n := v.toNat % 2 ^ 18; let rseq := s.get f_CMP_REASSIGN_RSEQ; (s.live = true) ∧ (bitAt v.toNat 31 = true) ∧ (rseq ≠ s.ownRseq n) ∧ (wState (s.ownWord n) = 3)) :=
  ⟨⟨inb own1 { src := 1, op := 3, own := true, addr := 0x20000000, compare := 1, operand := 2, sepoch := 5 }, nob own1, 1, .release, .ownRelease 1, { src := 1, op := 3, own := true, addr := 0x20000000, compare := 1, operand := 2, sepoch := 5 }, by dsimp only; unfold State.newTag State.epochNow; decide +kernel⟩,
   ⟨inb (own1.writeLE 0x20000000 8 2) { src := 1, op := 3, own := true, addr := 0x20000000, compare := 2, operand := 1, sepoch := 5 }, nob (own1.writeLE 0x20000000 8 2), 1, .acquire, .ownAcquire 1, { src := 1, op := 3, own := true, addr := 0x20000000, compare := 2, operand := 1, sepoch := 5 }, by dsimp only; unfold State.newTag State.epochNow; decide +kernel⟩,
   ⟨inb (own1.writeLE 0x20000000 8 1) { src := 1, op := 3, own := true, addr := 0x20000000, compare := 1, operand := 0, sepoch := 5 }, nob (own1.writeLE 0x20000000 8 1), 1, .close, .ownClose 1, { src := 1, op := 3, own := true, addr := 0x20000000, compare := 1, operand := 0, sepoch := 5 }, by dsimp only; unfold State.newTag State.epochNow; decide +kernel⟩,
   ⟨inb (((own1.writeLE 0x21003FE0 4 255).writeLE 0x21003FE4 2 5).writeLE 0x21003FE6 1 128) { src := 1, op := 3, own := true, compare := 2, operand := 2, sepoch := 5, atag := 255 }, nob (((own1.writeLE 0x21003FE0 4 255).writeLE 0x21003FE4 2 5).writeLE 0x21003FE6 1 128), 1, .redirect, .ownRedirect 1, { src := 1, op := 3, own := true, compare := 2, operand := 2, sepoch := 5, atag := 255 }, by dsimp only; decide +kernel⟩,
   ⟨{ own1 with srv := { ctx := [(0x3FFFF, { st := .decode, hand := true, reloading := 1 })] } }, 0x3FFFF, by decide +kernel⟩,
   ⟨{ own1 with srv := { ctx := [(0x3FFFF, { st := .decode, hand := true, owner := 15 })] } }, 0x3FFFF, by dsimp only; decide +kernel⟩,
   ⟨{ comp1 (((withF own1 [(f_CMP_PART_CFG_MEMBER 15, 1), (f_CMP_PART_CFG_COMP_SLOT 15, 15)]).setReg (r_AVL_REACH 0) 0x11001001).setReg (r_AVL_REACH 3) 0xFFFFFFFF) 15 cmp0 with srv := { ctx := [(0x3FFFF, { st := .decode, hand := true, home := 1, owner := 15 })] } }, 0x3FFFF, 15, 15, by decide +kernel, by decide +kernel, by decide +kernel, by decide +kernel, by decide +kernel, by decide +kernel, by decide +kernel, by decide +kernel, by unfold State.quiet; decide +kernel, canReach_of (by decide +kernel), by decide +kernel⟩,
   ⟨{ comp1 ((withF own1 [(f_CMP_PART_CFG_MEMBER 15, 1), (f_CMP_PART_CFG_COMP_SLOT 15, 15)]).writeLE 0x207FFFE0 8 (1 + 15 * 2 ^ 14)) 15 cmp0 with srv := { ctx := [(0x3FFFF, { st := .decode, hand := true, owner := 15 })] } }, 0x3FFFF, 15, 15, by dsimp only; decide +kernel⟩,
   ⟨{ comp1 (withF own1 [(f_CMP_PART_CFG_MEMBER 15, 1), (f_CMP_PART_CFG_COMP_SLOT 15, 15)]) 15 cmp0 with srv := { ctx := [(0x3FFFF, { st := .decode, hand := true, owner := 15 })] } }, 0x3FFFF, 15, 15, by dsimp only; decide +kernel⟩,
   ⟨inb own1 { src := 0, op := 8 }, nob own1, 0, { src := 0, op := 8 }, by decide +kernel⟩,
   ⟨inb own1 { src := 1, op := 8, sepoch := 5 }, nob own1, 1, { src := 1, op := 8, sepoch := 5 }, by unfold State.newTag State.epochNow; decide +kernel⟩,
   ⟨comp1 srv 15 { st := .down }, 0, 15, by dsimp only; decide +kernel⟩,
   ⟨comp1 (withF srv [(f_CMP_PART_CTL_DSTATE 15, 2)]) 15 { st := .overlap }, 0, 15, 15, by dsimp only; decide +kernel⟩,
   ⟨comp1 srv 15 { st := .overlap, cfg := { epoch := 65535 }, old := some { epoch := 65534 } }, 0, 65534, 15, 15, by decide +kernel, by decide +kernel, by decide +kernel, Or.inr ⟨by decide +kernel, { epoch := 65534 }, by decide +kernel, by decide⟩⟩,
   ⟨comp1 srv 15 { st := .overlap, cfg := { epoch := 65535 }, old := some { epoch := 65533 } }, 0, 65534, 15, 15, by decide +kernel, by decide +kernel, by decide +kernel, by decide +kernel, Or.inr (fun o h => (by cases (show some ({ epoch := 65533 } : CompCfg) = some o from h); decide))⟩,
   ⟨srv, 0, by decide +kernel⟩,
   ⟨inb own1 { src := 0, op := 9 }, nob own1, 0, { src := 0, op := 9 }, by decide +kernel⟩,
   ⟨inb own1 { src := 1, op := 9, sepoch := 5 }, nob own1, 1, { src := 1, op := 9, sepoch := 5 }, by unfold State.newTag State.epochNow; decide +kernel⟩,
   ⟨inb own1 { src := 0, op := 9, srv := [2] }, nob own1, 0, { src := 0, op := 9, srv := [2] }, by decide +kernel⟩,
   ⟨inb (comp1 (own1.writeLE 0x20000000 8 2) 15 cmp0) { src := 0, op := 9, srv := [1] }, nob (comp1 (own1.writeLE 0x20000000 8 2) 15 cmp0), 0, { src := 0, op := 9, srv := [1] }, 15, 15, by dsimp only; decide +kernel⟩,
   ⟨own1, 0x3FFFF, by dsimp only; decide +kernel⟩,
   ⟨{ own1.writeLE 0x207FFFE0 8 2 with tim := { tb := 2 ^ 40 } }, 0x3FFFF, by dsimp only; decide +kernel⟩,
   ⟨own1, 0x7FFFFFFF, by decide +kernel⟩,
   ⟨own1, 0x8003FFFF, by dsimp only; decide +kernel⟩,
   ⟨own1.put f_CMP_REASSIGN_RSEQ 65535, 0x8003FFFF, by dsimp only; decide +kernel⟩,
   ⟨(own1.writeLE 0x207FFFE0 8 3).put f_CMP_REASSIGN_RSEQ 65535, 0x8003FFFF, by dsimp only; decide +kernel⟩⟩

/-- The hypotheses of OwnerRequestsAndDrains can be met, clause by clause. -/
theorem witness_OwnerRequestsAndDrains :
    (∃ s u : State, ∃ src : BitVec 12, ∃ k : Pkt, (s.live = true) ∧ (s.valid = true) ∧ (s.takeReq src.toNat 0xA (fun q => s.updateRoom q) = some (k, u)) ∧ (src.toNat = s.chipId) ∧ (u.epochOk (k.srv.getD 0 0) (k.srv.getD 1 0) k.src = false))
    ∧ (∃ s u : State, ∃ src : BitVec 12, ∃ k : Pkt, (s.live = true) ∧ (s.valid = true) ∧ (s.takeReq src.toNat 0xA (fun q => s.updateRoom q) = some (k, u)) ∧ (src.toNat ≠ s.chipId) ∧ (u.newTag k) ∧ (u.epochOk (k.srv.getD 0 0) (k.srv.getD 1 0) k.src = false))
    ∧ (∃ s u : State, ∃ src : BitVec 12, ∃ k : Pkt, let n := k.srv.getD 0 0; (s.live = true) ∧ (s.valid = true) ∧ (s.takeReq src.toNat 0xA (fun q => s.updateRoom q) = some (k, u)) ∧ (src.toNat ≠ s.chipId) ∧ (u.newTag k) ∧ (u.epochOk (k.srv.getD 0 0) (k.srv.getD 1 0) k.src = true) ∧ ((u.ctx n).steps ≠ k.srv.getD 2 0))
    ∧ (∃ s u : State, ∃ src : BitVec 12, ∃ k : Pkt, let n := k.srv.getD 0 0; (s.live = true) ∧ (s.valid = true) ∧ (s.takeReq src.toNat 0xA (fun q => s.updateRoom q) = some (k, u)) ∧ (src.toNat ≠ s.chipId) ∧ (u.newTag k) ∧ (u.epochOk (k.srv.getD 0 0) (k.srv.getD 1 0) k.src = true) ∧ ((u.ctx n).steps = k.srv.getD 2 0))
    ∧ (∃ s u : State, ∃ src : BitVec 12, ∃ k : Pkt, ∃ n, (s.live = true) ∧ (s.valid = true) ∧ (s.takeReq src.toNat 2 (fun q => q.own) = some (k, u)) ∧ (remoteRegion k.addr = true) ∧ (u.writable k.addr k.data.length) ∧ (k.data ≠ []) ∧ (u.ms.uncorr = []) ∧ (u.ms.corr = []) ∧ (u.pageOwner k.addr = some n) ∧ (u.epochOk n k.epoch k.src = true))
    ∧ (∃ s u : State, ∃ src : BitVec 12, ∃ k : Pkt, (s.live = true) ∧ (s.valid = true) ∧ (s.takeReq src.toNat 2 (fun q => q.own) = some (k, u)) ∧ (remoteRegion k.addr = true) ∧ (u.writable k.addr k.data.length) ∧ (k.data ≠ []) ∧ (u.ms.uncorr = []) ∧ (u.ms.corr = []) ∧ (∀ n, u.pageOwner k.addr = some n → u.epochOk n k.epoch k.src = false))
    ∧ (∃ s u : State, ∃ src : BitVec 12, ∃ k : Pkt, ∃ h : Nat, let v := hUnit h; let len := sget 0 u.srv.used v; (s.live = true) ∧ (s.valid = true) ∧ (s.takeReq src.toNat 0xB (fun _ => true) = some (k, u)) ∧ (k.srv = [h]) ∧ (u.handleOk h = true) ∧ (len ≠ 0) ∧ (src.toNat = s.chipId))
    ∧ (∃ s u : State, ∃ src : BitVec 12, ∃ k : Pkt, ∃ h : Nat, let v := hUnit h; let len := sget 0 u.srv.used v; (s.live = true) ∧ (s.valid = true) ∧ (s.takeReq src.toNat 0xB (fun _ => true) = some (k, u)) ∧ (k.srv = [h]) ∧ (u.handleOk h = true) ∧ (len ≠ 0) ∧ (src.toNat ≠ s.chipId) ∧ (u.newTag k))
    ∧ (∃ s u : State, ∃ src : BitVec 12, ∃ k : Pkt, ∃ h : Nat, (s.live = true) ∧ (s.valid = true) ∧ (s.takeReq src.toNat 0xB (fun _ => true) = some (k, u)) ∧ (k.srv = [h]) ∧ (u.handleOk h = false) ∧ (src.toNat = s.chipId))
    ∧ (∃ s u : State, ∃ src : BitVec 12, ∃ k : Pkt, ∃ h : Nat, (s.live = true) ∧ (s.valid = true) ∧ (s.takeReq src.toNat 0xB (fun _ => true) = some (k, u)) ∧ (k.srv = [h]) ∧ (u.handleOk h = false) ∧ (src.toNat ≠ s.chipId) ∧ (u.newTag k))
    ∧ (∃ s : State, ∃ k : Fin 16, let x := s.comp k; (s.live = true) ∧ (x.st = .overlap) ∧ (s.get f_CMP_EPOCH_CFG_OVERLAP ≤ s.tim.expo - x.since))
    ∧ (∃ s : State, ∃ k : Fin 16, let x := s.comp k; (s.live = true) ∧ (x.st ≠ .overlap ∨ s.tim.expo - x.since < s.get f_CMP_EPOCH_CFG_OVERLAP))
    ∧ (∃ s : State, ∃ k : Fin 16, let x := s.comp k; (s.live = true) ∧ (x.st = .overlap) ∧ (x.shut = true) ∧ (x.oldIn = 0))
    ∧ (∃ s : State, ∃ k : Fin 16, let x := s.comp k; (s.live = true) ∧ (x.st ≠ .overlap ∨ x.shut = false ∨ x.oldIn ≠ 0))
    ∧ (∃ s : State, ∃ p : Fin 16, (s.live = true) ∧ (s.get (f_CMP_PART_CTL_DSTATE p) = 0))
    ∧ (∃ s : State, ∃ p : Fin 16, (s.live = true) ∧ (s.get (f_CMP_PART_CTL_DSTATE p) ≠ 0))
    ∧ (∃ s : State, ∃ p : Fin 16, (s.live = true) ∧ (s.get (f_CMP_PART_CTL_DSTATE p) = 1) ∧ (s.drained p = true))
    ∧ (∃ s : State, ∃ p : Fin 16, (s.live = true) ∧ (s.get (f_CMP_PART_CTL_DSTATE p) ≠ 1 ∨ s.drained p = false))
    ∧ (∃ s : State, ∃ p : Fin 16, (s.live = true) ∧ (s.get (f_CMP_PART_CTL_DSTATE p) = 1) ∧ ((s.spOf p).drainTmo = false) ∧ (s.get f_CMP_DRAIN_CFG_TMO ≤ s.tim.expo - (s.spOf p).drainAt) ∧ ((s.spOf p).phase ≠ .idle))
    ∧ (∃ s : State, ∃ p : Fin 16, (s.live = true) ∧ (s.get (f_CMP_PART_CTL_DSTATE p) = 1) ∧ ((s.spOf p).drainTmo = false) ∧ (s.get f_CMP_DRAIN_CFG_TMO ≤ s.tim.expo - (s.spOf p).drainAt) ∧ ((s.spOf p).phase = .idle) ∧ (swf {} s.srv.ctx = true))
    ∧ (∃ s : State, (s.live = true) ∧ (s.tim.tick % 1024 ≠ 0 ∨ s.tim.subNs ≠ 0 ∨ s.own.acctAt = some s.tim.expo))
    ∧ (∃ s : State, (s.live = true) ∧ (s.tim.tick % 1024 = 0) ∧ (s.tim.subNs = 0) ∧ (s.own.acctAt ≠ some s.tim.expo)) :=
  ⟨⟨inb own1 { src := 0, op := 0xA }, nob own1, 0, { src := 0, op := 0xA }, by decide +kernel⟩,
   ⟨inb own1 { src := 1, op := 0xA, sepoch := 5 }, nob own1, 1, { src := 1, op := 0xA, sepoch := 5 }, by unfold State.newTag State.epochNow; decide +kernel⟩,
   ⟨inb (own1.writeLE 0x20000000 8 5) { src := 1, op := 0xA, srv := [0, 0, 1], sepoch := 5 }, nob (own1.writeLE 0x20000000 8 5), 1, { src := 1, op := 0xA, srv := [0, 0, 1], sepoch := 5 }, by dsimp only; unfold State.newTag State.epochNow; decide +kernel⟩,
   ⟨inb (own1.writeLE 0x20000000 8 5) { src := 1, op := 0xA, srv := [0, 0, 0, 0, 0] ++ ((({ st := .decode } : Ctx).bytes 0).map BitVec.toNat), sepoch := 5 }, nob (own1.writeLE 0x20000000 8 5), 1, { src := 1, op := 0xA, srv := [0, 0, 0, 0, 0] ++ ((({ st := .decode } : Ctx).bytes 0).map BitVec.toNat), sepoch := 5 }, by dsimp only; unfold State.newTag State.epochNow; decide +kernel⟩,
   ⟨inb { own1.writeLE 0x20000000 8 5 with srv := { ctx := [(0, { st := .decode, pt := [(0, { h := 0x30000000 })] })] } } { src := 1, op := 2, own := true, addr := 0x30000000, data := [7] }, nob { own1.writeLE 0x20000000 8 5 with srv := { ctx := [(0, { st := .decode, pt := [(0, { h := 0x30000000 })] })] } }, 1, { src := 1, op := 2, own := true, addr := 0x30000000, data := [7] }, 0, by unfold State.writable State.plain; decide +kernel⟩,
   ⟨inb own1 { src := 1, op := 2, own := true, addr := 0x30000000, data := [7] }, nob own1, 1, { src := 1, op := 2, own := true, addr := 0x30000000, data := [7] }, by exact ⟨by decide +kernel, by decide +kernel, by decide +kernel, by decide +kernel, by unfold State.writable State.plain; decide +kernel, by decide +kernel, by decide +kernel, by decide +kernel, (fun n h => nomatch (show (none : Option Nat) = some n from h))⟩⟩,
   ⟨inb { own1 with srv := { used := [(5, 1)] } } { src := 0, op := 0xB, srv := [0x100000000005000] }, nob { own1 with srv := { used := [(5, 1)] } }, 0, { src := 0, op := 0xB, srv := [0x100000000005000] }, 0x100000000005000, by dsimp only; decide +kernel⟩,
   ⟨inb { own1 with srv := { used := [(5, 1)] } } { src := 1, op := 0xB, srv := [0x100000000005000], sepoch := 5 }, nob { own1 with srv := { used := [(5, 1)] } }, 1, { src := 1, op := 0xB, srv := [0x100000000005000], sepoch := 5 }, 0x100000000005000, by dsimp only; unfold State.newTag State.epochNow; decide +kernel⟩,
   ⟨inb own1 { src := 0, op := 0xB, srv := [0x5000] }, nob own1, 0, { src := 0, op := 0xB, srv := [0x5000] }, 0x5000, by decide +kernel⟩,
   ⟨inb own1 { src := 1, op := 0xB, srv := [0x5000], sepoch := 5 }, nob own1, 1, { src := 1, op := 0xB, srv := [0x5000], sepoch := 5 }, 0x5000, by unfold State.newTag State.epochNow; decide +kernel⟩,
   ⟨{ comp1 srv 15 { st := .overlap } with tim := { expo := 0xFFFFFFFF } }, 15, by dsimp only; decide +kernel⟩,
   ⟨srv, 15, by dsimp only; decide +kernel⟩,
   ⟨comp1 srv 15 { st := .overlap, shut := true }, 15, by dsimp only; decide +kernel⟩,
   ⟨comp1 srv 15 { st := .overlap, shut := true, oldIn := 65535 }, 15, by dsimp only; decide +kernel⟩,
   ⟨srv, 15, by decide +kernel⟩,
   ⟨withF srv [(f_CMP_PART_CTL_DSTATE 15, 2)], 15, by decide +kernel⟩,
   ⟨withF srv [(f_CMP_PART_CTL_DSTATE 15, 1)], 15, by decide +kernel⟩,
   ⟨withF srv [(f_CMP_PART_CTL_DSTATE 15, 2)], 15, by decide +kernel⟩,
   ⟨{ withF srv [(f_CMP_PART_CTL_DSTATE 15, 1)] with tim := { expo := 0xFFFFFFFF }, sp := [(15, { phase := .running })] }, 15, by decide +kernel⟩,
   ⟨{ withF srv [(f_CMP_PART_CTL_DSTATE 15, 1)] with tim := { expo := 0xFFFFFFFF } }, 15, by decide +kernel⟩,
   ⟨{ srv with tim := { tick := 1024 }, own := { acctAt := some 0 } }, by decide +kernel⟩,
   ⟨{ srv with tim := { tick := 1024 } }, by decide +kernel⟩⟩

/-- The hypotheses of PortsAndFlits can be met, clause by clause. -/
theorem witness_PortsAndFlits :
    (∃ s : State, ∃ p : Fin 24, (s.live = true) ∧ (s.portSt p ≠ 1))
    ∧ (∃ s : State, ∃ p : Fin 24, ∃ good : BitVec 9, (s.live = true) ∧ (s.portSt p = 1) ∧ (popCount 9 good.toNat < 4))
    ∧ (∃ s : State, ∃ p : Fin 24, ∃ good : BitVec 9, ∃ chip : BitVec 12, ∃ port : BitVec 5, (s.live = true) ∧ (s.portSt p = 1) ∧ (4 ≤ popCount 9 good.toNat) ∧ ((s.portOf p).nbrChip ≠ chip.toNat ∨ (s.portOf p).nbrPort ≠ port.toNat))
    ∧ (∃ s : State, ∃ p : Fin 24, ∃ good : BitVec 9, ∃ chip : BitVec 12, ∃ port : BitVec 5, (s.live = true) ∧ (s.portSt p = 1) ∧ (4 ≤ popCount 9 good.toNat) ∧ ((s.portOf p).nbrChip = chip.toNat) ∧ ((s.portOf p).nbrPort = port.toNat))
    ∧ (∃ s : State, ∃ p : Fin 24, let trainOver := (s.portOf p).since + s.get (f_AVL_PORT_CFG_TRAIN_TMO_MS p) * 1000000 ≤ s.tim.nextEdge; (s.live = true) ∧ (s.portSt p ≠ 1 ∨ ¬trainOver))
    ∧ (∃ s : State, ∃ p : Fin 24, let trainOver := (s.portOf p).since + s.get (f_AVL_PORT_CFG_TRAIN_TMO_MS p) * 1000000 ≤ s.tim.nextEdge; (s.live = true) ∧ (s.portSt p = 1) ∧ (trainOver))
    ∧ (∃ s : State, ∃ p : Fin 24, let retrainOver := (s.portOf p).since + s.get (f_AVL_PORT_CFG2_RETRAIN_TMO_US p) * 1000 ≤ s.tim.nextEdge; (s.live = true) ∧ (s.portSt p ≠ 3 ∨ ¬retrainOver))
    ∧ (∃ s : State, ∃ p : Fin 24, let retrainOver := (s.portOf p).since + s.get (f_AVL_PORT_CFG2_RETRAIN_TMO_US p) * 1000 ≤ s.tim.nextEdge; (s.live = true) ∧ (s.portSt p = 3) ∧ (retrainOver))
    ∧ (∃ s : State, ∃ p : Fin 24, (s.live = true) ∧ (s.portSt p ≠ 2))
    ∧ (∃ s : State, ∃ p : Fin 24, (s.live = true) ∧ (s.portSt p = 4 ∨ s.portSt p = 6))
    ∧ (∃ s : State, ∃ p : Fin 24, (s.live = true) ∧ (s.portSt p ≠ 4) ∧ (s.portSt p ≠ 6))
    ∧ (∃ s : State, ∃ p : Fin 24, (s.live = true) ∧ (s.portSt p = 5))
    ∧ (∃ s : State, ∃ p : Fin 24, (s.live = true) ∧ (s.portSt p ≠ 5))
    ∧ (∃ s : State, ∃ p : Fin 24, (s.live = true) ∧ (s.portSt p = 0) ∧ (s.valid = true) ∧ ((s.portOf p).listed = true))
    ∧ (∃ s : State, ∃ p : Fin 24, (s.live = true) ∧ (s.portSt p ≠ 0 ∨ s.valid = false ∨ (s.portOf p).listed = false))
    ∧ (∃ s : State, ∃ p : Fin 24, (s.live = true) ∧ (s.portSt p = 7))
    ∧ (∃ s : State, ∃ p : Fin 24, (s.live = true) ∧ (s.portSt p ≠ 7))
    ∧ (∃ s : State, ∃ p : Fin 24, ∃ loss : Bool, (s.live = true) ∧ (s.mustRetrain p loss = false))
    ∧ (∃ s : State, ∃ p : Fin 24, ∃ loss : Bool, (s.live = true) ∧ (s.mustRetrain p loss = true))
    ∧ (∃ s : State, ∃ p : Fin 24, ∃ loss : Bool, (s.live = true) ∧ (s.portSt p = 2) ∧ (loss = true ∨ s.get (f_AVL_PORT_CFG_RETRY_LIMIT p) ≤ (s.portOf p).resends ∨ (∃ e ∈ (s.portOf p).laneWin, s.get (f_AVL_PORT_CFG2_LANE_THR p) < e.2)))
    ∧ (∃ s : State, ∃ p : Fin 24, ∃ good : BitVec 9, (s.live = true) ∧ (s.portSt p ≠ 3 ∨ popCount 9 good.toNat < 4))
    ∧ (∃ s : State, ∃ p : Fin 24, ∃ good : BitVec 9, (s.live = true) ∧ (s.portSt p = 3) ∧ (4 ≤ popCount 9 good.toNat) ∧ (s.net.held = []) ∧ (s.settled))
    ∧ (∃ s : State, ∃ p : Fin 24, ∃ q, (s.live = true) ∧ (s.portSt p = 2) ∧ (q ≠ p.val))
    ∧ (∃ s : State, ∃ p : Fin 24, ∃ lanes : List Nat, ∃ l n, (s.live = true) ∧ (s.portSt p = 2) ∧ (l < 9) ∧ (lanes[l]? = some n))
    ∧ (∃ s : State, ∃ p : Fin 24, ∃ f : Flit, (s.live = true) ∧ (s.portSt p = 2) ∧ (f.crcOk = false ∨ f.typ = .reserved))
    ∧ (∃ s : State, ∃ p : Fin 24, ∃ f : Flit, (s.live = true) ∧ (s.portSt p = 2) ∧ (f.crcOk = true) ∧ (f.typ = .beacon ∨ f.typ = .pdelayReq ∨ f.typ = .pdelayResp ∨ f.typ = .capability))
    ∧ (∃ s : State, ∃ p : Fin 24, ∃ f : Flit, (s.live = true) ∧ (s.portSt p = 2) ∧ (f.crcOk = true) ∧ (f.typ = .safe))
    ∧ (∃ s : State, ∃ p : Fin 24, ∃ f : Flit, (s.live = true) ∧ (s.portSt p = 2) ∧ (f.crcOk = true) ∧ (f.typ = .idle))
    ∧ (∃ s : State, ∃ p : Fin 24, ∃ f : Flit, ∃ corr uncorr : Nat, ∃ lanes : List Nat, let u := (s.phyCounts p corr uncorr lanes).flitControl p f; let x := u.portOf p; (s.live = true) ∧ (s.portSt p = 2) ∧ (f.crcOk = true) ∧ (f.typ = .data) ∧ (f.fseq = x.rxNext) ∧ (∀ k ∈ f.pkts, k.dst = u.chipId ∧ k.opKnown = true ∧ u.peerDead k.src = false))
    ∧ (∃ s : State, ∃ p : Fin 24, ∃ f : Flit, ∃ corr uncorr : Nat, ∃ lanes : List Nat, ∃ k : Pkt, let u := (s.phyCounts p corr uncorr lanes).flitControl p f; let x := u.portOf p; (s.live = true) ∧ (s.portSt p = 2) ∧ (f.crcOk = true) ∧ (f.typ = .data) ∧ (f.fseq = x.rxNext) ∧ (f.pkts = [k]) ∧ (u.peerDead k.src = true))
    ∧ (∃ s : State, ∃ p : Fin 24, ∃ f : Flit, ∃ corr uncorr : Nat, ∃ lanes : List Nat, ∃ k : Pkt, let u := (s.phyCounts p corr uncorr lanes).flitControl p f; let x := u.portOf p; (s.live = true) ∧ (s.portSt p = 2) ∧ (f.crcOk = true) ∧ (f.typ = .data) ∧ (f.fseq = x.rxNext) ∧ (f.pkts = [k]) ∧ (u.peerDead k.src = false) ∧ ((k.dst = u.chipId ∧ k.opKnown = false) ∨ (k.dst ≠ u.chipId ∧ u.valid = false)))
    ∧ (∃ s : State, ∃ p : Fin 24, ∃ f : Flit, ∃ corr uncorr : Nat, ∃ lanes : List Nat, ∃ k : Pkt, ∃ q, let u := (s.phyCounts p corr uncorr lanes).flitControl p f; let x := u.portOf p; let h : Pkt := if k.cls = 2 then { k with hops := k.hops + 1 } else { k with hops := k.hops + 1, ts := u.now }; let on : Prop := u.peerDead k.src = false ∧ k.dst ≠ u.chipId ∧ u.valid = true; (s.live = true) ∧ (s.portSt p = 2) ∧ (f.crcOk = true) ∧ (f.typ = .data) ∧ (f.fseq = x.rxNext) ∧ (f.pkts = [k]) ∧ (on) ∧ (k.hops < 2) ∧ (u.routeOf h = .port q))
    ∧ (∃ s : State, ∃ p : Fin 24, ∃ f : Flit, ∃ corr uncorr : Nat, ∃ lanes : List Nat, ∃ k : Pkt, let u := (s.phyCounts p corr uncorr lanes).flitControl p f; let x := u.portOf p; let h : Pkt := if k.cls = 2 then { k with hops := k.hops + 1 } else { k with hops := k.hops + 1, ts := u.now }; let on : Prop := u.peerDead k.src = false ∧ k.dst ≠ u.chipId ∧ u.valid = true; (s.live = true) ∧ (s.portSt p = 2) ∧ (f.crcOk = true) ∧ (f.typ = .data) ∧ (f.fseq = x.rxNext) ∧ (f.pkts = [k]) ∧ (on) ∧ (k.hops < 2) ∧ (u.routeOf h = .wait))
    ∧ (∃ s : State, ∃ p : Fin 24, ∃ f : Flit, ∃ corr uncorr : Nat, ∃ lanes : List Nat, ∃ k : Pkt, let u := (s.phyCounts p corr uncorr lanes).flitControl p f; let x := u.portOf p; let h : Pkt := if k.cls = 2 then { k with hops := k.hops + 1 } else { k with hops := k.hops + 1, ts := u.now }; let on : Prop := u.peerDead k.src = false ∧ k.dst ≠ u.chipId ∧ u.valid = true; (s.live = true) ∧ (s.portSt p = 2) ∧ (f.crcOk = true) ∧ (f.typ = .data) ∧ (f.fseq = x.rxNext) ∧ (f.pkts = [k]) ∧ (on) ∧ (k.hops < 2) ∧ (u.routeOf h = .none))
    ∧ (∃ s : State, ∃ p : Fin 24, ∃ f : Flit, ∃ corr uncorr : Nat, ∃ lanes : List Nat, ∃ k : Pkt, let u := (s.phyCounts p corr uncorr lanes).flitControl p f; let x := u.portOf p; let on : Prop := u.peerDead k.src = false ∧ k.dst ≠ u.chipId ∧ u.valid = true; (s.live = true) ∧ (s.portSt p = 2) ∧ (f.crcOk = true) ∧ (f.typ = .data) ∧ (f.fseq = x.rxNext) ∧ (f.pkts = [k]) ∧ (on) ∧ (2 ≤ k.hops))
    ∧ (∃ s : State, ∃ p : Fin 24, ∃ f : Flit, ∃ corr uncorr : Nat, ∃ lanes : List Nat, let u := (s.phyCounts p corr uncorr lanes).flitControl p f; let x := u.portOf p; let behind := (x.rxNext + 4096 - f.fseq) % 4096; (s.live = true) ∧ (s.portSt p = 2) ∧ (f.crcOk = true) ∧ (f.typ = .data) ∧ (f.fseq ≠ x.rxNext) ∧ (1 ≤ behind) ∧ (behind ≤ 2048))
    ∧ (∃ s : State, ∃ p : Fin 24, ∃ f : Flit, ∃ corr uncorr : Nat, ∃ lanes : List Nat, let u := (s.phyCounts p corr uncorr lanes).flitControl p f; let x := u.portOf p; let behind := (x.rxNext + 4096 - f.fseq) % 4096; (s.live = true) ∧ (s.portSt p = 2) ∧ (f.crcOk = true) ∧ (f.typ = .data) ∧ (f.fseq ≠ x.rxNext) ∧ (behind = 0 ∨ 2048 < behind))
    ∧ (∃ s : State, ∃ p : Fin 24, let overdue := (s.portOf p).ackAt + s.get (f_AVL_PORT_CFG_ACK_TMO_US p) * 1000 ≤ s.tim.nextEdge; (s.live = true) ∧ (s.portSt p = 2) ∧ (overdue))
    ∧ (∃ s : State, ∃ p : Fin 24, let overdue := (s.portOf p).ackAt + s.get (f_AVL_PORT_CFG_ACK_TMO_US p) * 1000 ≤ s.tim.nextEdge; (s.live = true) ∧ (s.portSt p ≠ 2 ∨ ¬overdue))
    ∧ (∃ s : State, ∃ dst : BitVec 12, let mine := s.net.held.filter (fun k => k.dst = dst.toNat); (s.live = true) ∧ (s.settled) ∧ (mine = []))
    ∧ (∃ s : State, ∃ dst : BitVec 12, ∃ k : Pkt, ∃ q : Nat, let mine := s.net.held.filter (fun k => k.dst = dst.toNat); let u : State := { s with net := { s.net with held := s.net.held.filter (fun k => k.dst ≠ dst.toNat) } }; (s.live = true) ∧ (s.settled) ∧ (mine = [k]) ∧ (u.routeOf k = .port q))
    ∧ (∃ s : State, ∃ dst : BitVec 12, ∃ k : Pkt, let mine := s.net.held.filter (fun k => k.dst = dst.toNat); let u : State := { s with net := { s.net with held := s.net.held.filter (fun k => k.dst ≠ dst.toNat) } }; (s.live = true) ∧ (s.settled) ∧ (mine = [k]) ∧ (u.routeOf k = .here))
    ∧ (∃ s : State, ∃ dst : BitVec 12, ∃ k : Pkt, let mine := s.net.held.filter (fun k => k.dst = dst.toNat); let u : State := { s with net := { s.net with held := s.net.held.filter (fun k => k.dst ≠ dst.toNat) } }; (s.live = true) ∧ (s.settled) ∧ (mine = [k]) ∧ (u.routeOf k = .wait)) :=
  ⟨⟨up, 23, by decide +kernel⟩,
   ⟨prt up 23 1 {}, 23, 7, by decide +kernel⟩,
   ⟨prt up 23 1 {}, 23, 0x1E0, 0xFFF, 31, by decide +kernel⟩,
   ⟨prt up 23 1 { nbrChip := 0xFFF, nbrPort := 31 }, 23, 15, 0xFFF, 31, by decide +kernel⟩,
   ⟨up, 23, by dsimp only; decide +kernel⟩,
   ⟨{ prt up 23 1 {} with tim := { nextEdge := 2 ^ 62 } }, 23, by dsimp only; decide +kernel⟩,
   ⟨up, 23, by dsimp only; decide +kernel⟩,
   ⟨{ prt up 23 3 {} with tim := { nextEdge := 2 ^ 62 } }, 23, by dsimp only; decide +kernel⟩,
   ⟨up, 23, by decide +kernel⟩,
   ⟨prt up 23 6 {}, 23, by decide +kernel⟩,
   ⟨prt up 23 5 {}, 23, by decide +kernel⟩,
   ⟨prt up 23 5 {}, 23, by decide +kernel⟩,
   ⟨prt up 23 4 {}, 23, by decide +kernel⟩,
   ⟨prt up 23 0 { listed := true }, 23, by decide +kernel⟩,
   ⟨prt up 23 1 { listed := true }, 23, by decide +kernel⟩,
   ⟨prt up 23 7 {}, 23, by decide +kernel⟩,
   ⟨prt up 23 2 {}, 23, by decide +kernel⟩,
   ⟨prt up 23 2 { resends := 3 }, 23, false, by decide +kernel⟩,
   ⟨prt up 23 2 { resends := 63 }, 23, false, by decide +kernel⟩,
   ⟨prt up 23 2 {}, 23, true, by decide +kernel, by decide +kernel, Or.inl rfl⟩,
   ⟨prt up 23 3 {}, 23, 7, by decide +kernel⟩,
   ⟨prt up 23 3 {}, 23, 15, by unfold State.settled; decide +kernel⟩,
   ⟨prt up 23 2 {}, 23, 22, by decide +kernel⟩,
   ⟨prt up 23 2 {}, 23, [0, 0, 0, 0, 0, 0, 0, 0, 7], 8, 7, by decide +kernel⟩,
   ⟨prt up 23 2 {}, 23, { crcOk := false }, by decide +kernel⟩,
   ⟨prt up 23 2 {}, 23, { typ := .capability }, by decide +kernel⟩,
   ⟨prt up 23 2 {}, 23, { typ := .safe }, by decide +kernel⟩,
   ⟨prt up 23 2 {}, 23, { typ := .idle }, by decide +kernel⟩,
   ⟨prt up 23 2 { rxNext := 4095 }, 23, { typ := .data, fseq := 4095, pkts := [{ src := 1, op := 1 }] }, 0, 0, [], by dsimp only; decide +kernel⟩,
   ⟨{ prt up 23 2 { rxNext := 4095 } with flt := { up.flt with peers := [(1, { inForce := true })] } }, 23, { typ := .data, fseq := 4095, pkts := [{ src := 1 }] }, 0, 0, [], { src := 1 }, by dsimp only; decide +kernel⟩,
   ⟨prt State.reset 0 2 {}, 0, { typ := .data, pkts := [{ dst := 1, src := 2 }] }, 0, 0, [], { dst := 1, src := 2 }, by dsimp only; decide +kernel⟩,
   ⟨net1, 0, { typ := .data, pkts := [{ dst := 1, src := 2, cls := 2, hops := 1 }] }, 0, 0, [], { dst := 1, src := 2, cls := 2, hops := 1 }, 0, by dsimp only; decide +kernel⟩,
   ⟨{ net1 with net := { port := [(0, { usable := true })], held := [{ dst := 1 }] } }, 0, { typ := .data, pkts := [{ dst := 1, src := 2 }] }, 0, 0, [], { dst := 1, src := 2 }, by dsimp only; decide +kernel⟩,
   ⟨prt up 23 2 {}, 23, { typ := .data, pkts := [{ dst := 1, src := 2 }] }, 0, 0, [], { dst := 1, src := 2 }, by dsimp only; decide +kernel⟩,
   ⟨net1, 0, { typ := .data, pkts := [{ dst := 1, src := 2, cls := 2, hops := 2 }] }, 0, 0, [], { dst := 1, src := 2, cls := 2, hops := 2 }, by dsimp only; decide +kernel⟩,
   ⟨prt up 23 2 {}, 23, { typ := .data, fseq := 2048 }, 0, 0, [], by dsimp only; decide +kernel⟩,
   ⟨prt up 23 2 { rxNext := 4095 }, 23, { typ := .data, fseq := 0 }, 0, 0, [], by dsimp only; decide +kernel⟩,
   ⟨{ prt up 23 2 {} with tim := { nextEdge := 2 ^ 62 } }, 23, by dsimp only; decide +kernel⟩,
   ⟨up, 23, by dsimp only; decide +kernel⟩,
   ⟨up, 0xFFF, by dsimp only; unfold State.settled; decide +kernel⟩,
   ⟨{ net1 with net := { port := [(0, { usable := true })], held := [{ dst := 1 }] } }, 1, { dst := 1 }, 0, by dsimp only; unfold State.settled; decide +kernel⟩,
   ⟨{ net1 with net := { held := [{ dst := 0 }] } }, 0, { dst := 0 }, by dsimp only; unfold State.settled; decide +kernel⟩,
   ⟨{ prt up 23 3 {} with net := { held := [{ dst := 1 }], dest := [(1, { port := some 23 })] } }, 1, { dst := 1 }, by dsimp only; unfold State.settled; decide +kernel⟩⟩

/-- The hypotheses of TimeBeacons can be met, clause by clause. -/
theorem witness_TimeBeacons :
    (∃ s : State, let sent := if s.net.bcnAt = s.tim.expo then s.net.bcnSent else 0; (s.live = true) ∧ (s.get f_AVL_BCN_CFG_ROOT = 1) ∧ (s.get f_CLK_TIME_STATE_STATE = 2) ∧ (sent ≤ s.get f_AVL_BCN_CFG_PER_EXP_M1))
    ∧ (∃ s : State, let sent := if s.net.bcnAt = s.tim.expo then s.net.bcnSent else 0; (s.live = true) ∧ (s.get f_AVL_BCN_CFG_ROOT = 0 ∨ s.get f_CLK_TIME_STATE_STATE ≠ 2 ∨ s.get f_AVL_BCN_CFG_PER_EXP_M1 < sent))
    ∧ (∃ s : State, ∃ p : Fin 24, let x := s.portOf p; (s.live = true) ∧ (s.portSt p ≠ 2 ∨ x.delays = []))
    ∧ (∃ s : State, ∃ p : Fin 24, ∃ d, let x := s.portOf p; (s.live = true) ∧ (s.portSt p = 2) ∧ (x.delay = some d))
    ∧ (∃ s : State, (s.live = true) ∧ (s.parentPort = none ∨ s.tim.srcValid = false))
    ∧ (∃ s : State, ∃ p, (s.live = true) ∧ (s.parentPort = some p) ∧ (s.bcnFresh p = true))
    ∧ (∃ s : State, ∃ p, (s.live = true) ∧ (s.parentPort = some p) ∧ (s.bcnFresh p = false) ∧ (s.tim.srcValid = true) ∧ (s.get f_AVL_BCN_CFG_ON_BACKUP = 0) ∧ (s.get f_AVL_BCN_CFG_BACKUP_VALID = 1) ∧ (s.bcnFresh (s.get f_AVL_BCN_CFG_BACKUP) = true))
    ∧ (∃ s : State, ∃ p, (s.live = true) ∧ (s.parentPort = some p) ∧ (s.bcnFresh p = false) ∧ (s.tim.srcValid = true) ∧ (s.get f_AVL_BCN_CFG_ON_BACKUP = 1 ∨ s.get f_AVL_BCN_CFG_BACKUP_VALID = 0 ∨ s.bcnFresh (s.get f_AVL_BCN_CFG_BACKUP) = false))
    ∧ (∃ s : State, ∃ p : Fin 24, let x := s.portOf p; (s.live = true) ∧ (s.portSt p = 2) ∧ (x.pdDue = true ∨ 8192 ≤ s.tim.expo - x.lastPd))
    ∧ (∃ s : State, ∃ p : Fin 24, let x := s.portOf p; (s.live = true) ∧ (s.portSt p ≠ 2 ∨ (x.pdDue = false ∧ s.tim.expo - x.lastPd < 8192)))
    ∧ (∃ s : State, ∃ p : Fin 24, (s.live = true) ∧ (s.portSt p ≠ 2))
    ∧ (∃ s : State, ∃ p : Fin 24, let x := s.portOf p; (s.live = true) ∧ (s.portSt p ≠ 2 ∨ x.t1 = none))
    ∧ (∃ s : State, ∃ p : Fin 24, ∃ t1 : Nat, let x := s.portOf p; (s.live = true) ∧ (s.portSt p = 2) ∧ (x.t1 = some t1)) :=
  ⟨⟨withF up [(f_AVL_BCN_CFG_ROOT, 1), (f_CLK_TIME_STATE_STATE, 2)], by dsimp only; decide +kernel⟩,
   ⟨withF up [(f_AVL_BCN_CFG_ROOT, 1), (f_CLK_TIME_STATE_STATE, 3)], by dsimp only; decide +kernel⟩,
   ⟨prt up 23 2 {}, 23, by dsimp only; decide +kernel⟩,
   ⟨prt up 23 2 { delays := [5, 6] }, 23, 5, by dsimp only; decide +kernel⟩,
   ⟨up, by decide +kernel⟩,
   ⟨withF { (prt up 23 2 { bcnExpo := some 0 }) with tim := { expo := 1 } } [(f_AVL_BCN_CFG_PRIMARY, 23), (f_AVL_BCN_CFG_PRIMARY_VALID, 1), (f_AVL_BCN_CFG_LOSS_EXP, 2)], 23, by decide +kernel⟩,
   ⟨withF { (prt up 23 2 { bcnExpo := some 0 }) with tim := { expo := 1, srcValid := true } } [(f_AVL_BCN_CFG_PRIMARY, 22), (f_AVL_BCN_CFG_PRIMARY_VALID, 1), (f_AVL_BCN_CFG_LOSS_EXP, 2), (f_AVL_BCN_CFG_BACKUP, 23), (f_AVL_BCN_CFG_BACKUP_VALID, 1)], 22, by decide +kernel⟩,
   ⟨withF { (prt up 23 2 { bcnExpo := some 0 }) with tim := { expo := 2, srcValid := true } } [(f_AVL_BCN_CFG_PRIMARY, 23), (f_AVL_BCN_CFG_PRIMARY_VALID, 1), (f_AVL_BCN_CFG_LOSS_EXP, 2)], 23, by decide +kernel⟩,
   ⟨{ prt up 23 2 {} with tim := { expo := 8192 } }, 23, by dsimp only; decide +kernel⟩,
   ⟨{ prt up 23 2 {} with tim := { expo := 8191 } }, 23, by dsimp only; decide +kernel⟩,
   ⟨up, 23, by decide +kernel⟩,
   ⟨prt up 23 2 {}, 23, by dsimp only; decide +kernel⟩,
   ⟨prt up 23 2 { t1 := some 7, delays := List.replicate 16 1 }, 23, 7, by dsimp only; decide +kernel⟩⟩

/-- The hypotheses of SyncConfigurationClearsArrivals can be met, clause by clause. -/
theorem witness_SyncConfigurationClearsArrivals :
    (∃ s : State, (s.live = true)) :=
  ⟨up, by decide +kernel⟩

/-- The hypotheses of RemoteAndSyncTargets can be met, clause by clause. -/
theorem witness_RemoteAndSyncTargets :
    (∃ s u : State, ∃ src : BitVec 12, ∃ i : Instr, ∃ k : Pkt, (s.live = true) ∧ (s.valid = false) ∧ ((i = .remoteLoad src ∧ s.takeReq src.toNat 1 (fun _ => true) = some (k, u)) ∨ (i = .remoteStore src ∧ s.takeReq src.toNat 2 (fun _ => true) = some (k, u)) ∨ (i = .kvAppend src ∧ s.takeReq src.toNat 2 (fun q => q.own) = some (k, u)) ∨ (i = .remoteAtomic src ∧ s.takeReq src.toNat 3 (fun q => !q.own) = some (k, u)) ∨ (i = .epochQuery src ∧ s.takeReq src.toNat 5 (fun _ => true) = some (k, u)) ∨ (i = .syncSignal src ∧ s.takeReq src.toNat 4 (fun q => q.aop == 0) = some (k, u)) ∨ (i = .syncSet src ∧ s.takeReq src.toNat 4 (fun q => q.aop == 1) = some (k, u)) ∨ (i = .syncArrive src 0 ∧ s.takeReq src.toNat 4 (fun q => q.aop == 2) = some (k, u)) ∨ (i = .syncRead src ∧ s.takeReq src.toNat 4 (fun q => q.aop == 3) = some (k, u)) ∨ (i = .syncWaitGe src ∧ s.takeReq src.toNat 4 (fun q => q.aop == 4) = some (k, u))))
    ∧ (∃ s u : State, ∃ src : BitVec 12, ∃ k : Pkt, (s.live = true) ∧ (s.valid = true) ∧ (s.takeReq src.toNat 1 (fun _ => true) = some (k, u)) ∧ (remoteRegion k.addr = true) ∧ (u.plain k.addr k.count))
    ∧ (∃ s u : State, ∃ src : BitVec 12, ∃ k : Pkt, (s.live = true) ∧ (s.valid = true) ∧ (s.takeReq src.toNat 1 (fun _ => true) = some (k, u)) ∧ (remoteRegion k.addr = true) ∧ (u.region k.addr ≠ .reserved) ∧ (u.region (k.addr + k.count - 1) = u.region k.addr) ∧ (touched u.ms.corr k.addr k.count = []) ∧ (touched u.ms.uncorr k.addr k.count ≠ []))
    ∧ (∃ s u : State, ∃ src : BitVec 12, ∃ k : Pkt, (s.live = true) ∧ (s.valid = true) ∧ (s.takeReq src.toNat 1 (fun _ => true) = some (k, u)) ∧ (remoteRegion k.addr = false ∨ u.region k.addr = .reserved))
    ∧ (∃ s u : State, ∃ src : BitVec 12, ∃ k : Pkt, (s.live = true) ∧ (s.valid = true) ∧ (s.takeReq src.toNat 2 (fun _ => true) = some (k, u)) ∧ (k.own = true))
    ∧ (∃ s u : State, ∃ src : BitVec 12, ∃ k : Pkt, (s.live = true) ∧ (s.valid = true) ∧ (s.takeReq src.toNat 2 (fun _ => true) = some (k, u)) ∧ (k.own = false) ∧ (remoteRegion k.addr = true) ∧ (u.writable k.addr k.data.length) ∧ (k.data ≠ []) ∧ (u.ms.uncorr = []) ∧ (u.ms.corr = []))
    ∧ (∃ s u : State, ∃ src : BitVec 12, ∃ k : Pkt, (s.live = true) ∧ (s.valid = true) ∧ (s.takeReq src.toNat 2 (fun _ => true) = some (k, u)) ∧ (k.own = false) ∧ (remoteRegion k.addr = true) ∧ (u.region k.addr ≠ .reserved) ∧ (u.region (k.addr + k.data.length - 1) = u.region k.addr) ∧ (u.guardedAt k.addr = true ∨ u.guardedAt (k.addr + k.data.length - 1) = true))
    ∧ (∃ s u : State, ∃ src : BitVec 12, ∃ k : Pkt, (s.live = true) ∧ (s.valid = true) ∧ (s.takeReq src.toNat 2 (fun _ => true) = some (k, u)) ∧ (k.own = false) ∧ (remoteRegion k.addr = false ∨ u.region k.addr = .reserved))
    ∧ (∃ s u : State, ∃ src : BitVec 12, ∃ k : Pkt, let n := if k.wide then 8 else 4; (s.live = true) ∧ (s.valid = true) ∧ (s.takeReq src.toNat 3 (fun q => !q.own) = some (k, u)) ∧ (remoteRegion k.addr = true) ∧ (u.writable k.addr n) ∧ (k.addr % n = 0) ∧ (u.ms.uncorr = []) ∧ (u.ms.corr = []) ∧ (k.aop ≤ 5) ∧ (¬u.epochNow k))
    ∧ (∃ s u : State, ∃ src : BitVec 12, ∃ k : Pkt, let a := u.dedupAt k.src (k.atag % 256); (s.live = true) ∧ (s.valid = true) ∧ (s.takeReq src.toNat 3 (fun q => !q.own) = some (k, u)) ∧ (u.epochNow k) ∧ (bitAt (u.readLE (a + 6) 1) 7 = true) ∧ (u.readLE (a + 4) 2 = k.sepoch) ∧ (u.readLE a 4 = k.atag))
    ∧ (∃ s u : State, ∃ src : BitVec 12, ∃ k : Pkt, let a := u.dedupAt k.src (k.atag % 256); (s.live = true) ∧ (s.valid = true) ∧ (s.takeReq src.toNat 3 (fun q => !q.own) = some (k, u)) ∧ (u.epochNow k) ∧ (bitAt (u.readLE (a + 6) 1) 7 = true) ∧ (u.readLE (a + 4) 2 = k.sepoch) ∧ (u.readLE a 4 ≠ k.atag) ∧ (toSigned 32 (k.atag + 2 ^ 32 - u.readLE a 4) < 0))
    ∧ (∃ s u : State, ∃ src : BitVec 12, ∃ k : Pkt, (s.live = true) ∧ (s.valid = true) ∧ (s.takeReq src.toNat 5 (fun _ => true) = some (k, u)))
    ∧ (∃ s : State, ∃ src : BitVec 12, ∃ cyc : BitVec 21, ∃ i : Instr, (s.live = true) ∧ (∀ k ∈ s.net.inbox, k.src ≠ src.toNat) ∧ (i ∈ [Instr.remoteLoad src, .remoteStore src, .kvAppend src, .remoteAtomic src, .epochQuery src, .syncSignal src, .syncSet src, .syncArrive src cyc, .syncRead src, .syncWaitGe src]))
    ∧ (∃ s u : State, ∃ src : BitVec 12, ∃ cyc : BitVec 21, ∃ sop : Nat, ∃ i : Instr, ∃ k : Pkt, (s.live = true) ∧ (s.valid = true) ∧ ((sop = 0 ∧ i = .syncSignal src) ∨ (sop = 1 ∧ i = .syncSet src) ∨ (sop = 2 ∧ i = .syncArrive src cyc)) ∧ (s.takeReq src.toNat 4 (fun q => q.aop == sop) = some (k, u)) ∧ (sop = 2) ∧ (s.peerDead k.src = true))
    ∧ (∃ s u : State, ∃ src : BitVec 12, ∃ cyc : BitVec 21, ∃ sop : Nat, ∃ i : Instr, ∃ k : Pkt, ∃ val, let o := k.addr; let bar := u.get (f_SYN_OBJ_CFG_BARRIER o); let expect := u.get (f_SYN_OBJ_CFG_EXPECT o); let full : Prop := (u.synObj o).arrived + 1 = expect; let bad : Prop := u.get (f_SYN_OBJ_CFG_ENABLE o) = 0 ∨ (sop = 1 ∧ bar = 1) ∨ (sop = 2 ∧ (bar = 0 ∨ expect = 0)); (s.live = true) ∧ (s.valid = true) ∧ ((sop = 0 ∧ i = .syncSignal src) ∨ (sop = 1 ∧ i = .syncSet src) ∨ (sop = 2 ∧ i = .syncArrive src cyc)) ∧ (s.takeReq src.toNat 4 (fun q => q.aop == sop) = some (k, u)) ∧ (u.newTag k) ∧ (sop = 2 → s.peerDead k.src = false) ∧ (o < 8192) ∧ (¬bad) ∧ (∀ c ∈ u.syn.hist, c < 4096) ∧ (sop = 0 → val = (u.synVal o + k.operand) % 2 ^ 64) ∧ (sop = 1 → val = k.operand % 2 ^ 64) ∧ (sop = 2 → full → val = (u.synVal o + 1) % 2 ^ 64) ∧ (sop = 2 → ¬full → val = u.synVal o) ∧ (∀ w ∈ u.net.waits, w.1 = o → val < w.2.1))
    ∧ (∃ s u : State, ∃ src : BitVec 12, ∃ cyc : BitVec 21, ∃ sop : Nat, ∃ i : Instr, ∃ k : Pkt, let o := k.addr; let bar := u.get (f_SYN_OBJ_CFG_BARRIER o); let expect := u.get (f_SYN_OBJ_CFG_EXPECT o); let bad : Prop := u.get (f_SYN_OBJ_CFG_ENABLE o) = 0 ∨ (sop = 1 ∧ bar = 1) ∨ (sop = 2 ∧ (bar = 0 ∨ expect = 0)); (s.live = true) ∧ (s.valid = true) ∧ ((sop = 0 ∧ i = .syncSignal src) ∨ (sop = 1 ∧ i = .syncSet src) ∨ (sop = 2 ∧ i = .syncArrive src cyc)) ∧ (s.takeReq src.toNat 4 (fun q => q.aop == sop) = some (k, u)) ∧ (u.newTag k) ∧ (sop = 2 → s.peerDead k.src = false) ∧ (o < 8192) ∧ (bad) ∧ (∀ w ∈ u.net.waits, w.1 = o → u.synVal o < w.2.1))
    ∧ (∃ s u : State, ∃ src : BitVec 12, ∃ k : Pkt, (s.live = true) ∧ (s.valid = true) ∧ (s.takeReq src.toNat 4 (fun q => q.aop == 3) = some (k, u)) ∧ (k.addr < 8192) ∧ (u.get (f_SYN_OBJ_CFG_ENABLE k.addr) = 1))
    ∧ (∃ s u : State, ∃ src : BitVec 12, ∃ k : Pkt, (s.live = true) ∧ (s.valid = true) ∧ (s.takeReq src.toNat 4 (fun q => q.aop == 3) = some (k, u)) ∧ (k.addr < 8192) ∧ (u.get (f_SYN_OBJ_CFG_ENABLE k.addr) = 0))
    ∧ (∃ s u : State, ∃ src : BitVec 12, ∃ k : Pkt, (s.live = true) ∧ (s.valid = true) ∧ (s.takeReq src.toNat 4 (fun q => q.aop == 4) = some (k, u)) ∧ (k.addr < 8192) ∧ (u.get (f_SYN_OBJ_CFG_ENABLE k.addr) = 0))
    ∧ (∃ s u : State, ∃ src : BitVec 12, ∃ k : Pkt, let v := u.synVal k.addr; let on : Prop := u.get (f_SYN_OBJ_CFG_ENABLE k.addr) = 1; (s.live = true) ∧ (s.valid = true) ∧ (s.takeReq src.toNat 4 (fun q => q.aop == 4) = some (k, u)) ∧ (k.addr < 8192) ∧ (on) ∧ (k.operand ≤ v))
    ∧ (∃ s u : State, ∃ src : BitVec 12, ∃ k : Pkt, let v := u.synVal k.addr; let far := (u.net.waits.filter (fun w => w.2.2.2.isSome)).length; let on : Prop := u.get (f_SYN_OBJ_CFG_ENABLE k.addr) = 1; (s.live = true) ∧ (s.valid = true) ∧ (s.takeReq src.toNat 4 (fun q => q.aop == 4) = some (k, u)) ∧ (k.addr < 8192) ∧ (on) ∧ (v < k.operand) ∧ (far < 4096))
    ∧ (∃ s u : State, ∃ src : BitVec 12, ∃ k : Pkt, let v := u.synVal k.addr; let far := (u.net.waits.filter (fun w => w.2.2.2.isSome)).length; let on : Prop := u.get (f_SYN_OBJ_CFG_ENABLE k.addr) = 1; (s.live = true) ∧ (s.valid = true) ∧ (s.takeReq src.toNat 4 (fun q => q.aop == 4) = some (k, u)) ∧ (k.addr < 8192) ∧ (on) ∧ (v < k.operand) ∧ (4096 ≤ far))
    ∧ (∃ s : State, ∃ src : BitVec 12, ∃ tag : BitVec 16, let mine (w : Nat × Nat × Nat × Option Pkt) : Bool := w.2.2.2.any (fun q => q.src == src.toNat && q.tag == tag.toNat); (s.live = true) ∧ (s.net.waits.find? mine = none))
    ∧ (∃ s : State, ∃ src : BitVec 12, ∃ tag : BitVec 16, ∃ o v start k, let mine (w : Nat × Nat × Nat × Option Pkt) : Bool := w.2.2.2.any (fun q => q.src == src.toNat && q.tag == tag.toNat); (s.live = true) ∧ (s.net.waits.find? mine = some (o, v, start, some k)) ∧ (s.reached start (s.get f_SYN_CFG_RWAIT_US * 1000) = false))
    ∧ (∃ s : State, ∃ src : BitVec 12, ∃ tag : BitVec 16, ∃ o v start k, let mine (w : Nat × Nat × Nat × Option Pkt) : Bool := w.2.2.2.any (fun q => q.src == src.toNat && q.tag == tag.toNat); (s.live = true) ∧ (s.net.waits.find? mine = some (o, v, start, some k)) ∧ (s.reached start (s.get f_SYN_CFG_RWAIT_US * 1000) = true))
    ∧ (∃ s : State, ∃ o : Fin 8192, ∃ v : BitVec 32, (s.live = true) ∧ (s.get (f_SYN_OBJ_CFG_ENABLE o) = 1) ∧ (∀ w ∈ s.net.waits, w.1 = o.val → (s.synVal o + v.toNat) % 2 ^ 64 < w.2.1))
    ∧ (∃ s : State, ∃ o : Fin 8192, (s.live = true) ∧ (s.get (f_SYN_OBJ_CFG_ENABLE o) = 0) ∧ (∀ w ∈ s.net.waits, w.1 = o.val → s.synVal o < w.2.1))
    ∧ (∃ s : State, ∃ o : Fin 8192, ∃ w : Nat, ∃ n th : Nat, ∃ l r : List (Nat × Nat × Nat × Option Pkt), ∃ v : BitVec 32, let val := (s.synVal o + v.toNat) % 2 ^ 64; (s.live = true) ∧ (s.get (f_SYN_OBJ_CFG_ENABLE o) = 1) ∧ (n < 64) ∧ (th < 64) ∧ (∀ e ∈ l ++ r, e.1 = o.val → val < e.2.1) ∧ (w ≤ val) ∧ (s.net.waits = l ++ (o.val, w, thrKey n th, none) :: r))
    ∧ (∃ s : State, ∃ o : Fin 8192, ∃ w : Nat, ∃ n th : Nat, ∃ l r : List (Nat × Nat × Nat × Option Pkt), ∃ v : BitVec 32, ∃ start k, let val := (s.synVal o + v.toNat) % 2 ^ 64; (s.live = true) ∧ (s.get (f_SYN_OBJ_CFG_ENABLE o) = 1) ∧ (n < 64) ∧ (th < 64) ∧ (∀ e ∈ l ++ r, e.1 = o.val → val < e.2.1) ∧ (w ≤ val) ∧ (s.net.waits = l ++ (o.val, w, start, some k) :: r)) :=
  ⟨⟨inb State.reset { src := 0xFFF, op := 1 }, nob State.reset, 0xFFF, .remoteLoad 0xFFF, { src := 0xFFF, op := 1 }, by decide +kernel⟩,
   ⟨inb own1 { src := 1, op := 1, addr := 0x3FFFFFF0, count := 16 }, nob own1, 1, { src := 1, op := 1, addr := 0x3FFFFFF0, count := 16 }, by unfold State.plain; decide +kernel⟩,
   ⟨inb { own1 with ms := { uncorr := [0x3FFFFFF8] } } { src := 1, op := 1, addr := 0x3FFFFFF0, count := 16 }, nob { own1 with ms := { uncorr := [0x3FFFFFF8] } }, 1, { src := 1, op := 1, addr := 0x3FFFFFF0, count := 16 }, by decide +kernel⟩,
   ⟨inb own1 { src := 1, op := 1, addr := 0x018000000000, count := 16 }, nob own1, 1, { src := 1, op := 1, addr := 0x018000000000, count := 16 }, by decide +kernel⟩,
   ⟨inb own1 { src := 1, op := 2, own := true }, nob own1, 1, { src := 1, op := 2, own := true }, by decide +kernel⟩,
   ⟨inb own1 { src := 1, op := 2, addr := 0x3FFFFFFF, data := [1] }, nob own1, 1, { src := 1, op := 2, addr := 0x3FFFFFFF, data := [1] }, by unfold State.writable State.plain; decide +kernel⟩,
   ⟨inb own1 { src := 1, op := 2, addr := 0x20000000, data := [1] }, nob own1, 1, { src := 1, op := 2, addr := 0x20000000, data := [1] }, by decide +kernel⟩,
   ⟨inb own1 { src := 1, op := 2, addr := 0x020010000000, data := [1] }, nob own1, 1, { src := 1, op := 2, addr := 0x020010000000, data := [1] }, by decide +kernel⟩,
   ⟨inb own1 { src := 1, op := 3, addr := 0x3FFFFFF8, wide := true, aop := 5, sepoch := 4 }, nob own1, 1, { src := 1, op := 3, addr := 0x3FFFFFF8, wide := true, aop := 5, sepoch := 4 }, by dsimp only; unfold State.writable State.epochNow State.plain; decide +kernel⟩,
   ⟨inb (dd1 255) { src := 1, op := 3, sepoch := 5, atag := 255 }, nob (dd1 255), 1, { src := 1, op := 3, sepoch := 5, atag := 255 }, by dsimp only; unfold State.epochNow; decide +kernel⟩,
   ⟨inb (dd1 511) { src := 1, op := 3, sepoch := 5, atag := 255 }, nob (dd1 511), 1, { src := 1, op := 3, sepoch := 5, atag := 255 }, by dsimp only; unfold State.epochNow; decide +kernel⟩,
   ⟨inb own1 { src := 1, op := 5 }, nob own1, 1, { src := 1, op := 5 }, by decide +kernel⟩,
   ⟨up, 0xFFF, 0, .syncRead 0xFFF, by decide +kernel⟩,
   ⟨inb { own1 with flt := { peers := [(1, { dead := true, inForce := true })] } } { src := 1, op := 4, aop := 2 }, nob { own1 with flt := { peers := [(1, { dead := true, inForce := true })] } }, 1, 0, 2, .syncArrive 1 0, { src := 1, op := 4, aop := 2 }, by decide +kernel⟩,
   ⟨inb (withF own1 [(f_SYN_OBJ_CFG_ENABLE 8191, 1), (f_SYN_OBJ_CFG_BARRIER 8191, 1), (f_SYN_OBJ_CFG_EXPECT 8191, 1)]) (sq 2), nob (withF own1 [(f_SYN_OBJ_CFG_ENABLE 8191, 1), (f_SYN_OBJ_CFG_BARRIER 8191, 1), (f_SYN_OBJ_CFG_EXPECT 8191, 1)]), 1, 0, 2, .syncArrive 1 0, sq 2, 1, by dsimp only; unfold State.newTag State.epochNow; decide +kernel⟩,
   ⟨inb own1 (sq 1), nob own1, 1, 0, 1, .syncSet 1, sq 1, by dsimp only; unfold State.newTag State.epochNow; decide +kernel⟩,
   ⟨inb (own1.put (f_SYN_OBJ_CFG_ENABLE 8191) 1) { src := 1, op := 4, aop := 3, addr := 8191 }, nob (own1.put (f_SYN_OBJ_CFG_ENABLE 8191) 1), 1, { src := 1, op := 4, aop := 3, addr := 8191 }, by decide +kernel⟩,
   ⟨inb own1 { src := 1, op := 4, aop := 3, addr := 8191 }, nob own1, 1, { src := 1, op := 4, aop := 3, addr := 8191 }, by decide +kernel⟩,
   ⟨inb own1 (sq 4), nob own1, 1, sq 4, by decide +kernel⟩,
   ⟨inb sy1 (sq 4), nob sy1, 1, sq 4, by dsimp only; decide +kernel⟩,
   ⟨inb sy1 { sq 4 with operand := 1 }, nob sy1, 1, { sq 4 with operand := 1 }, by dsimp only; decide +kernel⟩,
   ⟨inb (far1 4096) { sq 4 with operand := 1 }, nob (far1 4096), 1, { sq 4 with operand := 1 }, by decide +kernel, by decide +kernel, far1_take 4096 _ (by decide), by decide +kernel, by decide +kernel, by decide +kernel, Nat.le_of_eq (far1_len 4096).symm⟩,
   ⟨own1, 1, 0xFFFF, by dsimp only; decide +kernel⟩,
   ⟨{ withF own1 [(f_SYN_CFG_RWAIT_US, 1000)] with net := { waits := [(8191, 1, 0, some { src := 1, tag := 0xFFFF })] } }, 1, 0xFFFF, 8191, 1, 0, { src := 1, tag := 0xFFFF }, by dsimp only; decide +kernel⟩,
   ⟨{ withF own1 [(f_SYN_CFG_RWAIT_US, 1000)] with net := { waits := [(8191, 1, 0, some { src := 1, tag := 0xFFFF })] }, tim := { nextEdge := 1000000 } }, 1, 0xFFFF, 8191, 1, 0, { src := 1, tag := 0xFFFF }, by dsimp only; decide +kernel⟩,
   ⟨up.put (f_SYN_OBJ_CFG_ENABLE 8191) 1, 8191, 0xFFFFFFFF, by decide +kernel⟩,
   ⟨up, 8191, by decide +kernel⟩,
   ⟨{ up.put (f_SYN_OBJ_CFG_ENABLE 8191) 1 with net := { waits := [(8190, 0, 0, none), (8191, 2 ^ 32 - 1, thrKey 63 63, none)] } }, 8191, 2 ^ 32 - 1, 63, 63, [(8190, 0, 0, none)], [], 0xFFFFFFFF, by dsimp only; decide +kernel⟩,
   ⟨{ up.put (f_SYN_OBJ_CFG_ENABLE 8191) 1 with net := { waits := [(8191, 2 ^ 32 - 1, 0, some {})] } }, 8191, 2 ^ 32 - 1, 63, 63, [], [], 0xFFFFFFFF, 0, {}, by dsimp only; decide +kernel⟩⟩

/-- The hypotheses of RequestOutcomes can be met, clause by clause. -/
theorem witness_RequestOutcomes :
    (∃ s : State, ∃ src : BitVec 12, ∃ tag : BitVec 16, (s.live = true) ∧ (s.net.inbox.find? (fun k => k.src == src.toNat && k.op == 0x10 && k.tag == tag.toNat) = none))
    ∧ (∃ s : State, ∃ src : BitVec 12, ∃ tag : BitVec 16, ∃ k : Pkt, let query (e : Nat × Dest) : Bool := e.2.query == some tag.toNat && e.1 == src.toNat; (s.live = true) ∧ (s.net.inbox.find? (fun k => k.src == src.toNat && k.op == 0x10 && k.tag == tag.toNat) = some k) ∧ (s.net.dest.any query = false) ∧ (∀ q ∈ s.net.reqs, q.pkt.tag ≠ tag.toNat ∨ q.pkt.dst ≠ src.toNat))
    ∧ (∃ s : State, ∃ src : BitVec 12, ∃ tag : BitVec 16, ∃ k : Pkt, ∃ r : Req, ∃ n th : Nat, let query (e : Nat × Dest) : Bool := e.2.query == some tag.toNat && e.1 == src.toNat; let alone : Prop := (∀ q ∈ s.net.reqs, q.who = .serve → q.phase = .sent) ∧ (s.destOf src.toNat).failed = false; (s.live = true) ∧ (s.net.inbox.find? (fun k => k.src == src.toNat && k.op == 0x10 && k.tag == tag.toNat) = some k) ∧ (s.net.dest.any query = false) ∧ (alone) ∧ (r ∈ s.net.reqs) ∧ (r.pkt.tag = tag.toNat) ∧ (r.pkt.dst = src.toNat) ∧ (∀ q ∈ s.net.reqs, q ≠ r → q.pkt.tag ≠ tag.toNat ∧ q.pkt.dst ≠ src.toNat) ∧ (r.who = .thread n th) ∧ (r.phase = .sent) ∧ (r.done = none) ∧ ((r.kind = 0 ∧ r.lane = 32 ∧ r.pkt.op = 1) ∨ (1 ≤ r.kind ∧ r.kind ≤ 3 ∧ r.pkt.own = false)) ∧ ((s.thr n th).why = .none) ∧ (tag.toNat ∈ (s.thr n th).rmtOut))
    ∧ (∃ s : State, ∃ src : BitVec 12, ∃ tag : BitVec 16, ∃ k : Pkt, let query (e : Nat × Dest) : Bool := e.2.query == some tag.toNat && e.1 == src.toNat; (s.live = true) ∧ (s.net.inbox.find? (fun k => k.src == src.toNat && k.op == 0x10 && k.tag == tag.toNat) = some k) ∧ (s.net.dest.any query = true) ∧ (∀ q ∈ s.net.reqs, q.pkt.dst ≠ src.toNat) ∧ (∀ q ∈ s.net.reqs, q.who = .serve → q.phase = .sent))
    ∧ (∃ s : State, ∃ src : BitVec 12, ∃ tag : BitVec 16, ∃ k : Pkt, ∃ r : Req, ∃ p : Nat, let query (e : Nat × Dest) : Bool := e.2.query == some tag.toNat && e.1 == src.toNat; (s.live = true) ∧ (s.net.inbox.find? (fun k => k.src == src.toNat && k.op == 0x10 && k.tag == tag.toNat) = some k) ∧ (s.net.dest.any query = true) ∧ (k.status = 0) ∧ ((s.destOf src.toNat).failed = false) ∧ (s.net.reqs = [r]) ∧ (r.pkt.dst = src.toNat) ∧ (r.pkt.tagged = true) ∧ (r.phase = .waitQuery) ∧ (r.done = none) ∧ (r.who ≠ .serve) ∧ (r.pkt.cls = 0) ∧ (s.routeOf r.pkt = .port p))
    ∧ (∃ s : State, ∃ tag : BitVec 16, ∃ d : Nat, ∃ e : Dest, let lim := s.get f_AVL_RMT_CFG_DEAD_US * 1000; (s.live = true) ∧ (s.net.dest.find? (fun e => e.2.query == some tag.toNat) = some (d, e)) ∧ (s.reached e.queryAt lim = false))
    ∧ (∃ s : State, ∃ tag : BitVec 16, ∃ d : Nat, ∃ e : Dest, let lim := s.get f_AVL_RMT_CFG_DEAD_US * 1000; (s.live = true) ∧ (s.net.dest.find? (fun e => e.2.query == some tag.toNat) = some (d, e)) ∧ (s.reached e.queryAt lim = true) ∧ (∀ q ∈ s.net.reqs, q.pkt.dst ≠ d) ∧ (∀ q ∈ s.net.reqs, q.who = .serve → q.phase = .sent))
    ∧ (∃ s : State, ∃ tag : BitVec 16, (s.live = true) ∧ (∀ e ∈ s.net.dest, e.2.query ≠ some tag.toNat) ∧ (s.net.reqs.find? (fun r => r.pkt.tag == tag.toNat && r.phase == .sent && r.done.isNone) = none))
    ∧ (∃ s : State, ∃ tag : BitVec 16, ∃ r : Req, let lim := s.get f_AVL_RMT_CFG_DEAD_US * 1000; (s.live = true) ∧ (∀ e ∈ s.net.dest, e.2.query ≠ some tag.toNat) ∧ (s.net.reqs.find? (fun r => r.pkt.tag == tag.toNat && r.phase == .sent && r.done.isNone) = some r) ∧ (s.reached r.sentAt lim = false))
    ∧ (∃ s : State, ∃ tag : BitVec 16, ∃ r : Req, ∃ n th, let lim := s.get f_AVL_RMT_CFG_DEAD_US * 1000; (s.live = true) ∧ (∀ e ∈ s.net.dest, e.2.query ≠ some tag.toNat) ∧ (s.net.reqs.find? (fun r => r.pkt.tag == tag.toNat && r.phase == .sent && r.done.isNone) = some r) ∧ (s.reached r.sentAt lim = true) ∧ (∀ q ∈ s.net.reqs, q.who = .serve → q.phase = .sent) ∧ ((s.destOf r.pkt.dst).failed = false) ∧ (∀ q ∈ s.net.reqs, q ≠ r → q.pkt.tag ≠ tag.toNat ∧ q.pkt.dst ≠ r.pkt.dst) ∧ (r.who = .thread n th) ∧ (n < 64) ∧ ((r.kind = 0 ∧ r.lane = 32 ∧ r.pkt.op = 1) ∨ (1 ≤ r.kind ∧ r.kind ≤ 3)) ∧ ((s.thr n th).why = .none) ∧ (tag.toNat ∈ (s.thr n th).rmtOut))
    ∧ (∃ s : State, ∃ tag : BitVec 16, let mine := s.net.reqs.find? (fun q => q.pkt.tag == tag.toNat && q.phase == .sent && q.done.isNone && q.pkt.tagged); (s.live = true) ∧ (mine = none))
    ∧ (∃ s : State, ∃ tag : BitVec 16, ∃ r : Req, let mine := s.net.reqs.find? (fun q => q.pkt.tag == tag.toNat && q.phase == .sent && q.done.isNone && q.pkt.tagged); let us := s.get f_AVL_RMT_CFG_RETRY_US; (s.live = true) ∧ (mine = some r) ∧ (s.get f_AVL_RMT_CFG_DEAD_US ≤ us ∨ s.reached r.lastAt (us * 1000) = false))
    ∧ (∃ s : State, ∃ tag : BitVec 16, ∃ r : Req, ∃ p : Nat, let mine := s.net.reqs.find? (fun q => q.pkt.tag == tag.toNat && q.phase == .sent && q.done.isNone && q.pkt.tagged); let us := s.get f_AVL_RMT_CFG_RETRY_US; (s.live = true) ∧ (mine = some r) ∧ (us < s.get f_AVL_RMT_CFG_DEAD_US) ∧ (s.reached r.lastAt (us * 1000) = true) ∧ (s.settled) ∧ (r.pkt.cls ≠ 2) ∧ (s.routeOf r.pkt = .port p))
    ∧ (∃ s : State, ∃ now : Nat, ∃ p : Fin 24, ∃ i : Fin 8, ∃ it, let x := s.tmQ (32 + p) i; (s.live = true) ∧ (x.items.find? (fun it => it.pkt?.any (fun k => s.aged k now)) = some it))
    ∧ (∃ s : State, ∃ now : Nat, ∃ p : Fin 24, ∃ i : Fin 8, ∃ e, let x := s.tmQ (32 + p) i; let on (e : Nat × Nat × TmItem) : Bool := e.1 == 32 + p.val && e.2.1 == i.val && e.2.2.pkt?.any (fun k => s.aged k now); (s.live = true) ∧ (x.items.find? (fun it => it.pkt?.any (fun k => s.aged k now)) = none) ∧ (s.tm.inb.find? on = some e))
    ∧ (∃ s : State, ∃ now : Nat, ∃ p : Fin 24, ∃ i : Fin 8, let x := s.tmQ (32 + p) i; let on (e : Nat × Nat × TmItem) : Bool := e.1 == 32 + p.val && e.2.1 == i.val && e.2.2.pkt?.any (fun k => s.aged k now); (s.live = true) ∧ (x.items.find? (fun it => it.pkt?.any (fun k => s.aged k now)) = none) ∧ (s.tm.inb.find? on = none))
    ∧ (∃ s : State, ∃ now : Nat, ∃ k, (s.live = true) ∧ (s.net.held.find? (fun k => s.aged k now) = some k))
    ∧ (∃ s : State, ∃ now : Nat, (s.live = true) ∧ (s.net.held.find? (fun k => s.aged k now) = none))
    ∧ (∃ s : State, (s.live = true) ∧ (s.get f_AVL_RMT_STATE_RECOVERING = 1) ∧ (s.mayRecover = true))
    ∧ (∃ s : State, (s.live = true) ∧ (s.get f_AVL_RMT_STATE_RECOVERING = 0 ∨ s.mayRecover = false))
    ∧ (∃ s : State, ∃ k, (s.live = true) ∧ (s.mayRecover = true) ∧ (k ∈ s.net.held))
    ∧ (∃ s : State, ∃ p, (s.live = true) ∧ (s.mayRecover = true) ∧ (p < 24)) :=
  ⟨⟨up, 0xFFF, 0xFFFF, by decide +kernel⟩,
   ⟨rq [] [], 0xFFF, 0xFFFF, kq, by dsimp only; decide +kernel⟩,
   ⟨rq [r1] [], 0xFFF, 0xFFFF, kq, r1, 63, 63, by dsimp only; decide +kernel⟩,
   ⟨rq [] [(0xFFF, { query := some 0xFFFF })], 0xFFF, 0xFFFF, kq, by dsimp only; decide +kernel⟩,
   ⟨{ net1 with net := { port := [(0, { usable := true })], inbox := [{ src := 1, op := 0x10, tag := 5 }], dest := [(1, { query := some 5 })], reqs := [{ who := .thread 0 0, phase := .waitQuery, pkt := { dst := 1, op := 3, tag := 6 } }] } }, 1, 5, { src := 1, op := 0x10, tag := 5 }, { who := .thread 0 0, phase := .waitQuery, pkt := { dst := 1, op := 3, tag := 6 } }, 0, by dsimp only; decide +kernel⟩,
   ⟨withF (rq [] [(0xFFF, { query := some 0xFFFF })]) [(f_AVL_RMT_CFG_DEAD_US, 1000)], 0xFFFF, 0xFFF, { query := some 0xFFFF }, by dsimp only; decide +kernel⟩,
   ⟨withF (rq [] [(0xFFF, { query := some 0xFFFF })]) [(f_AVL_RMT_CFG_DEAD_US, 125)], 0xFFFF, 0xFFF, { query := some 0xFFFF }, by dsimp only; decide +kernel⟩,
   ⟨up, 0xFFFF, by decide +kernel⟩,
   ⟨withF (rq [r1] []) [(f_AVL_RMT_CFG_DEAD_US, 126)], 0xFFFF, r1, by dsimp only; decide +kernel⟩,
   ⟨withF (rq [r1] []) [(f_AVL_RMT_CFG_DEAD_US, 125)], 0xFFFF, r1, 63, 63, by dsimp only; decide +kernel⟩,
   ⟨up, 0xFFFF, by dsimp only; decide +kernel⟩,
   ⟨{ withF up [(f_AVL_RMT_CFG_DEAD_US, 5), (f_AVL_RMT_CFG_RETRY_US, 5)] with net := { reqs := [{ pkt := { op := 3 } }] } }, 0, { pkt := { op := 3 } }, by dsimp only; decide +kernel⟩,
   ⟨{ withF net1 [(f_AVL_RMT_CFG_DEAD_US, 6), (f_AVL_RMT_CFG_RETRY_US, 5)] with net := { port := [(0, { usable := true })], reqs := [{ pkt := { dst := 1, op := 3 } }] } }, 0, { pkt := { dst := 1, op := 3 } }, 0, by dsimp only; unfold State.settled; decide +kernel⟩,
   ⟨{ up with tim := { nextEdge := 2 ^ 40 }, tm := { q := [(8 * 55 + 7, { items := [{ load := .pkt {} }] })] } }, 2 ^ 40, 23, 7, { load := .pkt {} }, by dsimp only; decide +kernel⟩,
   ⟨{ up with tim := { nextEdge := 2 ^ 40 }, tm := { inb := [(55, 7, { load := .pkt {} })] } }, 2 ^ 40, 23, 7, (55, 7, { load := .pkt {} }), by dsimp only; decide +kernel⟩,
   ⟨{ up with tm := { q := [(8 * 55 + 7, { items := [{ load := .pkt {} }] })] } }, 0, 23, 7, by dsimp only; decide +kernel⟩,
   ⟨{ up with tim := { nextEdge := 2 ^ 40 }, net := { held := [{ dst := 1 }] } }, 2 ^ 40, { dst := 1 }, by decide +kernel⟩,
   ⟨{ up with net := { held := [{ dst := 1 }] } }, 0, by decide +kernel⟩,
   ⟨{ withF up [(f_AVL_RMT_STATE_RECOVERING, 1)] with tim := { tb := 2 ^ 40 } }, by decide +kernel⟩,
   ⟨up, by decide +kernel⟩,
   ⟨{ up with tim := { tb := 2 ^ 40 }, net := { held := [{ dst := 1 }] } }, { dst := 1 }, by decide +kernel⟩,
   ⟨{ up with tim := { tb := 2 ^ 40 } }, 23, by decide +kernel⟩⟩

/-- The hypotheses of SignalThreads can be met, clause by clause. -/
theorem witness_SignalThreads :
    (∃ s : State, ∃ c : Fin 96, ∃ k : Fin 8, ∃ w : BitVec 128, let b := w.toNat; let op := bits b 93 88; (s.sigIssues c k w) ∧ (onlyXop w op) ∧ (op = 0))
    ∧ (∃ s : State, ∃ c : Fin 96, ∃ k : Fin 8, ∃ w : BitVec 128, let b := w.toNat; let op := bits b 93 88; let x := s.sigThr c k; let q := x.sr (bits b 105 102); (s.sigIssues c k w) ∧ (onlyXop w op) ∧ (1 ≤ op) ∧ (op ≤ 9) ∧ (6 ≤ op → op ≤ 8 → q < 32))
    ∧ (∃ s : State, ∃ c : Fin 96, ∃ k : Fin 8, ∃ w : BitVec 128, let b := w.toNat; let op := bits b 93 88; (s.sigIssues c k w) ∧ (onlyXop w op) ∧ (op = 10))
    ∧ (∃ s : State, ∃ c : Fin 96, ∃ k : Fin 8, ∃ w : BitVec 128, let b := w.toNat; let op := bits b 93 88; (s.sigIssues c k w) ∧ (onlyXop w op) ∧ (op = 11))
    ∧ (∃ s : State, ∃ c : Fin 96, ∃ k : Fin 8, ∃ w : BitVec 128, let b := w.toNat; let op := bits b 93 88; (s.sigIssues c k w) ∧ (onlyXop w op) ∧ (op = 12))
    ∧ (∃ s : State, ∃ c : Fin 96, ∃ k : Fin 8, ∃ w : BitVec 128, let b := w.toNat; let op := bits b 93 88; (s.sigIssues c k w) ∧ (onlyXop w op) ∧ (op = 13))
    ∧ (∃ s : State, ∃ c : Fin 96, ∃ k : Fin 8, ∃ w : BitVec 128, let b := w.toNat; let op := bits b 93 88; (s.sigIssues c k w) ∧ (onlyXop w op) ∧ (op = 14))
    ∧ (∃ s : State, ∃ c : Fin 96, ∃ k : Fin 8, ∃ w : BitVec 128, let b := w.toNat; let op := bits b 93 88; (s.sigIssues c k w) ∧ (onlyXop w op) ∧ (op = 15))
    ∧ (∃ s : State, ∃ c : Fin 96, ∃ k : Fin 8, ∃ w : BitVec 128, let b := w.toNat; let op := bits b 93 88; (s.sigIssues c k w) ∧ (onlyXop w op) ∧ (op = 17))
    ∧ (∃ s : State, ∃ c : Fin 96, ∃ k : Fin 8, ∃ w : BitVec 128, let b := w.toNat; let op := bits b 93 88; let x := s.sigThr c k; let p := x.sr (bits b 101 98); let imm := toSigned 22 (bits b 127 106); (s.sigIssues c k w) ∧ (onlyXop w op) ∧ (op = 18) ∧ (imm = 0) ∧ (1 ≤ p) ∧ (p ≤ 16))
    ∧ (∃ s : State, ∃ c : Fin 96, ∃ k : Fin 8, ∃ w : BitVec 128, let b := w.toNat; let op := bits b 93 88; let x := s.sigThr c k; let p := x.sr (bits b 101 98); let imm := toSigned 22 (bits b 127 106); (s.sigIssues c k w) ∧ (onlyXop w op) ∧ (op = 18) ∧ (imm = 0) ∧ (p = 0 ∨ 16 < p))
    ∧ (∃ s : State, ∃ c : Fin 96, ∃ k : Fin 8, ∃ w : BitVec 128, let b := w.toNat; let op := bits b 93 88; let x := s.sigThr c k; let p := x.sr (bits b 101 98); let imm := toSigned 22 (bits b 127 106); (s.sigIssues c k w) ∧ (onlyXop w op) ∧ (op = 18) ∧ (imm = 1) ∧ (p % 64 ≤ 32))
    ∧ (∃ s : State, ∃ c : Fin 96, ∃ k : Fin 8, ∃ w : BitVec 128, let b := w.toNat; let op := bits b 93 88; let imm := toSigned 22 (bits b 127 106); (s.sigIssues c k w) ∧ (onlyXop w op) ∧ (op = 18) ∧ (imm = 2))
    ∧ (∃ s : State, ∃ c : Fin 96, ∃ k : Fin 8, ∃ w : BitVec 128, let b := w.toNat; let op := bits b 93 88; (s.sigIssues c k w) ∧ (onlyXop w op) ∧ (op = 19))
    ∧ (∃ s : State, ∃ c : Fin 96, ∃ k : Fin 8, ∃ w : BitVec 128, let b := w.toNat; let op := bits b 93 88; (s.sigIssues c k w) ∧ (onlyXop w op) ∧ (op = 20))
    ∧ (∃ s : State, ∃ c : Fin 96, ∃ k : Fin 8, ∃ w : BitVec 128, let b := w.toNat; let op := bits b 93 88; (s.sigIssues c k w) ∧ (onlyXop w op) ∧ (op = 21))
    ∧ (∃ s : State, ∃ c : Fin 96, ∃ k : Fin 8, ∃ w : BitVec 128, let b := w.toNat; let op := bits b 93 88; (s.sigIssues c k w) ∧ (onlyXop w op) ∧ (op = 27))
    ∧ (∃ s : State, ∃ c : Fin 96, ∃ k : Fin 8, ∃ w : BitVec 128, (s.sigIssues c k w) ∧ (onlyXop w (bits w.toNat 93 88)) ∧ (6 ≤ bits w.toNat 93 88) ∧ (bits w.toNat 93 88 ≤ 8) ∧ (32 ≤ (s.sigThr c k).sr (bits w.toNat 105 102)))
    ∧ (∃ s : State, ∃ c : Fin 96, ∃ k : Fin 8, ∃ w : BitVec 128, let b := w.toNat; let op := bits b 53 48; let x := s.sigThr c k; (s.sigIssues c k w) ∧ (bits w.toNat 3 0 = 0) ∧ (bits w.toNat 27 24 = 0) ∧ (bits w.toNat 93 88 = 0) ∧ (x.vl ≤ 16) ∧ (1 ≤ op) ∧ (op ≠ 8) ∧ (op ≠ 9))
    ∧ (∃ s : State, ∃ c : Fin 96, ∃ k : Fin 8, ∃ w : BitVec 128, let b := w.toNat; let op := bits b 53 48; let x := s.sigThr c k; (s.sigIssues c k w) ∧ (bits w.toNat 3 0 = 0) ∧ (bits w.toNat 27 24 = 0) ∧ (bits w.toNat 93 88 = 0) ∧ (x.vl ≤ 16) ∧ (op = 8 ∨ op = 9))
    ∧ (∃ s : State, ∃ c : Fin 96, ∃ k : Fin 8, ∃ w : BitVec 128, let b := w.toNat; let op := bits b 3 0; let x := s.sigThr c k; let r := bits b 11 8; let a := sget 0 x.ar r; let base := sget 0 x.ml (2 * bits b 19 17); let len := sget 0 x.ml (2 * bits b 19 17 + 1); let n := if op = 1 then 8 * x.vl else if op = 2 then 4 * x.vl else if op = 3 then 4 else 8; let al := if op = 1 ∨ op = 4 then 8 else 4; let m := sigBase c + a; (s.sigIssues c k w) ∧ (bits w.toNat 27 24 = 0) ∧ (bits w.toNat 53 48 = 0) ∧ (bits w.toNat 93 88 = 0) ∧ (1 ≤ op) ∧ (x.vl ≤ 16) ∧ (1 ≤ x.vl) ∧ (a % al = 0) ∧ (bitAt b 16 = true → len ≠ 0 ∧ base ≤ a ∧ a + n ≤ base + len) ∧ (s.localOk c x.radio a n = true) ∧ (s.plain m n))
    ∧ (∃ s : State, ∃ c : Fin 96, ∃ k : Fin 8, ∃ w : BitVec 128, let b := w.toNat; let op := bits b 27 24; let x := s.sigThr c k; let r := bits b 35 32; let a := sget 0 x.ar r; let n := if op = 2 then 4 * x.vl else if op = 4 then 4 else 8 * x.vl; let al := if op = 1 ∨ op = 3 then 8 else 4; let m := sigBase c + a; (s.sigIssues c k w) ∧ (bits w.toNat 3 0 = 0) ∧ (bits w.toNat 53 48 = 0) ∧ (bits w.toNat 93 88 = 0) ∧ (1 ≤ op) ∧ (1 ≤ x.vl) ∧ (x.vl ≤ 16) ∧ (a % al = 0) ∧ (bitAt b 40 = false) ∧ (bitAt b 44 = false) ∧ (s.localOk c x.radio a n = true) ∧ (s.writable m n))
    ∧ (∃ s : State, ∃ c : Fin 96, ∃ k : Fin 8, ∃ w : BitVec 128, ∃ i : Instr, let x := s.sigThr c k; (s.live = true) ∧ (s.sigMayRun c k = true) ∧ (i = .sigBundle c k w ∨ i = .jsub c k w ∨ i = .jwait c k w ∨ i = .jpoll c k w ∨ i = .xwait c k w ∨ i = .sigHalt c k w ∨ (i = .xfer c k w 0 ∧ x.why ≠ .xfer)) ∧ (s.sigFetchBad x = true))
    ∧ (∃ s : State, ∃ c : Fin 96, ∃ k : Fin 8, ∃ w : BitVec 128, ∃ i : Instr, let b := w.toNat; let x := s.sigThr c k; (s.live = true) ∧ (s.sigMayRun c k = true) ∧ (i = .sigBundle c k w ∨ i = .jsub c k w ∨ i = .jwait c k w ∨ i = .jpoll c k w ∨ i = .xwait c k w ∨ i = .sigHalt c k w ∨ (i = .xfer c k w 0 ∧ x.why ≠ .xfer)) ∧ (s.sigFetchBad x = false) ∧ (bundleLegal b = false ∨ x.pc % 16 ≠ 0))
    ∧ (∃ s : State, ∃ c : Fin 96, ∃ k : Fin 8, ∃ w : BitVec 128, ∃ i : Instr, let b := w.toNat; let x := s.sigThr c k; let ready : Prop := s.sigFetchBad x = false ∧ bundleLegal b = true ∧ x.pc % 16 = 0; (s.live = true) ∧ (s.sigMayRun c k = true) ∧ (i = .sigBundle c k w ∨ i = .jsub c k w ∨ i = .jwait c k w ∨ i = .jpoll c k w ∨ i = .xwait c k w ∨ i = .sigHalt c k w ∨ (i = .xfer c k w 0 ∧ x.why ≠ .xfer)) ∧ (ready) ∧ (i = .sigBundle c k w) ∧ (plainXop (bits b 93 88) = true) ∧ (x.ecc = 2))
    ∧ (∃ s : State, ∃ c : Fin 96, ∃ k : Fin 8, ∃ w : BitVec 128, ∃ i : Instr, let b := w.toNat; let x := s.sigThr c k; let loadAl := if bits b 3 0 = 1 ∨ bits b 3 0 = 4 then 8 else 4; let ready : Prop := s.sigFetchBad x = false ∧ bundleLegal b = true ∧ x.pc % 16 = 0; (s.live = true) ∧ (s.sigMayRun c k = true) ∧ (i = .sigBundle c k w ∨ i = .jsub c k w ∨ i = .jwait c k w ∨ i = .jpoll c k w ∨ i = .xwait c k w ∨ i = .sigHalt c k w ∨ (i = .xfer c k w 0 ∧ x.why ≠ .xfer)) ∧ (ready) ∧ (i = .sigBundle c k w) ∧ (plainXop (bits b 93 88) = true) ∧ (x.ecc = 0) ∧ (bits b 3 0 ≠ 0) ∧ (sget 0 x.ar (bits b 11 8) % loadAl ≠ 0))
    ∧ (∃ s : State, ∃ c : Fin 96, ∃ k : Fin 8, ∃ w : BitVec 128, ∃ i : Instr, let b := w.toNat; let x := s.sigThr c k; let ready : Prop := s.sigFetchBad x = false ∧ bundleLegal b = true ∧ x.pc % 16 = 0; (s.live = true) ∧ (s.sigMayRun c k = true) ∧ (i = .sigBundle c k w ∨ i = .jsub c k w ∨ i = .jwait c k w ∨ i = .jpoll c k w ∨ i = .xwait c k w ∨ i = .sigHalt c k w ∨ (i = .xfer c k w 0 ∧ x.why ≠ .xfer)) ∧ (ready) ∧ (i = .jsub c k w) ∧ (bits b 93 88 = 22) ∧ (bits b 3 0 = 0) ∧ (bits b 27 24 = 0) ∧ (x.ecc = 0) ∧ (x.sr (bits b 101 98) % 64 ≠ 0))
    ∧ (∃ s : State, ∃ c : Fin 96, ∃ k : Fin 8, ∃ w : BitVec 128, ∃ i : Instr, let b := w.toNat; let x := s.sigThr c k; let loadAl := if bits b 3 0 = 1 ∨ bits b 3 0 = 4 then 8 else 4; let ready : Prop := s.sigFetchBad x = false ∧ bundleLegal b = true ∧ x.pc % 16 = 0; let a := sget 0 x.ar (bits b 11 8); let m := sigBase c + a; let n := if bits b 3 0 = 1 then 8 * x.vl else if bits b 3 0 = 2 then 4 * x.vl else if bits b 3 0 = 3 then 4 else 8; (s.live = true) ∧ (s.sigMayRun c k = true) ∧ (i = .sigBundle c k w ∨ i = .jsub c k w ∨ i = .jwait c k w ∨ i = .jpoll c k w ∨ i = .xwait c k w ∨ i = .sigHalt c k w ∨ (i = .xfer c k w 0 ∧ x.why ≠ .xfer)) ∧ (ready) ∧ (i = .sigBundle c k w) ∧ (plainXop (bits b 93 88) = true) ∧ (x.ecc = 0) ∧ (bits b 3 0 ≠ 0) ∧ (bits b 27 24 = 0) ∧ (bitAt b 16 = false) ∧ (x.vl ≤ 16) ∧ (a % loadAl = 0) ∧ (s.localOk c x.radio a n = true) ∧ (s.region m ≠ .reserved) ∧ (s.region m ≠ .regSpace) ∧ (s.region (m + n - 1) = s.region m) ∧ (touched s.ms.corr m n = []) ∧ (touched s.ms.uncorr m n ≠ []))
    ∧ (∃ s : State, ∃ c : Fin 96, ∃ k : Fin 8, (s.sigMayRun c k = false)) :=
  ⟨⟨sg sry, 95, 7, xw 0 0 0 0 0, by unfold State.sigIssues onlyXop; dsimp only; decide +kernel⟩,
   ⟨sg { sry with x := [(1, 31)] }, 95, 7, xw 8 15 0 1 0, by unfold State.sigIssues onlyXop; dsimp only; decide +kernel⟩,
   ⟨sg sry, 95, 7, xw 10 0 1 1 0x3FFFFF, by unfold State.sigIssues onlyXop; dsimp only; decide +kernel⟩,
   ⟨sg sry, 95, 7, xw 11 0 1 2 0x3FFFFF, by unfold State.sigIssues onlyXop; dsimp only; decide +kernel⟩,
   ⟨sg sry, 95, 7, xw 12 0 1 2 5, by unfold State.sigIssues onlyXop; dsimp only; decide +kernel⟩,
   ⟨sg sry, 95, 7, xw 13 0 0 0 5, by unfold State.sigIssues onlyXop; dsimp only; decide +kernel⟩,
   ⟨sg sry, 95, 7, xw 14 15 0 0 5, by unfold State.sigIssues onlyXop; dsimp only; decide +kernel⟩,
   ⟨sg sry, 95, 7, xw 15 0 15 0 0, by unfold State.sigIssues onlyXop; dsimp only; decide +kernel⟩,
   ⟨sg sry, 95, 7, xw 17 15 0 0 1, by unfold State.sigIssues onlyXop; dsimp only; decide +kernel⟩,
   ⟨sg { sry with x := [(2, 16)] }, 95, 7, xw 18 0 2 0 0, by unfold State.sigIssues onlyXop; dsimp only; decide +kernel⟩,
   ⟨sg { sry with x := [(2, 17)] }, 95, 7, xw 18 0 2 0 0, by unfold State.sigIssues onlyXop; dsimp only; decide +kernel⟩,
   ⟨sg { sry with x := [(2, 96)] }, 95, 7, xw 18 0 2 0 1, by unfold State.sigIssues onlyXop; dsimp only; decide +kernel⟩,
   ⟨sg { sry with x := [(2, 31)] }, 95, 7, xw 18 0 2 0 2, by unfold State.sigIssues onlyXop; dsimp only; decide +kernel⟩,
   ⟨sg sry, 95, 7, xw 19 15 2 0 0, by unfold State.sigIssues onlyXop; dsimp only; decide +kernel⟩,
   ⟨sg sry, 95, 7, xw 20 15 2 0 0, by unfold State.sigIssues onlyXop; dsimp only; decide +kernel⟩,
   ⟨sg sry, 95, 7, xw 21 7 2 0 0, by unfold State.sigIssues onlyXop; dsimp only; decide +kernel⟩,
   ⟨sg sry, 95, 7, xw 27 0 0 0 0, by dsimp only; unfold State.sigIssues onlyXop; decide +kernel⟩,
   ⟨sg { sry with x := [(1, 32)] }, 95, 7, xw 6 15 0 1 0, by unfold State.sigIssues onlyXop; dsimp only; decide +kernel⟩,
   ⟨sg sry, 95, 7, BitVec.ofNat 128 (2 ^ 48 * 10), by unfold State.sigIssues; dsimp only; decide +kernel⟩,
   ⟨sg sry, 95, 7, BitVec.ofNat 128 (2 ^ 48 * 9), by unfold State.sigIssues; dsimp only; decide +kernel⟩,
   ⟨sg { sry with ar := [(15, 0x7FF80)], ml := [(14, 0x7FF00), (15, 0x100)] }, 95, 7, BitVec.ofNat 128 (1 + 15 * 2 ^ 8 + 2 ^ 16 + 7 * 2 ^ 17), by unfold State.sigIssues State.plain; dsimp only; decide +kernel⟩,
   ⟨sg { sry with ar := [(15, 0x7FFFC)] }, 95, 7, BitVec.ofNat 128 (4 * 2 ^ 24 + 15 * 2 ^ 32), by unfold State.sigIssues State.writable State.plain; dsimp only; decide +kernel⟩,
   ⟨sg { sry with pc := 2 ^ 40 }, 95, 7, 0, .jsub 95 7 0, by dsimp only; decide +kernel⟩,
   ⟨sg { sry with pc := 0x20000008 }, 95, 7, 0, .jwait 95 7 0, by dsimp only; decide +kernel⟩,
   ⟨sg { sry with ecc := 2 }, 95, 7, 0, .sigBundle 95 7 0, by dsimp only; decide +kernel⟩,
   ⟨sg { sry with ar := [(15, 0x7FF84)] }, 95, 7, BitVec.ofNat 128 (1 + 15 * 2 ^ 8), .sigBundle 95 7 (BitVec.ofNat 128 (1 + 15 * 2 ^ 8)), by dsimp only; decide +kernel⟩,
   ⟨sg { sry with x := [(1, 32)] }, 95, 7, xw 22 0 1 2 0, .jsub 95 7 (xw 22 0 1 2 0), by dsimp only; decide +kernel⟩,
   ⟨{ sg { sry with ar := [(15, 0x7FF80)] } with ms := { uncorr := [sigBase 95 + 0x7FF80] } }, 95, 7, BitVec.ofNat 128 (1 + 15 * 2 ^ 8), .sigBundle 95 7 (BitVec.ofNat 128 (1 + 15 * 2 ^ 8)), by dsimp only; decide +kernel⟩,
   ⟨sg { sry with radio := true }, 95, 7, by decide +kernel⟩⟩

/-- The hypotheses of SignalJobs can be met, clause by clause. -/
theorem witness_SignalJobs :
    (∃ s : State, ∃ c : Fin 96, ∃ k : Fin 8, ∃ w : BitVec 128, ∃ v rest, let x := s.sigThr c k; (s.sigIssues c k w) ∧ (x.comps = v :: rest))
    ∧ (∃ s : State, ∃ c : Fin 96, ∃ k : Fin 8, ∃ w : BitVec 128, let x := s.sigThr c k; (s.sigIssues c k w) ∧ (x.comps = []))
    ∧ (∃ s : State, ∃ c : Fin 96, ∃ k : Fin 8, ∃ w : BitVec 128, (s.sigIssues c k w) ∧ (onlyXop w 16))
    ∧ (∃ s : State, ∃ c : Fin 96, ∃ k : Fin 8, ∃ w : BitVec 128, let b := w.toNat; let x := s.sigThr c k; let p := x.sr (bits b 101 98); (s.sigIssues c k w) ∧ (onlyXop w 22) ∧ (p % 64 = 0) ∧ (s.localOk c x.radio p 64 = true) ∧ (¬(touched s.ms.uncorr (sigBase c + p) 64).isEmpty))
    ∧ (∃ s : State, ∃ c : Fin 96, ∃ k : Fin 8, ∃ w : BitVec 128, let b := w.toNat; let x := s.sigThr c k; let p := x.sr (bits b 101 98); let q := x.sr (bits b 105 102); let a := sigBase c + p; let j : AccJob := { core := c, thr := k, job := x.job, part := x.part, radio := x.radio, kind := q % 8, eng := q / 8 % 8, ctrl := s.readLE a 4, seq := s.readLE (a + 4) 4, src := s.readLE (a + 8) 8, dst := s.readLE (a + 16) 8, inLen := s.readLE (a + 0x18) 4, outLen := s.readLE (a + 0x1C) 4, param := s.readBytes (a + 0x20) 32, prio := x.prio }; (s.sigIssues c k w) ∧ (onlyXop w 22) ∧ (p % 64 = 0) ∧ (s.localOk c x.radio p 64 = true) ∧ (s.plain (sigBase c + p) 64) ∧ (engCount j.kind ≤ j.eng) ∧ (x.why ≠ .jwait))
    ∧ (∃ s : State, ∃ c : Fin 96, ∃ k : Fin 8, ∃ w : BitVec 128, let b := w.toNat; let x := s.sigThr c k; let p := x.sr (bits b 101 98); let q := x.sr (bits b 105 102); let a := sigBase c + p; let j : AccJob := { core := c, thr := k, job := x.job, part := x.part, radio := x.radio, kind := q % 8, eng := q / 8 % 8, ctrl := s.readLE a 4, seq := s.readLE (a + 4) 4, src := s.readLE (a + 8) 8, dst := s.readLE (a + 16) 8, inLen := s.readLE (a + 0x18) 4, outLen := s.readLE (a + 0x1C) 4, param := s.readBytes (a + 0x20) 32, prio := x.prio }; let r := srcEngine j.kind (s.coreDie c) j.eng; let e := s.engOf r; let full : Prop := (if x.radio then 32 ≤ e.radioQ.length else 64 ≤ e.openQ.length) ∨ 16 ≤ x.outst; (s.sigIssues c k w) ∧ (onlyXop w 22) ∧ (p % 64 = 0) ∧ (s.localOk c x.radio p 64 = true) ∧ (s.plain (sigBase c + p) 64) ∧ (j.eng < engCount j.kind) ∧ (full))
    ∧ (∃ s : State, ∃ c : Fin 96, ∃ k : Fin 8, ∃ w : BitVec 128, let b := w.toNat; let x := s.sigThr c k; let p := x.sr (bits b 101 98); let q := x.sr (bits b 105 102); let a := sigBase c + p; let j : AccJob := { core := c, thr := k, job := x.job, part := x.part, radio := x.radio, kind := q % 8, eng := q / 8 % 8, ctrl := s.readLE a 4, seq := s.readLE (a + 4) 4, src := s.readLE (a + 8) 8, dst := s.readLE (a + 16) 8, inLen := s.readLE (a + 0x18) 4, outLen := s.readLE (a + 0x1C) 4, param := s.readBytes (a + 0x20) 32, prio := x.prio }; let r := srcEngine j.kind (s.coreDie c) j.eng; let e := s.engOf r; let full : Prop := (if x.radio then 32 ≤ e.radioQ.length else 64 ≤ e.openQ.length) ∨ 16 ≤ x.outst; (s.sigIssues c k w) ∧ (onlyXop w 22) ∧ (p % 64 = 0) ∧ (s.localOk c x.radio p 64 = true) ∧ (s.plain (sigBase c + p) 64) ∧ (j.eng < engCount j.kind) ∧ (¬full))
    ∧ (∃ s : State, ∃ c : Fin 96, ∃ k : Fin 8, ∃ w : BitVec 128, let b := w.toNat; let x := s.sigThr c k; let p := x.sr (bits b 101 98); let q := x.sr (bits b 105 102); let n := bits b 111 106 + 1; let bank := q / 0x80000; (s.sigIssues c k w) ∧ (onlyXop w 25) ∧ (x.why ≠ .xfer) ∧ (p % 64 = 0) ∧ (q % 64 = 0) ∧ (s.localOk c x.radio p (64 * n) = true) ∧ (q + 64 * n ≤ 2 ^ 28) ∧ (s.partReach x.part x.radio (stageBase + q) (64 * n) = true) ∧ ((q + 64 * n - 1) / 0x80000 = bank) ∧ (bitAt b 112 = true → s.plain (sigBase c + p) (64 * n)) ∧ (x.xfers < 4) ∧ (s.bankOf bank = {}))
    ∧ (∃ s : State, ∃ c : Fin 96, ∃ k : Fin 8, ∃ w : BitVec 128, let b := w.toNat; let x := s.sigThr c k; let p := x.sr (bits b 101 98); let q := x.sr (bits b 105 102); let n := bits b 111 106 + 1; let bank := q / 0x80000; (s.sigIssues c k w) ∧ (onlyXop w 25) ∧ (x.why ≠ .xfer) ∧ (p % 64 = 0) ∧ (q % 64 = 0) ∧ (s.localOk c x.radio p (64 * n) = true) ∧ (q + 64 * n ≤ 2 ^ 28) ∧ (s.partReach x.part x.radio (stageBase + q) (64 * n) = true) ∧ ((q + 64 * n - 1) / 0x80000 = bank) ∧ (bitAt b 112 = true → s.plain (sigBase c + p) (64 * n)) ∧ (4 ≤ x.xfers))
    ∧ (∃ s : State, ∃ c : Fin 96, ∃ k : Fin 8, let x := s.sigThr c k; (s.live = true) ∧ (x.st ≠ .wait))
    ∧ (∃ s : State, ∃ c : Fin 96, ∃ k : Fin 8, let x := s.sigThr c k; (s.live = true) ∧ (x.st = .wait))
    ∧ (∃ s : State, ∃ c : Fin 96, let r := s.rerunCore (s.coreDie c); let may : Prop := s.coreLease c = .radio ∧ (∃ j, j < 8 ∧ (s.sigThr c j).radio = true ∧ (s.sigThr c j).st = .faulted) ∧ r < 96 ∧ r ≠ c.val ∧ sget 0 s.sig.rerun r = 0 ∧ s.hasCore r = true ∧ s.get (f_SIG_CORE_ISOLATED r) = 0; (s.live = true) ∧ (¬may))
    ∧ (∃ s : State, ∃ c : Fin 96, let r := s.rerunCore (s.coreDie c); let may : Prop := s.coreLease c = .radio ∧ (∃ j, j < 8 ∧ (s.sigThr c j).radio = true ∧ (s.sigThr c j).st = .faulted) ∧ r < 96 ∧ r ≠ c.val ∧ sget 0 s.sig.rerun r = 0 ∧ s.hasCore r = true ∧ s.get (f_SIG_CORE_ISOLATED r) = 0; (s.live = true) ∧ (may))
    ∧ (∃ s : State, ∃ kind : Fin 6, ∃ die : Fin 4, ∃ n : Fin 8, ∃ cyc : BitVec 32, ∃ j : AccJob, let r := srcEngine kind die n; let e := s.engOf r; let st := s.jobStatus j; let x := s.sigThr j.core j.thr; (s.live = true) ∧ (n.val < engCount kind) ∧ (st = 0 → j.inTime cyc.toNat = true) ∧ (e.isolated = false) ∧ (s.leaseOf r ≠ .radio) ∧ (s.leaseOf r = .guard → e.guard = true) ∧ (bestAcc e.openQ = some j) ∧ (∀ g ∈ s.sig.thr, g.2.why ≠ .jsub) ∧ (x.job = j.job) ∧ (st ≠ 0) ∧ (x.why ≠ .jwait))
    ∧ (∃ s : State, ∃ kind : Fin 6, ∃ die : Fin 4, ∃ n : Fin 8, ∃ cyc : BitVec 32, ∃ j : AccJob, let r := srcEngine kind die n; let e := s.engOf r; let st := s.jobStatus j; let x := s.sigThr j.core j.thr; (s.live = true) ∧ (n.val < engCount kind) ∧ (st = 0 → j.inTime cyc.toNat = true) ∧ (e.isolated = false) ∧ (s.leaseOf r ≠ .radio) ∧ (s.leaseOf r = .guard → e.guard = true) ∧ (bestAcc e.openQ = some j) ∧ (∀ g ∈ s.sig.thr, g.2.why ≠ .jsub) ∧ (x.job = j.job) ∧ (st = 0) ∧ (x.why ≠ .jwait) ∧ (j.outLen ≠ 0 → s.writable j.dst j.outLen) ∧ (j.side.2 ≠ 0 → s.writable j.side.1 j.side.2) ∧ (∀ p ∈ j.reads, p.2 ≠ 0 → s.plain p.1 p.2))
    ∧ (∃ s : State, ∃ kind : Fin 6, ∃ die : Fin 4, ∃ n : Fin 8, ∃ cyc : BitVec 32, ∃ j : AccJob, ∃ hw : Fin 3, let r := srcEngine kind die n; let e := s.engOf r; let st := s.jobStatus j; let x := s.sigThr j.core j.thr; (s.live = true) ∧ (n.val < engCount kind) ∧ (st = 0 → j.inTime cyc.toNat = true) ∧ (e.isolated = false) ∧ (s.leaseOf r ≠ .radio) ∧ (s.leaseOf r = .guard → e.guard = true) ∧ (bestAcc e.openQ = some j) ∧ (∀ g ∈ s.sig.thr, g.2.why ≠ .jsub) ∧ (x.job = j.job) ∧ (hw ≠ 0) ∧ (x.why ≠ .jwait))
    ∧ (∃ s : State, ∃ kind : Fin 6, ∃ die : Fin 4, ∃ n : Fin 8, ∃ cyc : BitVec 32, ∃ hw : Fin 3, ∃ j : AccJob, ∃ rest : List AccJob, let r := srcEngine kind die n; let e := s.engOf r; let st := s.jobStatus j; let x := s.sigThr j.core j.thr; let again : Prop := hw ≠ 0 ∧ j.re = false ∧ s.otherEngine j.kind (s.coreDie j.core) r ≠ none; let lost : Prop := hw = 2 ∨ (hw = 1 ∧ ¬again); (s.live = true) ∧ (n.val < engCount kind) ∧ (st = 0 → j.inTime cyc.toNat = true) ∧ (e.isolated = false) ∧ (s.leaseOf r = .radio) ∧ (e.radioQ = j :: rest) ∧ (∀ g ∈ s.sig.thr, g.2.why ≠ .jsub) ∧ (x.job = j.job) ∧ (x.why ≠ .jwait) ∧ (lost ∨ st ≠ 0))
    ∧ (∃ s : State, ∃ kind : Fin 6, ∃ die : Fin 4, ∃ n : Fin 8, ∃ cyc : BitVec 32, ∃ hw : Fin 3, ∃ j : AccJob, ∃ rest : List AccJob, let r := srcEngine kind die n; let e := s.engOf r; let st := s.jobStatus j; let x := s.sigThr j.core j.thr; let again : Prop := hw ≠ 0 ∧ j.re = false ∧ s.otherEngine j.kind (s.coreDie j.core) r ≠ none; let lost : Prop := hw = 2 ∨ (hw = 1 ∧ ¬again); (s.live = true) ∧ (n.val < engCount kind) ∧ (st = 0 → j.inTime cyc.toNat = true) ∧ (e.isolated = false) ∧ (s.leaseOf r = .radio) ∧ (e.radioQ = j :: rest) ∧ (∀ g ∈ s.sig.thr, g.2.why ≠ .jsub) ∧ (x.job = j.job) ∧ (x.why ≠ .jwait) ∧ (¬lost) ∧ (st = 0) ∧ (j.outLen ≠ 0 → s.writable j.dst j.outLen) ∧ (j.side.2 ≠ 0 → s.writable j.side.1 j.side.2) ∧ (∀ p ∈ j.reads, p.2 ≠ 0 → s.plain p.1 p.2))
    ∧ (∃ s : State, ∃ kind : Fin 6, ∃ die : Fin 4, ∃ n : Fin 8, ∃ radio : Bool, let r := srcEngine kind die n; (s.live = true) ∧ (engCount kind ≤ n ∨ (s.engOf r).isolated = true ∨ (radio = true ∧ ((s.engOf r).radioQ = [] ∨ s.leaseOf r ≠ .radio)) ∨ (radio = false ∧ ((s.engOf r).openQ = [] ∨ s.leaseOf r = .radio ∨ (s.leaseOf r = .guard ∧ (s.engOf r).guard = false)))))
    ∧ (∃ j : AccJob, (j.kind = 0))
    ∧ (∃ j : AccJob, (j.kind = 1))
    ∧ (∃ j : AccJob, (j.kind = 5)) :=
  ⟨⟨sg { sry with comps := [7, 8] }, 95, 7, xw 23 14 0 0 0, 7, [8], by unfold State.sigIssues; dsimp only; decide +kernel⟩,
   ⟨sg sry, 95, 7, xw 23 14 0 0 0, by unfold State.sigIssues; dsimp only; decide +kernel⟩,
   ⟨sg sry, 95, 7, xw 16 0 0 0 0, by unfold State.sigIssues onlyXop; decide +kernel⟩,
   ⟨{ sg { sry with x := [(2, 18)] } with ms := { uncorr := [sigBase 95 + 63] } }, 95, 7, xw 22 0 1 2 0, by dsimp only; unfold State.sigIssues onlyXop; decide +kernel⟩,
   ⟨sg { sry with x := [(2, 18)] }, 95, 7, xw 22 0 1 2 0, by dsimp only; unfold State.sigIssues onlyXop State.plain; decide +kernel⟩,
   ⟨sg { sry with x := [(2, 10)], outst := 16 }, 95, 7, xw 22 0 1 2 0, by dsimp only; unfold State.sigIssues onlyXop State.plain; decide +kernel⟩,
   ⟨sg { sry with x := [(2, 10)], outst := 15 }, 95, 7, xw 22 0 1 2 0, by dsimp only; unfold State.sigIssues onlyXop State.plain; decide +kernel⟩,
   ⟨sg { sry with x := [(2, 0x7F000)], xfers := 3 }, 95, 7, xw 25 0 1 2 63, by dsimp only; unfold State.plain State.sigIssues onlyXop; decide +kernel⟩,
   ⟨sg { sry with x := [(2, 0x7F000)], xfers := 4 }, 95, 7, xw 25 0 1 2 63, by dsimp only; unfold State.plain State.sigIssues onlyXop; decide +kernel⟩,
   ⟨sg sry, 95, 7, by dsimp only; decide +kernel⟩,
   ⟨sg { sry with st := .wait, why := .jwait }, 95, 7, by dsimp only; decide +kernel⟩,
   ⟨ram, 95, by dsimp only; decide +kernel⟩,
   ⟨{ ram.put f_SIG_RERUN_CORE_3 94 with sig := { thr := [(767, { st := .faulted, radio := true })] }, tim := { lease := [(coreRes 95, .radio)] } }, 95, by dsimp only; decide +kernel⟩,
   ⟨{ ram with sig := { eng := [(0x1CF, { openQ := [{ kind := 5 }] })] } }, 5, 3, 3, 0, { kind := 5 }, by dsimp only; decide +kernel⟩,
   ⟨{ ram with sig := { eng := [(0x1CF, { openQ := [aj] })] } }, 5, 3, 3, 0, aj, by dsimp only; unfold State.writable State.plain; decide +kernel⟩,
   ⟨{ ram with sig := { eng := [(0x1CF, { openQ := [{ kind := 5 }] })] } }, 5, 3, 3, 0, { kind := 5 }, 2, by dsimp only; decide +kernel⟩,
   ⟨{ ram with sig := { eng := [(0x1CF, { radioQ := [{ kind := 5 }] })] }, tim := { lease := [(0x1CF, .radio)] } }, 5, 3, 3, 0, 2, { kind := 5 }, [], by dsimp only; decide +kernel⟩,
   ⟨{ ram with sig := { eng := [(0x1CF, { radioQ := [aj] })] }, tim := { lease := [(0x1CF, .radio)] } }, 5, 3, 3, 0, 0, aj, [], by dsimp only; unfold State.writable State.plain; decide +kernel⟩,
   ⟨up, 5, 3, 3, false, by dsimp only; decide +kernel⟩,
   ⟨{}, by decide +kernel⟩,
   ⟨{ kind := 1 }, by decide +kernel⟩,
   ⟨{ kind := 5 }, by decide +kernel⟩⟩

/-- The hypotheses of RadioCells can be met, clause by clause. -/
theorem witness_RadioCells :
    (∃ s : State, ∃ w : Fin 128, ∃ m : FapiMsg, ∃ e : Bool, ∃ i : Instr, (s.live = true) ∧ (i ∈ [Instr.fapiStart w e, .fapiStop w e, .fapiUnsupported w e, .dlTtiRequest w m, .ulTtiRequest w m, .ulDciRequest w m, .txDataRequest w m]) ∧ (s.frontCmd w 0x40 = none))
    ∧ (∃ s : State, ∃ w : Fin 128, ∃ c : Cmd, ∃ m : FapiMsg, ∃ e : Bool, ∃ i : Instr, (s.live = true) ∧ (i ∈ [Instr.fapiStart w e, .fapiStop w e, .fapiUnsupported w e, .dlTtiRequest w m, .ulTtiRequest w m, .ulDciRequest w m, .txDataRequest w m]) ∧ (s.frontCmd w 0x40 = some c) ∧ (s.hostAddr (s.cmdAddr w (c.at 8 8)) (c.at 0x10 4) = none))
    ∧ (∃ s : State, ∃ w : Fin 128, ∃ c : Cmd, let n := c.at 2 2; let x := s.cellOf n; (s.live = true) ∧ (s.frontCmd w 0x40 = some c) ∧ ((s.hostAddr (s.cmdAddr w (c.at 8 8)) (c.at 0x10 4)).isSome = true) ∧ (x.st = .stopped) ∧ (s.get f_CLK_TIME_STATE_STATE = 2))
    ∧ (∃ s : State, ∃ w : Fin 128, ∃ c : Cmd, let n := c.at 2 2; let x := s.cellOf n; (s.live = true) ∧ (s.frontCmd w 0x40 = some c) ∧ ((s.hostAddr (s.cmdAddr w (c.at 8 8)) (c.at 0x10 4)).isSome = true) ∧ (x.st ≠ .stopped ∨ s.get f_CLK_TIME_STATE_STATE ≠ 2))
    ∧ (∃ s : State, ∃ w : Fin 128, ∃ c : Cmd, let n := c.at 2 2; let x := s.cellOf n; (s.live = true) ∧ (s.frontCmd w 0x40 = some c) ∧ ((s.hostAddr (s.cmdAddr w (c.at 8 8)) (c.at 0x10 4)).isSome = true) ∧ (x.st = .running))
    ∧ (∃ s : State, ∃ w : Fin 128, ∃ c : Cmd, let n := c.at 2 2; let x := s.cellOf n; (s.live = true) ∧ (s.frontCmd w 0x40 = some c) ∧ ((s.hostAddr (s.cmdAddr w (c.at 8 8)) (c.at 0x10 4)).isSome = true) ∧ (x.st ≠ .running))
    ∧ (∃ s : State, ∃ w : Fin 128, ∃ c : Cmd, ∃ m : FapiMsg, ∃ i : Instr, ∃ upd : SlotReq → SlotReq, (s.live = true) ∧ (s.frontCmd w 0x40 = some c) ∧ ((s.hostAddr (s.cmdAddr w (c.at 8 8)) (c.at 0x10 4)).isSome = true) ∧ ((i = .dlTtiRequest w m ∧ upd = fun r => { r with dl := true, data := r.data || m.pdus.any (fun p => p.kind == .dlData || p.kind == .sunTx) }) ∨ (i = .ulTtiRequest w m ∧ upd = fun r => { r with ul := true, pdus := r.pdus ++ m.pdus }) ∨ (i = .ulDciRequest w m ∧ upd = fun r => { r with dci := true }) ∨ (i = .txDataRequest w m ∧ upd = fun r => { r with tx := true })) ∧ (m.err = true))
    ∧ (∃ s : State, ∃ w : Fin 128, ∃ c : Cmd, ∃ m : FapiMsg, ∃ i : Instr, ∃ upd : SlotReq → SlotReq, let n := c.at 2 2; (s.live = true) ∧ (s.frontCmd w 0x40 = some c) ∧ ((s.hostAddr (s.cmdAddr w (c.at 8 8)) (c.at 0x10 4)).isSome = true) ∧ ((i = .dlTtiRequest w m ∧ upd = fun r => { r with dl := true, data := r.data || m.pdus.any (fun p => p.kind == .dlData || p.kind == .sunTx) }) ∨ (i = .ulTtiRequest w m ∧ upd = fun r => { r with ul := true, pdus := r.pdus ++ m.pdus }) ∨ (i = .ulDciRequest w m ∧ upd = fun r => { r with dci := true }) ∨ (i = .txDataRequest w m ∧ upd = fun r => { r with tx := true })) ∧ (m.err = false) ∧ (s.cellCfg n = none ∨ m.bad = true))
    ∧ (∃ s : State, ∃ w : Fin 128, ∃ c : Cmd, ∃ m : FapiMsg, ∃ i : Instr, ∃ upd : SlotReq → SlotReq, ∃ g, let n := c.at 2 2; (s.live = true) ∧ (s.frontCmd w 0x40 = some c) ∧ ((s.hostAddr (s.cmdAddr w (c.at 8 8)) (c.at 0x10 4)).isSome = true) ∧ ((i = .dlTtiRequest w m ∧ upd = fun r => { r with dl := true, data := r.data || m.pdus.any (fun p => p.kind == .dlData || p.kind == .sunTx) }) ∨ (i = .ulTtiRequest w m ∧ upd = fun r => { r with ul := true, pdus := r.pdus ++ m.pdus }) ∨ (i = .ulDciRequest w m ∧ upd = fun r => { r with dci := true }) ∨ (i = .txDataRequest w m ∧ upd = fun r => { r with tx := true })) ∧ (m.err = false) ∧ (m.bad = false) ∧ (s.cellCfg n = some g) ∧ (s.frameExpo ≤ c.at 6 1 * max 1 g.slotExpo))
    ∧ (∃ s : State, ∃ w : Fin 128, ∃ c : Cmd, ∃ m : FapiMsg, ∃ i : Instr, ∃ upd : SlotReq → SlotReq, ∃ g, let n := c.at 2 2; let t0 := s.slotTick g (c.at 4 2) (c.at 6 1); let late : Prop := t0 ≤ (c.arrival : Int) + s.get f_RAD_CFG_REQ_LEAD; (s.live = true) ∧ (s.frontCmd w 0x40 = some c) ∧ ((s.hostAddr (s.cmdAddr w (c.at 8 8)) (c.at 0x10 4)).isSome = true) ∧ ((i = .dlTtiRequest w m ∧ upd = fun r => { r with dl := true, data := r.data || m.pdus.any (fun p => p.kind == .dlData || p.kind == .sunTx) }) ∨ (i = .ulTtiRequest w m ∧ upd = fun r => { r with ul := true, pdus := r.pdus ++ m.pdus }) ∨ (i = .ulDciRequest w m ∧ upd = fun r => { r with dci := true }) ∨ (i = .txDataRequest w m ∧ upd = fun r => { r with tx := true })) ∧ (m.err = false) ∧ (m.bad = false) ∧ (s.cellCfg n = some g) ∧ (c.at 6 1 * max 1 g.slotExpo < s.frameExpo) ∧ (late))
    ∧ (∃ s : State, ∃ w : Fin 128, ∃ c : Cmd, ∃ m : FapiMsg, ∃ i : Instr, ∃ upd : SlotReq → SlotReq, ∃ g, let n := c.at 2 2; let x := s.cellOf n; let t0 := s.slotTick g (c.at 4 2) (c.at 6 1); let late : Prop := t0 ≤ (c.arrival : Int) + s.get f_RAD_CFG_REQ_LEAD; (s.live = true) ∧ (s.frontCmd w 0x40 = some c) ∧ ((s.hostAddr (s.cmdAddr w (c.at 8 8)) (c.at 0x10 4)).isSome = true) ∧ ((i = .dlTtiRequest w m ∧ upd = fun r => { r with dl := true, data := r.data || m.pdus.any (fun p => p.kind == .dlData || p.kind == .sunTx) }) ∨ (i = .ulTtiRequest w m ∧ upd = fun r => { r with ul := true, pdus := r.pdus ++ m.pdus }) ∨ (i = .ulDciRequest w m ∧ upd = fun r => { r with dci := true }) ∨ (i = .txDataRequest w m ∧ upd = fun r => { r with tx := true })) ∧ (m.err = false) ∧ (m.bad = false) ∧ (s.cellCfg n = some g) ∧ (c.at 6 1 * max 1 g.slotExpo < s.frameExpo) ∧ (¬late) ∧ (s.cellRuns g x t0.toNat = false))
    ∧ (∃ s : State, ∃ w : Fin 128, ∃ c : Cmd, ∃ m : FapiMsg, ∃ i : Instr, ∃ upd : SlotReq → SlotReq, ∃ g, let n := c.at 2 2; let x := s.cellOf n; let t0 := s.slotTick g (c.at 4 2) (c.at 6 1); let late : Prop := t0 ≤ (c.arrival : Int) + s.get f_RAD_CFG_REQ_LEAD; (s.live = true) ∧ (s.frontCmd w 0x40 = some c) ∧ ((s.hostAddr (s.cmdAddr w (c.at 8 8)) (c.at 0x10 4)).isSome = true) ∧ ((i = .dlTtiRequest w m ∧ upd = fun r => { r with dl := true, data := r.data || m.pdus.any (fun p => p.kind == .dlData || p.kind == .sunTx) }) ∨ (i = .ulTtiRequest w m ∧ upd = fun r => { r with ul := true, pdus := r.pdus ++ m.pdus }) ∨ (i = .ulDciRequest w m ∧ upd = fun r => { r with dci := true }) ∨ (i = .txDataRequest w m ∧ upd = fun r => { r with tx := true })) ∧ (m.err = false) ∧ (m.bad = false) ∧ (s.cellCfg n = some g) ∧ (c.at 6 1 * max 1 g.slotExpo < s.frameExpo) ∧ (¬late) ∧ (s.cellRuns g x t0.toNat = true))
    ∧ (∃ s : State, ∃ g : CellCfg, ∃ sfn sl : Nat, let t0 := s.slotTick g sfn sl; (sfn < 1024) ∧ (sl * max 1 g.slotExpo < s.frameExpo) ∧ (0 ≤ t0))
    ∧ (∃ x : Cell, (x.st = .absent))
    ∧ (∃ x : Cell, (x.st = .running) ∧ (x.next = none))
    ∧ (∃ x : Cell, (x.st = .running) ∧ (x.next = some .stopped))
    ∧ (∃ x : Cell, (x.st = .stopped) ∧ (x.next = none))
    ∧ (∃ x : Cell, (x.st = .stopped) ∧ (x.next = some .running))
    ∧ (∃ x : Cell, (x.st = .migOut))
    ∧ (∃ x : Cell, (x.st = .migIn))
    ∧ (∃ s : State, ∃ w : Fin 128, ∃ c : Cmd, (s.live = true) ∧ (s.frontCmd w 0x41 = some c))
    ∧ (∃ s : State, ∃ v : BitVec 32, let ready : Prop := bitAt v.toNat 31 = true ∧ s.rad.mig = .idle; (s.live = true) ∧ (¬ready))
    ∧ (∃ s : State, ∃ v : BitVec 32, let n := v.toNat % 2048; let dst := bits v.toNat 23 12; let x := s.cellOf n; let ready : Prop := bitAt v.toNat 31 = true ∧ s.rad.mig = .idle; (s.live = true) ∧ (ready) ∧ (s.cellCfg n = none ∨ x.st ≠ .running ∨ dst = s.chipId))
    ∧ (∃ s : State, ∃ v : BitVec 32, ∃ g, let n := v.toNat % 2048; let dst := bits v.toNat 23 12; let x := s.cellOf n; let ready : Prop := bitAt v.toNat 31 = true ∧ s.rad.mig = .idle; (s.live = true) ∧ (ready) ∧ (s.cellCfg n = some g) ∧ (x.st = .running) ∧ (dst ≠ s.chipId) ∧ (s.canReach dst) ∧ (0 < s.frameExpo))
    ∧ (∃ s u : State, ∃ src : BitVec 12, ∃ k : Pkt, let n := k.srv.getD 1 0; let x := u.cellOf n; let ok : Prop := x.st = .stopped ∧ x.next = none ∧ u.get f_CLK_TIME_STATE_STATE = 2 ∧ ∃ g, u.cellCfg n = some g ∧ g.digest = k.srv.getD 2 0; (s.live = true) ∧ (s.valid = true) ∧ (s.takeReq src.toNat 8 (fun q => q.srv.getD 0 0 == 3) = some (k, u)) ∧ (u.newTag k) ∧ (ok))
    ∧ (∃ s u : State, ∃ src : BitVec 12, ∃ k : Pkt, let n := k.srv.getD 1 0; let x := u.cellOf n; let ok : Prop := x.st = .stopped ∧ x.next = none ∧ u.get f_CLK_TIME_STATE_STATE = 2 ∧ ∃ g, u.cellCfg n = some g ∧ g.digest = k.srv.getD 2 0; (s.live = true) ∧ (s.valid = true) ∧ (s.takeReq src.toNat 8 (fun q => q.srv.getD 0 0 == 3) = some (k, u)) ∧ (u.newTag k) ∧ (¬ok))
    ∧ (∃ s : State, ∃ n : BitVec 11, ∃ r : Req, ∃ st res : Nat, ∃ met : Bool, (s.live = true) ∧ (s.net.srvDone = [r]) ∧ (r.kind = 7) ∧ (r.done = some (st, res, met)) ∧ (s.rad.mig = .offered) ∧ (s.rad.migCell = n.toNat) ∧ ((s.cellOf n.toNat).st = .running) ∧ (st = 0 ∧ res = 1) ∧ (s.radioCopies = false))
    ∧ (∃ s : State, ∃ n : BitVec 11, ∃ r : Req, ∃ st res : Nat, ∃ met : Bool, (s.live = true) ∧ (s.net.srvDone = [r]) ∧ (r.kind = 7) ∧ (r.done = some (st, res, met)) ∧ (s.rad.mig = .offered) ∧ (s.rad.migCell = n.toNat) ∧ ((s.cellOf n.toNat).st = .running) ∧ (¬(st = 0 ∧ res = 1)))
    ∧ (∃ s : State, ∃ n : BitVec 11, let x := s.cellOf n.toNat; (s.live = true) ∧ (∀ r ∈ s.net.srvDone, r.kind ≠ 7) ∧ (x.st = .migOut) ∧ (s.rad.mig = .phase1) ∧ (s.rad.migCell = n.toNat) ∧ (s.radioCopies = true))
    ∧ (∃ s : State, ∃ n : BitVec 11, let x := s.cellOf n.toNat; (s.live = true) ∧ (∀ r ∈ s.net.srvDone, r.kind ≠ 7) ∧ (x.st = .migOut) ∧ (s.rad.mig = .phase1) ∧ (s.rad.migCell = n.toNat) ∧ (s.radioCopies = false))
    ∧ (∃ s : State, ∃ n : BitVec 11, let x := s.cellOf n.toNat; (s.live = true) ∧ (∀ r ∈ s.net.srvDone, r.kind ≠ 7) ∧ (x.st ≠ .migOut) ∧ (x.st ≠ .migIn))
    ∧ (∃ s : State, ∃ n : BitVec 11, let x := s.cellOf n.toNat; (s.live = true) ∧ (∀ r ∈ s.net.srvDone, r.kind ≠ 7) ∧ (s.tim.tick < x.migB))
    ∧ (∃ s : State, ∃ n : BitVec 11, let x := s.cellOf n.toNat; (s.live = true) ∧ (∀ r ∈ s.net.srvDone, r.kind ≠ 7) ∧ (x.migB ≤ s.tim.tick) ∧ (x.st = .migOut) ∧ (x.copied = true))
    ∧ (∃ s : State, ∃ n : BitVec 11, let x := s.cellOf n.toNat; (s.live = true) ∧ (∀ r ∈ s.net.srvDone, r.kind ≠ 7) ∧ (x.migB ≤ s.tim.tick) ∧ (x.st = .migOut) ∧ (x.copied = false))
    ∧ (∃ s : State, ∃ n : BitVec 11, let x := s.cellOf n.toNat; (s.live = true) ∧ (∀ r ∈ s.net.srvDone, r.kind ≠ 7) ∧ (x.migB ≤ s.tim.tick) ∧ (x.st = .migIn))
    ∧ (∃ s : State, ∃ n : BitVec 11, let source : Prop := s.rad.mig = .phase2 ∧ s.rad.migCell = n.toNat; (s.live = true) ∧ (source) ∧ (s.radioCopies = true))
    ∧ (∃ s : State, ∃ n : BitVec 11, let source : Prop := s.rad.mig = .phase2 ∧ s.rad.migCell = n.toNat; (s.live = true) ∧ (source) ∧ (s.radioCopies = false))
    ∧ (∃ s : State, ∃ n : BitVec 11, let x := s.cellOf n.toNat; let source : Prop := s.rad.mig = .phase2 ∧ s.rad.migCell = n.toNat; (s.live = true) ∧ (¬source) ∧ (x.st = .running) ∧ (x.harq = true))
    ∧ (∃ s : State, ∃ n : BitVec 11, let x := s.cellOf n.toNat; let source : Prop := s.rad.mig = .phase2 ∧ s.rad.migCell = n.toNat; (s.live = true) ∧ (¬source) ∧ (x.st ≠ .running ∨ x.harq = false))
    ∧ (∃ room : Nat, ∃ l : List Nat, (pdusIn room l < l.length))
    ∧ (∃ q : Nat, (1 ≤ q) ∧ (q ≤ 255))
    ∧ (∃ v : Int, (-32767 < v) ∧ (v ≤ 32767))
    ∧ (∃ ref : Nat, (ref = 0))
    ∧ (∃ ref : Nat, (ref ≠ 0))
    ∧ (∃ err ref : Nat, let r := evmOf err ref; (ref ≠ 0) ∧ (r < 65534)) :=
  ⟨⟨up, 127, {}, false, .fapiStart 127 false, by decide +kernel⟩,
   ⟨cmdW (rad1 {}) 127 0x40 [], 127, cmd1 0x40 [], {}, false, .fapiStart 127 false, by decide +kernel⟩,
   ⟨cmdW (rad1 { st := .stopped }) 127 0x40 (fapiB 0), 127, cmd1 0x40 (fapiB 0), by dsimp only; decide +kernel⟩,
   ⟨cmdW (rad1 {}) 127 0x40 (fapiB 0), 127, cmd1 0x40 (fapiB 0), by dsimp only; decide +kernel⟩,
   ⟨cmdW (rad1 { st := .running }) 127 0x40 (fapiB 0), 127, cmd1 0x40 (fapiB 0), by dsimp only; decide +kernel⟩,
   ⟨cmdW (rad1 { st := .stopped }) 127 0x40 (fapiB 0), 127, cmd1 0x40 (fapiB 0), by dsimp only; decide +kernel⟩,
   ⟨cmdW (rad1 { st := .running }) 127 0x40 (fapiB 0), 127, cmd1 0x40 (fapiB 0), { err := true }, .ulDciRequest 127 { err := true }, (fun r => { r with dci := true }), by dsimp only; exact ⟨by decide +kernel, by decide +kernel, by decide +kernel, .inr (.inr (.inl ⟨rfl, rfl⟩)), by decide +kernel⟩⟩,
   ⟨cmdW (rad1 { st := .running }) 127 0x40 (fapiB 0), 127, cmd1 0x40 (fapiB 0), { bad := true }, .ulDciRequest 127 { bad := true }, (fun r => { r with dci := true }), by dsimp only; exact ⟨by decide +kernel, by decide +kernel, by decide +kernel, .inr (.inr (.inl ⟨rfl, rfl⟩)), by decide +kernel, by decide +kernel⟩⟩,
   ⟨cmdW (rad1 { st := .running }) 127 0x40 ([(6, 20), (15, 0x80), (16, 4)]), 127, cmd1 0x40 ([(6, 20), (15, 0x80), (16, 4)]), {}, .ulDciRequest 127 {}, (fun r => { r with dci := true }), {}, by dsimp only; exact ⟨by decide +kernel, by decide +kernel, by decide +kernel, .inr (.inr (.inl ⟨rfl, rfl⟩)), by decide +kernel, by decide +kernel, by decide +kernel, by decide +kernel⟩⟩,
   ⟨cmdW (rad1 { st := .running }) 127 0x40 (fapiB 0), 127, cmd1 0x40 (fapiB 0), {}, .ulDciRequest 127 {}, (fun r => { r with dci := true }), {}, by dsimp only; exact ⟨by decide +kernel, by decide +kernel, by decide +kernel, .inr (.inr (.inl ⟨rfl, rfl⟩)), by decide +kernel, by decide +kernel, by decide +kernel, by decide +kernel, by decide +kernel⟩⟩,
   ⟨cmdW (rad1 { st := .stopped }) 127 0x40 (fapiB 10), 127, cmd1 0x40 (fapiB 10), {}, .ulDciRequest 127 {}, (fun r => { r with dci := true }), {}, by dsimp only; exact ⟨by decide +kernel, by decide +kernel, by decide +kernel, .inr (.inr (.inl ⟨rfl, rfl⟩)), by decide +kernel, by decide +kernel, by decide +kernel, by decide +kernel, by decide +kernel, by decide +kernel⟩⟩,
   ⟨cmdW (rad1 { st := .running }) 127 0x40 (fapiB 10), 127, cmd1 0x40 (fapiB 10), {}, .ulDciRequest 127 {}, (fun r => { r with dci := true }), {}, by dsimp only; exact ⟨by decide +kernel, by decide +kernel, by decide +kernel, .inr (.inr (.inl ⟨rfl, rfl⟩)), by decide +kernel, by decide +kernel, by decide +kernel, by decide +kernel, by decide +kernel, by decide +kernel⟩⟩,
   ⟨up, {}, 511, 19, by dsimp only; decide +kernel⟩,
   ⟨{}, by decide⟩,
   ⟨{ st := .running }, by decide⟩,
   ⟨{ st := .running, next := some .stopped }, by decide⟩,
   ⟨{ st := .stopped }, by decide⟩,
   ⟨{ st := .stopped, next := some .running }, by decide⟩,
   ⟨{ st := .migOut }, by decide⟩,
   ⟨{ st := .migIn }, by decide⟩,
   ⟨cmdW (up) 127 0x41 ([]), 127, cmd1 0x41 ([]), by decide +kernel⟩,
   ⟨up, 0x7FFFFFFF, by dsimp only; decide +kernel⟩,
   ⟨up, 0x80FFF7FF, by dsimp only; decide +kernel⟩,
   ⟨{ net1 with img := some { cells := [{}] }, rad := { cell := [(0, { st := .running })] } }, 0x80001000, {}, by decide +kernel, by decide +kernel, by decide +kernel, by decide +kernel, by decide +kernel, canReach_of (by decide +kernel), by decide +kernel⟩,
   ⟨inb { own1.put f_CLK_TIME_STATE_STATE 2 with img := some { cells := [{}] }, rad := { cell := [(0, { st := .stopped })] } } { src := 1, op := 8, sepoch := 5, srv := [3] }, nob { own1.put f_CLK_TIME_STATE_STATE 2 with img := some { cells := [{}] }, rad := { cell := [(0, { st := .stopped })] } }, 1, { src := 1, op := 8, sepoch := 5, srv := [3] }, by decide +kernel, by decide +kernel, by decide +kernel, by unfold State.newTag State.epochNow; decide +kernel, ⟨by decide +kernel, by decide +kernel, by decide +kernel, {}, by decide +kernel, by decide +kernel⟩⟩,
   ⟨inb own1 { src := 1, op := 8, sepoch := 5, srv := [3] }, nob own1, 1, { src := 1, op := 8, sepoch := 5, srv := [3] }, by decide +kernel, by decide +kernel, by decide +kernel, by unfold State.newTag State.epochNow; decide +kernel, fun h => absurd h.1 (by decide +kernel)⟩,
   ⟨{ up with rad := { cell := [(2047, { st := .running })], mig := .offered, migCell := 2047 }, net := { srvDone := [{ kind := 7, done := some (0, 1, false) }] } }, 2047, { kind := 7, done := some (0, 1, false) }, 0, 1, false, by decide +kernel⟩,
   ⟨{ up with rad := { cell := [(2047, { st := .running })], mig := .offered, migCell := 2047 }, net := { srvDone := [{ kind := 7, done := some (0, 0, false) }] } }, 2047, { kind := 7, done := some (0, 0, false) }, 0, 0, false, by decide +kernel⟩,
   ⟨{ up with rad := { cell := [(2047, { st := .migOut })], mig := .phase1, migCell := 2047 }, ms := { bulkQ := [(31, [{ sub := .radio }])] } }, 2047, by dsimp only; decide +kernel⟩,
   ⟨{ up with rad := { cell := [(2047, { st := .migOut })], mig := .phase1, migCell := 2047 } }, 2047, by dsimp only; decide +kernel⟩,
   ⟨{ up with rad := { cell := [(2047, { st := .stopped })] } }, 2047, by dsimp only; decide +kernel⟩,
   ⟨{ up with rad := { cell := [(2047, { st := .migOut, migB := 1 })] } }, 2047, by dsimp only; decide +kernel⟩,
   ⟨{ up with rad := { cell := [(2047, { st := .migOut, copied := true })] } }, 2047, by dsimp only; decide +kernel⟩,
   ⟨{ up with rad := { cell := [(2047, { st := .migOut })] } }, 2047, by dsimp only; decide +kernel⟩,
   ⟨{ up with rad := { cell := [(2047, { st := .migIn })] } }, 2047, by dsimp only; decide +kernel⟩,
   ⟨{ up with rad := { cell := [(2047, {})], mig := .phase2, migCell := 2047 }, ms := { bulkQ := [(31, [{ sub := .radio }])] } }, 2047, by dsimp only; decide +kernel⟩,
   ⟨{ up with rad := { cell := [(2047, {})], mig := .phase2, migCell := 2047 } }, 2047, by dsimp only; decide +kernel⟩,
   ⟨{ up with rad := { cell := [(2047, { st := .running, harq := true })], mig := .phase2, migCell := 2046 } }, 2047, by dsimp only; decide +kernel⟩,
   ⟨{ up with rad := { cell := [(2047, { st := .running })], mig := .phase1, migCell := 2047 } }, 2047, by dsimp only; decide +kernel⟩,
   ⟨0, [1], by decide +kernel⟩,
   ⟨255, by decide +kernel⟩,
   ⟨32767, by decide +kernel⟩,
   ⟨0, by decide +kernel⟩,
   ⟨1, by decide +kernel⟩,
   ⟨1, 2, by dsimp only; decide +kernel⟩⟩

/-- The hypotheses of FronthaulAndPtp can be met, clause by clause. -/
theorem witness_FronthaulAndPtp :
    (∃ s : State, ∃ sub : Fin 32, ∃ f : EthFrame, let bad : Prop := f.fcsOk = false ∨ f.len < 64 ∨ 9216 < f.len ∨ 1 < f.tags ∨ f.load = .pause; (s.live = true) ∧ (s.subUp sub = true) ∧ (bad))
    ∧ (∃ s : State, ∃ sub : Fin 32, ∃ f : EthFrame, let bad : Prop := f.fcsOk = false ∨ f.len < 64 ∨ 9216 < f.len ∨ 1 < f.tags ∨ f.load = .pause; let ok : Prop := s.subUp sub = true ∧ ¬bad; let slave : Prop := f.dst = 0x0180C200000E ∨ (f.dst = 0x011B19000000 ∧ s.ptpSub sub = true); let toMgr : Prop := f.load = .esmc ∨ (s.ownMac f.dst = true ∧ (f.load = .other ∨ (∃ m, f.load = .ecpri m ∧ s.eaxcCell m.eaxc = none) ∨ ∃ m, f.load = .ptp m ∧ ¬slave)); (s.live = true) ∧ (ok) ∧ (toMgr) ∧ (s.fh.mrx.length + (f.len + 7) / 8 + 1 ≤ 4096))
    ∧ (∃ s : State, ∃ sub : Fin 32, ∃ f : EthFrame, let bad : Prop := f.fcsOk = false ∨ f.len < 64 ∨ 9216 < f.len ∨ 1 < f.tags ∨ f.load = .pause; let ok : Prop := s.subUp sub = true ∧ ¬bad; let slave : Prop := f.dst = 0x0180C200000E ∨ (f.dst = 0x011B19000000 ∧ s.ptpSub sub = true); let toMgr : Prop := f.load = .esmc ∨ (s.ownMac f.dst = true ∧ (f.load = .other ∨ (∃ m, f.load = .ecpri m ∧ s.eaxcCell m.eaxc = none) ∨ ∃ m, f.load = .ptp m ∧ ¬slave)); (s.live = true) ∧ (ok) ∧ (toMgr) ∧ (4096 < s.fh.mrx.length + (f.len + 7) / 8 + 1))
    ∧ (∃ s : State, ∃ sub : Fin 32, ∃ f : EthFrame, let bad : Prop := f.fcsOk = false ∨ f.len < 64 ∨ 9216 < f.len ∨ 1 < f.tags ∨ f.load = .pause; let row := (s.imgList (·.fwd)).find? (fun x => x.mac == f.dst && x.vlan == f.vlan); let ok : Prop := s.subUp sub = true ∧ ¬bad; let slave : Prop := f.dst = 0x0180C200000E ∨ (f.dst = 0x011B19000000 ∧ s.ptpSub sub = true); let switched : Prop := s.ownMac f.dst = false ∧ (f.load = .other ∨ (∃ m, f.load = .ecpri m) ∨ ∃ m, f.load = .ptp m ∧ ¬slave); (s.live = true) ∧ (ok) ∧ (switched) ∧ (row = none))
    ∧ (∃ s : State, ∃ sub : Fin 32, ∃ f : EthFrame, ∃ x, let bad : Prop := f.fcsOk = false ∨ f.len < 64 ∨ 9216 < f.len ∨ 1 < f.tags ∨ f.load = .pause; let row := (s.imgList (·.fwd)).find? (fun x => x.mac == f.dst && x.vlan == f.vlan); let ok : Prop := s.subUp sub = true ∧ ¬bad; let slave : Prop := f.dst = 0x0180C200000E ∨ (f.dst = 0x011B19000000 ∧ s.ptpSub sub = true); let switched : Prop := s.ownMac f.dst = false ∧ (f.load = .other ∨ (∃ m, f.load = .ecpri m) ∨ ∃ m, f.load = .ptp m ∧ ¬slave); (s.live = true) ∧ (ok) ∧ (switched) ∧ (row = some x))
    ∧ (∃ s : State, ∃ sub : Fin 32, ∃ f : EthFrame, ∃ m, let bad : Prop := f.fcsOk = false ∨ f.len < 64 ∨ 9216 < f.len ∨ 1 < f.tags ∨ f.load = .pause; let ok : Prop := s.subUp sub = true ∧ ¬bad; let listed (m : EcpriMsg) : Prop := m.ok = true ∧ m.rev = 1 ∧ m.conc = false ∧ m.ebit = true ∧ m.subseq = 0 ∧ m.typ ∈ [0, 2, 5] ∧ (m.typ = 0 → if m.bfp then m.iqWidth ∈ [6, 7, 8, 9, 10, 12, 14, 16] else m.iqWidth = 16) ∧ (m.typ = 2 → m.sec ∈ [0, 1, 3]); (s.live = true) ∧ (ok) ∧ (f.load = .ecpri m) ∧ (s.ownMac f.dst = true) ∧ ((s.eaxcCell m.eaxc).isSome = true) ∧ (¬listed m))
    ∧ (∃ s : State, ∃ sub : Fin 32, ∃ f : EthFrame, ∃ m, let bad : Prop := f.fcsOk = false ∨ f.len < 64 ∨ 9216 < f.len ∨ 1 < f.tags ∨ f.load = .pause; let ok : Prop := s.subUp sub = true ∧ ¬bad; let listed (m : EcpriMsg) : Prop := m.ok = true ∧ m.rev = 1 ∧ m.conc = false ∧ m.ebit = true ∧ m.subseq = 0 ∧ m.typ ∈ [0, 2, 5] ∧ (m.typ = 0 → if m.bfp then m.iqWidth ∈ [6, 7, 8, 9, 10, 12, 14, 16] else m.iqWidth = 16) ∧ (m.typ = 2 → m.sec ∈ [0, 1, 3]); (s.live = true) ∧ (ok) ∧ (f.load = .ecpri m) ∧ (s.ownMac f.dst = true) ∧ ((s.eaxcCell m.eaxc).isSome = true) ∧ (listed m) ∧ (m.typ = 5))
    ∧ (∃ s : State, ∃ sub : Fin 32, ∃ f : EthFrame, ∃ m, let bad : Prop := f.fcsOk = false ∨ f.len < 64 ∨ 9216 < f.len ∨ 1 < f.tags ∨ f.load = .pause; let ok : Prop := s.subUp sub = true ∧ ¬bad; let listed (m : EcpriMsg) : Prop := m.ok = true ∧ m.rev = 1 ∧ m.conc = false ∧ m.ebit = true ∧ m.subseq = 0 ∧ m.typ ∈ [0, 2, 5] ∧ (m.typ = 0 → if m.bfp then m.iqWidth ∈ [6, 7, 8, 9, 10, 12, 14, 16] else m.iqWidth = 16) ∧ (m.typ = 2 → m.sec ∈ [0, 1, 3]); (s.live = true) ∧ (ok) ∧ (f.load = .ecpri m) ∧ (s.ownMac f.dst = true) ∧ ((s.eaxcCell m.eaxc).isSome = true) ∧ (listed m) ∧ (m.typ ≠ 5))
    ∧ (∃ s : State, ∃ sub : Fin 32, ∃ f : EthFrame, ∃ m, let bad : Prop := f.fcsOk = false ∨ f.len < 64 ∨ 9216 < f.len ∨ 1 < f.tags ∨ f.load = .pause; let ok : Prop := s.subUp sub = true ∧ ¬bad; let slave : Prop := f.dst = 0x0180C200000E ∨ (f.dst = 0x011B19000000 ∧ s.ptpSub sub = true); (s.live = true) ∧ (ok) ∧ (f.load = .ptp m) ∧ (slave))
    ∧ (∃ s : State, ∃ sub t0 : Nat, ∃ m : EcpriMsg, ∃ rest : List (Nat × EcpriMsg × Nat), let inside : Prop := s.isLane m.eaxc = true ∨ ∀ x, (s.imgList (·.eaxcs)).find? (fun e => e.id == m.eaxc) = some x → m.air + x.ta4Min ≤ t0 ∧ t0 ≤ m.air + x.ta4Max; (s.live = true) ∧ (s.fh.rxU = (sub, m, t0) :: rest) ∧ (¬inside))
    ∧ (∃ s : State, ∃ sub t0 : Nat, ∃ m : EcpriMsg, ∃ rest : List (Nat × EcpriMsg × Nat), let inside : Prop := s.isLane m.eaxc = true ∨ ∀ x, (s.imgList (·.eaxcs)).find? (fun e => e.id == m.eaxc) = some x → m.air + x.ta4Min ≤ t0 ∧ t0 ≤ m.air + x.ta4Max; let v := m.prbs.flatMap (fun p => p.mant.map (fun q => q * 2 ^ p.exp)); let staged : Prop := s.partReach 0 true m.addr (2 * v.length) = true; (s.live = true) ∧ (s.fh.rxU = (sub, m, t0) :: rest) ∧ (inside) ∧ (v = [] ∨ ¬staged))
    ∧ (∃ s : State, ∃ sub t0 : Nat, ∃ m : EcpriMsg, ∃ rest : List (Nat × EcpriMsg × Nat), let inside : Prop := s.isLane m.eaxc = true ∨ ∀ x, (s.imgList (·.eaxcs)).find? (fun e => e.id == m.eaxc) = some x → m.air + x.ta4Min ≤ t0 ∧ t0 ≤ m.air + x.ta4Max; let v := m.prbs.flatMap (fun p => p.mant.map (fun q => q * 2 ^ p.exp)); let staged : Prop := s.partReach 0 true m.addr (2 * v.length) = true; (s.live = true) ∧ (s.fh.rxU = (sub, m, t0) :: rest) ∧ (inside) ∧ (v ≠ []) ∧ (staged) ∧ (s.writable m.addr (2 * v.length)))
    ∧ (∃ w : Nat, ∃ l : List Int, ∃ p : UPrb, ∃ e, (UPrb.compress w l = some p) ∧ (e < p.exp))
    ∧ (∃ s : State, (s.fh.rxU = []))
    ∧ (∃ s : State, ∃ m : FhMsg, ∃ x : EaxcCfg, ∃ k, ((s.imgList (·.eaxcs)).find? (fun x => x.id == m.eaxc) = some x) ∧ (k ≠ x.id))
    ∧ (∃ s : State, (s.boot.por = true))
    ∧ (∃ s : State, ∃ req : Fin 4, (s.boot.por = false) ∧ (s.live = false ∨ s.stage ≠ 7 ∨ req.val / 2 ≠ s.get f_HST_ROLE_MGR_PORT))
    ∧ (∃ s : State, ∃ req : Fin 4, (s.boot.por = false) ∧ (s.live = true) ∧ (s.stage = 7) ∧ (req.val / 2 = s.get f_HST_ROLE_MGR_PORT) ∧ (s.fh.mrx = []))
    ∧ (∃ s : State, ∃ req : Fin 4, ∃ w first rest, (s.boot.por = false) ∧ (s.live = true) ∧ (s.stage = 7) ∧ (req.val / 2 = s.get f_HST_ROLE_MGR_PORT) ∧ (s.fh.mrx = (w, first) :: rest) ∧ (rest.length < 4096))
    ∧ (∃ s : State, ∃ e : Nat × PtpMsg × Int, ∃ d : Nat, (s.live = true) ∧ (s.fh.rxP.find? (fun x => x.2.1.typ == .sync) = some e) ∧ (s.domFor e.1 e.2.1.domain = some d) ∧ (d < 2))
    ∧ (∃ s : State, ∃ typ : PtpTyp, ∃ i : Instr, (s.live = true) ∧ ((typ = .sync ∧ i = .ptpSyncReceive) ∨ (typ = .followUp ∧ i = .ptpFollowUpReceive) ∨ (typ = .delayResp ∧ i = .ptpDelayRespReceive) ∨ (typ = .announce ∧ i = .ptpAnnounceReceive)) ∧ (s.fh.rxP.find? (fun x => x.2.1.typ == typ) = none))
    ∧ (∃ s : State, ∃ typ : PtpTyp, ∃ i : Instr, ∃ e, (s.live = true) ∧ ((typ = .sync ∧ i = .ptpSyncReceive) ∨ (typ = .followUp ∧ i = .ptpFollowUpReceive) ∨ (typ = .delayResp ∧ i = .ptpDelayRespReceive) ∨ (typ = .announce ∧ i = .ptpAnnounceReceive)) ∧ (s.fh.rxP.find? (fun x => x.2.1.typ == typ) = some e) ∧ (s.domFor e.1 e.2.1.domain = none))
    ∧ (∃ s : State, ∃ e : Nat × PtpMsg × Int, ∃ d : Nat, ∃ seq t2 cf, let m := e.2.1; let x := s.domOf d; (s.live = true) ∧ (s.fh.rxP.find? (fun x => x.2.1.typ == .followUp) = some e) ∧ (s.domFor e.1 e.2.1.domain = some d) ∧ (d < 2) ∧ (x.pend = some (seq, t2, cf)) ∧ (seq = m.seq) ∧ (e.1 = s.domPort d) ∧ (x.sm = none))
    ∧ (∃ s : State, ∃ e : Nat × PtpMsg × Int, ∃ d : Nat, ∃ seq t2 cf sm, let m := e.2.1; let x := s.domOf d; (s.live = true) ∧ (s.fh.rxP.find? (fun x => x.2.1.typ == .followUp) = some e) ∧ (s.domFor e.1 e.2.1.domain = some d) ∧ (d < 2) ∧ (x.pend = some (seq, t2, cf)) ∧ (seq = m.seq) ∧ (e.1 = s.domPort d) ∧ (x.sm = some sm))
    ∧ (∃ s : State, ∃ e : Nat × PtpMsg × Int, ∃ d : Nat, let m := e.2.1; let x := s.domOf d; (s.live = true) ∧ (s.fh.rxP.find? (fun x => x.2.1.typ == .followUp) = some e) ∧ (s.domFor e.1 e.2.1.domain = some d) ∧ (d < 2) ∧ (e.1 ≠ s.domPort d ∨ (∀ y, x.pend = some y → y.1 ≠ m.seq)))
    ∧ (∃ s : State, ∃ e : Nat × PtpMsg × Int, ∃ d : Nat, ∃ seq t3, let m := e.2.1; let fits : Prop := m.mine = true ∧ e.1 = s.domPort d ∧ ∃ y, (s.domOf d).t3 = some y ∧ y.1 = m.seq; (s.live = true) ∧ (s.fh.rxP.find? (fun x => x.2.1.typ == .delayResp) = some e) ∧ (s.domFor e.1 e.2.1.domain = some d) ∧ (fits) ∧ ((s.domOf d).t3 = some (seq, t3)))
    ∧ (∃ s : State, ∃ e : Nat × PtpMsg × Int, ∃ d : Nat, let m := e.2.1; let fits : Prop := m.mine = true ∧ e.1 = s.domPort d ∧ ∃ y, (s.domOf d).t3 = some y ∧ y.1 = m.seq; (s.live = true) ∧ (s.fh.rxP.find? (fun x => x.2.1.typ == .delayResp) = some e) ∧ (s.domFor e.1 e.2.1.domain = some d) ∧ (¬fits))
    ∧ (∃ s : State, ∃ e : Nat × PtpMsg × Int, ∃ d : Nat, (s.live = true) ∧ (s.fh.rxP.find? (fun x => x.2.1.typ == .announce) = some e) ∧ (s.domFor e.1 e.2.1.domain = some d) ∧ (d < 2))
    ∧ (∃ s : State, ∃ d : Fin 2, let sub := s.domPort d; let may : Prop := d.val < (s.imgList (·.doms)).length ∧ s.subUp sub = true; (s.live = true) ∧ (may))
    ∧ (∃ s : State, ∃ d : Fin 2, let sub := s.domPort d; let may : Prop := d.val < (s.imgList (·.doms)).length ∧ s.subUp sub = true; (s.live = true) ∧ (¬may))
    ∧ (∃ s : State, let hold := s.get f_PTP_DOM_CFG_REVERT_S * 1000000000; let stays (d : Nat) : Prop := s.get (f_PTP_DOM_ON_BACKUP d) = 0 ∨ s.subUp (s.get (f_PTP_DOM_PORT d)) = false ∨ s.ptpFresh (s.domOf d).slave = false ∨ s.now < (s.domOf d).slave.since + hold; let p := s.get f_PTP_DOM_CFG_PREFERRED; (s.live = true) ∧ (∀ d, d < (s.imgList (·.doms)).length → stays d) ∧ (s.get f_PTP_DOM_CFG_MANUAL = 0) ∧ (s.get (f_PTP_DOM_VALID p) = 1) ∧ ((s.domOf p).validAt + hold ≤ s.now) ∧ (s.get f_PTP_DOM_CFG_ACTIVE ≠ p))
    ∧ (∃ s : State, let hold := s.get f_PTP_DOM_CFG_REVERT_S * 1000000000; let stays (d : Nat) : Prop := s.get (f_PTP_DOM_ON_BACKUP d) = 0 ∨ s.subUp (s.get (f_PTP_DOM_PORT d)) = false ∨ s.ptpFresh (s.domOf d).slave = false ∨ s.now < (s.domOf d).slave.since + hold; let p := s.get f_PTP_DOM_CFG_PREFERRED; (s.live = true) ∧ (∀ d, d < (s.imgList (·.doms)).length → stays d) ∧ (s.get f_PTP_DOM_CFG_MANUAL = 0) ∧ (s.get (f_PTP_DOM_VALID p) = 0 ∨ s.now < (s.domOf p).validAt + hold))
    ∧ (∃ s : State, let hold := s.get f_PTP_DOM_CFG_REVERT_S * 1000000000; let stays (d : Nat) : Prop := s.get (f_PTP_DOM_ON_BACKUP d) = 0 ∨ s.subUp (s.get (f_PTP_DOM_PORT d)) = false ∨ s.ptpFresh (s.domOf d).slave = false ∨ s.now < (s.domOf d).slave.since + hold; (s.live = true) ∧ (∀ d, d < (s.imgList (·.doms)).length → stays d) ∧ (s.get f_PTP_DOM_CFG_MANUAL = 1) ∧ (s.get (f_PTP_DOM_VALID (s.get f_PTP_DOM_CFG_SELECT)) = 1))
    ∧ (∃ s : State, let hold := s.get f_PTP_DOM_CFG_REVERT_S * 1000000000; let stays (d : Nat) : Prop := s.get (f_PTP_DOM_ON_BACKUP d) = 0 ∨ s.subUp (s.get (f_PTP_DOM_PORT d)) = false ∨ s.ptpFresh (s.domOf d).slave = false ∨ s.now < (s.domOf d).slave.since + hold; (s.live = true) ∧ (∀ d, d < (s.imgList (·.doms)).length → stays d) ∧ (s.get f_PTP_DOM_CFG_MANUAL = 1) ∧ (s.get (f_PTP_DOM_VALID (s.get f_PTP_DOM_CFG_SELECT)) = 0))
    ∧ (∃ s : State, ∃ d, let hold := s.get f_PTP_DOM_CFG_REVERT_S * 1000000000; let stays (d : Nat) : Prop := s.get (f_PTP_DOM_ON_BACKUP d) = 0 ∨ s.subUp (s.get (f_PTP_DOM_PORT d)) = false ∨ s.ptpFresh (s.domOf d).slave = false ∨ s.now < (s.domOf d).slave.since + hold; (s.live = true) ∧ ((s.imgList (·.doms)).length ≤ 2) ∧ (d < (s.imgList (·.doms)).length) ∧ (¬stays d))
    ∧ (∃ s : State, ∃ sub : Fin 32, (s.live = true) ∧ ((s.imgList (·.doms)).length ≤ 2) ∧ (s.subUp sub = false))
    ∧ (∃ s : State, ∃ sub : Fin 32, (s.live = true) ∧ ((s.imgList (·.doms)).length ≤ 2) ∧ (s.subUp sub = true))
    ∧ (∃ s : State, ∃ sub : Fin 32, (s.live = true) ∧ ((s.imgList (·.doms)).length ≤ 2) ∧ (s.subUsed sub = false))
    ∧ (∃ s : State, ∃ sub : Fin 32, (s.live = true) ∧ ((s.imgList (·.doms)).length ≤ 2) ∧ (s.subUsed sub = true)) :=
  ⟨⟨fh1 {}, 31, { len := 63 }, by dsimp only; decide +kernel⟩,
   ⟨fh1 {}, 31, { len := 9216, tags := 1, load := .esmc }, by decide +kernel, by decide +kernel, Or.inl rfl, by decide +kernel⟩,
   ⟨frx 4088, 31, { load := .esmc }, by decide +kernel, by decide +kernel, Or.inl rfl, (by simp only [frx_len]; decide)⟩,
   ⟨fh1 {}, 31, { dst := 6 }, by decide +kernel, by decide +kernel, ⟨by decide +kernel, Or.inl rfl⟩, by decide +kernel⟩,
   ⟨fh1 {}, 31, { dst := 5 }, { mac := 5 }, by decide +kernel, by decide +kernel, ⟨by decide +kernel, Or.inl rfl⟩, by decide +kernel⟩,
   ⟨fh1 {}, 31, { dst := 0xABCDEF, load := .ecpri { ok := false, eaxc := 9 } }, { ok := false, eaxc := 9 }, by dsimp only; decide +kernel⟩,
   ⟨fh1 {}, 31, { dst := 0xABCDEF, load := .ecpri { eaxc := 9, typ := 5 } }, { eaxc := 9, typ := 5 }, by dsimp only; decide +kernel⟩,
   ⟨fh1 {}, 31, { dst := 0xABCDEF, load := .ecpri { eaxc := 9 } }, { eaxc := 9 }, by dsimp only; decide +kernel⟩,
   ⟨fh1 {}, 31, { dst := 0x0180C200000E, load := .ptp { typ := .pdelayReq } }, { typ := .pdelayReq }, by dsimp only; decide +kernel⟩,
   ⟨fh1 { rxU := [(31, { eaxc := 9 }, 2001)] }, 31, 2001, { eaxc := 9 }, [], by decide +kernel, by decide +kernel, by exact fun h => h.elim (fun a => absurd a (by decide +kernel)) (fun h => absurd (h ea9 (by decide +kernel)) (by decide))⟩,
   ⟨fh1 { rxU := [(31, { eaxc := 9, addr := 0x3FFFFFFC, prbs := [{ exp := 15, mant := [1, -2] }] }, 2000)] }, 31, 2000, { eaxc := 9, addr := 0x3FFFFFFC, prbs := [{ exp := 15, mant := [1, -2] }] }, [], by decide +kernel, by decide +kernel, by exact Or.inr (fun x h => (by cases fh1_ea h; decide)), by decide +kernel⟩,
   ⟨{ ram with fh := { rxU := [(31, { eaxc := 9, addr := 0x02000FFFFFFC, prbs := [{ exp := 15, mant := [1, -2] }] }, 2000)] }, img := some { cells := [{ cell := 9, rat := 2 }], radioBanks := [511] } }, 31, 2000, { eaxc := 9, addr := 0x02000FFFFFFC, prbs := [{ exp := 15, mant := [1, -2] }] }, [], by decide +kernel, by decide +kernel, by exact Or.inl (by decide +kernel), by decide +kernel, by decide +kernel, by unfold State.writable State.plain; decide +kernel⟩,
   ⟨9, [256], { exp := 1, mant := [128] }, 0, by decide +kernel⟩,
   ⟨up, by decide +kernel⟩,
   ⟨fh1 {}, { eaxc := 9 }, ea9, 8, by decide +kernel⟩,
   ⟨off, by decide +kernel⟩,
   ⟨up, 3, by decide +kernel⟩,
   ⟨up, 1, by decide +kernel⟩,
   ⟨{ up with fh := { mrx := [(5, true)] } }, 0, 5, true, [], by decide +kernel⟩,
   ⟨fh1 { rxP := [(31, { typ := .sync, domain := 25 }, 5)] }, (31, { typ := .sync, domain := 25 }, 5), 1, by decide +kernel⟩,
   ⟨fh1 {}, .followUp, .ptpFollowUpReceive, by decide +kernel⟩,
   ⟨fh1 { rxP := [(31, { typ := .delayResp, domain := 26 }, 5)] }, .delayResp, .ptpDelayRespReceive, (31, { typ := .delayResp, domain := 26 }, 5), by decide +kernel⟩,
   ⟨fh1 { rxP := [(31, { typ := .followUp, domain := 24, seq := 7 }, 5)], dom := [(0, { pend := some (7, 100, 3) })] }, (31, { typ := .followUp, domain := 24, seq := 7 }, 5), 0, 7, 100, 3, by dsimp only; decide +kernel⟩,
   ⟨fh1 { rxP := [(31, { typ := .followUp, domain := 24, seq := 7 }, 5)], dom := [(0, { pend := some (7, 100, 3), sm := some 5 })] }, (31, { typ := .followUp, domain := 24, seq := 7 }, 5), 0, 7, 100, 3, 5, by dsimp only; decide +kernel⟩,
   ⟨fh1 { rxP := [(31, { typ := .followUp, domain := 25 }, 5)] }, (31, { typ := .followUp, domain := 25 }, 5), 1, by decide +kernel, by decide +kernel, by decide +kernel, by decide +kernel, Or.inr (fun y h => (nomatch h))⟩,
   ⟨fh1 { rxP := [(31, { typ := .delayResp, domain := 24, seq := 7, mine := true }, 5)], dom := [(0, { t3 := some (7, 50) })] }, (31, { typ := .delayResp, domain := 24, seq := 7, mine := true }, 5), 0, 7, 50, by decide +kernel, by decide +kernel, by decide +kernel, ⟨by decide, by decide +kernel, (7, 50), by decide +kernel, by decide⟩, by decide +kernel⟩,
   ⟨fh1 { rxP := [(31, { typ := .delayResp, domain := 24, seq := 8 }, 5)] }, (31, { typ := .delayResp, domain := 24, seq := 8 }, 5), 0, by decide +kernel, by decide +kernel, by decide +kernel, fun h => absurd h.1 (by decide)⟩,
   ⟨fh1 { rxP := [(31, { typ := .announce, domain := 25 }, 5)] }, (31, { typ := .announce, domain := 25 }, 5), 1, by decide +kernel⟩,
   ⟨fh1 {}, 1, by dsimp only; decide +kernel⟩,
   ⟨up, 1, by dsimp only; decide +kernel⟩,
   ⟨{ withF up [(f_PTP_DOM_CFG_PREFERRED, 1), (f_PTP_DOM_VALID 1, 1), (f_PTP_DOM_CFG_ACTIVE, 0)] with tim := { tb := 2 ^ 50 } }, by dsimp only; decide +kernel⟩,
   ⟨fh1 {}, by dsimp only; decide +kernel⟩,
   ⟨withF (fh1 {}) [(f_PTP_DOM_CFG_MANUAL, 1), (f_PTP_DOM_CFG_SELECT, 1), (f_PTP_DOM_VALID 1, 1)], by dsimp only; decide +kernel⟩,
   ⟨withF (fh1 {}) [(f_PTP_DOM_CFG_MANUAL, 1), (f_PTP_DOM_CFG_SELECT, 1)], by dsimp only; decide +kernel⟩,
   ⟨{ withF (fh1 { dom := [(1, { slave := { ann := some (2 ^ 50), sync := some (2 ^ 50) } })] }) [(f_PTP_DOM_ON_BACKUP 1, 1)] with tim := { tb := 2 ^ 50 } }, 1, by dsimp only; decide +kernel⟩,
   ⟨up, 31, by decide +kernel⟩,
   ⟨fh1 {}, 31, by decide +kernel⟩,
   ⟨up, 31, by decide +kernel⟩,
   ⟨withF up [(f_FH_PORT_MODE 7, 4)], 31, by decide +kernel⟩⟩

/-- The hypotheses of CalendarShaper can be met, clause by clause. -/
theorem witness_CalendarShaper :
    (∃ x : TmQ, ∃ it : TmItem, ∃ rest : List TmItem, (x.shaper = 2) ∧ (x.items = it :: rest) ∧ (∀ k, it.load ≠ .pkt k))
    ∧ (∃ x : TmQ, ∃ it : TmItem, ∃ rest : List TmItem, ∃ k, (x.shaper = 2) ∧ (x.items = it :: rest) ∧ (it.load = .pkt k))
    ∧ (∃ s : State, ∃ e : Fin 56, ∃ eg i : Nat, ∃ it : TmItem, ∃ rest : List TmItem, ∃ f : EthFrame, let u := s.atNs (eg / 65536); let x := s.tmQ e i; (s.live = true) ∧ (u.tmPick e = some i) ∧ (x.items = it :: rest) ∧ (it.load = .frame f) ∧ (x.shaper = 2) ∧ (0 < x.rate)) :=
  ⟨⟨{ shaper := 2, items := [{ load := .frame {} }] }, { load := .frame {} }, [], by decide +kernel, by decide +kernel, fun k h => (nomatch h)⟩,
   ⟨{ shaper := 2, items := [{ load := .pkt {} }] }, { load := .pkt {} }, [], {}, by decide +kernel⟩,
   ⟨tmq up 31 7 { shaper := 2, rate := 1, items := [{ load := .frame {}, len := 64 }] }, 31, 0, 7, { load := .frame {}, len := 64 }, [], {}, by dsimp only; decide +kernel⟩⟩

/-- The hypotheses of TrafficManager can be met, clause by clause. -/
theorem witness_TrafficManager :
    (∃ s : State, ∃ e : Fin 56, ∃ i : Fin 8, (s.live = true) ∧ (s.tm.inb.find? (fun x => x.1 == e.val && x.2.1 == i.val && decide (x.2.2.notBefore ≤ s.now)) = none))
    ∧ (∃ s : State, ∃ e : Fin 56, ∃ i : Fin 8, ∃ y : Nat × Nat × TmItem, let it := y.2.2; let x := (s.tmQ e i).upTo e s.now; let ovr : Prop := e.val < 32 ∧ x.limit * 1024 < x.depth + it.len; (s.live = true) ∧ (s.tm.inb.find? (fun x => x.1 == e.val && x.2.1 == i.val && decide (x.2.2.notBefore ≤ s.now)) = some y) ∧ (ovr))
    ∧ (∃ s : State, ∃ e : Fin 56, ∃ i : Fin 8, ∃ y : Nat × Nat × TmItem, let it := y.2.2; let x := (s.tmQ e i).upTo e s.now; let ovr : Prop := e.val < 32 ∧ x.limit * 1024 < x.depth + it.len; (s.live = true) ∧ (s.tm.inb.find? (fun x => x.1 == e.val && x.2.1 == i.val && decide (x.2.2.notBefore ≤ s.now)) = some y) ∧ (¬ovr))
    ∧ (∃ x : TmQ, ∃ now : Nat, (x.shaper ≠ 1 ∨ now ≤ x.credAt))
    ∧ (∃ x : TmQ, ∃ now : Nat, (x.shaper = 1) ∧ (x.credAt < now) ∧ (x.items = []))
    ∧ (∃ x : TmQ, ∃ now : Nat, (x.shaper = 1) ∧ (x.credAt < now) ∧ (x.items ≠ []))
    ∧ (∃ x : TmQ, ∃ e now : Nat, (x.shaper = 1) ∧ (x.credAt < now) ∧ (x.items ≠ []) ∧ (x.credit + x.idle * (now - x.credAt : Nat) ≤ 2 * maxFrameBits e * 1000))
    ∧ (∃ x : TmQ, (0 < x.weight) ∧ (x.weight < 256))
    ∧ (∃ s : State, ∃ e : Fin 56, ∃ eg : Nat, let u := s.atNs (eg / 65536); (s.live = true) ∧ (u.tmPick e = none))
    ∧ (∃ s : State, ∃ e : Fin 56, ∃ i, ∃ j, let head (i : Nat) : Nat := ((s.tmQ e i).items.head?.map (·.finish)).getD 0; (s.live = true) ∧ (s.tmPick e = some i) ∧ (i ≠ 0) ∧ (∀ j, j < 8 → head j < 2 ^ 47) ∧ (1 ≤ j) ∧ (j < 8) ∧ (s.tmEligible e (s.tmQ e j) = true) ∧ (head i = head j))
    ∧ (∃ s : State, ∃ e : Fin 56, ∃ eg : Nat, ∃ i it rest, ∃ f, let u := s.atNs (eg / 65536); (s.live = true) ∧ (u.tmPick e = some i) ∧ ((s.tmQ e i).items = it :: rest) ∧ (it.load = .frame f))
    ∧ (∃ s : State, ∃ e : Fin 56, ∃ eg : Nat, ∃ i it rest, ∃ d seq, let u := s.atNs (eg / 65536); (s.live = true) ∧ (u.tmPick e = some i) ∧ ((s.tmQ e i).items = it :: rest) ∧ (it.load = .delayReq d seq))
    ∧ (∃ s : State, ∃ e : Fin 56, ∃ eg : Nat, ∃ i it rest, ∃ b, let u := s.atNs (eg / 65536); (s.live = true) ∧ (u.tmPick e = some i) ∧ ((s.tmQ e i).items = it :: rest) ∧ (it.load = .ctl b))
    ∧ (∃ s : State, ∃ e : Fin 56, ∃ eg : Nat, ∃ i it rest, ∃ k, let u := s.atNs (eg / 65536); (s.live = true) ∧ (u.tmPick e = some i) ∧ ((s.tmQ e i).items = it :: rest) ∧ (it.load = .pkt k))
    ∧ (∃ s : State, ∃ n : Nat, (s.live = true) ∧ (∀ e ∈ s.tm.q, e.2.radio = true → e.2.cur.length = n) ∧ (∃ e ∈ s.tm.q, e.2.radio = true) ∧ (16 ≤ n))
    ∧ (∃ s : State, ∃ n : Nat, (s.live = true) ∧ (∀ e ∈ s.tm.q, e.2.radio = true → e.2.cur.length = n) ∧ (∃ e ∈ s.tm.q, e.2.radio = true) ∧ (n < 16)) :=
  ⟨⟨{ up with tm := { inb := [(55, 7, { len := 64, notBefore := 1 })] } }, 55, 7, by decide +kernel⟩,
   ⟨{ up with tm := { inb := [(31, 7, { len := 64 })] } }, 31, 7, (31, 7, { len := 64 }), by dsimp only; decide +kernel⟩,
   ⟨{ up with tm := { inb := [(55, 7, { len := 64 })] } }, 55, 7, (55, 7, { len := 64 }), by dsimp only; decide +kernel⟩,
   ⟨{}, 0, by decide +kernel⟩,
   ⟨{ shaper := 1 }, 1, by decide +kernel⟩,
   ⟨{ shaper := 1, items := [{}] }, 1, by decide +kernel⟩,
   ⟨{ shaper := 1, items := [{}] }, 31, 1, by decide +kernel⟩,
   ⟨{ weight := 255 }, by decide⟩,
   ⟨up, 55, 0, by dsimp only; decide +kernel⟩,
   ⟨{ up with tm := { q := [(441, { items := [{ finish := 9 }] }), (447, { items := [{ finish := 9 }] })] } }, 55, 1, 7, by dsimp only; decide +kernel⟩,
   ⟨tmq up 31 7 { items := [{ load := .frame {} }] }, 31, 0, 7, { load := .frame {} }, [], {}, by dsimp only; decide +kernel⟩,
   ⟨tmq up 31 7 { items := [{ load := .delayReq 1 65535 }] }, 31, 0, 7, { load := .delayReq 1 65535 }, [], 1, 65535, by dsimp only; decide +kernel⟩,
   ⟨tmq up 55 0 { items := [{ load := .ctl (some {}) }] }, 55, 0, 0, { load := .ctl (some {}) }, [], some {}, by dsimp only; decide +kernel⟩,
   ⟨tmq (prt up 23 2 {}) 55 1 { items := [{ load := .pkt { dst := 1 } }] }, 55, 0, 1, { load := .pkt { dst := 1 } }, [], { dst := 1 }, by dsimp only; decide +kernel⟩,
   ⟨{ up with tm := { q := [(0, { radio := true, cur := List.replicate 16 (0, 0) })] } }, 16, by decide +kernel⟩,
   ⟨{ up with tm := { q := [(0, { radio := true, cur := List.replicate 15 (0, 0) })] } }, 15, by decide +kernel⟩⟩

/-- The hypotheses of WindowsAndLinks can be met, clause by clause. -/
theorem witness_WindowsAndLinks :
    (∃ s : State, ∃ w : Fin 128, let st := s.winSt w; (s.live = true) ∧ (st ≠ 0 ∨ s.get (f_TWN_CFG_EXISTS w) = 0))
    ∧ (∃ s : State, ∃ w : Fin 128, let st := s.winSt w; (s.live = true) ∧ (st = 0) ∧ (s.get (f_TWN_CFG_EXISTS w) = 1) ∧ (s.setupOk w = false))
    ∧ (∃ s : State, ∃ w : Fin 128, let st := s.winSt w; (s.live = true) ∧ (st = 0) ∧ (s.get (f_TWN_CFG_EXISTS w) = 1) ∧ (s.setupOk w = true))
    ∧ (∃ s : State, ∃ w : Fin 128, ∃ o n, (s.live = true) ∧ (s.setupOk w = true) ∧ (o < 128) ∧ (o ≠ w.val) ∧ (s.winSt o ≠ 0) ∧ (s.get (f_TWN_CTX_CTX_BASE w) ≤ n) ∧ (n < s.get (f_TWN_CTX_CTX_BASE w) + s.get (f_TWN_CTX_COUNT_CTX_COUNT w)))
    ∧ (∃ s : State, ∃ w : Fin 128, let st := s.winSt w; (s.live = true) ∧ (st = 1))
    ∧ (∃ s : State, ∃ w : Fin 128, let st := s.winSt w; (s.live = true) ∧ (st = 2))
    ∧ (∃ s : State, ∃ w : Fin 128, let st := s.winSt w; (s.live = true) ∧ (st ≠ 2) ∧ (st ≠ 3) ∧ (st ≠ 6))
    ∧ (∃ s : State, ∃ w : Fin 128, ∃ i : Instr, let st := s.winSt w; let x := s.winOf w; (s.live = true) ∧ ((i = .windowAbort w ∧ (st = 2 ∨ st = 3 ∨ st = 6)) ∨ (i = .windowDrainTimeout w ∧ st = 3 ∧ s.get (f_TWN_QTMO_TMO w) ≤ s.tim.expo - x.stAt)))
    ∧ (∃ s : State, ∃ w : Fin 128, let st := s.winSt w; let x := s.winOf w; (s.live = true) ∧ (st ≠ 3 ∨ s.tim.expo - x.stAt < s.get (f_TWN_QTMO_TMO w)))
    ∧ (∃ s : State, ∃ w : Fin 128, let st := s.winSt w; (s.live = true) ∧ (st = 5))
    ∧ (∃ s : State, ∃ w : Fin 128, let st := s.winSt w; (s.live = true) ∧ (st = 5 ∨ st = 0))
    ∧ (∃ s : State, ∃ w : Fin 128, let st := s.winSt w; (s.live = true) ∧ (¬((st = 3 ∨ st = 4) ∧ s.winIdle w = true)))
    ∧ (∃ s : State, ∃ w : Fin 128, let st := s.winSt w; let x := s.winOf w; (s.live = true) ∧ (st = 3 ∨ st = 4) ∧ (s.winIdle w = true) ∧ (x.flr = false))
    ∧ (∃ s : State, ∃ w : Fin 128, let st := s.winSt w; let x := s.winOf w; (s.live = true) ∧ (st = 3 ∨ st = 4) ∧ (s.winIdle w = true) ∧ (x.flr = true))
    ∧ (∃ s : State, ∃ w : Fin 128, let st := s.winSt w; let x := s.winOf w; let overdue : Prop := s.get (f_TWN_QTMO_TMO w) ≤ s.tim.expo - x.stAt ∨ (x.flr = true ∧ 100000000 ≤ (s.tim.expo - x.stAt) * s.periodNs); (s.live = true) ∧ (st ≠ 4 ∨ ¬overdue))
    ∧ (∃ s : State, ∃ w : Fin 128, let st := s.winSt w; let x := s.winOf w; let overdue : Prop := s.get (f_TWN_QTMO_TMO w) ≤ s.tim.expo - x.stAt ∨ (x.flr = true ∧ 100000000 ≤ (s.tim.expo - x.stAt) * s.periodNs); (s.live = true) ∧ (st = 4) ∧ (overdue) ∧ (x.flr = false))
    ∧ (∃ s : State, ∃ w : Fin 128, let st := s.winSt w; let x := s.winOf w; let overdue : Prop := s.get (f_TWN_QTMO_TMO w) ≤ s.tim.expo - x.stAt ∨ (x.flr = true ∧ 100000000 ≤ (s.tim.expo - x.stAt) * s.periodNs); (s.live = true) ∧ (st = 4) ∧ (overdue) ∧ (x.flr = true))
    ∧ (∃ s : State, ∃ w : Fin 128, let st := s.winSt w; (s.live = true) ∧ (st = 1 ∨ st = 2))
    ∧ (∃ s : State, ∃ w : Fin 128, let st := s.winSt w; (s.live = true) ∧ (st ≠ 1) ∧ (st ≠ 2))
    ∧ (∃ s : State, ∃ w : Fin 128, ∃ e, let st := s.winSt w; let x := s.winOf w; (s.live = true) ∧ (x.fullAt = some e) ∧ (s.get (f_TWN_QTMO_TMO w) ≤ s.tim.expo - e) ∧ (st ≠ 0) ∧ (st ≠ 5) ∧ (st ≠ 6))
    ∧ (∃ s : State, ∃ w : Fin 128, ∃ e, let x := s.winOf w; (s.live = true) ∧ (x.fullAt = some e) ∧ (s.tim.expo - e < s.get (f_TWN_QTMO_TMO w)))
    ∧ (∃ s : State, ∃ w : Fin 128, let x := s.winOf w; (s.live = true) ∧ (x.fullAt = none))
    ∧ (∃ s : State, ∃ w : Fin 128, let x := s.winOf w; (s.live = true) ∧ (x.since ≠ 0) ∧ (s.get (f_TWN_COAL_US w) ≠ 0) ∧ (s.reached (x.coalAt.getD 0) (s.get (f_TWN_COAL_US w) * 1000) = true))
    ∧ (∃ s : State, ∃ w : Fin 128, let x := s.winOf w; (s.live = true) ∧ (x.since = 0 ∨ s.get (f_TWN_COAL_US w) = 0 ∨ s.reached (x.coalAt.getD 0) (s.get (f_TWN_COAL_US w) * 1000) = false))
    ∧ (∃ s : State, ∃ l : Fin 4, ∃ width : Fin 5, let x8 := s.get (if l.val / 2 = 0 then f_HST_ROLE_PA_X8 else f_HST_ROLE_PB_X8) = 1; let no : Prop := l.val / 2 ∈ s.hst.perst ∨ (¬x8 ∧ l.val % 2 = 1) ∨ (x8 ∧ width = 4); (no))
    ∧ (∃ s : State, ∃ l : Fin 4, ∃ width : Fin 5, let x8 := s.get (if l.val / 2 = 0 then f_HST_ROLE_PA_X8 else f_HST_ROLE_PB_X8) = 1; let no : Prop := l.val / 2 ∈ s.hst.perst ∨ (¬x8 ∧ l.val % 2 = 1) ∨ (x8 ∧ width = 4); (¬no))
    ∧ (∃ s : State, (s.live = false))
    ∧ (∃ s : State, ∃ p : Fin 2, (s.live = true) ∧ (p.val = s.get f_HST_ROLE_MGR_PORT))
    ∧ (∃ s : State, ∃ p : Fin 2, (s.live = true) ∧ (p.val ≠ s.get f_HST_ROLE_MGR_PORT) ∧ (s.hst.lapsed = true))
    ∧ (∃ s : State, ∃ p : Fin 2, (s.live = true) ∧ (p.val = s.get f_HST_ROLE_MGR_PORT ∨ s.hst.lapsed = false))
    ∧ (∃ s : State, let due : Prop := s.valid = true ∧ s.hst.lapsed = false ∧ s.hst.hbAt + s.get f_HST_MGR_CFG_HB_TMO_MS * 1000000 ≤ s.tim.nextEdge; (s.live = true) ∧ (due))
    ∧ (∃ s : State, let due : Prop := s.valid = true ∧ s.hst.lapsed = false ∧ s.hst.hbAt + s.get f_HST_MGR_CFG_HB_TMO_MS * 1000000 ≤ s.tim.nextEdge; (s.live = true) ∧ (¬due))
    ∧ (∃ s : State, (s.hst.claim = true)) :=
  ⟨⟨win1 6 {}, 127, by dsimp only; decide +kernel⟩,
   ⟨withF (win1 0 {}) [(f_TWN_VEC_BASE 127, 1)], 127, by dsimp only; decide +kernel⟩,
   ⟨withF (win1 0 {}) [(f_TWN_VEC_BASE 127, 255), (f_TWN_VEC_COUNT 127, 1)], 127, by dsimp only; decide +kernel⟩,
   ⟨withF (win1 0 {}) [(f_TWN_VEC_BASE 127, 255), (f_TWN_VEC_COUNT 127, 1), (f_TWN_CTX_CTX_BASE 127, 5), (f_TWN_CTX_COUNT_CTX_COUNT 127, 1), (f_TWN_STATE_STATE 0, 1), (f_TWN_CTX_COUNT_CTX_COUNT 0, 5)], 127, 0, 5, by decide +kernel⟩,
   ⟨win1 1 {}, 127, by dsimp only; decide +kernel⟩,
   ⟨win1 2 {}, 127, by dsimp only; decide +kernel⟩,
   ⟨win1 4 {}, 127, by dsimp only; decide +kernel⟩,
   ⟨win1 6 {}, 127, .windowAbort 127, by dsimp only; decide +kernel⟩,
   ⟨win1 2 {}, 127, by dsimp only; decide +kernel⟩,
   ⟨win1 5 {}, 127, by dsimp only; decide +kernel⟩,
   ⟨win1 0 {}, 127, by dsimp only; decide +kernel⟩,
   ⟨win1 2 {}, 127, by dsimp only; decide +kernel⟩,
   ⟨win1 4 {}, 127, by dsimp only; decide +kernel⟩,
   ⟨win1 3 { flr := true }, 127, by dsimp only; decide +kernel⟩,
   ⟨win1 3 {}, 127, by dsimp only; decide +kernel⟩,
   ⟨{ win1 4 {} with tim := { expo := 0xFFFFFFFF } }, 127, by dsimp only; decide +kernel⟩,
   ⟨{ win1 4 { flr := true } with tim := { expo := 0xFFFFFFFF } }, 127, by dsimp only; decide +kernel⟩,
   ⟨win1 2 {}, 127, by dsimp only; decide +kernel⟩,
   ⟨win1 4 {}, 127, by dsimp only; decide +kernel⟩,
   ⟨{ win1 4 { fullAt := some 0 } with tim := { expo := 0xFFFFFFFF } }, 127, 0, by dsimp only; decide +kernel⟩,
   ⟨{ (win1 1 { fullAt := some 0 }).put (f_TWN_QTMO_TMO 127) 5 with tim := { expo := 4 } }, 127, 0, by dsimp only; decide +kernel⟩,
   ⟨win1 1 {}, 127, by dsimp only; decide +kernel⟩,
   ⟨(win1 1 { since := 1 }).put (f_TWN_COAL_US 127) 1, 127, by dsimp only; decide +kernel⟩,
   ⟨win1 1 { since := 1 }, 127, by dsimp only; decide +kernel⟩,
   ⟨up, 3, 4, by dsimp only; decide +kernel⟩,
   ⟨{ up with hst := { up.hst with perst := [] } }, 2, 4, by dsimp only; decide +kernel⟩,
   ⟨safe, by decide +kernel⟩,
   ⟨up, 0, by decide +kernel⟩,
   ⟨{ up with hst := { up.hst with lapsed := true } }, 1, by decide +kernel⟩,
   ⟨{ up with hst := { up.hst with lapsed := true } }, 0, by decide +kernel⟩,
   ⟨{ up with tim := { tb := 2 ^ 40, nextEdge := 2 ^ 40 } }, by dsimp only; decide +kernel⟩,
   ⟨{ up with hst := { up.hst with lapsed := true }, tim := { tb := 2 ^ 40, nextEdge := 2 ^ 40 } }, by dsimp only; decide +kernel⟩,
   ⟨{ up with hst := { up.hst with claim := true } }, by decide +kernel⟩⟩

/-- The hypotheses of CommandsAndJobs can be met, clause by clause. -/
theorem witness_CommandsAndJobs :
    (∃ s : State, ∃ k : Fin 8, ∃ r : WinRead, let w := r.win; let due := s.fetchDue w k; (s.live = true) ∧ (r.win ≤ 128) ∧ (∀ p, p < 16 → (s.spOf p).stream = []) ∧ (s.get f_AUD_PART_REPLAY = 0) ∧ (∀ v, v ≤ 128 → v ≠ r.win → s.fetchDue v k = true → (s.winOf v).cpl = []) ∧ (due = false))
    ∧ (∃ s : State, ∃ k : Fin 8, ∃ r : WinRead, let w := r.win; let due := s.fetchDue w k; (s.live = true) ∧ (r.win ≤ 128) ∧ (∀ p, p < 16 → (s.spOf p).stream = []) ∧ (s.get f_AUD_PART_REPLAY = 0) ∧ (∀ v, v ≤ 128 → v ≠ r.win → s.fetchDue v k = true → (s.winOf v).cpl = []) ∧ (due = true) ∧ (r.late = true))
    ∧ (∃ s : State, ∃ k : Fin 8, ∃ r : WinRead, let w := r.win; let due := s.fetchDue w k; (s.live = true) ∧ (r.win ≤ 128) ∧ (∀ p, p < 16 → (s.spOf p).stream = []) ∧ (s.get f_AUD_PART_REPLAY = 0) ∧ (∀ v, v ≤ 128 → v ≠ r.win → s.fetchDue v k = true → (s.winOf v).cpl = []) ∧ (due = true) ∧ (r.late = false) ∧ (r.rcbErr = true))
    ∧ (∃ s : State, ∃ k : Fin 8, ∃ r : WinRead, let w := r.win; let x := s.winOf w; let n := (r.sqPi + 2 ^ 32 - x.sqCi) % 2 ^ 32; let due := s.fetchDue w k; (s.live = true) ∧ (r.win ≤ 128) ∧ (∀ p, p < 16 → (s.spOf p).stream = []) ∧ (s.get f_AUD_PART_REPLAY = 0) ∧ (∀ v, v ≤ 128 → v ≠ r.win → s.fetchDue v k = true → (s.winOf v).cpl = []) ∧ (due = true) ∧ (r.late = false) ∧ (r.rcbErr = false) ∧ (x.cpl = []) ∧ (s.winSt w = 1) ∧ (s.sqSize w < n))
    ∧ (∃ s : State, ∃ k : Fin 8, ∃ r : WinRead, ∃ e, let w := r.win; let adm := w = 128; let x := s.winOf w; let n := (r.sqPi + 2 ^ 32 - x.sqCi) % 2 ^ 32; let due := s.fetchDue w k; (s.live = true) ∧ (r.win ≤ 128) ∧ (∀ p, p < 16 → (s.spOf p).stream = []) ∧ (s.get f_AUD_PART_REPLAY = 0) ∧ (∀ v, v ≤ 128 → v ≠ r.win → s.fetchDue v k = true → (s.winOf v).cpl = []) ∧ (due = true) ∧ (r.late = false) ∧ (r.rcbErr = false) ∧ (x.cpl = []) ∧ (s.winSt w = 1) ∧ (n ≠ 0) ∧ (n ≤ s.sqSize w) ∧ (r.entries = [e]) ∧ (r.err = false) ∧ (adm ∨ s.get (f_TWN_CFG_FETCH_MAX w) ≠ 0) ∧ (s.winAudited w = false) ∧ (s.winReplay w = false) ∧ (s.winRadio w = false))
    ∧ (∃ c : Cmd, (c.op ∉ [0x00, 0x01, 0x02, 0x03, 0x04, 0x05, 0x10, 0x11, 0x12, 0x13, 0x14, 0x15, 0x16, 0x30, 0x31, 0x32]))
    ∧ (∃ w : Nat, ∃ c : Cmd, (w ≠ 128) ∧ (c.op ∈ [0x30, 0x31, 0x32]))
    ∧ (∃ c : Cmd, (c.op ∈ [0x00, 0x01, 0x02, 0x03, 0x04, 0x05, 0x10, 0x11, 0x12, 0x13, 0x14, 0x15, 0x16]) ∧ (4 ≤ c.flags ∨ c.zeros 2 4 = false))
    ∧ (∃ c : Cmd, (c.op = 0) ∧ (c.flags < 4) ∧ (c.zeros 2 4 = true) ∧ (c.zeros 8 16 = true))
    ∧ (∃ c : Cmd, (c.op ∈ [0x11, 0x12, 0x13, 0x14, 0x15, 0x16]) ∧ (c.flags < 4) ∧ (c.zeros 2 4 = true) ∧ (c.zeros 8 16 = true) ∧ (c.at 0x10 4 < 2 ^ 18) ∧ (c.op = 0x11 → c.at 0x30 4 ≠ 0))
    ∧ (∃ s : State, ∃ w op : Nat, ∃ c : Cmd, (s.frontCmd w op = some c) ∧ (bitAt c.flags 1 = true))
    ∧ (∃ s : State, ∃ w : Fin 129, (s.live = true) ∧ (s.frontCmd w 0 = none))
    ∧ (∃ s : State, ∃ w : Fin 129, (s.live = true) ∧ (s.frontCmd w 1 = none))
    ∧ (∃ s : State, ∃ w : Fin 129, (s.live = true) ∧ (s.frontCmd w 2 = none))
    ∧ (∃ s : State, ∃ w : Fin 129, (s.live = true) ∧ (s.frontCmd w 3 = none))
    ∧ (∃ s : State, ∃ w : Fin 129, (s.live = true) ∧ (s.frontCmd w 4 = none))
    ∧ (∃ s : State, ∃ w : Fin 129, (s.live = true) ∧ (s.frontCmd w 5 = none))
    ∧ (∃ s : State, ∃ w : Fin 129, ∃ c : Cmd, (s.live = true) ∧ (s.frontCmd w 0 = some c))
    ∧ (∃ s : State, ∃ w : Fin 129, ∃ c : Cmd, (s.live = true) ∧ (s.frontCmd w 1 = some c))
    ∧ (∃ s : State, ∃ w : Fin 129, ∃ c : Cmd, ∃ i : Instr, ∃ op : Nat, let tag := if w.val = 128 then 0xFF else w.val; (s.live = true) ∧ ((i = .jobStop w ∧ op = 2) ∨ (i = .jobPrio w ∧ op = 3)) ∧ (s.frontCmd w op = some c) ∧ (c.at 0x10 4 / 2 ^ 24 ≠ tag))
    ∧ (∃ s : State, ∃ w : Fin 129, ∃ c : Cmd, ∃ i : Instr, ∃ op : Nat, let tag := if w.val = 128 then 0xFF else w.val; (s.live = true) ∧ ((i = .jobStop w ∧ op = 2) ∨ (i = .jobPrio w ∧ op = 3)) ∧ (s.frontCmd w op = some c) ∧ (c.at 0x10 4 / 2 ^ 24 = tag) ∧ (s.jobOf (c.at 0x10 4) = none))
    ∧ (∃ s : State, ∃ w : Fin 129, ∃ c : Cmd, ∃ j, let tag := if w.val = 128 then 0xFF else w.val; (s.live = true) ∧ (s.frontCmd w 2 = some c) ∧ (c.at 0x10 4 / 2 ^ 24 = tag) ∧ (s.jobOf (c.at 0x10 4) = some j) ∧ (j.st = .pending))
    ∧ (∃ s : State, ∃ w : Fin 129, ∃ c : Cmd, ∃ j, let tag := if w.val = 128 then 0xFF else w.val; (s.live = true) ∧ (s.frontCmd w 2 = some c) ∧ (c.at 0x10 4 / 2 ^ 24 = tag) ∧ (s.jobOf (c.at 0x10 4) = some j) ∧ (j.st = .started))
    ∧ (∃ s : State, ∃ w : Fin 129, ∃ c : Cmd, ∃ j, let tag := if w.val = 128 then 0xFF else w.val; (s.live = true) ∧ (s.frontCmd w 3 = some c) ∧ (c.at 0x10 4 / 2 ^ 24 = tag) ∧ (s.jobOf (c.at 0x10 4) = some j))
    ∧ (∃ s : State, ∃ w : Fin 129, ∃ c : Cmd, ∃ m : Fin 8, ∃ i : Instr, ∃ op : Nat, (s.live = true) ∧ ((i = .copy w m ∧ op = 4) ∨ (i = .fill w m ∧ op = 5)) ∧ (s.frontCmd w op = some c))
    ∧ (∃ s : State, ∃ id : BitVec 32, ∃ j : Job, (s.live = true) ∧ (s.jobOf id.toNat = some j) ∧ (j.stop = true))
    ∧ (∃ s : State, ∃ id : BitVec 32, ∃ j : Job, (s.live = true) ∧ (s.jobOf id.toNat = some j) ∧ (j.stop = false) ∧ (j.st = .pending) ∧ (s.firstInLine j = false))
    ∧ (∃ s : State, ∃ id : BitVec 32, ∃ j : Job, ∃ n, (s.live = true) ∧ (s.jobOf id.toNat = some j) ∧ (j.stop = false) ∧ (j.st = .pending) ∧ (bitAt j.arrays n = true) ∧ (n < 64) ∧ (s.victims n j = none))
    ∧ (∃ s : State, ∃ id : BitVec 32, ∃ j : Job, ∃ n, (s.live = true) ∧ (s.jobOf id.toNat = some j) ∧ (j.stop = false) ∧ (j.st = .pending) ∧ (s.firstInLine j = true) ∧ (j.cores = 0) ∧ (j.threads ≠ 0) ∧ (n < 64) ∧ (j.arrays = 2 ^ n) ∧ (s.victims n j = some []) ∧ (j.begun = []) ∧ (j.order = 0) ∧ (∀ v ∈ (s.arrOf n).spills, v.inc ≠ j.id) ∧ (j.serve = none) ∧ (id.toNat ≠ 0))
    ∧ (∃ s : State, ∃ id : BitVec 32, ∃ j : Job, ∃ n vs, (s.live = true) ∧ (s.jobOf id.toNat = some j) ∧ (j.stop = false) ∧ (j.st = .pending) ∧ (s.firstInLine j = true) ∧ (j.cores = 0) ∧ (j.threads ≠ 0) ∧ (n < 64) ∧ (j.arrays = 2 ^ n) ∧ (s.victims n j = some vs))
    ∧ (∃ s : State, ∃ id : BitVec 32, ∃ j : Job, ∃ n vs v, (s.live = true) ∧ (s.jobOf id.toNat = some j) ∧ (s.victims n j = some vs) ∧ (v ∈ vs))
    ∧ (∃ s : State, ∃ id : BitVec 32, ∃ j : Job, (s.live = true) ∧ (s.jobOf id.toNat = some j) ∧ (j.st = .pending) ∧ (s.get f_HST_SCHED_CFG_START_TMO * 1024 ≤ s.tim.expo - j.since))
    ∧ (∃ s : State, ∃ id : BitVec 32, ∃ j : Job, (s.live = true) ∧ (s.jobOf id.toNat = some j) ∧ (j.st ≠ .pending ∨ s.tim.expo - j.since < s.get f_HST_SCHED_CFG_START_TMO * 1024))
    ∧ (∃ s : State, ∃ id : BitVec 32, ∃ j : Job, (s.live = true) ∧ (s.jobOf id.toNat = some j) ∧ (s.jobDone j = false))
    ∧ (∃ s : State, ∃ id : BitVec 32, ∃ j : Job, (s.live = true) ∧ (s.jobOf id.toNat = some j) ∧ (s.jobDone j = true) ∧ (swf {} s.te.thr = true) ∧ (id.toNat ≠ 0))
    ∧ (∃ s : State, ∃ id : BitVec 32, (s.live = true) ∧ (s.jobOf id.toNat = none)) :=
  ⟨⟨win1 1 {}, 7, { win := 127 }, by dsimp only; decide +kernel⟩,
   ⟨win1 1 {}, 0, { win := 127, late := true }, by dsimp only; decide +kernel⟩,
   ⟨win1 4 {}, 0, { win := 127, rcbErr := true }, by dsimp only; decide +kernel⟩,
   ⟨win1 1 { sqCi := 0xFFFFFFFF }, 0, { win := 127, sqPi := 64 }, by dsimp only; decide +kernel⟩,
   ⟨(win1 1 { sqCi := 0xFFFFFFFF }).put (f_TWN_CFG_FETCH_MAX 127) 1, 0, { win := 127, entries := [[]] }, [], by dsimp only; decide +kernel⟩,
   ⟨{ op := 0x17 }, by decide⟩,
   ⟨127, { op := 0x32 }, by decide⟩,
   ⟨{ op := 0x16, flags := 4 }, by decide⟩,
   ⟨{ op := 0 }, by decide⟩,
   ⟨cmd1 0x11 [(0x30, 1)], by decide⟩,
   ⟨{ up with hst := { win := [(128, { cmds := [{ op := 0, flags := 2 }] })] } }, 128, 0, { op := 0, flags := 2 }, by decide +kernel⟩,
   ⟨up, 128, by decide +kernel⟩,
   ⟨up, 128, by decide +kernel⟩,
   ⟨up, 128, by decide +kernel⟩,
   ⟨up, 128, by decide +kernel⟩,
   ⟨up, 128, by decide +kernel⟩,
   ⟨up, 128, by decide +kernel⟩,
   ⟨cmdW up 128 0 [], 128, cmd1 0 [], by decide +kernel⟩,
   ⟨cmdW up 128 1 [], 128, cmd1 1 [], by decide +kernel⟩,
   ⟨cmdW up 128 3 [], 128, cmd1 3 [], .jobPrio 128, 3, by dsimp only; decide +kernel⟩,
   ⟨cmdW up 128 2 [(0x13, 0xFF)], 128, cmd1 2 [(0x13, 0xFF)], .jobStop 128, 2, by dsimp only; decide +kernel⟩,
   ⟨cmdW (job1 [{ id := 0xFF000000, win := 128 }]) 128 2 [(0x13, 0xFF)], 128, cmd1 2 [(0x13, 0xFF)], { id := 0xFF000000, win := 128 }, by dsimp only; decide +kernel⟩,
   ⟨cmdW (job1 [{ id := 0xFF000000, win := 128, st := .started }]) 128 2 [(0x13, 0xFF)], 128, cmd1 2 [(0x13, 0xFF)], { id := 0xFF000000, win := 128, st := .started }, by dsimp only; decide +kernel⟩,
   ⟨cmdW (job1 [{ id := 0xFF000000, win := 128 }]) 128 3 [(0x13, 0xFF)], 128, cmd1 3 [(0x13, 0xFF)], { id := 0xFF000000, win := 128 }, by dsimp only; decide +kernel⟩,
   ⟨cmdW { up with ms := { bulkCur := [(7, 1)] } } 128 5 [], 128, cmd1 5 [], 7, .fill 128 7, 5, by decide +kernel⟩,
   ⟨job1 [{ id := 0xFFFFFFFF, stop := true }], 0xFFFFFFFF, { id := 0xFFFFFFFF, stop := true }, by decide +kernel⟩,
   ⟨job1 [{ id := 0xFFFFFFFF, arrays := 2 ^ 63 }, { id := 1, arrays := 2 ^ 63, prio := 1 }], 0xFFFFFFFF, { id := 0xFFFFFFFF, arrays := 2 ^ 63 }, by decide +kernel⟩,
   ⟨job1 [{ id := 0xFFFFFFFF, arrays := 2 ^ 63, threads := 65 }], 0xFFFFFFFF, { id := 0xFFFFFFFF, arrays := 2 ^ 63, threads := 65 }, 63, by decide +kernel⟩,
   ⟨job1 [{ id := 0xFFFFFFFF, arrays := 2 ^ 63, threads := 64 }], 0xFFFFFFFF, { id := 0xFFFFFFFF, arrays := 2 ^ 63, threads := 64 }, 63, by decide +kernel⟩,
   ⟨{ job1 [{ id := 0xFFFFFFFF, arrays := 2 ^ 63, threads := 64, prio := 1, store := 1 }, { id := 5, st := .started, order := 1, begun := [63], arrays := 2 ^ 63, store := 1 }] with tim := { expo := 0xFFFFFFFF } }, 0xFFFFFFFF, { id := 0xFFFFFFFF, arrays := 2 ^ 63, threads := 64, prio := 1, store := 1 }, 63, [5], by decide +kernel⟩,
   ⟨{ job1 [{ id := 0xFFFFFFFF, arrays := 2 ^ 63, threads := 64, prio := 1, store := 1 }, { id := 5, st := .started, order := 1, begun := [63], arrays := 2 ^ 63, store := 1 }] with tim := { expo := 0xFFFFFFFF } }, 0xFFFFFFFF, { id := 0xFFFFFFFF, arrays := 2 ^ 63, threads := 64, prio := 1, store := 1 }, 63, [5], 5, by decide +kernel⟩,
   ⟨{ job1 [{ id := 0xFFFFFFFF }] with tim := { expo := 0xFFFFFFFF } }, 0xFFFFFFFF, { id := 0xFFFFFFFF }, by decide +kernel⟩,
   ⟨{ job1 [{ id := 0xFFFFFFFF, st := .started }] with tim := { expo := 0xFFFFFFFF } }, 0xFFFFFFFF, { id := 0xFFFFFFFF, st := .started }, by decide +kernel⟩,
   ⟨job1 [{ id := 0xFFFFFFFF }], 0xFFFFFFFF, { id := 0xFFFFFFFF }, by decide +kernel⟩,
   ⟨job1 [{ id := 0xFFFFFFFF, st := .started }], 0xFFFFFFFF, { id := 0xFFFFFFFF, st := .started }, by decide +kernel⟩,
   ⟨up, 0xFFFFFFFF, by decide +kernel⟩⟩

/-- The hypotheses of FaultActions can be met, clause by clause. -/
theorem witness_FaultActions :
    (∃ s : State, (s.flt.inbox = []))
    ∧ (∃ s : State, ∃ m : FltMsg, ∃ rest : List FltMsg, (s.flt.inbox = m :: rest)) :=
  ⟨⟨State.reset, by decide⟩,
   ⟨{ State.reset with flt := { inbox := [{ source := 0xFFF, kind := 255 }] } }, { source := 0xFFF, kind := 255 }, [], by decide +kernel⟩⟩

/-- The hypotheses of SafelightAndTest can be met, clause by clause. -/
theorem witness_SafelightAndTest :
    (∃ s : State, (s.phaseNow false = .service))
    ∧ (∃ s : State, (s.phaseNow false ≠ .service))
    ∧ (∃ s : State, (s.flt.phase ≠ .safelight ∨ s.flt.safeL = true))
    ∧ (∃ s : State, (s.flt.phase = .safelight) ∧ (s.flt.safeL = false))
    ∧ (∃ s : State, (s.live = true))
    ∧ (∃ p, (p < 24))
    ∧ (∃ n, (n < 64))
    ∧ (∃ s : State, (s.boot.por = true))
    ∧ (∃ s : State, (s.boot.por = false) ∧ (s.flt.queue = []))
    ∧ (∃ s : State, ∃ m rest, (s.boot.por = false) ∧ (s.flt.queue = m :: rest) ∧ (rest.length < 5000)) :=
  ⟨⟨up, by decide +kernel⟩,
   ⟨State.reset, by decide +kernel⟩,
   ⟨up, by decide +kernel⟩,
   ⟨safe, by decide +kernel⟩,
   ⟨up, by decide +kernel⟩,
   ⟨23, by decide⟩,
   ⟨63, by decide⟩,
   ⟨off, by decide +kernel⟩,
   ⟨up, by decide +kernel⟩,
   ⟨{ up with flt := { queue := [{}] } }, {}, [], by decide +kernel⟩⟩

/-- The hypotheses of Recovery can be met, clause by clause. -/
theorem witness_Recovery :
    (∃ s : State, ∃ arg : BitVec 32, ∃ rseq : BitVec 16, let a := arg.toNat; let k := a % 2 ^ 12; let x := sget {} s.flt.peers k; (s.live = true) ∧ (rseq.toNat = x.rseq))
    ∧ (∃ s : State, ∃ arg : BitVec 32, ∃ rseq : BitVec 16, let a := arg.toNat; let k := a % 2 ^ 12; let x := sget {} s.flt.peers k; (s.live = true) ∧ (rseq.toNat ≠ x.rseq) ∧ (k = s.chipId ∨ k = 0xFFF))
    ∧ (∃ s : State, ∃ arg : BitVec 32, ∃ rseq : BitVec 16, let a := arg.toNat; let k := a % 2 ^ 12; let x := sget {} s.flt.peers k; let new : Prop := rseq.toNat ≠ x.rseq ∧ k ≠ s.chipId ∧ k ≠ 0xFFF; (s.live = true) ∧ (new) ∧ (bitAt a 12 = false))
    ∧ (∃ s : State, ∃ arg : BitVec 32, ∃ rseq : BitVec 16, let a := arg.toNat; let k := a % 2 ^ 12; let x := sget {} s.flt.peers k; let free : Prop := s.flt.govCnt = 0 ∨ s.get f_FLT_GOV_CFG_WINDOW_K * 1024 ≤ (s.tim.tick % 2 ^ 32 + 2 ^ 32 - s.flt.govT0) % 2 ^ 32 ∨ s.flt.govCnt < s.get f_FLT_GOV_CFG_MAX; let ovr := bitAt a 13; let new : Prop := rseq.toNat ≠ x.rseq ∧ k ≠ s.chipId ∧ k ≠ 0xFFF; (s.live = true) ∧ (new) ∧ (bitAt a 12 = true) ∧ ((free ∧ s.get f_FLT_GOV_CFG_MAX ≠ 0) ∨ ovr = true))
    ∧ (∃ s : State, ∃ arg : BitVec 32, ∃ rseq : BitVec 16, let a := arg.toNat; let k := a % 2 ^ 12; let x := sget {} s.flt.peers k; let free : Prop := s.flt.govCnt = 0 ∨ s.get f_FLT_GOV_CFG_WINDOW_K * 1024 ≤ (s.tim.tick % 2 ^ 32 + 2 ^ 32 - s.flt.govT0) % 2 ^ 32 ∨ s.flt.govCnt < s.get f_FLT_GOV_CFG_MAX; let ovr := bitAt a 13; let new : Prop := rseq.toNat ≠ x.rseq ∧ k ≠ s.chipId ∧ k ≠ 0xFFF; (s.live = true) ∧ (new) ∧ (bitAt a 12 = true) ∧ (¬free ∨ s.get f_FLT_GOV_CFG_MAX = 0) ∧ (ovr = false))
    ∧ (∃ s : State, ∃ arg : BitVec 32, ∃ rseq : BitVec 16, let a := arg.toNat; let p := a % 16; let y := s.partRec p; (s.live = true) ∧ (rseq.toNat = y.rseq))
    ∧ (∃ s : State, ∃ arg : BitVec 32, ∃ rseq : BitVec 16, let a := arg.toNat; let p := a % 16; let y := s.partRec p; (s.live = true) ∧ (rseq.toNat ≠ y.rseq) ∧ (y.st ≠ .stepFault))
    ∧ (∃ s : State, ∃ arg : BitVec 32, ∃ rseq : BitVec 16, let a := arg.toNat; let p := a % 16; let y := s.partRec p; (s.live = true) ∧ (rseq.toNat ≠ y.rseq) ∧ (y.st = .stepFault))
    ∧ (∃ s : State, ∃ arg : BitVec 32, ∃ rseq : BitVec 16, let a := arg.toNat; let k := a % 2 ^ 12; let z := s.src k; (s.live = true) ∧ (rseq.toNat = z.rseq))
    ∧ (∃ s : State, ∃ arg : BitVec 32, ∃ rseq : BitVec 16, let a := arg.toNat; let k := a % 2 ^ 12; let z := s.src k; (s.live = true) ∧ (rseq.toNat ≠ z.rseq) ∧ (srcListed k = false))
    ∧ (∃ s : State, ∃ arg : BitVec 32, ∃ rseq : BitVec 16, let a := arg.toNat; let k := a % 2 ^ 12; let z := s.src k; (s.live = true) ∧ (rseq.toNat ≠ z.rseq) ∧ (srcListed k = true))
    ∧ (∃ s : State, (s.live = true) ∧ (∀ e ∈ s.flt.peers, e.2.pend = none ∨ e.2.pend = some s.tim.expo))
    ∧ (∃ s : State, ∃ c : Nat, ∃ x : PeerRec, ∃ k : Nat, (s.live = true) ∧ (s.flt.peers = [(c, x)]) ∧ (x.pend = some k) ∧ (k < s.tim.expo))
    ∧ (∃ s : State, ∃ p : Fin 16, ∃ i j, let x := s.partRec p; let due : Prop := x.since < s.tim.expo ∧ s.chainsEnded i = true ∧ s.partSteady p = true; (s.live = true) ∧ ((s.spOf p).job = some i) ∧ (s.jobOf i = some j) ∧ (¬due))
    ∧ (∃ s : State, ∃ p : Fin 16, ∃ i j, let x := s.partRec p; let due : Prop := x.since < s.tim.expo ∧ s.chainsEnded i = true ∧ s.partSteady p = true; (s.live = true) ∧ ((s.spOf p).job = some i) ∧ (s.jobOf i = some j) ∧ (due) ∧ (x.st = .replaying) ∧ (x.cmd = true))
    ∧ (∃ s : State, ∃ p : Fin 16, ∃ i j, let x := s.partRec p; let due : Prop := x.since < s.tim.expo ∧ s.chainsEnded i = true ∧ s.partSteady p = true; (s.live = true) ∧ ((s.spOf p).job = some i) ∧ (s.jobOf i = some j) ∧ (due) ∧ (x.st = .stepFault) ∧ (x.held = false) ∧ (s.get f_FLT_REPLAY_CFG_AUTO = 1) ∧ (x.attempts < s.get f_FLT_REPLAY_CFG_MAX))
    ∧ (∃ s : State, ∃ p : Fin 16, ∃ i j, let x := s.partRec p; let due : Prop := x.since < s.tim.expo ∧ s.chainsEnded i = true ∧ s.partSteady p = true; (s.live = true) ∧ ((s.spOf p).job = some i) ∧ (s.jobOf i = some j) ∧ (due) ∧ (x.st = .stepFault) ∧ (x.held = false) ∧ (s.get f_FLT_REPLAY_CFG_AUTO = 0 ∨ s.get f_FLT_REPLAY_CFG_MAX ≤ x.attempts))
    ∧ (∃ s : State, ∃ p : Fin 16, (s.live = true) ∧ ((s.spOf p).job = none))
    ∧ (∃ s : State, ∃ p : Fin 16, let x := s.partRec p; let due : Prop := x.st = .stepFault ∧ x.tmo = false ∧ s.get f_FLT_REPLAY_CFG_WAIT_EXP ≤ s.tim.expo - x.since; (s.live = true) ∧ (¬due))
    ∧ (∃ s : State, ∃ p : Fin 16, let x := s.partRec p; let due : Prop := x.st = .stepFault ∧ x.tmo = false ∧ s.get f_FLT_REPLAY_CFG_WAIT_EXP ≤ s.tim.expo - x.since; (s.live = true) ∧ (due)) :=
  ⟨⟨up, 0, 0, by dsimp only; decide +kernel⟩,
   ⟨up, 0xFFF, 1, by dsimp only; decide +kernel⟩,
   ⟨up, 0x0005, 1, by dsimp only; decide +kernel⟩,
   ⟨withF { up with flt := { govCnt := 1 } } [(f_FLT_GOV_CFG_MAX, 2), (f_FLT_GOV_CFG_WINDOW_K, 1)], 0x1005, 1, by dsimp only; decide +kernel⟩,
   ⟨withF { up with flt := { govCnt := 1 } } [(f_FLT_GOV_CFG_MAX, 1), (f_FLT_GOV_CFG_WINDOW_K, 1)], 0x1005, 1, by dsimp only; decide +kernel⟩,
   ⟨up, 15, 0, by dsimp only; decide +kernel⟩,
   ⟨up, 15, 1, by dsimp only; decide +kernel⟩,
   ⟨{ up with flt := { part := [(15, { st := .stepFault })] } }, 15, 1, by dsimp only; decide +kernel⟩,
   ⟨up, 0, 0, by dsimp only; decide +kernel⟩,
   ⟨up, 0xFFF, 1, by dsimp only; decide +kernel⟩,
   ⟨up, 0x2C6, 1, by dsimp only; decide +kernel⟩,
   ⟨{ up with flt := { peers := [(4095, { pend := some 0 })] } }, by decide +kernel⟩,
   ⟨{ up with flt := { peers := [(4095, { pend := some 0 })] }, tim := { expo := 1 } }, 4095, { pend := some 0 }, 0, by decide +kernel⟩,
   ⟨{ job1 [{ id := 5 }] with sp := [(15, { job := some 5 })] }, 15, 5, { id := 5 }, by dsimp only; decide +kernel⟩,
   ⟨{ job1 [{ id := 5 }] with sp := [(15, { job := some 5 })], flt := { part := [(15, { st := .replaying, cmd := true })] }, tim := { expo := 1 } }, 15, 5, { id := 5 }, by dsimp only; decide +kernel⟩,
   ⟨withF { job1 [{ id := 5 }] with sp := [(15, { job := some 5 })], flt := { part := [(15, { st := .stepFault })] }, tim := { expo := 1 } } [(f_FLT_REPLAY_CFG_AUTO, 1), (f_FLT_REPLAY_CFG_MAX, 1)], 15, 5, { id := 5 }, by dsimp only; decide +kernel⟩,
   ⟨withF { job1 [{ id := 5 }] with sp := [(15, { job := some 5 })], flt := { part := [(15, { st := .stepFault })] }, tim := { expo := 1 } } [(f_FLT_REPLAY_CFG_AUTO, 1), (f_FLT_REPLAY_CFG_MAX, 0)], 15, 5, { id := 5 }, by dsimp only; decide +kernel⟩,
   ⟨up, 15, by decide +kernel⟩,
   ⟨up, 15, by dsimp only; decide +kernel⟩,
   ⟨{ up with flt := { part := [(15, { st := .stepFault })] }, tim := { expo := 0xFFFFFFFF } }, 15, by dsimp only; decide +kernel⟩⟩

/-- The hypotheses of AuditAndAttestation can be met, clause by clause. -/
theorem witness_AuditAndAttestation :
    (∃ s : State, (s.closeDue = false))
    ∧ (∃ s : State, (s.closeDue = true) ∧ (s.audFree ≤ s.aud.closed.length))
    ∧ (∃ s : State, (s.closeDue = true) ∧ (s.aud.closed.length < s.audFree))
    ∧ (∃ s : State, (s.aud.closed = []))
    ∧ (∃ s : State, ∃ b : AudBlk, ∃ rest : List AudBlk, (s.aud.closed = b :: rest))
    ∧ (∃ s : State, (s.live = true))
    ∧ (∃ n : Nat, (32 ≤ n))
    ∧ (∃ s : State, ∃ i : Instr, ∃ sl : Fin 8, ∃ o l : BitVec 16, (s.attests = false) ∧ (i = .getVersion ∨ i = .getCapabilities ∨ i = .negotiateAlgorithms ∨ i = .getDigests ∨ i = .getCertificate sl o l ∨ i = .spdmUnsupported))
    ∧ (∃ s : State, ∃ off : BitVec 16, (s.attests = true) ∧ (off.toNat < certChain.length))
    ∧ (∃ s : State, ∃ sl : Fin 8, ∃ off : BitVec 16, (s.attests = true) ∧ (sl ≠ 0 ∨ certChain.length ≤ off.toNat))
    ∧ (∃ s : State, ∃ sl : Fin 8, (s.attests = true) ∧ (sl ≠ 0))
    ∧ (∃ s : State, ∃ ix : BitVec 8, (s.attests = true) ∧ (ix = 0xFF ∨ ix ≤ 8))
    ∧ (∃ s : State, ∃ ix : BitVec 8, (s.attests = true) ∧ (8 < ix) ∧ (ix ≠ 0xFF))
    ∧ (∃ s : State, ∃ f : Firmware, (s.boot.run = some f))
    ∧ (∃ s : State, ∃ b, (s.aud.newest = some b)) :=
  ⟨⟨State.reset, by decide +kernel⟩,
   ⟨withF { up with aud := { blk := [[]] }, tim := { nextEdge := 2 ^ 62 } } [(f_AUD_MIRROR_CFG_SLOTS, 1), (f_AUD_MIRROR_PI_PI, 2048)], by decide +kernel⟩,
   ⟨withF { up with aud := { blk := [[]] }, tim := { nextEdge := 2 ^ 62 } } [(f_AUD_MIRROR_CFG_SLOTS, 1), (f_AUD_MIRROR_PI_PI, 2047)], by decide +kernel⟩,
   ⟨State.reset, by decide +kernel⟩,
   ⟨{ up with aud := { closed := [{}] } }, {}, [], by decide +kernel⟩,
   ⟨up, by decide +kernel⟩,
   ⟨32, by decide⟩,
   ⟨State.reset, .getCertificate 7 0 9, 7, 0, 9, by decide +kernel⟩,
   ⟨{ up with boot := { rstL := false, run := some {} } }, 0, by exact ⟨by decide +kernel, by simp [certChain]⟩⟩,
   ⟨{ up with boot := { rstL := false, run := some {} } }, 7, 0, by exact ⟨by decide +kernel, .inl (by decide)⟩⟩,
   ⟨{ up with boot := { rstL := false, run := some {} } }, 1, by decide +kernel⟩,
   ⟨{ up with boot := { rstL := false, run := some {} } }, 8, by decide +kernel⟩,
   ⟨{ up with boot := { rstL := false, run := some {} } }, 9, by decide +kernel⟩,
   ⟨{ up with boot := { rstL := false, run := some {} } }, {}, by decide +kernel⟩,
   ⟨{ up with aud := { newest := some {} } }, {}, by decide +kernel⟩⟩

/-- The hypotheses of ResetsAndStartUp can be met, clause by clause. -/
theorem witness_ResetsAndStartUp :
    (∃ a b : Bool, (a = true ∨ b = true))
    ∧ (∃ s : State, (s.boot.por = true))
    ∧ (∃ key : BitVec 16, (key ≠ 0x5A17))
    ∧ (∃ s : State, (1 < s.stage ∨ s.boot.por = true))
    ∧ (∃ s : State, (s.stage ≤ 1) ∧ (s.boot.por = false))
    ∧ (∃ s : State, (s.stage ≠ 3 ∨ s.boot.rstL = true ∨ s.boot.por = true))
    ∧ (∃ s : State, (s.stage = 3) ∧ (s.boot.rstL = false) ∧ (s.boot.por = false))
    ∧ (∃ s : State, ∃ x y : Nat × Firmware, (s.boot.flA.fw = some x) ∧ (s.boot.flB.fw = some y))
    ∧ (∃ s : State, (s.stage ≠ 4 ∨ s.boot.por = true))
    ∧ (∃ s : State, (s.stage = 4) ∧ (s.boot.por = false))
    ∧ (∃ s : State, (s.stage ≠ 5 ∨ s.boot.por = true))
    ∧ (∃ s : State, (s.stage = 5) ∧ (s.boot.por = false))
    ∧ (∃ s : State, (s.stage ≠ 6 ∨ s.boot.pick.isSome = true ∨ s.boot.por = true))
    ∧ (∃ s : State, (s.stage = 6) ∧ (s.boot.pick = none) ∧ (s.boot.por = false)) :=
  ⟨⟨true, false, by decide⟩,
   ⟨off, by decide +kernel⟩,
   ⟨0, by decide⟩,
   ⟨fld [(f_BOOT_STAGE_STAGE, 2)], by decide +kernel⟩,
   ⟨fld [(f_BOOT_STAGE_STAGE, 1)], by decide +kernel⟩,
   ⟨fld [(f_BOOT_STAGE_STAGE, 3)], by decide +kernel⟩,
   ⟨{ fld [(f_BOOT_STAGE_STAGE, 3)] with boot := { rstL := false } }, by decide +kernel⟩,
   ⟨{ State.reset with boot := { flA := { fw := some (1, {}) }, flB := { fw := some (2, { sec := 1 }) } } }, (1, {}), (2, { sec := 1 }), by decide +kernel⟩,
   ⟨State.reset, by decide +kernel⟩,
   ⟨fld [(f_BOOT_STAGE_STAGE, 4)], by decide +kernel⟩,
   ⟨State.reset, by decide +kernel⟩,
   ⟨fld [(f_BOOT_STAGE_STAGE, 5)], by decide +kernel⟩,
   ⟨fld [(f_BOOT_STAGE_STAGE, 5)], by decide +kernel⟩,
   ⟨fld [(f_BOOT_STAGE_STAGE, 6)], by decide +kernel⟩⟩

/-- The hypotheses of ImagesAndDeltas can be met, clause by clause. -/
theorem witness_ImagesAndDeltas :
    (∃ s : State, (s.boot.pick = none ∨ s.stage ≠ 6 ∨ s.boot.por = true ∨ s.flt.phase = .safelight))
    ∧ (∃ s : State, ∃ slot : Nat, ∃ g : Image, (s.boot.pick = some (slot, g)) ∧ (s.stage = 6) ∧ (s.boot.por = false) ∧ (s.flt.phase ≠ .safelight))
    ∧ (∃ s : State, ∃ f : Firmware, (s.stage = 0xF ∧ f.sigOk = true ∧ s.boot.floor ≤ f.sec ∧ s.boot.por = false))
    ∧ (∃ s : State, ∃ f : Firmware, (s.stage ≠ 0xF ∨ f.sigOk = false ∨ f.sec < s.boot.floor ∨ s.boot.por = true))
    ∧ (∃ s : State, let v := s.get f_BOOT_FLOOR_SET_VALUE; let fits : Prop := (∃ f, s.boot.run = some f ∧ v ≤ f.sec) ∧ s.img.isSome = true ∧ v ≤ s.get f_IMG_SEC_SEC_VERSION; (s.live = true) ∧ (v ≤ s.boot.floor ∨ ¬fits))
    ∧ (∃ s : State, let v := s.get f_BOOT_FLOOR_SET_VALUE; let fits : Prop := (∃ f, s.boot.run = some f ∧ v ≤ f.sec) ∧ s.img.isSome = true ∧ v ≤ s.get f_IMG_SEC_SEC_VERSION; (s.live = true) ∧ (s.boot.floor < v) ∧ (fits))
    ∧ (∃ s : State, (s.live = true) ∧ (s.stage ≠ 7 ∨ s.get f_IMG_CMD_BUSY = 1))
    ∧ (∃ s : State, ∃ g : Image, (s.live = true) ∧ (s.stage = 7) ∧ (s.get f_IMG_CMD_BUSY = 0) ∧ (s.deltaRefused g (s.get f_IMG_LEN_LEN) = none))
    ∧ (∃ s : State, ∃ g : Image, ∃ r, (s.live = true) ∧ (s.stage = 7) ∧ (s.get f_IMG_CMD_BUSY = 0) ∧ (s.deltaRefused g (s.get f_IMG_LEN_LEN) = some r))
    ∧ (∃ s : State, (s.live = true) ∧ (s.boot.delta = none ∨ s.img = none))
    ∧ (∃ s : State, ∃ d ap at_ b, (s.live = true) ∧ (s.boot.delta = some (d, ap, at_)) ∧ (s.img = some b) ∧ (s.tim.expo ≤ at_ ∨ s.tim.tick < ap))
    ∧ (∃ s : State, ∃ d ap at_ b, (s.live = true) ∧ (s.boot.delta = some (d, ap, at_)) ∧ (s.img = some b) ∧ (at_ < s.tim.expo) ∧ (ap ≤ s.tim.tick))
    ∧ (∃ s : State, ∃ d : Image, (s.live = true) ∧ (d.sections = [12]))
    ∧ (∃ s : State, let may : Prop := (s.stage = 7 ∨ s.stage = 0xE) ∧ s.get f_IMG_CMD_BUSY = 0; (s.live = true) ∧ (¬may))
    ∧ (∃ s : State, ∃ g : Image, ∃ r, let may : Prop := (s.stage = 7 ∨ s.stage = 0xE) ∧ s.get f_IMG_CMD_BUSY = 0; (s.live = true) ∧ (may) ∧ ((s.firstChecks g 1 (s.get f_IMG_LEN_LEN)).findSome? id = some r))
    ∧ (∃ s : State, ∃ g : Image, let may : Prop := (s.stage = 7 ∨ s.stage = 0xE) ∧ s.get f_IMG_CMD_BUSY = 0; (s.live = true) ∧ (may) ∧ ((s.firstChecks g 1 (s.get f_IMG_LEN_LEN)).findSome? id = none))
    ∧ (∃ s : State, (s.live = true) ∧ (s.boot.job = none))
    ∧ (∃ s : State, ∃ j, (s.live = true) ∧ (s.boot.job = some j) ∧ (j.todo = []))
    ∧ (∃ s : State, ∃ j k rest, (s.live = true) ∧ (s.boot.job = some j) ∧ (j.todo = k :: rest)) :=
  ⟨⟨State.reset, by decide +kernel⟩,
   ⟨{ fld [(f_BOOT_STAGE_STAGE, 6)] with boot := { pick := some (3, {}) } }, 3, {}, by decide +kernel⟩,
   ⟨{ fld [(f_BOOT_STAGE_STAGE, 15)] with boot := { floor := 5 } }, { sec := 5 }, by decide +kernel⟩,
   ⟨{ fld [(f_BOOT_STAGE_STAGE, 15)] with boot := { floor := 5 } }, { sec := 4 }, by decide +kernel⟩,
   ⟨up, by dsimp only; exact ⟨by decide +kernel, .inl (by decide +kernel)⟩⟩,
   ⟨{ withF up [(f_BOOT_FLOOR_SET_VALUE, 1), (f_IMG_SEC_SEC_VERSION, 1)] with img := some {}, boot := { run := some { sec := 1 } } }, by dsimp only; exact ⟨by decide +kernel, by decide +kernel, ⟨⟨{ sec := 1 }, by decide +kernel, by decide +kernel⟩, by decide +kernel, by decide +kernel⟩⟩⟩,
   ⟨State.reset, by decide +kernel⟩,
   ⟨(withF { ram with img := some {} } [(f_IMG_LEN_LEN, 576)]).setReg r_MEM_LP_MAP0 1, { typ := 2, length := 576, table := tbl [12], structEpoch := 1 }, by decide +kernel⟩,
   ⟨withF { ram with img := some {} } [(f_IMG_LEN_LEN, 512)], { magic := 0 }, (1, 0), by decide +kernel⟩,
   ⟨up, by decide +kernel⟩,
   ⟨{ up with boot := { delta := some ({}, 1, 0) }, img := some {}, tim := { expo := 1 } }, {}, 1, 0, {}, by decide +kernel⟩,
   ⟨{ up with boot := { delta := some ({}, 1, 0) }, img := some {}, tim := { expo := 1, tick := 1 } }, {}, 1, 0, {}, by decide +kernel⟩,
   ⟨up, { table := tbl [12] }, by decide +kernel⟩,
   ⟨State.reset, by dsimp only; decide +kernel⟩,
   ⟨withF { ram with img := some {} } [(f_IMG_LEN_LEN, 512)], { magic := 0 }, (1, 0), by dsimp only; decide +kernel⟩,
   ⟨withF { ram with img := some {} } [(f_IMG_LEN_LEN, 2048)], { length := 2048, table := tbl [1, 2, 3, 4, 5, 6, 7, 8, 9, 10, 11, 12] }, by dsimp only; decide +kernel⟩,
   ⟨up, by decide +kernel⟩,
   ⟨{ up with boot := { job := some {} } }, {}, by decide +kernel⟩,
   ⟨{ up with boot := { job := some { todo := [3, 1] } } }, { todo := [3, 1] }, 3, [1], by decide +kernel⟩⟩

/-- The hypotheses of PowerAndSupplies can be met, clause by clause. -/
theorem witness_PowerAndSupplies :
    (∃ s : State, (s.valid = false))
    ∧ (∃ s : State, (s.valid = true))
    ∧ (∃ s : State, ∃ locked : Bool, (s.live = true) ∧ (locked = false ∨ s.tim.expo ≤ s.pwr.since ∨ s.pwr.avsBad = true))
    ∧ (∃ s : State, (s.live = true) ∧ (s.pwr.seq = .idle ∨ s.pwr.seq = .raiseAsk ∨ s.pwr.seq = .lowerVolt))
    ∧ (∃ s : State, ∃ locked : Bool, (s.live = true) ∧ (locked = true) ∧ (s.pwr.since < s.tim.expo) ∧ (s.pwr.avsBad = false) ∧ (s.pwr.seq = .lowering))
    ∧ (∃ s : State, ∃ mv : BitVec 10, ∃ locked : Bool, let k := s.pwr.goal; let ready : Prop := opMv k ≤ mv.toNat + 10 ∧ mv.toNat ≤ opMv k + 10 ∧ s.pwr.avs = none; (s.live = true) ∧ (locked = true) ∧ (s.pwr.since < s.tim.expo) ∧ (s.pwr.avsBad = false) ∧ (s.pwr.seq = .raising) ∧ (¬ready))
    ∧ (∃ s : State, ∃ mv : BitVec 10, ∃ locked : Bool, let k := s.pwr.goal; let ready : Prop := opMv k ≤ mv.toNat + 10 ∧ mv.toNat ≤ opMv k + 10 ∧ s.pwr.avs = none; (s.live = true) ∧ (locked = true) ∧ (s.pwr.since < s.tim.expo) ∧ (s.pwr.avsBad = false) ∧ (s.pwr.seq = .raising) ∧ (ready))
    ∧ (∃ s : State, let due : Prop := s.pwr.seq = .raising ∧ s.pwr.since < s.tim.expo ∧ s.pwr.volt + s.get f_PWR_SEQ_CFG_SETTLE_US * 1000 ≤ s.tim.tb; (s.live = true) ∧ (¬due))
    ∧ (∃ s : State, let due : Prop := s.pwr.seq = .raising ∧ s.pwr.since < s.tim.expo ∧ s.pwr.volt + s.get f_PWR_SEQ_CFG_SETTLE_US * 1000 ≤ s.tim.tb; (s.live = true) ∧ (due))
    ∧ (∃ s : State, (s.live = true) ∧ (s.pwr.seq ≠ .lowerVolt))
    ∧ (∃ s : State, (s.live = true) ∧ (s.pwr.seq = .lowerVolt))
    ∧ (∃ s : State, (s.live = true) ∧ (s.pwr.tries = 0))
    ∧ (∃ s : State, (s.live = true) ∧ (s.pwr.tries ≠ 0))
    ∧ (∃ s : State, (s.boot.por = true))
    ∧ (∃ s : State, ∃ a b : Bool, (s.boot.por = false) ∧ (a = true ∨ b = true))
    ∧ (∃ s : State, ∃ v : BitVec 6, let i := s.get f_PWR_PIN_SEL_PIN; (s.live = true) ∧ (50 < v.toNat ∨ 9 ≤ i))
    ∧ (∃ s : State, ∃ v : BitVec 6, let i := s.get f_PWR_PIN_SEL_PIN; (s.live = true) ∧ (v.toNat ≤ 50) ∧ (i ≤ 8) ∧ (s.pins.units.length = 14)) :=
  ⟨⟨State.reset, by decide +kernel⟩,
   ⟨up, by decide +kernel⟩,
   ⟨{ up with pwr := { since := 1 }, tim := { expo := 1, tb := 2 ^ 40 } }, true, by decide +kernel⟩,
   ⟨{ up with pwr := { seq := .lowerVolt }, tim := { expo := 1, tb := 2 ^ 40 } }, by decide +kernel⟩,
   ⟨{ up with pwr := { seq := .lowering }, tim := { expo := 1, tb := 2 ^ 40 } }, true, by decide +kernel⟩,
   ⟨{ up with pwr := { seq := .raising, goal := 7 }, tim := { expo := 1, tb := 2 ^ 40 } }, BitVec.ofNat 10 (opMv 7 - 11), true, by dsimp only; decide +kernel⟩,
   ⟨{ up with pwr := { seq := .raising, goal := 7 }, tim := { expo := 1, tb := 2 ^ 40 } }, BitVec.ofNat 10 (opMv 7 - 10), true, by dsimp only; decide +kernel⟩,
   ⟨{ up with pwr := { seq := .raising }, tim := { expo := 0, tb := 2 ^ 40 } }, by dsimp only; decide +kernel⟩,
   ⟨{ up with pwr := { seq := .raising }, tim := { expo := 1, tb := 2 ^ 40 } }, by dsimp only; decide +kernel⟩,
   ⟨{ up with pwr := { seq := .raising }, tim := { expo := 1, tb := 2 ^ 40 } }, by decide +kernel⟩,
   ⟨{ up with pwr := { seq := .lowerVolt }, tim := { expo := 1, tb := 2 ^ 40 } }, by decide +kernel⟩,
   ⟨up, by decide +kernel⟩,
   ⟨{ up with pwr := { tries := 1 }, tim := { expo := 1, tb := 2 ^ 40 } }, by decide +kernel⟩,
   ⟨off, by decide +kernel⟩,
   ⟨up, true, false, by decide +kernel⟩,
   ⟨up.put f_PWR_PIN_SEL_PIN 9, 50, by dsimp only; decide +kernel⟩,
   ⟨up.put f_PWR_PIN_SEL_PIN 8, 50, by dsimp only; decide +kernel⟩⟩

end Sys2Proof.Tests
end

section
/-! Accesses of BAR0 that are not aligned 32-bit accesses (R10). -/
namespace Sys2Proof.Machine
open Sys2Proof

/-- R10: the direction of the access plays no part, so a refused write stores nothing. -/
theorem exec_unsupportedRequest (req : Nat) (off : BitVec 28) (size : Nat) (write : Bool) (s : State) :
    exec (.unsupportedRequest req off size write) s = .next (s.badAccess req off.toNat size) := rfl

/-- R10: neither guard that drops the access holds, so its completion is all it does. -/
theorem State.badAccess_eq_emit {s : State} {req off size : Nat} (hpor : s.boot.por = false)
    (hbad : ¬(size = 4 ∧ off % 4 = 0)) : s.badAccess req off size = s.emit (.unsupported req off) := by
  have hguard : ¬(s.boot.por = true ∨ (size = 4 ∧ off % 4 = 0)) :=
    not_or.mpr ⟨Bool.eq_false_iff.mp hpor, hbad⟩
  exact if_neg hguard

/-- Settles O7: outside power-on reset the access falls through both guards of `State.badAccess`, and `State.emit`
changes the output alone. -/
theorem unsupportedAccessHasNoEffect : Obligations.UnsupportedAccessHasNoEffect := by
  intro s req off size write hpor hbad
  rw [exec_unsupportedRequest, State.badAccess_eq_emit hpor hbad, State.emit]

end Sys2Proof.Machine
end

section
/-! A write of a sync object's configuration (R353, R362). -/
namespace Sys2Proof.Machine
open Sys2Proof

/-! What a command of a live block and a field written from a word do. -/

theorem whenLive_of_live {s : State} (hlive : s.live = true) (f : State → State) : whenLive s f = f s :=
  if_pos hlive

theorem State.get_put_bits (s : State) (f : FRef) (x : Nat) (hf : f.fits = true) :
    (s.put f (bits x f.hi f.lo)).get f = bits x f.hi f.lo :=
  (s.get_put_same f _ hf).trans (Nat.mod_eq_of_lt (bits_lt x f.hi f.lo))

theorem State.synVal_put_of_ne (s : State) (f : FRef) (v o : Nat) (hlo : r_SYN_OBJ_VALUE_LO o ≠ f.off)
    (hhi : r_SYN_OBJ_VALUE_LO o + 4 ≠ f.off) : (s.put f v).synVal o = s.synVal o := by
  rw [State.synVal, State.synVal, State.reg64, State.reg64, s.reg_put_ne f v _ hlo, s.reg_put_ne f v _ hhi]

@[simp] theorem State.synObj_put (s : State) (f : FRef) (v j : Nat) : (s.put f v).synObj j = s.synObj j := rfl

/-! The record of a sync object beside its registers: storing it changes this record alone. -/

@[simp] theorem State.synObj_setSynObj_same (s : State) (o : Nat) (x : SynObj) : (s.setSynObj o x).synObj o = x := by
  rw [State.synObj, State.setSynObj, sget_sset_same]

theorem State.synObj_setSynObj_ne (s : State) {o j : Nat} (x : SynObj) (h : j ≠ o) :
    (s.setSynObj o x).synObj j = s.synObj j := by
  rw [State.synObj, State.setSynObj, sget_sset_ne _ _ _ _ _ h, State.synObj]

@[simp] theorem State.get_setSynObj (s : State) (o : Nat) (x : SynObj) (f : FRef) : (s.setSynObj o x).get f = s.get f := rfl

@[simp] theorem State.synVal_setSynObj (s : State) (o : Nat) (x : SynObj) (j : Nat) :
    (s.setSynObj o x).synVal j = s.synVal j := rfl

theorem State.onlyIn_setSynObj (s : State) (o : Nat) (x : SynObj) (p : Parts) (h : p.syn = true) :
    s.onlyIn (s.setSynObj o x) p := by
  simp [State.onlyIn, State.setSynObj, h]

/-! The three fields of SYN_OBJ_CFG: each reads back what was written, and VALUE stays. -/

/-- VALUE is the first two words of an object's 16 bytes and the configuration the third, so no VALUE word of any object
is a configuration word of any object. -/
theorem r_SYN_OBJ_VALUE_ne_r_SYN_OBJ_CFG (j o : Nat) :
    r_SYN_OBJ_VALUE_LO j ≠ r_SYN_OBJ_CFG o ∧ r_SYN_OBJ_VALUE_LO j + 4 ≠ r_SYN_OBJ_CFG o := by
  unfold r_SYN_OBJ_VALUE_LO r_SYN_OBJ_CFG
  omega

theorem State.synVal_put_of_off_eq_r_SYN_OBJ_CFG (s : State) {f : FRef} {o : Nat} (v j : Nat) (hf : f.off = r_SYN_OBJ_CFG o) :
    (s.put f v).synVal j = s.synVal j := by
  obtain ⟨hlo, hhi⟩ := r_SYN_OBJ_VALUE_ne_r_SYN_OBJ_CFG j o
  exact s.synVal_put_of_ne f v j (hf ▸ hlo) (hf ▸ hhi)

/-- The register part of `State.synConfig`: the three fields of the configuration, from the word that is written. -/
def State.putSynCfg (s : State) (o v : Nat) : State :=
  ((s.put (f_SYN_OBJ_CFG_ENABLE o) (bits v 0 0)).put (f_SYN_OBJ_CFG_BARRIER o) (bits v 1 1)).put (f_SYN_OBJ_CFG_EXPECT o) (bits v 21 2)

theorem State.synConfig_eq (s : State) (o v : Nat) : s.synConfig o v = (s.putSynCfg o v).setSynObj o {} := rfl

@[simp] theorem State.synObj_putSynCfg (s : State) (o v j : Nat) : (s.putSynCfg o v).synObj j = s.synObj j := rfl

@[simp] theorem State.synVal_putSynCfg (s : State) (o v j : Nat) : (s.putSynCfg o v).synVal j = s.synVal j := by
  unfold State.putSynCfg
  rw [State.synVal_put_of_off_eq_r_SYN_OBJ_CFG (o := o) _ _ _ rfl, State.synVal_put_of_off_eq_r_SYN_OBJ_CFG (o := o) _ _ _ rfl,
    State.synVal_put_of_off_eq_r_SYN_OBJ_CFG (o := o) _ _ _ rfl]

/-- The two fields written after ENABLE lie above bit 0. -/
@[simp] theorem State.get_ENABLE_putSynCfg (s : State) (o v : Nat) :
    (s.putSynCfg o v).get (f_SYN_OBJ_CFG_ENABLE o) = bits v 0 0 := by
  unfold State.putSynCfg
  rw [State.get_put_disj _ _ _ _ rfl rfl (.inr (.inr Nat.two_pos)), State.get_put_disj _ _ _ _ rfl rfl (.inr (.inr Nat.one_pos))]
  exact State.get_put_bits _ (f_SYN_OBJ_CFG_ENABLE o) v rfl

@[simp] theorem State.get_BARRIER_putSynCfg (s : State) (o v : Nat) :
    (s.putSynCfg o v).get (f_SYN_OBJ_CFG_BARRIER o) = bits v 1 1 := by
  unfold State.putSynCfg
  rw [State.get_put_disj _ _ _ _ rfl rfl (.inr (.inr Nat.one_lt_two))]
  exact State.get_put_bits _ (f_SYN_OBJ_CFG_BARRIER o) v rfl

@[simp] theorem State.get_EXPECT_putSynCfg (s : State) (o v : Nat) :
    (s.putSynCfg o v).get (f_SYN_OBJ_CFG_EXPECT o) = bits v 21 2 :=
  State.get_put_bits _ (f_SYN_OBJ_CFG_EXPECT o) v rfl

theorem State.onlyIn_putSynCfg (s : State) (o v : Nat) (p : Parts) (h : p.regs = true) : s.onlyIn (s.putSynCfg o v) p :=
  State.onlyIn_trans (State.onlyIn_trans (s.onlyIn_put _ _ p h) (State.onlyIn_put _ _ _ p h)) (State.onlyIn_put _ _ _ p h)

/-! The command. -/

theorem exec_synObjConfig_of_live (o : Fin 8192) (v : BitVec 32) {s : State} (hlive : s.live = true) :
    exec (.synObjConfig o v) s = .next ((s.putSynCfg o v.toNat).setSynObj o {}) :=
  congrArg _ (whenLive_of_live hlive fun s => s.synConfig o v.toNat)

/-- Settles O43: the configuration fields are the only register bits written, which VALUE is none of, and the empty record
takes the place of the object's own record alone. -/
theorem syncConfigurationClearsArrivals : Obligations.SyncConfigurationClearsArrivals := by
  intro s o v hlive
  refine ⟨_, exec_synObjConfig_of_live o v hlive, ?_⟩
  have hrecord : ((s.putSynCfg o v.toNat).setSynObj o {}).synObj o = {} := State.synObj_setSynObj_same _ _ _
  refine ⟨congrArg SynObj.arrived hrecord, hrecord, ?value, rfl, ?enable, ?barrier, ?expect, ?others, ?frame⟩
  case value => rw [State.synVal_setSynObj, State.synVal_putSynCfg]
  case enable => rw [State.get_setSynObj, State.get_ENABLE_putSynCfg]
  case barrier => rw [State.get_setSynObj, State.get_BARRIER_putSynCfg]
  case expect => rw [State.get_setSynObj, State.get_EXPECT_putSynCfg]
  case others =>
    intro j hj
    rw [State.synObj_setSynObj_ne _ _ hj, State.synObj_putSynCfg]
  case frame => exact State.onlyIn_trans (s.onlyIn_putSynCfg o _ _ rfl) (State.onlyIn_setSynObj _ _ _ _ rfl)

end Sys2Proof.Machine
end

section
/-! The calendar shaper of an egress queue (R444), and the queue after its egress starts a frame (R441). -/
namespace Sys2Proof.Machine
open Sys2Proof

/-! Division rounded to nearest, ties to even: with q the quotient and r the remainder, it answers q where r is below half the
divisor, q + 1 where it is above, and the even one of the two at half. -/

theorem rneDiv_below {n d : Nat} (h : 2 * (n % d) < d) : rneDiv n d = n / d := by
  have hnot : ¬ 2 * (n % d) > d := by omega
  simp [rneDiv, h, hnot]

theorem rneDiv_above {n d : Nat} (h : d < 2 * (n % d)) : rneDiv n d = n / d + 1 := by
  simp [rneDiv, h]

theorem rneDiv_half {n d : Nat} (h : 2 * (n % d) = d) : rneDiv n d = n / d + n / d % 2 := by
  simp [rneDiv, h]

/-- `q` is a whole number nearest to n / d, and the even one where two are: R444's RNE, stated without division. -/
def NearestEven (n d q : Nat) : Prop :=
  2 * q * d ≤ 2 * n + d ∧ 2 * n ≤ 2 * q * d + d ∧ (2 * q * d = 2 * n + d ∨ 2 * n = 2 * q * d + d → q % 2 = 0)

theorem nearestEven_rneDiv (n : Nat) {d : Nat} (hd : 0 < d) : NearestEven n d (rneDiv n d) := by
  have hdiv : d * (n / d) + n % d = n := Nat.div_add_mod n d
  have hrem : n % d < d := Nat.mod_lt n hd
  have hscale (q : Nat) : 2 * q * d = 2 * (d * q) := by rw [Nat.mul_assoc, Nat.mul_comm q d]
  have hnext : d * (n / d + 1) = d * (n / d) + d := Nat.mul_succ d (n / d)
  unfold NearestEven
  rw [hscale]
  obtain hlow | hhalf | hhigh := Nat.lt_trichotomy (2 * (n % d)) d
  · rw [rneDiv_below hlow]
    omega
  · rw [rneDiv_half hhalf]
    obtain heven | hodd := Nat.mod_two_eq_zero_or_one (n / d)
    · rw [heven, Nat.add_zero]
      omega
    · rw [hodd]
      omega
  · rw [rneDiv_above hhigh]
    omega

/-! What the mark of the highest levels leaves of a queue, and what the calendar shaper changes when a frame starts. -/

@[simp] theorem TmQ.mark_items (x : TmQ) (now : Nat) : (x.mark now).items = x.items := by unfold TmQ.mark; split <;> rfl
@[simp] theorem TmQ.mark_shaper (x : TmQ) (now : Nat) : (x.mark now).shaper = x.shaper := by unfold TmQ.mark; split <;> rfl
@[simp] theorem TmQ.mark_rate (x : TmQ) (now : Nat) : (x.mark now).rate = x.rate := by unfold TmQ.mark; split <;> rfl
@[simp] theorem TmQ.mark_burst (x : TmQ) (now : Nat) : (x.mark now).burst = x.burst := by unfold TmQ.mark; split <;> rfl
@[simp] theorem TmQ.mark_elig (x : TmQ) (now : Nat) : (x.mark now).elig = x.elig := by unfold TmQ.mark; split <;> rfl

theorem TmQ.elig_sent_of_calendar {x : TmQ} (hshaper : x.shaper = 2) (e len now : Nat) :
    (x.sent e len now).elig = max x.elig (now - x.burst) + rneDiv (len * 8000) (max 1 x.rate) := by
  simp [TmQ.sent, hshaper]

theorem State.tmEligible_of_calendar {s : State} {e : Nat} {x : TmQ} {it : TmItem} {rest : List TmItem}
    (hshaper : x.shaper = 2) (hitems : x.items = it :: rest) :
    s.tmEligible e x = true ↔ x.elig ≤ s.now ∧ ∀ k, it.load = .pkt k → s.maySend (e - 32) k = true := by
  cases hload : it.load <;> simp [State.tmEligible, hshaper, hitems, hload]

/-! The queues under the operations of an egress. -/

@[simp] theorem State.tmQ_setTmQ_same (s : State) (e i : Nat) (x : TmQ) : (s.setTmQ e i x).tmQ e i = x :=
  sget_sset_same _ _ _ _

@[simp] theorem State.tmQ_atNs (s : State) (t e i : Nat) : (s.atNs t).tmQ e i = s.tmQ e i := rfl

/-- R435: the correction of a forwarded message touches the status registers and the frame. -/
@[simp] theorem State.correct_tm (s : State) (f : EthFrame) (egress : Int) : (s.correct f egress).1.tm = s.tm := by
  unfold State.correct
  split
  · dsimp only
    split_ifs <;> rfl
  · rfl

/-- R441: the queue that the egress serves has started its head and holds the frames behind it. -/
theorem State.tmQ_tmSelect_of_frame {s : State} {e i : Nat} (egress : Nat) {it : TmItem} {rest : List TmItem} {f : EthFrame}
    (hpick : s.tmPick e = some i) (hitems : (s.tmQ e i).items = it :: rest) (hload : it.load = .frame f) :
    (s.tmSelect e egress).tmQ e i = { ((s.tmQ e i).mark s.now).sent e it.len s.now with items := rest } := by
  have hmark : ((s.tmQ e i).mark s.now).items = it :: rest := (TmQ.mark_items _ _).trans hitems
  simp only [State.tmSelect, hpick, hmark, hload]
  rw [State.tmQ, State.emit_tm, State.correct_tm]
  split_ifs <;> exact State.tmQ_setTmQ_same s e i _

theorem exec_tmSelect_of_pick (e : Fin 56) {egress i : Nat} {s : State} (hlive : s.live = true)
    (hpick : (s.atNs (egress / 65536)).tmPick e = some i) :
    exec (.tmSelect e egress) s = .next ((s.atNs (egress / 65536)).tmSelect e egress) := by
  have hsome : ((s.atNs (egress / 65536)).tmPick e).isSome = true := Option.isSome_of_eq_some hpick
  refine congrArg _ ((whenLive_of_live hlive _).trans ?_)
  exact if_pos hsome

/-- Settles O50: the shaper's own test is the time of E, to which only a packet adds the credits; a frame that starts adds to E
the rounded time of its bits, which rounding to nearest even bounds on both sides. -/
theorem calendarShaper : Obligations.CalendarShaper := by
  refine ⟨?eligible, ?start⟩
  case eligible =>
    intro s e x it rest hshaper hitems
    have helig := State.tmEligible_of_calendar (s := s) (e := e) hshaper hitems
    refine ⟨fun hnoPkt => ?_, fun k hpkt => ?_⟩
    · simpa [hnoPkt] using helig
    · simpa [hpkt] using helig
  case start =>
    intro s e egress i it rest f hlive u x hpick hitems hload hshaper hrate
    refine ⟨_, exec_tmSelect_of_pick e hlive hpick, rneDiv (it.len * 8000) x.rate, ?_, nearestEven_rneDiv _ hrate⟩
    have hmark : (x.mark u.now).shaper = 2 := (TmQ.mark_shaper _ _).trans hshaper
    have hqueue := State.tmQ_tmSelect_of_frame egress hpick hitems hload
    calc ((u.tmSelect e egress).tmQ e i).elig
        = ((x.mark u.now).sent e it.len u.now).elig := (congrArg TmQ.elig hqueue :)
      _ = max x.elig (u.now - x.burst) + rneDiv (it.len * 8000) (max 1 x.rate) := by
          simp only [TmQ.elig_sent_of_calendar hmark, TmQ.mark_elig, TmQ.mark_burst, TmQ.mark_rate]
      _ = max x.elig (u.now - x.burst) + rneDiv (it.len * 8000) x.rate := by rw [Nat.max_eq_right hrate]

end Sys2Proof.Machine
end
